-- ==== Sys2Proof/Word.lean ====
section
/-! DEFINITION. The word types of the KTA-8160 manual (R7) and their plainest arithmetic. -/

namespace Sys2Proof

/-- A word is 32 bits (R7). -/
abbrev Word := BitVec 32

/-- A byte; multi-word structures are little-endian (R7). -/
abbrev Byte := BitVec 8

/-- The bit field `[hi:lo]` of a word as a number (R7). -/
def Word.field (w : Word) (hi lo : Nat) : Nat :=
  (w.toNat / 2 ^ lo) % 2 ^ (hi + 1 - lo)

/-- The word with its bit field `[hi:lo]` replaced by `v`, taken modulo the field's width (R7). -/
def Word.setField (w : Word) (hi lo v : Nat) : Word :=
  let width := hi + 1 - lo
  let old := (w.toNat / 2 ^ lo) % 2 ^ width
  BitVec.ofNat 32 (w.toNat - old * 2 ^ lo + (v % 2 ^ width) * 2 ^ lo)

/-- Bit `i` of a word. -/
def Word.bit (w : Word) (i : Nat) : Bool := w.getLsbD i

/-- A number as a word, modulo 2^32. -/
def wordOf (n : Nat) : Word := BitVec.ofNat 32 n

/-- A number as a byte, modulo 256. -/
def byteOf (n : Nat) : Byte := BitVec.ofNat 8 n

/-- A count that saturates at `2^bits - 1`: the manual's "saturating" counters. -/
def satAdd (bits a b : Nat) : Nat := min (a + b) (2 ^ bits - 1)

/-- `ceil (a / b)`, with `ceil (a / 0) = 0`. -/
def ceilDiv (a b : Nat) : Nat := (a + b - 1) / b

/-- The four bytes of a word, lowest address first (R7). -/
def Word.bytes (w : Word) : List Byte :=
  [byteOf w.toNat, byteOf (w.toNat / 256), byteOf (w.toNat / 65536), byteOf (w.toNat / 16777216)]

/-- A little-endian run of bytes as a number (R7). -/
def natOfBytes : List Byte → Nat
  | [] => 0
  | b :: bs => b.toNat + 256 * natOfBytes bs

/-- The `n` bytes of a number, lowest address first (R7). -/
def bytesOfNat : (n : Nat) → Nat → List Byte
  | 0, _ => []
  | n + 1, v => byteOf v :: bytesOfNat n (v / 256)

/-- The words of a run of bytes; a short last word is filled with zeros. -/
def wordsOfBytes : List Byte → List Word
  | a :: b :: c :: d :: bs => wordOf (natOfBytes [a, b, c, d]) :: wordsOfBytes bs
  | [] => []
  | bs => [wordOf (natOfBytes bs)]

/-- Word `i` of a list of words, 0 where the list is shorter. -/
def wordAt (ws : List Word) (i : Nat) : Word := ws.getD i 0

end Sys2Proof
end

