-- ==== Sys2Proof/Syntax.lean ====
section
/-! DEFINITION. The commands of the KTA-8160: one constructor of `Instr` for each row of the table of
operations and events, and the operand types the constructors carry.  Field names are the manual's. -/

namespace Sys2Proof

/-- A clause as a newel issues it (Table 2-6): gallery, unit, seat slot (0x3FF = several), fetch window
(0xFFFF none), stream (0 F, 1 B, 2 U) and the occupancy the compiler declared. -/
structure Issue where
  gal : BitVec 3
  unit : BitVec 4
  seat : BitVec 10
  window : BitVec 16
  stream : BitVec 2
  occ : BitVec 16
  deriving DecidableEq, Repr

/-- The MM descriptor of Table 5-7, with the codebooks its CB_A_OFF and CB_B_OFF name in the descriptor
pool (`cbA`, `cbB`; used when ACB or BCB is 0). -/
structure MmDesc where
  shape : BitVec 3
  acc : BitVec 2
  ovf : Bool
  rpl : Bool
  accInit : Bool
  write : Bool
  scaleSrc : BitVec 2
  infl : BitVec 2
  accBase : BitVec 6
  afmt : BitVec 4
  asgn : Bool
  atrn : Bool
  aexp : Bool
  acb : Bool
  amode : Bool
  bfmt : BitVec 4
  bsgn : Bool
  btrn : Bool
  bexp : Bool
  bcb : Bool
  aOff : Word
  bOff : Word
  aPitch : BitVec 16
  bPitch : BitVec 16
  k32 : BitVec 16
  kOff32 : BitVec 24
  dOff : Word
  dPitch : BitVec 16
  wfmt : BitVec 4
  dmode : Bool
  calEn : Bool
  calSlot : BitVec 8
  scaleReg : BitVec 12
  scaleOff : Word
  inflOff : Word
  inflStride : BitVec 16
  inflCh0 : BitVec 16
  ypreOff : Word
  gaccBase : BitVec 6
  gblk : BitVec 6
  gk0 : BitVec 12
  statusOff : Word
  rg : List (BitVec 10)
  cbAOff : Word
  cbBOff : Word
  cbA : List Word
  cbB : List Word
  deriving DecidableEq, Repr

/-- The SCALE_LOAD descriptor of Table 5-8. -/
structure ScaleLoadDesc where
  reg0 : BitVec 12
  count : BitVec 13
  srcOff : Word
  deriving DecidableEq, Repr

/-- The ACC_SAVE and ACC_RESTORE descriptor of Table 5-8. -/
structure AccMoveDesc where
  accBase : BitVec 6
  len : BitVec 7
  spOff : Word
  deriving DecidableEq, Repr

/-- One operand of a VU descriptor (Tables 7-1 and 7-2). -/
structure VuOperand where
  off : Word
  fmt : BitVec 4
  ctx : Bool
  trn : Bool
  bcast : BitVec 2
  pitch : BitVec 24
  deriving DecidableEq, Repr

/-- The common words 0 to 15 of a VU descriptor (Table 7-1), the OP left to the constructor. -/
structure VuDesc where
  ovf : Bool
  calEn : Bool
  calSlot : BitVec 8
  axis : BitVec 2
  func : BitVec 4
  rows : BitVec 16
  cols : BitVec 16
  statusOff : Word
  x : VuOperand
  y : VuOperand
  z : VuOperand
  d : VuOperand
  deriving DecidableEq, Repr

/-- Words 16 to 18 of INFL (R205); `rgmap` is the row-group map RGMAP_OFF names in the descriptor pool. -/
structure InflWords where
  inflOff : Word
  inflStride : BitVec 16
  inflCh0 : BitVec 16
  rgmap : List (BitVec 16)
  deriving DecidableEq, Repr

/-- Words 16 to 21 of SIGN_UPDATE (Table 9-3). -/
structure SignWords where
  recIn : Word
  recOut : Word
  gpOff : Word
  group : BitVec 8
  layer : BitVec 12
  normOff : Word
  sumOff : Word
  deriving DecidableEq, Repr

/-- Words 16 to 25 of COMPRESS and EXPAND (Table 7-5), with the row-group map and the slice table that
RGMAP_OFF and SLICE_OFF name in the descriptor pool. -/
structure RouteWords where
  kc : BitVec 8
  e : BitVec 8
  e0 : BitVec 16
  cap16 : BitVec 16
  ocap16 : BitVec 16
  bufStride : Word
  ovfOff : Word
  mapOff : Word
  omapOff : Word
  rgmap : List (BitVec 16)
  slices : List (BitVec 16)
  expSrc : Bool
  deriving DecidableEq, Repr

/-- Words 16 to 21 of SOLVE_SPD (R212). -/
structure SolveWords where
  n : BitVec 16
  r : BitVec 16
  damp : Bool
  thresh : Word
  lambda : Word
  wsOff : Word
  lOff : Word
  deriving DecidableEq, Repr

/-- The ISU descriptor of Table 9-6; `named` says that slot entries name the clause (R87). -/
structure IsuDesc where
  amode : Bool
  afx : BitVec 4
  group : BitVec 8
  layer : BitVec 12
  params : Word
  gAddr64 : Word
  recIn64 : Word
  recOut64 : Word
  pub64 : Word
  normOff : Word
  sumOff : Word
  named : Bool
  deriving DecidableEq, Repr

/-- The transfer descriptor of Table 10-5; `named` says that slot entries name the clause (R88).  `drops` are flits of a WINDOW_FILL that do not
arrive whole: (flit index, cause of Table 11-4); [] for any other. -/
structure XferDesc where
  hmode : BitVec 2
  smodeCtx : Bool
  obj : BitVec 5
  rowBytes : Word
  rows : BitVec 16
  hbmLo : Word
  hbmHi : Word
  hbmPitch : Word
  spOff : Word
  spPitch : Word
  indexOff : Word
  window : BitVec 16
  stemProj : BitVec 16
  named : Bool
  drops : List (Nat × BitVec 2)
  deriving DecidableEq, Repr

/-- The fabric transfer descriptor of Table 11-2 with the path its slot entries give it (Table 11-1), and
the flits that do not arrive whole: (flit index, cause of Table 11-4). -/
structure FabDesc where
  smodeCtx : Bool
  dmodeCtx : Bool
  dkind : BitVec 2
  srcOff : Word
  dstOff : Word
  bytes : Word
  path : BitVec 3
  src : BitVec 3
  dst : BitVec 3
  cls : BitVec 3
  drops : List (Nat × BitVec 2)
  deriving DecidableEq, Repr

/-- A submission entry (Tables 12-4 and 12-6): the words of the entry but its OPCODE, which the constructor
gives.  `rsv0` is word 0 [23:16], `w3` word 3, `ops` words 4 to 15 (a missing word is 0). -/
structure Entry where
  seq : BitVec 16
  rsv0 : BitVec 8
  handle : Word
  tag : Word
  w3 : Word
  ops : List Word
  deriving DecidableEq, Repr

/-- Where an SPDM or MCTP request comes from: the DOE mailbox of a function, or the service port (R391). -/
inductive SpdmPort where
  | doe (fn : BitVec 6)
  | service
  deriving DecidableEq, Repr

/-- What start-up finds outside the device (R456): the blocks that fail self-test as
(domain of ERR_LAST, gallery, unit), the drives as (port, identify result 0 good / 1 failed / 2 no 4 KiB
format, trained width, capacity in MiB), whether the boot memory and the MRAM answer, whether the MRAM is too small, whether the PUF
derives the key of certificate 2, and whether PERST_N is released. -/
structure StartObs where
  selfTestFails : List (BitVec 4 × BitVec 3 × BitVec 5)
  drives : List (BitVec 3 × BitVec 2 × BitVec 3 × BitVec 34)
  bootPresent : Bool
  mramOk : Bool
  mramSmall : Bool := false
  pufOk : Bool
  pufCause : BitVec 1
  linkUp : Bool
  deriving DecidableEq, Repr

/-- A fetched object's name: a lexicon object, or the projection of a stem slot (R303). -/
inductive ObjRef where
  | lex (id : BitVec 24)
  | stem (slot : BitVec 1) (proj : BitVec 16)
  deriving DecidableEq, Repr

/-- What a page of HBM holds: the rows of Table 15-2. -/
inductive PageKind where
  | stemShard (slot : BitVec 1) (proj : BitVec 16)
  | servingObject (id : BitVec 24)
  | trainingObject (id : BitVec 24)
  | kvOrActivation (handle : BitVec 16)
  | windowPage (page : BitVec 32)
  | lexiconCopy
  | ringMirror
  | flightImage
  | freeFrame
  deriving DecidableEq, Repr

/-- Which calibration register CAL_CONFIG_WRITE writes (R133). -/
inductive CalReg where
  | window
  | cfg (slot : BitVec 8)
  deriving DecidableEq, Repr

/-- Which counter register CNT_CFG_WRITE writes (R485). -/
inductive CntReg where
  | cfg | filt | addrBase | addrLimit
  deriving DecidableEq, Repr

/-- Which CNT_BW LO register is read (R489). -/
inductive BwReg where
  | tx | rx
  deriving DecidableEq, Repr

/-- The commands: one constructor for each row of the table of operations and events. -/
inductive Instr where
  -- ticks, landings and their windows
  | landing
  | calWindowClose (gal : BitVec 3)
  | bwWindowClose
  | tickOverrunEnd (cycles : BitVec 32)
  | replayLimit
  | refresh (stack : BitVec 4) (pc : BitVec 6) (cycle : BitVec 16)
  -- matrix units
  | mm (c : Issue) (d : MmDesc)
  | scaleLoad (c : Issue) (d : ScaleLoadDesc)
  | accSave (c : Issue) (d : AccMoveDesc)
  | accRestore (c : Issue) (d : AccMoveDesc)
  -- vector units
  | map (c : Issue) (d : VuDesc)
  | add (c : Issue) (d : VuDesc)
  | sub (c : Issue) (d : VuDesc)
  | mul (c : Issue) (d : VuDesc)
  | max (c : Issue) (d : VuDesc)
  | min (c : Issue) (d : VuDesc)
  | fma (c : Issue) (d : VuDesc)
  | infl (c : Issue) (d : VuDesc) (w : InflWords)
  | signUpdate (c : Issue) (d : VuDesc) (w : SignWords)
  | rsum (c : Issue) (d : VuDesc)
  | rsumsq (c : Issue) (d : VuDesc)
  | rmax (c : Issue) (d : VuDesc)
  | rmin (c : Issue) (d : VuDesc)
  | topk (c : Issue) (d : VuDesc)
  | xred (c : Issue) (d : VuDesc) (accIn : Bool)
  | xcomb (c : Issue) (d : VuDesc) (accIn : Bool)
  | compress (c : Issue) (d : VuDesc) (w : RouteWords)
  | expand (c : Issue) (d : VuDesc) (w : RouteWords)
  | solveSpd (c : Issue) (d : VuDesc) (w : SolveWords)
  -- in-stack update engines
  | update (c : Issue) (d : IsuDesc)
  | publish (c : Issue) (d : IsuDesc)
  -- transfers
  | read (c : Issue) (d : XferDesc)
  | write (c : Issue) (d : XferDesc)
  | gather (c : Issue) (d : XferDesc)
  | windowFill (c : Issue) (d : XferDesc)
  | send (c : Issue) (d : FabDesc)
  -- faults
  | parityError (domain : BitVec 4) (gal : BitVec 3) (unit : BitVec 5) (where_ : BitVec 4) (cycle : BitVec 16)
  | hbmUncorrectable (stack : BitVec 4) (addr : BitVec 36) (kind : PageKind) (cycle : BitVec 16)
  | hbmCorrected (stack : BitVec 4)
  | poisonRepair (stack : BitVec 4) (page : BitVec 24) (clean : Bool)
  -- fetches, residency, checkpoints
  | windowDeadlineMiss (gal : BitVec 3) (window : BitVec 16)
  | fetchArrival (gal : BitVec 3) (window : BitVec 16) (tier : BitVec 2) (port : BitVec 3) (data : List Byte)
  | shardArrival (obj : ObjRef) (shard : BitVec 12) (data : List Byte)
  | shardAttemptTimeout (obj : ObjRef) (shard : BitVec 12)
  | objectActivate (id : BitVec 24)
  | evictionComplete (id : BitVec 24)
  | checkpointStart (id : BitVec 24) (group : BitVec 8)
  | checkpointComplete (id : BitVec 24) (ok : Bool)
  | stepApplyStart (id : BitVec 24)
  | gateTimeout (id : BitVec 24)
  -- flights
  | flightLoad (pair : BitVec 3)
  | flightCopyComplete
  | flightAdmissionComplete
  | flightSwitchDrain (pair : BitVec 3) (drainTicks : BitVec 16)
  | flightSwitchImmediate (pair : BitVec 3)
  | flightSwitchApply
  | drainTicksExpire
  -- tick-sync
  | tickSync (widthNs : BitVec 32) (intervalNs : BitVec 32) (phaseCycles : BitVec 32)
  | tckSyncCtrlWrite (value : Word)
  | syncHoldover
  | syncFreerun
  | syncOutOfWindow
  -- submission entries
  | create (ring : BitVec 14) (e : Entry)
  | bind (ring : BitVec 14) (e : Entry)
  | admitReq (ring : BitVec 14) (e : Entry)
  | destroy (ring : BitVec 14) (e : Entry)
  | trainBatch (ring : BitVec 14) (e : Entry)
  | trainStep (ring : BitVec 14) (e : Entry)
  | trainGate (ring : BitVec 14) (e : Entry)
  | lexCreate (ring : BitVec 14) (e : Entry)
  | lexDelete (ring : BitVec 14) (e : Entry)
  | lexQuery (ring : BitVec 14) (e : Entry)
  | lexConvert (ring : BitVec 14) (e : Entry)
  | affixClaim (ring : BitVec 14) (e : Entry)
  | affixRelease (ring : BitVec 14) (e : Entry)
  | resStore (ring : BitVec 14) (e : Entry)
  | resPrefetch (ring : BitVec 14) (e : Entry)
  | resEvict (ring : BitVec 14) (e : Entry)
  | resRetry (ring : BitVec 14) (e : Entry)
  | nop (ring : BitVec 14) (e : Entry)
  -- rings and the host window
  | doorbell (fn : BitVec 6) (page : BitVec 14) (tail : BitVec 16) (seqLast : BitVec 16)
  | dbTimeoutExpire (ring : BitVec 14)
  | hostReadTimeout (ring : BitVec 14)
  | cqHeadWrite (fn : BitVec 6) (page : BitVec 14) (head : BitVec 16)
  | globalObservation (handle : BitVec 16)
  | hostWriteTimeout (handle : BitVec 16) (code : BitVec 32)
  | windowWrite (fn : BitVec 6) (off : BitVec 40) (cxlMem : Bool) (data : List Byte)
  | inputWrite (fn : BitVec 6) (off : BitVec 40) (cxlMem : Bool) (data : List Byte)
  | ringCreate (fn : BitVec 6)
  | ringDestroy (fn : BitVec 6)
  | ringResume (fn : BitVec 6)
  | attach (fn : BitVec 6)
  | detach (fn : BitVec 6)
  | heartbeatWrite (fn : BitVec 6) (beat : Word)
  | heartbeatTimeout (fn : BitVec 6)
  | hostLinkReset
  | perstNDeassert
  -- instances and migration
  | instanceReset (inst : BitVec 6)
  | pause (inst : BitVec 6)
  | instancePaused (inst : BitVec 6)
  | freeze (inst : BitVec 6)
  | thaw (inst : BitVec 6)
  | save (inst : BitVec 6)
  | saveComplete (inst : BitVec 6)
  | restore (inst : BitVec 6)
  | restoreComplete (inst : BitVec 6)
  | logStart (inst : BitVec 6)
  | logStop (inst : BitVec 6)
  -- gate registers and stem slots
  | lexGateGo (fn : BitVec 6)
  | lexGateSkip (fn : BitVec 6)
  | stemLoad (slot : BitVec 1)
  | stemSwitch (slot : BitVec 1)
  | stemRolling (slot : BitVec 1)
  | stemUnload (slot : BitVec 1)
  | stemReady (slot : BitVec 1)
  | stemDrained (slot : BitVec 1)
  | stemRetired (slot : BitVec 1)
  -- keys
  | keyProvision (fn : BitVec 6) (session : BitVec 8) (slot : BitVec 16) (epoch : Word)
      (nonce : BitVec 256) (wrapped : List Byte) (mac : List Byte)
  | keyRevoke (fn : BitVec 6) (session : BitVec 8) (slot : BitVec 16) (nonce : BitVec 256) (mac : List Byte)
  | tenantReport (fn : BitVec 6) (session : BitVec 8) (slot : BitVec 16) (nonce : BitVec 256)
      (start : BitVec 24) (mac : List Byte)
  | epochRetired (slot : BitVec 16)
  | epochKeyDestroy (slot : BitVec 16)
  | forceRetire
  | clear
  | zeroise (key : Word)
  | debugUnlock
  | setTarget (inst : BitVec 6)
  | import_ (inst : BitVec 6)
  -- SPDM, IDE and DOE
  | getVersion (port : SpdmPort)
  | getCapabilities (port : SpdmPort)
  | negotiateAlgorithms (port : SpdmPort) (baseAsym : Word) (baseHash : Word)
  | getDigests (port : SpdmPort)
  | getCertificate (port : SpdmPort) (slot : BitVec 8) (offset : BitVec 16) (length : BitVec 16)
  | challenge (port : SpdmPort) (slot : BitVec 8) (nonce : BitVec 256)
  | getMeasurements (port : SpdmPort) (session : BitVec 8) (index : BitVec 8) (signed : Bool) (nonce : BitVec 256)
  | keyExchange (port : SpdmPort) (random : BitVec 256) (exchange : List Byte)
  | finish (port : SpdmPort) (session : BitVec 8) (verifyData : List Byte)
  | heartbeat (port : SpdmPort) (session : BitVec 8)
  | keyUpdate (port : SpdmPort) (session : BitVec 8) (operation : BitVec 8)
  | endSession (port : SpdmPort) (session : BitVec 8)
  | chunkSend (port : SpdmPort) (chunkSeq : BitVec 16) (last : Bool) (data : List Byte)
  | chunkGet (port : SpdmPort) (chunkSeq : BitVec 16)
  | ideKm (session : BitVec 8) (stream : BitVec 8) (secure : Bool)
  | doeDiscovery (fn : BitVec 6) (index : BitVec 8)
  | cxlTableAccess (fn : BitVec 6) (entryHandle : BitVec 16)
  -- power states and resets
  | park (mask : BitVec 8)
  | unpark (mask : BitVec 8)
  | unparkComplete (gal : BitVec 3) (fails : List (BitVec 4 × BitVec 5))
  | enterP3
  | enterP4
  | rstPackage (key : Word)
  | rstGallery (mask : BitVec 8)
  | powerOnReset
  | startUp (obs : StartObs)
  -- feeds, power and clocks
  | feedEntersWarn (feed : BitVec 1) (dv : BitVec 12)
  | feedEntersLow (feed : BitVec 1) (dv : BitVec 12)
  | feedEntersRejected (feed : BitVec 1) (dv : BitVec 12)
  | feedEntersOk (feed : BitVec 1) (dv : BitVec 12)
  | feedEntersAbsent (feed : BitVec 1) (dv : BitVec 12)
  | feedRejectRelease (feed : BitVec 1) (dv : BitVec 12)
  | feedReturn
  | feedForce
  | feedWarningCapEnd
  | lossTimerExpire
  | powerWindow (avgW : BitVec 16)
  | powerReadingUpdate (avg25 : BitVec 8) (max25 : BitVec 8) (jmax : BitVec 8) (die : BitVec 4)
  | junctionAboveThr (die : BitVec 4) (temp : BitVec 8)
  | thermalShutdown (die : BitVec 4) (temp : BitVec 8)
  | clockLost
  -- drives
  | driveInserted (port : BitVec 3) (identify : BitVec 2) (width : BitVec 3) (capMib : BitVec 34)
  | driveRemoved (port : BitVec 3)
  | driveLinkLost (port : BitVec 3)
  -- the black box
  | bbxRecordWritten (ok : Bool)
  | bbxIndexWrite (index : BitVec 15)
  | bbxDataReady
  -- calibration slots and counters
  | calConfigWrite (gal : BitVec 3) (reg : CalReg) (value : Word)
  | cntOwnWrite (j : BitVec 2) (value : Word)
  | cntCfgWrite (fn : BitVec 6) (reg : CntReg) (value : Word)
  | cntClr (fn : BitVec 6)
  | cntHold (hold : Bool)
  | cntBwCfgWrite (value : Word)
  -- latching reads
  | cntSnapTickLoRead (fn : BitVec 6)
  | tckCountLoRead (fn : BitVec 6)
  | galCalElemLoRead (fn : BitVec 6) (gal : BitVec 3) (slot : BitVec 8)
  | devAcctCycLoRead (fn : BitVec 6)
  | devEngLoRead (fn : BitVec 6) (n : BitVec 6)
  | errLastTickLoRead (fn : BitVec 6)
  | bbxSeqLoRead (fn : BitVec 6)
  | cntBwLoRead (fn : BitVec 6) (reg : BwReg)
  -- the service port
  | entdaa (addr : BitVec 7)
  | svcSclLowTimeout
  | setEndpointId (eid : BitVec 8)
  | getEndpointId
  | getVersionSupport (msgType : BitVec 8)
  | getMessageTypeSupport
  | getVendorDefinedMessageSupport (selector : BitVec 8)
  | getTid
  | setTid (tid : BitVec 8)
  | getPldmVersion (pldmType : BitVec 8)
  | getPldmTypes
  | getPldmCommands (pldmType : BitVec 8)
  | requestUpdate
  | passComponentTable (components : List (BitVec 16))
  | updateComponent (component : BitVec 16) (size : Word)
  | requestFirmwareData (offset : Word) (data : List Byte)
  | verifyComplete
  | applyComplete
  | activateFirmware
  | status
  | wake
  | bbxRead (index : BitVec 15)
  | bbxInfo
  -- JTAG
  | jtagTrst
  | bypass
  | idcode
  | samplePreload
  | extest
  -- registers, supply and link
  | registerWrite (fn : BitVec 6) (off : BitVec 28) (value : Word)
  | standbySupplyLost
  | hostLinkTrains (rate : BitVec 4) (width : BitVec 5) (cxl : Bool)
  deriving DecidableEq, Repr

end Sys2Proof
end

