-- ==== Sys2Proof/Decode.lean ====
section
/-! DEFINITION. The decoder over the rows of the command table that give bits.  No row gives any: the device is a
block that takes commands on its registers, rings, ports and pins, and the table states no encoding for one. -/

namespace Sys2Proof

/-- The command a word of the table's bits spells: none, since the table gives no row bits (its corners, DESIGN CHOICE: log entry 108). -/
def decodeTableWord (_nbits _w : Nat) : Option Instr := none

end Sys2Proof
end

