-- ==== Sys2Proof/Config.lean ====
section
/-! DEFINITION. What the manual leaves open or names only by an outside standard, as constants with no body (DESIGN CHOICE: log
entry 8): values of which nothing is provable, applied to the operands they depend on or to the model's counter of
free values. -/

namespace Sys2Proof.Config

/-- The n-th free number: a value the manual leaves open, drawn at the counter `n`. -/
opaque freeNat : Nat → Nat

/-- A free word. -/
def freeWord (n : Nat) : Word := BitVec.ofNat 32 (freeNat n)

/-- The FP32 encoding a value operation takes from an exact accumulator image it loads as an element: the manual
names no value for it. -/
opaque imageElem : Nat → Nat

/-- The verify data of an SPDM session's FINISH from (session key, message) (R391, PRESUMED: log entry 44). -/
opaque mac : Nat → List Byte → List Byte

/-- Key derivation whose procedure the manual does not give, of (secret, context): session keys, job keys. -/
opaque kdf : Nat → List Byte → Nat

/-- A signature of (private key, message). -/
opaque sign : Nat → List Byte → List Byte

/-- The modulus of the device encryption key that the physical unclonable function gives (R385). -/
opaque dekModulus : Nat

/-- The private exponent of the device encryption key (R385). -/
opaque dekExponent : Nat

/-- The public key of a device key. -/
opaque publicKey : Nat → List Byte

/-- The DER certificate chain that the identity region of the boot memory holds (R386). -/
opaque certChain : List Byte → List Byte

/-- The device identity key the physical unclonable function gives. -/
opaque deviceKey : Nat

/-- The SHA-256 digests of the firmware keys that the ROM holds (R388). -/
opaque romKeys : List (List Byte)

/-- What a debug unlock token that carries the Luanum debug key and whose signature verifies names (R407): the digest of
a DIK public key and a nonce. -/
opaque debugToken : List Byte → Option (List Byte × List Byte)

/-- What a target statement whose chain reaches the Luanum root and whose signature verifies says (R404): the SVN, block
6, the provisioning nonce and the modulus of the DEK, highest byte first. -/
opaque targetStatement : List Byte → Option (Nat × Word × List Byte × List Byte)

/-- The power model (R444): the least factor in 256ths that keeps a set of flights, named by their digests, each with the parent and the mask of its variant, under an out mask, within a cap in W; above 320
where no factor to 320 does. -/
opaque powerFactor : List Word → Nat → Nat → Nat

/-- A device constant the manual leaves to the part, by name and index: a free number. -/
opaque partConst : Nat → Nat → Nat

end Sys2Proof.Config
end

