-- ==== Sys2Proof/Machine/State.lean ====
section
/-! DEFINITION. The state of the KTA-8160 as plain data.  Every register the manual maps lives in `regs`, keyed
by copy and BAR0 offset; every memory is a sparse map in canonical form; everything the manual gives the
device beside registers and memories has a field of its own. -/

namespace Sys2Proof.Machine

/-- A sparse map: pairs of key and value, keys strictly rising, no value equal to what an unlisted key reads as. -/
abbrev SMap (β : Type) := List (Nat × β)

/-- A byte memory: a sparse map whose unlisted addresses read 0 (DESIGN CHOICE: log entry 1). -/
abbrev Mem := SMap Byte

/-- Why the device stops.  Nothing the manual describes ends here: every refusal and fault of the manual is a
status, an event or a state of the device, and the step that raises it answers a next state. -/
inductive Fault where
  /-- Raised by no command: a clause whose address lies past the end of a space is refused at admission (check 0x07, R509) and no newel issues it
  (R22). -/
  | noSuchAddress
  deriving DecidableEq, Repr

/-- Why a command is refused. -/
inductive Refusal where
  /-- Raised by an arm of `exec` whose meaning is not written.  Safe. -/
  | notModelled (mnemonic : String)
  deriving DecidableEq, Repr

/-- The memories of the package.
`sp` scratchpad, key 2^28 g + offset; `hbm` program space, key 2^36 stack + stack-local address (R89);
`acc` accumulator storage, key 2^19 (16 g + m) + byte; `scale` scale registers, key 2^12 (16 g + m) + register;
`staging` hall staging; `host` host memory; `flash` the flash tier; `boot` the boot memory; `mram` the black-box
MRAM; `ctx` request contexts, key 2^32 (2 (8 handle + g) + half) + offset; `win`, `winM` the window's home and
mirror copies; `obj` object frames, key 2^30 (4 (8 id + g) + plane) + offset with plane 0 and 1 the parameter
planes and 2 the gradient workspace; `req` KV (0) and activation (1) frames, key 2^40 (2 (8 handle + g) + kind) +
offset; `slot` affix slots, key 2^30 (4 slot + plane) + offset with planes as in `obj`; `hdr` and `hdrM` the copies of the header store on S1 and S9,
key 4096 id + offset (R287); `seen`, `seenM` the window copies at the last
landing, which the debug aperture reads (R347). -/
structure Mems where
  sp : Mem
  hbm : Mem
  acc : Mem
  scale : SMap Word
  staging : Mem
  host : Mem
  flash : Mem
  boot : Mem
  mram : Mem
  ctx : Mem
  win : Mem
  winM : Mem
  obj : Mem
  req : Mem
  slot : Mem
  hdr : Mem
  hdrM : Mem
  seen : Mem
  seenM : Mem
  deriving DecidableEq, Repr

/-! ### Flights (Tables 2-2 to 2-16) -/

/-- A clause entry (Table 2-6). -/
structure Clause where
  start : Nat
  kind : Nat
  unit : Nat
  desc : Nat
  occ : Nat
  seat : Nat
  region : Nat
  window : Nat
  rsv : Nat
  deriving DecidableEq, Repr

/-- One gallery's clause block: the F-, B- and U-stream lists. -/
structure Block where
  gal : Nat
  f : List Clause
  b : List Clause
  u : List Clause
  deriving DecidableEq, Repr

/-- A fabric slot table entry (Table 11-1). -/
structure FabSlot where
  start : Nat
  path : Nat
  src : Nat
  dst : Nat
  cls : Nat
  count : Nat
  job : Nat
  stream : Nat
  clause : Nat
  first : Nat
  rsv : Nat
  deriving DecidableEq, Repr

/-- An HBM slot table entry (Table 3-7). -/
structure HbmSlot where
  start : Nat
  kind : Nat
  gal : Nat
  stack : Nat
  pc : Nat
  count : Nat
  stream : Nat
  clause : Nat
  rsv : Nat
  deriving DecidableEq, Repr

/-- A fetch window entry (Table 2-7). -/
structure FetchWin where
  inst : Nat
  gal : Nat
  window : Nat
  start : Nat
  deadline : Nat
  maxBytes : Nat
  sources : Nat
  rsv : Nat
  deriving DecidableEq, Repr

/-- A claim entry (Table 2-10). -/
structure Claim where
  kind : Nat
  where_ : Nat
  unit : Nat
  amount : Nat
  base : Nat
  rsv : Nat
  deriving DecidableEq, Repr

/-- A seat template (Table 2-8); `variant` is the section's. -/
structure Template where
  variant : Nat
  cls : Nat
  stream : Nat
  gal : Nat
  slot : Nat
  tid : Nat
  program : Nat
  route : Nat
  stage : Nat
  overflow : Bool
  tokens : Nat
  seqLog2 : Nat
  rsv : Nat
  deriving DecidableEq, Repr

/-- A route entry (Table 2-9). -/
structure Route where
  route : Nat
  cls : Nat
  stages : Nat
  deadline : Nat
  rsv : Nat
  deriving DecidableEq, Repr

/-- A variant entry (Table 2-11). -/
structure Variant where
  id : Nat
  kind : Nat
  gal : Nat
  parent : Nat
  seats : Nat
  rsv : Nat
  deriving DecidableEq, Repr

/-- A partition entry (Table 2-16). -/
structure Partition where
  id : Nat
  inst : Nat
  dies : Nat
  slice : Nat
  rsv : Nat
  deriving DecidableEq, Repr

/-- One tick program of the base flight or of a variant, with its claims. -/
structure Program where
  variant : Nat
  index : Nat
  galMask : Nat
  blocks : List Block
  fabric : List FabSlot
  hbm : List HbmSlot
  fetch : List FetchWin
  claims : List Claim
  deriving DecidableEq, Repr

/-- A flight image as the device holds it: the header's fields, the sections as tables, the descriptor pool
and the SHA-256 digest of the signed message (R42). -/
structure Flight where
  contract : Nat
  descVer : Nat
  programs : Nat
  periodQ : Nat
  galMask : Nat
  flightId : Word
  progs : List Program
  templates : List Template
  routes : List Route
  variants : List Variant
  partitions : List Partition
  pool : List Byte
  digest : List Word
  deriving DecidableEq, Repr

/-- A turn of partitions (R71): the ticks of the time slice that have run, and the place of the partition whose slice it is. -/
structure Turn where
  slice : Nat
  part : Nat
  deriving DecidableEq, Repr

/-- A flight slot pair (R49, R53, R70): the ACTIVE and STAGED images, the running program's index, and the turns of the partitions on the
first and on the second gallery of a pair (DESIGN CHOICE: log entry 42). -/
structure FlightSlots where
  active : Option Flight
  staged : Option Flight
  pos : Nat
  turn0 : Turn
  turn1 : Turn
  deriving DecidableEq, Repr

/-- A load in progress (R48): the pair field, the address and the length as the FLT_LOAD_CTRL write found them (DESIGN CHOICE: log entry 47), the bytes
copied, whether the copy has ended, and whether the checks have. -/
structure Load where
  pair : Nat
  addr : Nat
  len : Nat
  bytes : List Byte
  copied : Bool
  checked : Bool
  deriving DecidableEq, Repr

/-- A switch that is pending (R50 to R54); `now` once its condition was found to hold, so that the next landing that commits applies it. -/
structure Switch where
  pair : Nat
  immediate : Bool
  drainTicks : Nat
  counted : Nat
  now : Bool
  deriving DecidableEq, Repr

/-- What the flight controls hold: the version 3 slots, the four pairs' slots, the load, and the switches pending, one of a PAIR at a time (R54,
R70). -/
structure Flights where
  v3 : FlightSlots
  pairs : List FlightSlots
  load : Option Load
  switches : List Switch
  deriving DecidableEq, Repr

/-! ### Ticks, seats and what waits for a commit -/

/-- A seat bound for the current tick (R59, R366): gallery, slot, template, the request's handle index, its
instance, the template's cost, whether it is a pool seat, whether it is deferred, stream and class. -/
structure Seat where
  gal : Nat
  slot : Nat
  tid : Nat
  handle : Nat
  inst : Nat
  cost : Nat
  pool : Bool
  deferred : Bool
  overflow : Bool
  stream : Nat
  cls : Nat
  deriving DecidableEq, Repr

/-- What an update's norm area or step summary holds in the running pass (R269): the request, the gallery, the area's
context offset, whether it is a norm area, the layer or group, and its words. -/
structure AreaSum where
  handle : Nat
  gal : Nat
  off : Nat
  norm : Bool
  index : Nat
  words : List Word
  deriving DecidableEq, Repr

/-- What a clause of the tick has done that counts only when its seat commits (R131, R166, R211, R269). -/
inductive Pend where
  | sat (gal mu handle groups : Nat)
  | rpl (gal mu handle groups : Nat)
  | cal (gal slot : Nat) (handle : Option Nat) (sat elem : Nat)
  | spill (gal vu handle spilled dropped : Nat) (wroteOverflow : Bool)
  | solve (gal vu : Nat) (handle : Option Nat) (singular damped : Bool)
  | area (a : AreaSum)
  deriving DecidableEq, Repr

/-- The tick clock and the verdict marks.  `now` counts units of 250/256 ns; `period` is a tick period that holds from the next tick (step 6 of
R27). -/
structure Ticks where
  running : Bool
  count : BitVec 64
  replay : Bool
  replayNext : Bool
  lateMark : Bool
  now : Nat
  lastStretch : Option Nat
  period : Option Nat
  seats : List Seat
  tickStem : List Nat
  pend : List Pend
  lateWindows : List (Nat × Nat)
  deriving DecidableEq, Repr

/-- Tick-sync beside its registers: pulses accepted in a row, whether there is an accepted pulse to measure from, the last interval measured
in ns, and when EV_SYNC_OUT_OF_WINDOW was last raised (R67, R69). -/
structure Sync where
  accepted : Nat
  measured : Bool
  lastNs : Nat
  lastWindowEvent : Option Nat
  deriving DecidableEq, Repr

/-! ### Events and records -/

/-- An event (R12, R14): code, instance concerned, payload words, and the instances it goes to beside the
physical function. -/
structure Event where
  code : Nat
  inst : Option Nat
  payload : List Word
  dests : List Nat
  deriving DecidableEq, Repr

/-- A completion record (Table 12-8), its PHASE left to the ring that posts it. -/
structure Record where
  status : Nat
  opcode : Nat
  seq : Nat
  handle : Word
  tag : Word
  path : Nat
  flags : Nat
  tick : BitVec 64
  field : Nat
  detail : Nat
  outBytes : Nat
  result : List Word
  deriving DecidableEq, Repr

/-- A black-box record waiting in the 64-record buffer (Table 15-7). -/
structure BbxRecord where
  seq : BitVec 64
  tick : BitVec 64
  rclass : Nat
  inst : Nat
  code : Nat
  payload : List Byte
  deriving DecidableEq, Repr

/-- What the device sends out of the package: an MSI-X message, the answer to a register read, a message on a
DOE mailbox or on the service port, the answer of JTAG. -/
inductive Out where
  | msix (fn vector : Nat)
  | readData (fn off : Nat) (value : Word)
  | spdm (port : SpdmPort) (code : Nat) (body : List Byte)
  | mctp (code : Nat) (body : List Byte)
  | tdo (value : Word)
  | doe (fn proto : Nat) (body : List Byte)
  deriving DecidableEq, Repr

/-! ### Rings, handles and requests -/

/-- A ring (Table 12-3): where its SQ and CQ lie, the position of the next entry the device reads, the doorbell's TAIL,
the CQ's positions, the records held for want of CQ space, and the re-reads of a mismatched entry. -/
structure Ring where
  state : Nat
  kind : Nat
  inst : Nat
  sqHost : Bool
  cqHost : Bool
  depthLog2 : Nat
  vector : Nat
  sqAddr : Nat
  cqAddr : Nat
  sqPos : Nat
  tail : Nat
  cqPos : Nat
  cqHead : Nat
  held : List Record
  mismatch : Option Nat
  readTimeout : Bool
  posted : Bool
  heldEv : List (List Word)
  deriving DecidableEq, Repr

/-- A handle (Table 12-12): state 0 FREE, 1 CREATED, 2 BOUND, 3 BUSY. -/
structure Handle where
  state : Nat
  gen : Nat
  route : Nat
  lexId : Nat
  noInfl : Bool
  eng : Nat
  freeing : Bool
  deriving DecidableEq, Repr

/-- A tracked request (Table 12-13): state 0 PARKED, 1 ADMITTED, 2 SEATED, 3 DONE, 4 FAILED; `told` is the tick of ADMITTED that its record tells when
the request was restored from a save image (R343, R378). -/
structure Request where
  handle : Nat
  gen : Nat
  inst : Nat
  ring : Nat
  seq : Nat
  opcode : Nat
  tag : Word
  state : Nat
  status : Nat
  route : Nat
  cls : Nat
  stages : Nat
  stage : Nat
  deadline : Nat
  admitted : BitVec 64
  told : Option (BitVec 64)
  lexId : Option Nat
  affixes : List Nat
  plane : Nat
  stem : Nat
  tokens : Nat
  inOff : Nat
  inBytes : Nat
  outWin : Nat
  outHost : Nat
  outBytes : Nat
  path : Nat
  flags : Nat
  half : Nat
  committed : Nat
  deferredLast : Bool
  mark : Bool
  kv : List Nat
  act : List Nat
  sums : List AreaSum
  waits : List Nat
  frozen : Bool
  ending : Option Nat
  endTick : BitVec 64
  detail : Nat := 0
  dataVisible : Bool
  step : Nat
  pass : Nat
  wait : Nat
  record : Option Record
  deriving DecidableEq, Repr

/-- A management-queue command a function has issued and the next landing decides (R360). -/
structure Mgq where
  fn : Nat
  op : Nat
  args : List Word
  deriving DecidableEq, Repr

/-- What phase B of a landing writes to the reserved space of S0 and of S8: ring state, tracking entries, records held (R426). -/
structure HostCopy where
  rings : SMap Ring
  reqs : List Request
  records : List (Nat × BitVec 64 × Record)
  deriving DecidableEq, Repr

/-- The rings, handles and requests, their two copies in reserved space (R426), the entries that take effect in phase D, the command records that post
at a later landing, the ring engine's per-instance position, and the resizes and the operations of DEV_INST_CTRL (instance, OP) that the next
landing decides, in the order in which they were queued (R27). -/
structure HostSide where
  rings : SMap Ring
  handles : SMap Handle
  reqs : List Request
  mirror : List HostCopy
  entries : List (Nat × Nat × Entry)
  cmdRecords : List (Nat × BitVec 64 × Record)
  readCount : SMap Nat
  lastRing : SMap Nat
  mgq : List Mgq
  resizeQ : List Nat
  instOps : List (Nat × Nat)
  linkUp : Bool
  immutable : List (Nat × Nat × Nat)
  evLost : List Nat
  deriving DecidableEq, Repr

/-! ### The lexicon, objects, training, stems -/

/-- A source entry of a manifest (Table 10-4). -/
structure Source where
  type : Nat
  addr : Nat
  deriving DecidableEq, Repr

/-- A shard entry of a manifest (Table 10-4). -/
structure Shard where
  shard : Nat
  home : Nat
  srcCount : Nat
  tiered : Bool
  coding : Nat
  layout : Nat
  quant : Nat
  targetOff : Nat
  bytes : Nat
  stored : Nat
  k32 : Nat
  cols : Nat
  scaleOff : Nat
  cbOff : Nat
  srcFirst : Nat
  digest : List Word
  deriving DecidableEq, Repr

/-- A manifest (Tables 10-3 and 10-4). -/
structure Manifest where
  kind : Nat
  shards : List Shard
  sources : List Source
  deriving DecidableEq, Repr

/-- The progress of one shard's fetch (R303): attempts ended, whether it is verified, the digest of its placed
bytes, ST_KEY_RETIRED where every failed attempt had that cause, else another cause, when the attempt in progress began in units of `Ticks.now`, the bytes of it that earlier
ticks' budgets covered (R294), and whether attempt 1 came from another gallery. -/
structure ShardState where
  shard : Nat
  attempts : Nat
  verified : Bool
  digest : List Word
  cause : Nat
  inFlight : Bool
  epoch : Nat
  since : Nat
  got : Nat
  near : Bool
  deriving DecidableEq, Repr

/-- A lexicon entry (Table 8-11), with the object's manifest, its fetch and the frames it holds; `first` is the record's first page as last verified, by
which an entry with no page in the header store is judged (R239, R240); `converted` says that LEX_CONVERT has changed the
record from what the manifest's sources hold. -/
structure LexEntry where
  kind : Nat
  state : Nat
  inst : Nat
  form : Nat
  hdrOk : Bool
  gen : Nat
  keySlot : Nat
  pins : Nat
  pages : Nat
  manifest : Nat
  place : Word
  slotted : Bool
  slot : Nat
  lastLanding : BitVec 64
  stemDigest : List Word
  man : Option Manifest
  shards : List ShardState
  frames : List Nat
  evictDue : Option Nat
  evictCause : Nat
  forced : Bool
  deleting : Bool
  convert : Option Nat
  converted : Bool
  awaits : Bool
  epochPages : List (Nat × Nat)
  recDigest : List Word
  first : List Byte
  deriving DecidableEq, Repr

/-- An affix slot (R232): its owner's handle index, its generation, the affix it holds. -/
structure AffixSlot where
  owner : Option Nat
  gen : Nat
  lexId : Nat
  releasing : Bool
  deriving DecidableEq, Repr

/-- One parameter group of a training object (Table 9-2). -/
structure Group where
  policy : Nat
  mirror : Bool
  partner : Nat
  eta : Word
  lambda : Word
  beta1 : Word
  beta2 : Word
  clip : Word
  holdTicks : Nat
  ckptSteps : Nat
  ckptStep : Nat
  params : Nat
  gradKib : Nat
  deriving DecidableEq, Repr

/-- What the gate summed for a group: the exact G2 and its FP32 rounding, κ, and the two counts. -/
structure GroupSum where
  g2 : Word
  kappa : Word
  nonfin : Nat
  updated : Nat
  deriving DecidableEq, Repr

/-- A page of a checkpoint copy: the epoch, write counter and tag of its trailer (R402), and, where CKHOST placed the copy in host memory, its address
there (R375). -/
structure CkptPage where
  epoch : Nat
  ctr : Nat
  tag : List Byte
  host : Option Nat
  deriving DecidableEq, Repr

/-- A training object (R248 to R255): state 0 OPEN, 1 CLOSED, 2 APPLYING, 3 REAPPLYING, 4 HELD.  Its two checkpoint copies by
their flash offsets, the copy each group's next checkpoint goes to, the (group, copy) pairs that are valid (R277), and for the checkpoint under way its group and
plane, the step whose plane it writes, the bytes still to move, the pages already written, and
with CKHOST = 1 its place in host memory with the flash offset that stands there (R278, R294, R375).  `kept` and `member` are the groups, and the group of each projection
or matrix, that a conversion to serving form took from the record (R262). -/
structure TrainObj where
  step : Nat
  state : Nat
  groups : List Group
  cur : Nat
  sums : List GroupSum
  flags : Nat
  holdLeft : Nat
  gate : Option Nat
  ckptCopies : List Nat
  ckptNext : List Nat
  ckptValid : List (Nat × Nat)
  ckptActive : Option (Nat × Nat)
  ckptFrom : Nat
  ckptLeft : Nat
  ckptWrote : Nat
  ckptTo : Option (Nat × Nat)
  ckptQueue : List Nat
  ckptTrailers : SMap CkptPage
  mirrorStale : Bool
  dirty : Bool
  kept : List Group
  member : List Nat
  deriving DecidableEq, Repr

/-- A projection entry of a stem (Table 8-2), with its manifest and the manifest's first page in the manifest store (R19). -/
structure StemProj where
  layer : Nat
  proj : Nat
  expert : Nat
  gal : Nat
  outCh : Nat
  inCh32 : Nat
  code : Nat
  sgn : Bool
  exp : Bool
  codeOff : Nat
  scaleOff : Nat
  cbOff : Nat
  digest : List Word
  man : Option Manifest
  page : Nat
  deriving DecidableEq, Repr

/-- A stem slot (Table 8-13): state 0 EMPTY, 1 LOADING, 2 READY, 3 ACTIVE, 4 RETIRING, 5 DRAINING, 6 FAILED;
`inPlace` marks a LOADING under ROLLING, `next` the image that replaces the slot's stem. -/
structure StemSlot where
  state : Nat
  inPlace : Bool
  digest : List Word
  stemId : Word
  words34 : List Word
  projs : List StemProj
  compat : List (List Word)
  shards : List (Nat × ShardState)
  quantSat : Nat
  switching : Bool
  next : Option (List Byte)
  deriving DecidableEq, Repr

/-- A window fill on its way (R295): gallery, window, instance, the request's handle index, the WINDOW_FILL descriptor that fixes its bytes, the
window's SOURCES and DEADLINE_CYCLE, the bytes in the fetch buffer, and the bytes that earlier ticks' budgets covered. -/
structure Fill where
  gal : Nat
  window : Nat
  inst : Nat
  handle : Nat
  desc : XferDesc
  sources : Nat
  deadline : Nat
  got : Nat
  data : List Byte
  present : Bool
  deriving DecidableEq, Repr

/-- Frames of a gallery's pool that a reservation holds (R285): kind 0 an object, 1 a request, 2 a window range, with its id or handle
index or instance, the first frame and their number. -/
structure Placed where
  gal : Nat
  kind : Nat
  id : Nat
  first : Nat
  count : Nat
  deriving DecidableEq, Repr

/-- The lexicon and residency part of the state: the entries, and the two copies of their sixteen words on S0 and S1 and on S8 and S9 (R236); slots,
training objects and stems; the fills under way; the bytes charged to each instance's fetch budget in the tick (R294); the frames of the pool;
the lines that the memory-side caches hold, key 2^20 (32 gallery + way) + set with the line's number + 1 (R288); the capacity in MiB of each drive in use,
by its port (R292). -/
structure LexSide where
  lex : SMap LexEntry
  lexCopies : List (SMap (List Word))
  slots : SMap AffixSlot
  train : SMap TrainObj
  stems : List StemSlot
  fills : List Fill
  fetched : SMap Nat
  placed : List Placed
  cache : SMap Nat
  driveMib : SMap Nat
  deriving DecidableEq, Repr

/-! ### Instances -/

/-- The save image of an instance (R376), as the records it carries. -/
structure Image where
  inst : Nat
  flightId : Word
  stemDigest : List Word
  resources : List Word
  handles : SMap Handle
  reqs : List Request
  rings : SMap Ring
  lex : SMap LexEntry
  slots : SMap AffixSlot
  immutable : List (Nat × Nat × Nat)
  train : SMap TrainObj
  credit : Int
  eng : Nat
  remaining : List (Nat × Int)
  frames : Nat
  format : Nat
  key : BitVec 256
  mem : Mems
  valid : Bool
  deriving DecidableEq, Repr

/-- An instance beside its registers (R367 to R381): credit, engine time, attachment token, the landing that
froze it, the resource writes that form its resize (R364), the save or restore in progress and its migration key (R404), whether the image to
be restored has been read, how often its requests waited for a seat (R60), the bytes of the image still to move (R376, R377), and whether the
key is that of an accepted target (R404). -/
structure Inst where
  credit : Int
  eng : Nat
  token : Option (BitVec 64)
  frozenAt : BitVec 64
  resize : List (Nat × Word)
  migKey : Option (BitVec 256)
  stopped : Bool
  restored : Bool
  reset : Bool
  beat : Nat
  logPages : List (Nat × Bool)
  logSeq : Nat
  waited : Nat
  imgLeft : Nat
  migOut : Bool
  deriving DecidableEq, Repr

/-! ### Keys, sessions and updates -/

/-- A tenant key slot (Table 14-6): state 0 EMPTY, 1 ACTIVE, 2 ROTATING; `condemned` holds each key kept after a
forced retirement until no read under it is in flight, and `destroyed` the epochs whose keys a forced retirement destroyed (R398, R399). -/
structure KeySlot where
  state : Nat
  cur : Word
  prev : Word
  keyCur : BitVec 256
  keyPrev : BitVec 256
  ctrCur : BitVec 64
  ctrPrev : BitVec 64
  condemned : List (Word × BitVec 256)
  destroyed : List Word
  deriving DecidableEq, Repr

/-- A copy of the sealed key table in the boot memory: its sequence number, the digest of the owner key that its storage key derives from, the
NEXT_OWNER that owner named, none or one digest, and the table (R389, R401, R460). -/
structure SealedCopy where
  seq : Nat
  owner : List Word
  next : List Word
  keys : SMap KeySlot
  deriving DecidableEq, Repr

/-- A change of a key slot that the next landing applies (R396, R398, R400). -/
inductive KeyOp where
  | provision (slot : Nat) (epoch : Word) (key : BitVec 256) (fn session : Nat)
  | revoke (slot cause fn session : Nat)
  | forceRetire (slot : Nat)
  deriving DecidableEq, Repr

/-- An SPDM session (R391). -/
structure Session where
  port : SpdmPort
  id : Nat
  established : Bool
  key : BitVec 256
  updates : Nat
  deriving DecidableEq, Repr

/-- A provisioning nonce that is not yet used (R393). -/
structure Nonce where
  port : SpdmPort
  session : Nat
  value : BitVec 256
  issued : Nat
  deriving DecidableEq, Repr

/-- The security processor's state: the key table, the changes the next landing applies (R396), the two sealed copies of the table in the
boot memory (R401, R460), the owner in force and the digest it names in NEXT_OWNER (R389), the cause of a PUF FAIL (R387), SPDM sessions, nonces and messages (R391, R393), IDE streams
(R405), the seeds of the job keys of the version 3 flight and of each pair (R319), what the configuration block says, the public DIK,
measurement blocks 7 to 10 at the last landing, and the digests of blocks 2 and 4 (R392). -/
structure Trust where
  keys : SMap KeySlot
  keyOps : List KeyOp
  copy0 : Option SealedCopy
  copy1 : Option SealedCopy
  owner : List Word
  nextOwner : List Word
  pufCause : Nat
  sessions : List Session
  nonces : List Nonce
  chunk : List (SpdmPort × Nat × List Byte)
  answers : List (SpdmPort × List Byte)
  negotiated : List (SpdmPort × Word × Word)
  ideStreams : List (Nat × Bool)
  jobSeeds : List Nat
  flightKeys : List (List Byte)
  debugTokens : Bool
  dik : List Byte
  measured : List (List Byte)
  fwDigest : List Word
  cfgDigest : List Word
  deriving DecidableEq, Repr

/-- What start-up chose from the boot memory: the header of the firmware that runs (none in recovery), the words of the
configuration block in force (none when unconfigured), and the slot of the SIGNER 0 block it derives from (R462, R466). -/
structure Boot where
  fw : List Word
  cfg : List Word
  cfgSource : Nat
  deriving DecidableEq, Repr

/-- The service port and a PLDM update (R470 to R474). -/
structure Service where
  dynAddr : Option (BitVec 7)
  eid : BitVec 8
  tid : BitVec 8
  updating : Bool
  components : List Nat
  component : Option Nat
  size : Nat
  received : List Byte
  verified : Bool
  slot : Nat
  wakeReady : Bool
  deriving DecidableEq, Repr

/-- The JTAG port (R506): the instruction in force, whether the TAP is held in reset, whether lands are driven. -/
structure Jtag where
  inReset : Bool
  ir : Nat
  driving : Bool
  deriving DecidableEq, Repr

/-! ### Faults, power, counters -/

/-- A poisoned page (R421, R422). -/
structure Poison where
  stack : Nat
  page : Nat
  kind : PageKind
  deriving DecidableEq, Repr

/-- A fence queued for a landing: domain, gallery, unit; `late` when it was queued during a landing and so waits for
the next one (R25, R418). -/
structure Fence where
  domain : Nat
  gal : Nat
  unit : Nat
  late : Bool
  deriving DecidableEq, Repr

/-- Fault history: (domain, gallery, unit, tick) of each fault within the sliding window (R418), the distinct
uncorrectable bursts (stack, burst, tick), the fences queued, the pages awaiting repair, each frame withheld as (gallery, frame), and
the pages to poison with whether they wait for the landing after the next. -/
structure Faults where
  log : List (Nat × Nat × Nat × BitVec 64)
  bursts : List (Nat × Nat × BitVec 64)
  fences : List Fence
  poison : List Poison
  withheld : List (Nat × Nat)
  toPoison : List (Poison × Bool)
  deriving DecidableEq, Repr

/-- The black box beside its registers and its MRAM. -/
structure Bbx where
  queue : List BbxRecord
  nextSeq : BitVec 64
  lostMark : Nat
  reading : Bool
  deriving DecidableEq, Repr

/-- A change of the parked set that waits for a landing: galleries to park, or a gallery to return with what failed its self-test, by domain and unit
(R449). -/
inductive ParkAct where
  | park (mask : Nat)
  | unpark (gal : Nat) (fails : List (Nat × Nat))
  deriving DecidableEq, Repr

/-- Supplies, clocks and resets beside their registers: the feed switches closed (R436), the loss timer (R441), the return to
feed A due at the next landing (R438), the feed-warning cap asked for and the time it took effect (R439), when a sensor last read
at or above THR and EV_POWER_CAP_SHORT was last raised (R444), whether the last 10 ms window lay above CONT_W (R445), a stop that
has ended and waits for a feed, the cause of one that waits for its landing (R442), the park and unpark requests (R449), P3 and P4
due, what is powered (Table 16-5), DEV_ALERT_N (R504), V1P8_OUT (R501) and ROM recovery (R474). -/
structure Power where
  switchA : Bool
  switchB : Bool
  lossTimer : Bool
  returnDue : Bool
  warnReq : Bool
  warnCap : Option Nat
  thermal : Option Nat
  shortAt : Option Nat
  lastWindowHigh : Bool
  stopping : Bool
  stopCause : Option Nat
  parkQ : List ParkAct
  unparking : List Nat
  p3Due : Bool
  p4Due : Bool
  hallOn : Bool
  hbmRefresh : Bool
  alertLow : Bool
  v18 : Bool
  recovery : Bool
  deriving DecidableEq, Repr

/-- A counter (R478 to R487): configuration words, value, snapshot and shadow. -/
structure Counter where
  cfg : Word
  filt : Word
  addrBase : Word
  addrLimit : Word
  value : Nat
  shadow : Nat
  snap : Nat
  deriving DecidableEq, Repr

/-- A write to a counter that takes effect at a landing (R485). -/
structure CntWrite where
  block : Nat
  index : Nat
  reg : Option CntReg
  value : Word
  deriving DecidableEq, Repr

/-- A bandwidth monitor (R488): counts of the open window and of the last closed one. -/
structure BwMon where
  tx : Nat
  rx : Nat
  tickTx : Nat
  tickRx : Nat
  peakTx : Nat
  peakRx : Nat
  lastTx : Nat
  lastRx : Nat
  lastPeakTx : Nat
  lastPeakRx : Nat
  deriving DecidableEq, Repr

/-- The central reader: counters by 16 block + index, the snapshot tick, each function's latched snapshot, and
the writes the next landing applies. -/
structure Counting where
  ctrs : SMap Counter
  snapTick : BitVec 64
  latched : SMap (BitVec 64 × SMap Nat)
  writes : List CntWrite
  ownWrites : List (Nat × Word)
  holdDue : Option Bool
  holding : Bool
  bw : SMap BwMon
  bwDue : Option Word
  bwTicks : Nat
  deriving DecidableEq, Repr

/-- A calibration slot's counts in the open window (R132); key 256 g + n. -/
structure CalCount where
  sat : Nat
  elem : Nat
  deriving DecidableEq, Repr

/-- Calibration: open counts, each gallery's committed ticks in the window, writes that the landing applies. -/
structure Cal where
  counts : SMap CalCount
  ticks : List Nat
  writes : List (Nat × CalReg × Word)
  deriving DecidableEq, Repr

/-! ### The state -/

/-- The whole device and the queue of commands that wait, first in, first out. -/
structure State where
  pending : List Instr
  regs : SMap Word
  latch : SMap Word
  regWrites : List (Nat × Word)
  mem : Mems
  flights : Flights
  tk : Ticks
  sync : Sync
  events : List Event
  evCount : SMap Nat
  out : List Out
  hs : HostSide
  ls : LexSide
  insts : SMap Inst
  images : List (Nat × Image)
  trust : Trust
  boot : Boot
  svc : Service
  jtag : Jtag
  faults : Faults
  bbx : Bbx
  pw : Power
  cnt : Counting
  cal : Cal
  freeCtr : Nat
  deriving DecidableEq, Repr

/-- A ring that has not been created (Table 12-3). -/
def Ring.free : Ring :=
  ⟨0, 0, 0, false, false, 0, 0, 0, 0, 0, 0, 0, 0, [], none, false, false, []⟩

/-- A handle that has not been created; generations start at 0 (DESIGN CHOICE: log entry 5). -/
def Handle.free : Handle := ⟨0, 0, 0, 0, false, 0, false⟩

/-- A free lexicon entry; generations start at 0 (DESIGN CHOICE: log entry 5). -/
def LexEntry.free : LexEntry :=
  { kind := 0, state := 0, inst := 0, form := 0, hdrOk := false, gen := 0, keySlot := 0, pins := 0, pages := 0,
    manifest := 0, place := 0xFFFFFFFF#32, slotted := false, slot := 0, lastLanding := 0, stemDigest := [],
    man := none, shards := [], frames := [], evictDue := none, evictCause := 0, forced := false,
    deleting := false, convert := none, converted := false, awaits := false, epochPages := [], recDigest := [], first := [] }

/-- A FREE affix slot; generations start at 0 (DESIGN CHOICE: log entry 5). -/
def AffixSlot.free : AffixSlot := ⟨none, 0, 0, false⟩

/-- An object with no training state. -/
def TrainObj.blank : TrainObj :=
  ⟨0, 0, [], 0, [], 0, 0, none, [], [], [], none, 0, 0, 0, none, [], [], false, false, [], []⟩

/-- An EMPTY stem slot. -/
def StemSlot.empty : StemSlot := ⟨0, false, [], 0, [], [], [], [], 0, false, none⟩

/-- An instance with no resources (R363). -/
def Inst.fresh : Inst :=
  ⟨0, 0, none, 0, [], none, false, false, false, 0, [], 0, 0, 0, false⟩

/-- An EMPTY key slot. -/
def KeySlot.empty : KeySlot := ⟨0, 0, 0, 0, 0, 0, 0, [], []⟩

/-- A counter at its reset values (Table of CNT_CFG and CNT_FILT). -/
def Counter.fresh : Counter := ⟨0, 0xFF000000#32, 0, 0, 0, 0, 0⟩

/-- A bandwidth monitor that has counted nothing. -/
def BwMon.fresh : BwMon := ⟨0, 0, 0, 0, 0, 0, 0, 0, 0, 0⟩

/-- A calibration slot that has counted nothing. -/
def CalCount.fresh : CalCount := ⟨0, 0⟩

/-- Flight slots with no image. -/
def FlightSlots.empty : FlightSlots := ⟨none, none, 0, ⟨0, 0⟩, ⟨0, 0⟩⟩

/-- Every memory with nothing listed. -/
def Mems.empty : Mems := ⟨[], [], [], [], [], [], [], [], [], [], [], [], [], [], [], [], [], [], []⟩

/-- The tick clock before the first tick: no tick runs until start-up ends (R33). -/
def Ticks.stopped : Ticks :=
  { running := false, count := 0, replay := false, replayNext := false, lateMark := false, now := 0, lastStretch := none,
    period := none, seats := [], tickStem := [0, 0, 0, 0, 0, 0, 0, 0], pend := [], lateWindows := [] }

/-- The power side after a power-on reset: neither feed judged OK yet, nothing on but the standby domain. -/
def Power.off : Power :=
  { switchA := true, switchB := false, lossTimer := false, returnDue := false, warnReq := false,
    warnCap := none, thermal := none, shortAt := none, lastWindowHigh := false, stopping := false, stopCause := none,
    parkQ := [], unparking := [], p3Due := false, p4Due := false, hallOn := false, hbmRefresh := false,
    alertLow := true, v18 := false, recovery := false }

/-- The security processor after a power-on reset: the key table still sealed in the boot memory. -/
def Trust.locked : Trust :=
  { keys := [], keyOps := [], copy0 := none, copy1 := none, owner := [], nextOwner := [], pufCause := 0, sessions := [],
    nonces := [], chunk := [], answers := [], negotiated := [], ideStreams := [], jobSeeds := [0, 0, 0, 0, 0], flightKeys := [],
    debugTokens := false, dik := [], measured := [], fwDigest := [], cfgDigest := [] }

/-- The machine after a power-on reset (R454, R455), before start-up (R456): every register at the value its
table gives for reset (an unlisted register reads as its reset value), TCK_COUNT 0, nothing tracked, no image. -/
def State.reset : State :=
  { pending := [], regs := [], latch := [], regWrites := [], mem := Mems.empty,
    flights := ⟨FlightSlots.empty, [FlightSlots.empty, FlightSlots.empty, FlightSlots.empty, FlightSlots.empty],
      none, []⟩,
    tk := Ticks.stopped, sync := ⟨0, false, 0, none⟩, events := [], evCount := [], out := [],
    hs := ⟨[], [], [], [⟨[], [], []⟩, ⟨[], [], []⟩], [], [], [], [], [], [], [], false, [], []⟩,
    ls := ⟨[], [[], []], [], [], [StemSlot.empty, StemSlot.empty], [], [], [], [], []⟩,
    insts := [], images := [], trust := Trust.locked, boot := ⟨[], [], 0⟩,
    svc := ⟨none, 0, 0, false, [], none, 0, [], false, 0, false⟩,
    jtag := ⟨true, 1, false⟩,
    faults := ⟨[], [], [], [], [], []⟩, bbx := ⟨[], 0, 0, false⟩, pw := Power.off,
    cnt := ⟨[], 0, [], [], [], none, false, [], none, 0⟩, cal := ⟨[], [0, 0, 0, 0, 0, 0, 0, 0], []⟩,
    freeCtr := 0 }

end Sys2Proof.Machine
end

