-- ==== Sys2Proof/Machine/RegTable.lean ====
section
/-! DEFINITION. The BAR0 register map: the offset of every register (namespace `Reg`) and, for each register, its
bit fields with access code (Table 0-3), reset value and reset domain, as the register tables of the manual state
them.  A field whose reset is "From configuration block", "From firmware" or "Random" has reset 0 here and `cfg`
set (DESIGN CHOICE: log entry 2). -/

namespace Sys2Proof.Machine

/-- Register access codes (Table 0-3); `rw1cWhole` is RW1C where writing 1 to bit 0 clears the whole field. -/
inductive Access where
  | ro | rw | rw1c | rw1cWhole | wo | rwl | rs
  deriving DecidableEq, Repr

/-- Reset domains of the register headers. -/
inductive Domain where
  | powerOn | package | gallery
  deriving DecidableEq, Repr

/-- How functions see a register (R328): physical function only; one copy that virtual functions read too; one
copy held separately for each function; a count scoped as TCK_DEFERRALS; a set indexed by instance. -/
inductive View where
  | pf | shared | perFn | scoped | byInst
  deriving DecidableEq, Repr

/-- A bit field of a register. -/
structure FieldSpec where
  hi : Nat
  lo : Nat
  acc : Access
  reset : Nat
  cfg : Bool
  deriving DecidableEq, Repr

/-- A register or a set of registers: base offset, up to three strides with their counts, reset domain, view. -/
structure RegSpec where
  name : String
  base : Nat
  dims : List (Nat × Nat)
  dom : Domain
  view : View
  fields : List FieldSpec
  deriving DecidableEq, Repr

namespace Reg

/-- DEV_IDENT. -/
def DEV_IDENT : Nat := 0x0
/-- DEV_STEP. -/
def DEV_STEP : Nat := 0x4
/-- DEV_CAPACITY. -/
def DEV_CAPACITY : Nat := 0x180
/-- DEV_MU_LIVE. -/
def DEV_MU_LIVE (k : Nat) : Nat := 0x184 + 0x4 * k
/-- TCK_PERIOD. -/
def TCK_PERIOD : Nat := 0x30000
/-- TCK_COUNT_LO. -/
def TCK_COUNT_LO : Nat := 0x30008
/-- TCK_COUNT_HI. -/
def TCK_COUNT_HI : Nat := 0x3000c
/-- TCK_STRETCH. -/
def TCK_STRETCH : Nat := 0x30010
/-- TCK_SYNC_CTRL. -/
def TCK_SYNC_CTRL : Nat := 0x30014
/-- TCK_SYNC_STATUS. -/
def TCK_SYNC_STATUS : Nat := 0x30018
/-- TCK_REPLAYS. -/
def TCK_REPLAYS : Nat := 0x30020
/-- TCK_OVERRUN. -/
def TCK_OVERRUN : Nat := 0x30024
/-- TCK_DEFERRALS. -/
def TCK_DEFERRALS : Nat := 0x30028
/-- TCK_LC_LATE. -/
def TCK_LC_LATE : Nat := 0x3002c
/-- FLT_LOAD_ADDR_LO. -/
def FLT_LOAD_ADDR_LO : Nat := 0x30100
/-- FLT_LOAD_ADDR_HI. -/
def FLT_LOAD_ADDR_HI : Nat := 0x30104
/-- FLT_LOAD_LEN. -/
def FLT_LOAD_LEN : Nat := 0x30108
/-- FLT_LOAD_CTRL. -/
def FLT_LOAD_CTRL : Nat := 0x3010c
/-- FLT_ADMIT_STATUS. -/
def FLT_ADMIT_STATUS : Nat := 0x30110
/-- FLT_ADMIT_WHERE. -/
def FLT_ADMIT_WHERE : Nat := 0x30114
/-- FLT_ADMIT_ENTRY. -/
def FLT_ADMIT_ENTRY : Nat := 0x30118
/-- FLT_ADMIT_NEED. -/
def FLT_ADMIT_NEED : Nat := 0x3011c
/-- FLT_ADMIT_LIMIT. -/
def FLT_ADMIT_LIMIT : Nat := 0x30120
/-- FLT_SWITCH. -/
def FLT_SWITCH : Nat := 0x30130
/-- FLT_ACTIVE_ID. -/
def FLT_ACTIVE_ID : Nat := 0x30134
/-- FLT_ACTIVE. -/
def FLT_ACTIVE : Nat := 0x30138
/-- FLT_POS. -/
def FLT_POS : Nat := 0x3013c
/-- FLT_VARIANT. -/
def FLT_VARIANT : Nat := 0x30140
/-- FLT_PAIR_ID. -/
def FLT_PAIR_ID (k : Nat) : Nat := 0x30150 + 0x4 * k
/-- GAL_CAL_WINDOW. -/
def GAL_CAL_WINDOW (g : Nat) : Nat := 0x1c0000 + 0x100000 * g
/-- GAL_CAL_CFG. -/
def GAL_CAL_CFG (g n : Nat) : Nat := 0x1c1000 + 0x100000 * g + 0x10 * n
/-- GAL_CAL_SAT. -/
def GAL_CAL_SAT (g n : Nat) : Nat := 0x1c1004 + 0x100000 * g + 0x10 * n
/-- GAL_CAL_ELEM_LO. -/
def GAL_CAL_ELEM_LO (g n : Nat) : Nat := 0x1c1008 + 0x100000 * g + 0x10 * n
/-- GAL_CAL_ELEM_HI. -/
def GAL_CAL_ELEM_HI (g n : Nat) : Nat := 0x1c100c + 0x100000 * g + 0x10 * n
/-- GAL_MU_STATUS. -/
def GAL_MU_STATUS (g m : Nat) : Nat := 0x110000 + 0x100000 * g + 0x40 * m
/-- GAL_MU_PARITY. -/
def GAL_MU_PARITY (g m : Nat) : Nat := 0x110004 + 0x100000 * g + 0x40 * m
/-- GAL_MU_SAT. -/
def GAL_MU_SAT (g m : Nat) : Nat := 0x110008 + 0x100000 * g + 0x40 * m
/-- GAL_MU_RPL. -/
def GAL_MU_RPL (g m : Nat) : Nat := 0x11000c + 0x100000 * g + 0x40 * m
/-- GAL_VU_STATUS. -/
def GAL_VU_STATUS (g v : Nat) : Nat := 0x120000 + 0x100000 * g + 0x40 * v
/-- GAL_VU_PARITY. -/
def GAL_VU_PARITY (g v : Nat) : Nat := 0x120004 + 0x100000 * g + 0x40 * v
/-- GAL_VU_SPILL. -/
def GAL_VU_SPILL (g v : Nat) : Nat := 0x120008 + 0x100000 * g + 0x40 * v
/-- GAL_VU_DROP. -/
def GAL_VU_DROP (g v : Nat) : Nat := 0x12000c + 0x100000 * g + 0x40 * v
/-- GAL_VU_SOLVE. -/
def GAL_VU_SOLVE (g v : Nat) : Nat := 0x120010 + 0x100000 * g + 0x40 * v
/-- LEX_STEM_CTRL. -/
def LEX_STEM_CTRL : Nat := 0x68000
/-- LEX_STEM_SRC_LO. -/
def LEX_STEM_SRC_LO : Nat := 0x68004
/-- LEX_STEM_SRC_HI. -/
def LEX_STEM_SRC_HI : Nat := 0x68008
/-- LEX_STEM_LEN. -/
def LEX_STEM_LEN : Nat := 0x6800c
/-- LEX_STEM_STATUS. -/
def LEX_STEM_STATUS (k : Nat) : Nat := 0x68010 + 0x4 * k
/-- LEX_STEM_BASE. -/
def LEX_STEM_BASE (s : Nat) : Nat := 0x68020 + 0x8 * s
/-- LEX_STEM_SIZE. -/
def LEX_STEM_SIZE (s : Nat) : Nat := 0x68024 + 0x8 * s
/-- LEX_STEM_DIGEST. -/
def LEX_STEM_DIGEST (s w : Nat) : Nat := 0x68040 + 0x20 * s + 0x4 * w
/-- LEX_STEM_SEL. -/
def LEX_STEM_SEL (k : Nat) : Nat := 0x68080 + 0x4 * k
/-- LEX_RANGE_BASE. -/
def LEX_RANGE_BASE (n : Nat) : Nat := 0x68100 + 0x10 * n
/-- LEX_RANGE_COUNT. -/
def LEX_RANGE_COUNT (n : Nat) : Nat := 0x68104 + 0x10 * n
/-- LEX_SLOTS. -/
def LEX_SLOTS (n : Nat) : Nat := 0x68108 + 0x10 * n
/-- LEX_STATUS. -/
def LEX_STATUS : Nat := 0x68500
/-- LEX_GATE_ID. -/
def LEX_GATE_ID : Nat := 0x69000
/-- LEX_GATE_STEP. -/
def LEX_GATE_STEP : Nat := 0x69004
/-- LEX_GATE_CMD. -/
def LEX_GATE_CMD : Nat := 0x69008
/-- LEX_GATE_HELD. -/
def LEX_GATE_HELD : Nat := 0x6900c
/-- LEX_GATE_GROUP. -/
def LEX_GATE_GROUP : Nat := 0x69020
/-- LEX_GATE_G2. -/
def LEX_GATE_G2 : Nat := 0x69024
/-- LEX_GATE_NONFIN. -/
def LEX_GATE_NONFIN : Nat := 0x69028
/-- LEX_TRN_COMMITS. -/
def LEX_TRN_COMMITS : Nat := 0x69010
/-- LEX_TRN_SKIPS. -/
def LEX_TRN_SKIPS : Nat := 0x69014
/-- LEX_TRN_REAPPLIES. -/
def LEX_TRN_REAPPLIES : Nat := 0x69018
/-- LEX_TRN_WAITS. -/
def LEX_TRN_WAITS : Nat := 0x6901c
/-- GAL_ISU_STATUS. -/
def GAL_ISU_STATUS (g i : Nat) : Nat := 0x130000 + 0x100000 * g + 0x40 * i
/-- GAL_ISU_PARITY. -/
def GAL_ISU_PARITY (g i : Nat) : Nat := 0x130004 + 0x100000 * g + 0x40 * i
/-- RES_POOL_FREE. -/
def RES_POOL_FREE (g : Nat) : Nat := 0x60000 + 0x4 * g
/-- RES_DRIVE_STATUS. -/
def RES_DRIVE_STATUS (d : Nat) : Nat := 0x60040 + 0x4 * d
/-- RES_QUANT_SAT. -/
def RES_QUANT_SAT : Nat := 0x60080
/-- RES_RETRIES. -/
def RES_RETRIES : Nat := 0x60090
/-- RES_FAILURES. -/
def RES_FAILURES : Nat := 0x60094
/-- RES_EVICTIONS. -/
def RES_EVICTIONS : Nat := 0x60098
/-- RES_CANCELS. -/
def RES_CANCELS : Nat := 0x6009c
/-- RES_OOB. -/
def RES_OOB : Nat := 0x600a4
/-- RES_PARKED. -/
def RES_PARKED : Nat := 0x600a0
/-- RES_INST_CFG. -/
def RES_INST_CFG (n : Nat) : Nat := 0x60100 + 0x10 * n
/-- RES_CACHE_WAYS. -/
def RES_CACHE_WAYS (n : Nat) : Nat := 0x60104 + 0x10 * n
/-- RES_FLASH_RANGE. -/
def RES_FLASH_RANGE (n : Nat) : Nat := 0x60108 + 0x10 * n
/-- RES_LIMITS. -/
def RES_LIMITS (n : Nat) : Nat := 0x6010c + 0x10 * n
/-- RES_QUOTA. -/
def RES_QUOTA (n g : Nat) : Nat := 0x61000 + 0x20 * n + 0x4 * g
/-- RES_USED. -/
def RES_USED (n g : Nat) : Nat := 0x62000 + 0x20 * n + 0x4 * g
/-- RES_ROUTE_KV. -/
def RES_ROUTE_KV (r : Nat) : Nat := 0x63000 + 0x4 * r
/-- GAL_FAB_STATUS. -/
def GAL_FAB_STATUS (g p : Nat) : Nat := 0x140000 + 0x100000 * g + 0x40 * p
/-- GAL_FAB_PARITY. -/
def GAL_FAB_PARITY (g p : Nat) : Nat := 0x140004 + 0x100000 * g + 0x40 * p
/-- GAL_FAB_DROP. -/
def GAL_FAB_DROP (g p : Nat) : Nat := 0x140008 + 0x100000 * g + 0x40 * p
/-- WIN_ATTACH_STATE. -/
def WIN_ATTACH_STATE : Nat := 0x70000
/-- WIN_HEARTBEAT. -/
def WIN_HEARTBEAT : Nat := 0x70004
/-- WIN_LINK. -/
def WIN_LINK : Nat := 0x70008
/-- WIN_IMMUT_WRITES. -/
def WIN_IMMUT_WRITES : Nat := 0x7000c
/-- WIN_EV_LOST. -/
def WIN_EV_LOST : Nat := 0x70010
/-- WIN_OOB. -/
def WIN_OOB : Nat := 0x70014
/-- WIN_DBG_ADDR_LO. -/
def WIN_DBG_ADDR_LO : Nat := 0x70020
/-- WIN_DBG_ADDR_HI. -/
def WIN_DBG_ADDR_HI : Nat := 0x70024
/-- WIN_DBG_APERTURE. -/
def WIN_DBG_APERTURE (w : Nat) : Nat := 0x71000 + 0x4 * w
/-- WIN_RANGE. -/
def WIN_RANGE (n : Nat) : Nat := 0x70100 + 0x10 * n
/-- WIN_RINGS. -/
def WIN_RINGS (n : Nat) : Nat := 0x70104 + 0x10 * n
/-- WIN_HANDLES. -/
def WIN_HANDLES (n : Nat) : Nat := 0x70108 + 0x10 * n
/-- WIN_INST_CFG. -/
def WIN_INST_CFG (n : Nat) : Nat := 0x7010c + 0x10 * n
/-- MGQ_ARG. -/
def MGQ_ARG (k : Nat) : Nat := 0x80000 + 0x4 * k
/-- MGQ_CMD. -/
def MGQ_CMD : Nat := 0x80040
/-- MGQ_STATUS. -/
def MGQ_STATUS : Nat := 0x80044
/-- DEV_INST_CTRL. -/
def DEV_INST_CTRL : Nat := 0x400
/-- DEV_ACCT_HANDLE. -/
def DEV_ACCT_HANDLE : Nat := 0x410
/-- DEV_ACCT_CYC_LO. -/
def DEV_ACCT_CYC_LO : Nat := 0x414
/-- DEV_ACCT_CYC_HI. -/
def DEV_ACCT_CYC_HI : Nat := 0x418
/-- DEV_INST_STATE. -/
def DEV_INST_STATE (n : Nat) : Nat := 0x1000 + 0x20 * n
/-- DEV_SHARE. -/
def DEV_SHARE (n : Nat) : Nat := 0x1004 + 0x20 * n
/-- DEV_SEATS. -/
def DEV_SEATS (n : Nat) : Nat := 0x1008 + 0x20 * n
/-- DEV_CREDIT. -/
def DEV_CREDIT (n : Nat) : Nat := 0x100c + 0x20 * n
/-- DEV_ENG_LO. -/
def DEV_ENG_LO (n : Nat) : Nat := 0x1010 + 0x20 * n
/-- DEV_ENG_HI. -/
def DEV_ENG_HI (n : Nat) : Nat := 0x1014 + 0x20 * n
/-- DEV_MIG_LO. -/
def DEV_MIG_LO (n : Nat) : Nat := 0x1018 + 0x20 * n
/-- DEV_MIG_HI. -/
def DEV_MIG_HI (n : Nat) : Nat := 0x101c + 0x20 * n
/-- WIN_LOG_BASE_LO. -/
def WIN_LOG_BASE_LO (n : Nat) : Nat := 0x72000 + 0x20 * n
/-- WIN_LOG_BASE_HI. -/
def WIN_LOG_BASE_HI (n : Nat) : Nat := 0x72004 + 0x20 * n
/-- WIN_LOG_CFG. -/
def WIN_LOG_CFG (n : Nat) : Nat := 0x72008 + 0x20 * n
/-- WIN_LOG_HEAD. -/
def WIN_LOG_HEAD (n : Nat) : Nat := 0x7200c + 0x20 * n
/-- WIN_LOG_TAIL. -/
def WIN_LOG_TAIL (n : Nat) : Nat := 0x72010 + 0x20 * n
/-- WIN_LOG_STATUS. -/
def WIN_LOG_STATUS (n : Nat) : Nat := 0x72014 + 0x20 * n
/-- SEC_STATUS. -/
def SEC_STATUS : Nat := 0x20000
/-- SEC_ID_DIGEST. -/
def SEC_ID_DIGEST (w : Nat) : Nat := 0x20010 + 0x4 * w
/-- SEC_OWNER_DIGEST. -/
def SEC_OWNER_DIGEST (w : Nat) : Nat := 0x20030 + 0x4 * w
/-- SEC_KEYRANGE. -/
def SEC_KEYRANGE (n : Nat) : Nat := 0x20100 + 0x4 * n
/-- SEC_SLOT_SEL. -/
def SEC_SLOT_SEL : Nat := 0x20200
/-- SEC_SLOT_STATE. -/
def SEC_SLOT_STATE : Nat := 0x20204
/-- SEC_SLOT_CUR. -/
def SEC_SLOT_CUR : Nat := 0x20208
/-- SEC_SLOT_PREV. -/
def SEC_SLOT_PREV : Nat := 0x2020c
/-- SEC_SLOT_PAGES. -/
def SEC_SLOT_PAGES : Nat := 0x20210
/-- SEC_SLOT_INFLIGHT. -/
def SEC_SLOT_INFLIGHT : Nat := 0x20214
/-- SEC_SLOT_CTRL. -/
def SEC_SLOT_CTRL : Nat := 0x20218
/-- SEC_ZEROISE. -/
def SEC_ZEROISE : Nat := 0x20220
/-- SEC_DBG_NONCE. -/
def SEC_DBG_NONCE (w : Nat) : Nat := 0x20240 + 0x4 * w
/-- SEC_DBG_CTRL. -/
def SEC_DBG_CTRL : Nat := 0x20260
/-- SEC_MIG_CTRL. -/
def SEC_MIG_CTRL : Nat := 0x20280
/-- SEC_DBG_TOKEN. -/
def SEC_DBG_TOKEN (w : Nat) : Nat := 0x21000 + 0x4 * w
/-- SEC_MIG_TARGET. -/
def SEC_MIG_TARGET (w : Nat) : Nat := 0x22000 + 0x4 * w
/-- SEC_MIG_WRAPPED. -/
def SEC_MIG_WRAPPED (w : Nat) : Nat := 0x24000 + 0x4 * w
/-- ERR_LAST. -/
def ERR_LAST : Nat := 0x50000
/-- ERR_LAST_TICK_LO. -/
def ERR_LAST_TICK_LO : Nat := 0x50004
/-- ERR_LAST_TICK_HI. -/
def ERR_LAST_TICK_HI : Nat := 0x50008
/-- ERR_REPLAY. -/
def ERR_REPLAY : Nat := 0x5000c
/-- ERR_GAL_FENCE. -/
def ERR_GAL_FENCE : Nat := 0x50010
/-- ERR_POISON. -/
def ERR_POISON : Nat := 0x50014
/-- ERR_POISON_HITS. -/
def ERR_POISON_HITS : Nat := 0x50018
/-- ERR_HBM_CE. -/
def ERR_HBM_CE (s : Nat) : Nat := 0x50100 + 0x8 * s
/-- ERR_HBM_UE. -/
def ERR_HBM_UE (s : Nat) : Nat := 0x50104 + 0x8 * s
/-- BBX_STATUS. -/
def BBX_STATUS : Nat := 0x58000
/-- BBX_SEQ_LO. -/
def BBX_SEQ_LO : Nat := 0x58004
/-- BBX_SEQ_HI. -/
def BBX_SEQ_HI : Nat := 0x58008
/-- BBX_LOST. -/
def BBX_LOST : Nat := 0x5800c
/-- BBX_MASK. -/
def BBX_MASK : Nat := 0x58010
/-- BBX_INDEX. -/
def BBX_INDEX : Nat := 0x58014
/-- BBX_DATA. -/
def BBX_DATA (w : Nat) : Nat := 0x59000 + 0x4 * w
/-- PWR_FEED_STATUS. -/
def PWR_FEED_STATUS : Nat := 0x10000
/-- PWR_FEED_CFG. -/
def PWR_FEED_CFG : Nat := 0x10004
/-- PWR_FEED_CTRL. -/
def PWR_FEED_CTRL : Nat := 0x10008
/-- PWR_LIMIT. -/
def PWR_LIMIT : Nat := 0x1000c
/-- PWR_STATE. -/
def PWR_STATE : Nat := 0x10010
/-- PWR_STATE_CTRL. -/
def PWR_STATE_CTRL : Nat := 0x10014
/-- PWR_READING. -/
def PWR_READING : Nat := 0x10018
/-- PWR_TEMP. -/
def PWR_TEMP : Nat := 0x1001c
/-- PWR_FEED_COUNT. -/
def PWR_FEED_COUNT : Nat := 0x10020
/-- CLK_STATUS. -/
def CLK_STATUS : Nat := 0x10100
/-- CLK_DRV_CTRL. -/
def CLK_DRV_CTRL : Nat := 0x10104
/-- RST_CAUSE. -/
def RST_CAUSE : Nat := 0x10200
/-- RST_PACKAGE. -/
def RST_PACKAGE : Nat := 0x10204
/-- RST_GALLERY. -/
def RST_GALLERY : Nat := 0x10208
/-- RST_STATUS. -/
def RST_STATUS : Nat := 0x1020c
/-- DEV_FW_VER. -/
def DEV_FW_VER : Nat := 0x500
/-- DEV_BOOT_STATUS. -/
def DEV_BOOT_STATUS : Nat := 0x504
/-- DEV_CFG_SEQ. -/
def DEV_CFG_SEQ : Nat := 0x508
/-- DEV_FW_ISEQ. -/
def DEV_FW_ISEQ : Nat := 0x50c
/-- CNT_CTRL. -/
def CNT_CTRL : Nat := 0x40000
/-- CNT_OWN. -/
def CNT_OWN (j : Nat) : Nat := 0x40010 + 0x4 * j
/-- CNT_SEL. -/
def CNT_SEL : Nat := 0x40100
/-- CNT_CFG. -/
def CNT_CFG : Nat := 0x40104
/-- CNT_FILT. -/
def CNT_FILT : Nat := 0x40108
/-- CNT_ADDR_BASE. -/
def CNT_ADDR_BASE : Nat := 0x4010c
/-- CNT_ADDR_LIMIT. -/
def CNT_ADDR_LIMIT : Nat := 0x40110
/-- CNT_VAL_LO. -/
def CNT_VAL_LO : Nat := 0x40114
/-- CNT_VAL_HI. -/
def CNT_VAL_HI : Nat := 0x40118
/-- CNT_SNAP_TICK_LO. -/
def CNT_SNAP_TICK_LO : Nat := 0x40120
/-- CNT_SNAP_TICK_HI. -/
def CNT_SNAP_TICK_HI : Nat := 0x40124
/-- CNT_BW_CFG. -/
def CNT_BW_CFG : Nat := 0x40200
/-- CNT_BW_SEL. -/
def CNT_BW_SEL : Nat := 0x40204
/-- CNT_BW_TX_LO. -/
def CNT_BW_TX_LO : Nat := 0x40208
/-- CNT_BW_TX_HI. -/
def CNT_BW_TX_HI : Nat := 0x4020c
/-- CNT_BW_RX_LO. -/
def CNT_BW_RX_LO : Nat := 0x40210
/-- CNT_BW_RX_HI. -/
def CNT_BW_RX_HI : Nat := 0x40214
/-- CNT_BW_PEAK. -/
def CNT_BW_PEAK : Nat := 0x40218
/-- DEV_DESC word w (R31). -/
def DEV_DESC (w : Nat) : Nat := 0x100 + 4 * w

end Reg

/-- The words of DEV_DESC (Table 1-7). -/
def devDescWords : List Nat :=
  [0x10018, 0x8100410, 0x80800200, 0x7800960, 0x40030000, 0x40010000, 0x40010000, 0x8002580, 0x1800300, 0x8080100, 0x500014, 0x14004b0, 0x3f400200, 0x100e1010, 0x100c0e18, 0xc004016, 0x200000c, 0x21000, 0x12c005dc, 0xa15e0, 0x0, 0x0, 0x0, 0x0]

/-- Rows 0 to 15 of the register map. -/
def regSpecs0 : List RegSpec :=
  [
   ⟨"DEV_IDENT", 0x0, [], .powerOn, .shared,
     [⟨31, 16, .ro, 0x8160, false⟩, ⟨15, 0, .ro, 0x1f6b, false⟩]⟩,
   ⟨"DEV_STEP", 0x4, [], .powerOn, .shared,
     [⟨7, 4, .ro, 0xb, false⟩, ⟨3, 0, .ro, 0, false⟩]⟩,
   ⟨"DEV_CAPACITY", 0x180, [], .package, .shared,
     [⟨23, 16, .ro, 0, false⟩, ⟨15, 8, .ro, 0, false⟩, ⟨7, 0, .ro, 0, false⟩]⟩,
   ⟨"DEV_MU_LIVE", 0x184, [(0x4, 4)], .package, .shared,
     [⟨31, 0, .ro, 0, false⟩]⟩,
   ⟨"DEV_INST_CTRL", 0x400, [], .package, .pf,
     [⟨31, 31, .wo, 0, false⟩, ⟨30, 28, .wo, 0, false⟩, ⟨27, 22, .wo, 0, false⟩, ⟨7, 0, .ro, 0, false⟩]⟩,
   ⟨"DEV_ACCT_HANDLE", 0x410, [], .package, .perFn,
     [⟨31, 0, .rw, 0, false⟩]⟩,
   ⟨"DEV_ACCT_CYC_LO", 0x414, [], .package, .perFn,
     [⟨31, 0, .ro, 0, false⟩]⟩,
   ⟨"DEV_ACCT_CYC_HI", 0x418, [], .package, .perFn,
     [⟨31, 0, .ro, 0, false⟩]⟩,
   ⟨"DEV_FW_VER", 0x500, [], .package, .shared,
     [⟨31, 24, .ro, 0, true⟩, ⟨23, 16, .ro, 0, true⟩, ⟨15, 0, .ro, 0, true⟩]⟩,
   ⟨"DEV_BOOT_STATUS", 0x504, [], .package, .pf,
     [⟨31, 31, .ro, 0, false⟩, ⟨30, 30, .ro, 0, false⟩, ⟨29, 29, .ro, 0, false⟩, ⟨28, 28, .ro, 0, false⟩, ⟨27, 27, .ro, 0, false⟩, ⟨23, 16, .ro, 0, false⟩, ⟨15, 12, .ro, 0, false⟩, ⟨11, 8, .ro, 0, false⟩]⟩,
   ⟨"DEV_CFG_SEQ", 0x508, [], .package, .pf,
     [⟨31, 0, .ro, 0, false⟩]⟩,
   ⟨"DEV_FW_ISEQ", 0x50c, [], .package, .pf,
     [⟨31, 16, .ro, 0, false⟩, ⟨15, 0, .ro, 0, false⟩]⟩,
   ⟨"DEV_INST_STATE", 0x1000, [(0x20, 64)], .package, .byInst,
     [⟨31, 28, .ro, 0, false⟩, ⟨27, 27, .ro, 0, false⟩, ⟨26, 26, .ro, 0, false⟩, ⟨25, 18, .ro, 0, false⟩, ⟨7, 0, .ro, 0, false⟩]⟩,
   ⟨"DEV_SHARE", 0x1004, [(0x20, 64)], .package, .byInst,
     [⟨31, 16, .rw, 0, true⟩, ⟨15, 10, .rw, 0, true⟩, ⟨9, 9, .rw, 0, true⟩]⟩,
   ⟨"DEV_SEATS", 0x1008, [(0x20, 64)], .package, .byInst,
     [⟨31, 23, .rw, 0, true⟩, ⟨22, 13, .rw, 0, true⟩]⟩,
   ⟨"DEV_CREDIT", 0x100c, [(0x20, 64)], .package, .byInst,
     [⟨31, 0, .ro, 0, false⟩]⟩]

/-- Rows 16 to 31 of the register map. -/
def regSpecs1 : List RegSpec :=
  [
   ⟨"DEV_ENG_LO", 0x1010, [(0x20, 64)], .package, .byInst,
     [⟨31, 0, .ro, 0, false⟩]⟩,
   ⟨"DEV_ENG_HI", 0x1014, [(0x20, 64)], .package, .byInst,
     [⟨31, 0, .ro, 0, false⟩]⟩,
   ⟨"DEV_MIG_LO", 0x1018, [(0x20, 64)], .package, .pf,
     [⟨31, 12, .rw, 0, false⟩, ⟨0, 0, .rw, 0, false⟩]⟩,
   ⟨"DEV_MIG_HI", 0x101c, [(0x20, 64)], .package, .pf,
     [⟨31, 0, .rw, 0, false⟩]⟩,
   ⟨"PWR_FEED_STATUS", 0x10000, [], .powerOn, .pf,
     [⟨31, 30, .ro, 0, false⟩, ⟨29, 27, .ro, 0, false⟩, ⟨26, 24, .ro, 0, false⟩, ⟨23, 12, .ro, 0, false⟩, ⟨11, 0, .ro, 0, false⟩]⟩,
   ⟨"PWR_FEED_CFG", 0x10004, [], .package, .pf,
     [⟨26, 18, .rwl, 0, true⟩, ⟨17, 9, .rwl, 0, true⟩, ⟨8, 0, .rwl, 0, true⟩]⟩,
   ⟨"PWR_FEED_CTRL", 0x10008, [], .package, .pf,
     [⟨0, 0, .rw, 0, true⟩]⟩,
   ⟨"PWR_LIMIT", 0x1000c, [], .package, .pf,
     [⟨31, 16, .rwl, 0, true⟩, ⟨15, 0, .rwl, 0, true⟩]⟩,
   ⟨"PWR_STATE", 0x10010, [], .package, .pf,
     [⟨31, 29, .ro, 0, false⟩, ⟨23, 16, .ro, 0, false⟩, ⟨15, 12, .ro, 0, false⟩]⟩,
   ⟨"PWR_STATE_CTRL", 0x10014, [], .package, .pf,
     [⟨31, 31, .wo, 0, false⟩, ⟨30, 28, .wo, 0, false⟩, ⟨23, 16, .wo, 0, false⟩, ⟨7, 0, .ro, 0, false⟩]⟩,
   ⟨"PWR_READING", 0x10018, [], .package, .pf,
     [⟨31, 24, .ro, 0, false⟩, ⟨23, 16, .ro, 0, false⟩, ⟨15, 0, .ro, 0, false⟩]⟩,
   ⟨"PWR_TEMP", 0x1001c, [], .package, .pf,
     [⟨31, 24, .ro, 0, false⟩, ⟨23, 20, .ro, 0, false⟩, ⟨15, 8, .rwl, 0, true⟩]⟩,
   ⟨"PWR_FEED_COUNT", 0x10020, [], .powerOn, .pf,
     [⟨31, 16, .ro, 0, false⟩, ⟨15, 0, .ro, 0, false⟩]⟩,
   ⟨"CLK_STATUS", 0x10100, [], .package, .pf,
     [⟨31, 31, .ro, 0, false⟩, ⟨30, 30, .ro, 0, false⟩, ⟨29, 29, .ro, 0, false⟩, ⟨19, 12, .ro, 0, false⟩, ⟨11, 0, .ro, 0, false⟩]⟩,
   ⟨"CLK_DRV_CTRL", 0x10104, [], .package, .pf,
     [⟨3, 0, .rwl, 0, true⟩]⟩,
   ⟨"RST_CAUSE", 0x10200, [], .powerOn, .pf,
     [⟨31, 28, .rs, 0, false⟩, ⟨15, 0, .rs, 0, false⟩]⟩]

/-- Rows 32 to 47 of the register map. -/
def regSpecs2 : List RegSpec :=
  [
   ⟨"RST_PACKAGE", 0x10204, [], .package, .pf,
     [⟨31, 0, .wo, 0, false⟩]⟩,
   ⟨"RST_GALLERY", 0x10208, [], .package, .pf,
     [⟨31, 31, .wo, 0, false⟩, ⟨15, 8, .wo, 0, false⟩, ⟨7, 0, .ro, 0, false⟩]⟩,
   ⟨"RST_STATUS", 0x1020c, [], .powerOn, .pf,
     [⟨31, 28, .ro, 0, false⟩]⟩,
   ⟨"SEC_STATUS", 0x20000, [], .package, .pf,
     [⟨31, 31, .ro, 0, false⟩, ⟨30, 30, .ro, 0, false⟩, ⟨29, 29, .ro, 0, true⟩, ⟨28, 28, .ro, 0, false⟩, ⟨23, 16, .ro, 0, true⟩, ⟨15, 8, .ro, 0, true⟩]⟩,
   ⟨"SEC_ID_DIGEST", 0x20010, [(0x4, 8)], .package, .pf,
     [⟨31, 0, .ro, 0, false⟩]⟩,
   ⟨"SEC_OWNER_DIGEST", 0x20030, [(0x4, 8)], .package, .pf,
     [⟨31, 0, .ro, 0, false⟩]⟩,
   ⟨"SEC_KEYRANGE", 0x20100, [(0x4, 64)], .package, .pf,
     [⟨31, 20, .rw, 0, true⟩, ⟨16, 0, .rw, 0, true⟩]⟩,
   ⟨"SEC_SLOT_SEL", 0x20200, [], .package, .pf,
     [⟨15, 0, .rw, 0, false⟩]⟩,
   ⟨"SEC_SLOT_STATE", 0x20204, [], .package, .pf,
     [⟨31, 30, .ro, 0, false⟩, ⟨29, 24, .ro, 0, false⟩]⟩,
   ⟨"SEC_SLOT_CUR", 0x20208, [], .package, .pf,
     [⟨31, 0, .ro, 0, false⟩]⟩,
   ⟨"SEC_SLOT_PREV", 0x2020c, [], .package, .pf,
     [⟨31, 0, .ro, 0, false⟩]⟩,
   ⟨"SEC_SLOT_PAGES", 0x20210, [], .package, .pf,
     [⟨31, 0, .ro, 0, false⟩]⟩,
   ⟨"SEC_SLOT_INFLIGHT", 0x20214, [], .package, .pf,
     [⟨31, 0, .ro, 0, false⟩]⟩,
   ⟨"SEC_SLOT_CTRL", 0x20218, [], .package, .pf,
     [⟨31, 31, .wo, 0, false⟩, ⟨30, 28, .wo, 0, false⟩, ⟨7, 0, .ro, 0, false⟩]⟩,
   ⟨"SEC_ZEROISE", 0x20220, [], .package, .pf,
     [⟨31, 0, .wo, 0, false⟩]⟩,
   ⟨"SEC_DBG_NONCE", 0x20240, [(0x4, 8)], .package, .pf,
     [⟨31, 0, .ro, 0, true⟩]⟩]

/-- Rows 48 to 63 of the register map. -/
def regSpecs3 : List RegSpec :=
  [
   ⟨"SEC_DBG_CTRL", 0x20260, [], .package, .pf,
     [⟨31, 31, .wo, 0, false⟩, ⟨7, 0, .ro, 0, false⟩]⟩,
   ⟨"SEC_MIG_CTRL", 0x20280, [], .package, .pf,
     [⟨31, 31, .wo, 0, false⟩, ⟨30, 28, .wo, 0, false⟩, ⟨27, 22, .wo, 0, false⟩, ⟨7, 0, .ro, 0, false⟩]⟩,
   ⟨"SEC_DBG_TOKEN", 0x21000, [(0x4, 512)], .package, .pf,
     [⟨31, 0, .wo, 0, false⟩]⟩,
   ⟨"SEC_MIG_TARGET", 0x22000, [(0x4, 2048)], .package, .pf,
     [⟨31, 0, .wo, 0, false⟩]⟩,
   ⟨"SEC_MIG_WRAPPED", 0x24000, [(0x4, 96)], .package, .pf,
     [⟨31, 0, .rw, 0, false⟩]⟩,
   ⟨"TCK_PERIOD", 0x30000, [], .package, .shared,
     [⟨6, 0, .ro, 0, true⟩]⟩,
   ⟨"TCK_COUNT_LO", 0x30008, [], .package, .shared,
     [⟨31, 0, .ro, 0, false⟩]⟩,
   ⟨"TCK_COUNT_HI", 0x3000c, [], .package, .shared,
     [⟨31, 0, .ro, 0, false⟩]⟩,
   ⟨"TCK_STRETCH", 0x30010, [], .package, .shared,
     [⟨8, 0, .ro, 0x100, false⟩]⟩,
   ⟨"TCK_SYNC_CTRL", 0x30014, [], .package, .pf,
     [⟨31, 30, .rwl, 0, true⟩, ⟨29, 29, .rwl, 0, true⟩, ⟨20, 16, .rwl, 0, true⟩, ⟨15, 0, .rwl, 0, true⟩]⟩,
   ⟨"TCK_SYNC_STATUS", 0x30018, [], .package, .pf,
     [⟨31, 29, .ro, 0, false⟩, ⟨28, 16, .ro, 0, false⟩, ⟨15, 0, .rw1cWhole, 0, false⟩]⟩,
   ⟨"TCK_REPLAYS", 0x30020, [], .package, .pf,
     [⟨31, 0, .ro, 0, false⟩]⟩,
   ⟨"TCK_OVERRUN", 0x30024, [], .package, .pf,
     [⟨31, 20, .ro, 0, false⟩, ⟨19, 0, .ro, 0, false⟩]⟩,
   ⟨"TCK_DEFERRALS", 0x30028, [], .package, .scoped,
     [⟨31, 0, .ro, 0, false⟩]⟩,
   ⟨"TCK_LC_LATE", 0x3002c, [], .package, .scoped,
     [⟨31, 0, .ro, 0, false⟩]⟩,
   ⟨"FLT_LOAD_ADDR_LO", 0x30100, [], .package, .pf,
     [⟨31, 0, .rw, 0, false⟩]⟩]

/-- Rows 64 to 79 of the register map. -/
def regSpecs4 : List RegSpec :=
  [
   ⟨"FLT_LOAD_ADDR_HI", 0x30104, [], .package, .pf,
     [⟨31, 0, .rw, 0, false⟩]⟩,
   ⟨"FLT_LOAD_LEN", 0x30108, [], .package, .pf,
     [⟨31, 0, .rw, 0, false⟩]⟩,
   ⟨"FLT_LOAD_CTRL", 0x3010c, [], .package, .pf,
     [⟨31, 31, .wo, 0, false⟩, ⟨2, 0, .rw, 0, false⟩]⟩,
   ⟨"FLT_ADMIT_STATUS", 0x30110, [], .package, .pf,
     [⟨31, 28, .ro, 0, false⟩, ⟨15, 8, .ro, 0, false⟩, ⟨1, 1, .rw1c, 0, false⟩, ⟨0, 0, .ro, 0, false⟩]⟩,
   ⟨"FLT_ADMIT_WHERE", 0x30114, [], .package, .pf,
     [⟨31, 24, .ro, 0, false⟩, ⟨15, 4, .ro, 0, false⟩, ⟨2, 0, .ro, 0, false⟩]⟩,
   ⟨"FLT_ADMIT_ENTRY", 0x30118, [], .package, .pf,
     [⟨31, 28, .ro, 0, false⟩, ⟨15, 0, .ro, 0, false⟩]⟩,
   ⟨"FLT_ADMIT_NEED", 0x3011c, [], .package, .pf,
     [⟨31, 0, .ro, 0, false⟩]⟩,
   ⟨"FLT_ADMIT_LIMIT", 0x30120, [], .package, .pf,
     [⟨31, 0, .ro, 0, false⟩]⟩,
   ⟨"FLT_SWITCH", 0x30130, [], .package, .pf,
     [⟨31, 31, .wo, 0, false⟩, ⟨30, 30, .wo, 0, false⟩, ⟨18, 16, .wo, 0, false⟩, ⟨15, 0, .wo, 0, false⟩]⟩,
   ⟨"FLT_ACTIVE_ID", 0x30134, [], .package, .shared,
     [⟨31, 0, .ro, 0, false⟩]⟩,
   ⟨"FLT_ACTIVE", 0x30138, [], .package, .shared,
     [⟨31, 28, .ro, 0, false⟩, ⟨27, 24, .ro, 0, false⟩, ⟨12, 0, .ro, 0, false⟩]⟩,
   ⟨"FLT_POS", 0x3013c, [], .package, .shared,
     [⟨11, 0, .ro, 0, false⟩]⟩,
   ⟨"FLT_VARIANT", 0x30140, [], .package, .shared,
     [⟨23, 16, .ro, 0, false⟩, ⟨7, 0, .ro, 0, false⟩]⟩,
   ⟨"FLT_PAIR_ID", 0x30150, [(0x4, 4)], .package, .shared,
     [⟨31, 0, .ro, 0, false⟩]⟩,
   ⟨"CNT_CTRL", 0x40000, [], .package, .pf,
     [⟨31, 31, .rw, 0, false⟩]⟩,
   ⟨"CNT_OWN", 0x40010, [(0x4, 4)], .package, .pf,
     [⟨6, 0, .rw, 0x7f, false⟩, ⟨14, 8, .rw, 0x7f, false⟩, ⟨22, 16, .rw, 0x7f, false⟩, ⟨30, 24, .rw, 0x7f, false⟩]⟩]

/-- Rows 80 to 95 of the register map. -/
def regSpecs5 : List RegSpec :=
  [
   ⟨"CNT_SEL", 0x40100, [], .package, .perFn,
     [⟨24, 16, .rw, 0, false⟩, ⟨3, 0, .rw, 0, false⟩]⟩,
   ⟨"CNT_CFG", 0x40104, [], .package, .perFn,
     [⟨31, 31, .rw, 0, false⟩, ⟨30, 30, .rw, 0, false⟩, ⟨29, 29, .rw, 0, false⟩, ⟨28, 28, .rw, 0, false⟩, ⟨27, 27, .wo, 0, false⟩, ⟨26, 20, .rw, 0, false⟩, ⟨19, 13, .rw, 0, false⟩, ⟨10, 8, .rw, 0, false⟩, ⟨7, 0, .rw, 0, false⟩]⟩,
   ⟨"CNT_FILT", 0x40108, [], .package, .perFn,
     [⟨31, 24, .rw, 0xff, false⟩]⟩,
   ⟨"CNT_ADDR_BASE", 0x4010c, [], .package, .perFn,
     [⟨31, 0, .rw, 0, false⟩]⟩,
   ⟨"CNT_ADDR_LIMIT", 0x40110, [], .package, .perFn,
     [⟨31, 0, .rw, 0, false⟩]⟩,
   ⟨"CNT_VAL_LO", 0x40114, [], .package, .perFn,
     [⟨31, 0, .ro, 0, false⟩]⟩,
   ⟨"CNT_VAL_HI", 0x40118, [], .package, .perFn,
     [⟨31, 0, .ro, 0, false⟩]⟩,
   ⟨"CNT_SNAP_TICK_LO", 0x40120, [], .package, .perFn,
     [⟨31, 0, .ro, 0, false⟩]⟩,
   ⟨"CNT_SNAP_TICK_HI", 0x40124, [], .package, .perFn,
     [⟨31, 0, .ro, 0, false⟩]⟩,
   ⟨"CNT_BW_CFG", 0x40200, [], .package, .pf,
     [⟨31, 31, .rw, 0, false⟩, ⟨15, 0, .rw, 0, false⟩]⟩,
   ⟨"CNT_BW_SEL", 0x40204, [], .package, .pf,
     [⟨5, 0, .rw, 0, false⟩]⟩,
   ⟨"CNT_BW_TX_LO", 0x40208, [], .package, .pf,
     [⟨31, 0, .ro, 0, false⟩]⟩,
   ⟨"CNT_BW_TX_HI", 0x4020c, [], .package, .pf,
     [⟨31, 0, .ro, 0, false⟩]⟩,
   ⟨"CNT_BW_RX_LO", 0x40210, [], .package, .pf,
     [⟨31, 0, .ro, 0, false⟩]⟩,
   ⟨"CNT_BW_RX_HI", 0x40214, [], .package, .pf,
     [⟨31, 0, .ro, 0, false⟩]⟩,
   ⟨"CNT_BW_PEAK", 0x40218, [], .package, .pf,
     [⟨31, 16, .ro, 0, false⟩, ⟨15, 0, .ro, 0, false⟩]⟩]

/-- Rows 96 to 111 of the register map. -/
def regSpecs6 : List RegSpec :=
  [
   ⟨"ERR_LAST", 0x50000, [], .package, .pf,
     [⟨31, 28, .ro, 0, false⟩, ⟨27, 25, .ro, 0, false⟩, ⟨24, 20, .ro, 0, false⟩, ⟨15, 0, .ro, 0, false⟩]⟩,
   ⟨"ERR_LAST_TICK_LO", 0x50004, [], .package, .pf,
     [⟨31, 0, .ro, 0, false⟩]⟩,
   ⟨"ERR_LAST_TICK_HI", 0x50008, [], .package, .pf,
     [⟨31, 0, .ro, 0, false⟩]⟩,
   ⟨"ERR_REPLAY", 0x5000c, [], .package, .pf,
     [⟨31, 24, .ro, 0, false⟩, ⟨23, 16, .ro, 0, false⟩]⟩,
   ⟨"ERR_GAL_FENCE", 0x50010, [], .package, .pf,
     [⟨31, 0, .ro, 0, false⟩]⟩,
   ⟨"ERR_POISON", 0x50014, [], .package, .pf,
     [⟨31, 16, .ro, 0, false⟩, ⟨15, 0, .ro, 0, false⟩]⟩,
   ⟨"ERR_POISON_HITS", 0x50018, [], .package, .scoped,
     [⟨31, 0, .ro, 0, false⟩]⟩,
   ⟨"ERR_HBM_CE", 0x50100, [(0x8, 16)], .powerOn, .pf,
     [⟨31, 0, .rs, 0, false⟩]⟩,
   ⟨"ERR_HBM_UE", 0x50104, [(0x8, 16)], .powerOn, .pf,
     [⟨31, 0, .rs, 0, false⟩]⟩,
   ⟨"BBX_STATUS", 0x58000, [], .powerOn, .pf,
     [⟨31, 30, .ro, 0, false⟩, ⟨29, 23, .ro, 0, false⟩, ⟨0, 0, .ro, 0, false⟩]⟩,
   ⟨"BBX_SEQ_LO", 0x58004, [], .powerOn, .pf,
     [⟨31, 0, .ro, 0, false⟩]⟩,
   ⟨"BBX_SEQ_HI", 0x58008, [], .powerOn, .pf,
     [⟨31, 0, .ro, 0, false⟩]⟩,
   ⟨"BBX_LOST", 0x5800c, [], .powerOn, .pf,
     [⟨31, 0, .ro, 0, false⟩]⟩,
   ⟨"BBX_MASK", 0x58010, [], .package, .pf,
     [⟨10, 1, .rwl, 0, true⟩]⟩,
   ⟨"BBX_INDEX", 0x58014, [], .powerOn, .pf,
     [⟨14, 0, .rw, 0, false⟩]⟩,
   ⟨"BBX_DATA", 0x59000, [(0x4, 64)], .powerOn, .pf,
     [⟨31, 0, .ro, 0, false⟩]⟩]

/-- Rows 112 to 127 of the register map. -/
def regSpecs7 : List RegSpec :=
  [
   ⟨"RES_POOL_FREE", 0x60000, [(0x4, 8)], .package, .pf,
     [⟨20, 0, .ro, 0, false⟩]⟩,
   ⟨"RES_DRIVE_STATUS", 0x60040, [(0x4, 8)], .powerOn, .pf,
     [⟨31, 30, .ro, 0, false⟩, ⟨29, 27, .ro, 0, false⟩, ⟨26, 24, .ro, 0, false⟩, ⟨23, 0, .ro, 0, false⟩]⟩,
   ⟨"RES_QUANT_SAT", 0x60080, [], .package, .pf,
     [⟨31, 0, .ro, 0, false⟩]⟩,
   ⟨"RES_RETRIES", 0x60090, [], .package, .scoped,
     [⟨31, 0, .ro, 0, false⟩]⟩,
   ⟨"RES_FAILURES", 0x60094, [], .package, .scoped,
     [⟨31, 0, .ro, 0, false⟩]⟩,
   ⟨"RES_EVICTIONS", 0x60098, [], .package, .scoped,
     [⟨31, 0, .ro, 0, false⟩]⟩,
   ⟨"RES_CANCELS", 0x6009c, [], .package, .scoped,
     [⟨31, 0, .ro, 0, false⟩]⟩,
   ⟨"RES_PARKED", 0x600a0, [], .package, .scoped,
     [⟨16, 0, .ro, 0, false⟩]⟩,
   ⟨"RES_OOB", 0x600a4, [], .package, .scoped,
     [⟨31, 0, .ro, 0, false⟩]⟩,
   ⟨"RES_INST_CFG", 0x60100, [(0x10, 64)], .package, .pf,
     [⟨31, 24, .rw, 0, true⟩, ⟨23, 20, .rw, 0, true⟩, ⟨19, 13, .rw, 0, true⟩]⟩,
   ⟨"RES_CACHE_WAYS", 0x60104, [(0x10, 64)], .package, .pf,
     [⟨31, 0, .rw, 0, true⟩]⟩,
   ⟨"RES_FLASH_RANGE", 0x60108, [(0x10, 64)], .package, .pf,
     [⟨31, 16, .rw, 0, true⟩, ⟨15, 0, .rw, 0, true⟩]⟩,
   ⟨"RES_LIMITS", 0x6010c, [(0x10, 64)], .package, .pf,
     [⟨14, 0, .rw, 0, true⟩]⟩,
   ⟨"RES_QUOTA", 0x61000, [(0x20, 64), (0x4, 8)], .package, .pf,
     [⟨20, 0, .rw, 0, true⟩]⟩,
   ⟨"RES_USED", 0x62000, [(0x20, 64), (0x4, 8)], .package, .byInst,
     [⟨20, 0, .ro, 0, false⟩]⟩,
   ⟨"RES_ROUTE_KV", 0x63000, [(0x4, 256)], .package, .pf,
     [⟨31, 16, .rw, 0, false⟩, ⟨15, 0, .rw, 0, false⟩]⟩]

/-- Rows 128 to 143 of the register map. -/
def regSpecs8 : List RegSpec :=
  [
   ⟨"LEX_STEM_CTRL", 0x68000, [], .package, .pf,
     [⟨31, 31, .wo, 0, false⟩, ⟨30, 28, .wo, 0, false⟩, ⟨24, 24, .wo, 0, false⟩, ⟨7, 0, .ro, 0, false⟩]⟩,
   ⟨"LEX_STEM_SRC_LO", 0x68004, [], .package, .pf,
     [⟨31, 0, .rw, 0, false⟩]⟩,
   ⟨"LEX_STEM_SRC_HI", 0x68008, [], .package, .pf,
     [⟨31, 0, .rw, 0, false⟩]⟩,
   ⟨"LEX_STEM_LEN", 0x6800c, [], .package, .pf,
     [⟨31, 0, .rw, 0, false⟩]⟩,
   ⟨"LEX_STEM_STATUS", 0x68010, [(0x4, 2)], .package, .shared,
     [⟨31, 28, .ro, 0, false⟩, ⟨16, 0, .ro, 0, false⟩]⟩,
   ⟨"LEX_STEM_BASE", 0x68020, [(0x8, 2)], .package, .pf,
     [⟨16, 0, .rw, 0, false⟩]⟩,
   ⟨"LEX_STEM_SIZE", 0x68024, [(0x8, 2)], .package, .pf,
     [⟨16, 0, .rw, 0, false⟩]⟩,
   ⟨"LEX_STEM_DIGEST", 0x68040, [(0x20, 2), (0x4, 8)], .package, .shared,
     [⟨31, 0, .ro, 0, false⟩]⟩,
   ⟨"LEX_STEM_SEL", 0x68080, [(0x4, 2)], .package, .pf,
     [⟨31, 0, .rw, 0, true⟩]⟩,
   ⟨"LEX_RANGE_BASE", 0x68100, [(0x10, 64)], .package, .pf,
     [⟨23, 0, .rw, 0, true⟩]⟩,
   ⟨"LEX_RANGE_COUNT", 0x68104, [(0x10, 64)], .package, .pf,
     [⟨24, 0, .rw, 0, true⟩]⟩,
   ⟨"LEX_SLOTS", 0x68108, [(0x10, 64)], .package, .pf,
     [⟨27, 16, .rw, 0, true⟩, ⟨12, 0, .rw, 0, true⟩]⟩,
   ⟨"LEX_STATUS", 0x68500, [], .package, .scoped,
     [⟨31, 7, .ro, 0, false⟩, ⟨0, 0, .ro, 0, false⟩]⟩,
   ⟨"LEX_GATE_ID", 0x69000, [], .package, .perFn,
     [⟨23, 0, .rw, 0, false⟩]⟩,
   ⟨"LEX_GATE_STEP", 0x69004, [], .package, .perFn,
     [⟨31, 0, .rw, 0, false⟩]⟩,
   ⟨"LEX_GATE_CMD", 0x69008, [], .package, .perFn,
     [⟨31, 30, .wo, 0, false⟩, ⟨7, 0, .ro, 0, false⟩]⟩]

/-- Rows 144 to 159 of the register map. -/
def regSpecs9 : List RegSpec :=
  [
   ⟨"LEX_GATE_HELD", 0x6900c, [], .package, .scoped,
     [⟨15, 0, .ro, 0, false⟩]⟩,
   ⟨"LEX_TRN_COMMITS", 0x69010, [], .package, .scoped,
     [⟨31, 0, .ro, 0, false⟩]⟩,
   ⟨"LEX_TRN_SKIPS", 0x69014, [], .package, .scoped,
     [⟨31, 0, .ro, 0, false⟩]⟩,
   ⟨"LEX_TRN_REAPPLIES", 0x69018, [], .package, .scoped,
     [⟨31, 0, .ro, 0, false⟩]⟩,
   ⟨"LEX_TRN_WAITS", 0x6901c, [], .package, .scoped,
     [⟨31, 0, .ro, 0, false⟩]⟩,
   ⟨"LEX_GATE_GROUP", 0x69020, [], .package, .perFn,
     [⟨7, 0, .rw, 0, false⟩]⟩,
   ⟨"LEX_GATE_G2", 0x69024, [], .package, .perFn,
     [⟨31, 0, .ro, 0, false⟩]⟩,
   ⟨"LEX_GATE_NONFIN", 0x69028, [], .package, .perFn,
     [⟨31, 0, .ro, 0, false⟩]⟩,
   ⟨"WIN_ATTACH_STATE", 0x70000, [], .package, .perFn,
     [⟨31, 30, .ro, 0, false⟩, ⟨29, 28, .ro, 0, false⟩, ⟨16, 0, .ro, 0, false⟩]⟩,
   ⟨"WIN_HEARTBEAT", 0x70004, [], .package, .perFn,
     [⟨31, 0, .rw, 0, false⟩]⟩,
   ⟨"WIN_LINK", 0x70008, [], .powerOn, .pf,
     [⟨31, 28, .ro, 0, false⟩, ⟨27, 23, .ro, 0, false⟩, ⟨22, 22, .ro, 0, false⟩, ⟨15, 0, .ro, 0, false⟩]⟩,
   ⟨"WIN_IMMUT_WRITES", 0x7000c, [], .package, .scoped,
     [⟨31, 0, .ro, 0, false⟩]⟩,
   ⟨"WIN_EV_LOST", 0x70010, [], .package, .scoped,
     [⟨31, 0, .ro, 0, false⟩]⟩,
   ⟨"WIN_OOB", 0x70014, [], .package, .scoped,
     [⟨31, 0, .ro, 0, false⟩]⟩,
   ⟨"WIN_DBG_ADDR_LO", 0x70020, [], .package, .pf,
     [⟨31, 0, .rw, 0, false⟩]⟩,
   ⟨"WIN_DBG_ADDR_HI", 0x70024, [], .package, .pf,
     [⟨31, 0, .rw, 0, false⟩]⟩]

/-- Rows 160 to 175 of the register map. -/
def regSpecs10 : List RegSpec :=
  [
   ⟨"WIN_RANGE", 0x70100, [(0x10, 64)], .package, .pf,
     [⟨31, 19, .rw, 0, true⟩, ⟨18, 5, .rw, 0, true⟩, ⟨4, 2, .rw, 0, true⟩]⟩,
   ⟨"WIN_RINGS", 0x70104, [(0x10, 64)], .package, .pf,
     [⟨31, 18, .rw, 0, true⟩, ⟨17, 3, .rw, 0, true⟩]⟩,
   ⟨"WIN_HANDLES", 0x70108, [(0x10, 64)], .package, .pf,
     [⟨31, 16, .rw, 0, true⟩, ⟨15, 3, .rw, 0, true⟩]⟩,
   ⟨"WIN_INST_CFG", 0x7010c, [(0x10, 64)], .package, .pf,
     [⟨31, 31, .rw, 0, true⟩, ⟨29, 24, .rw, 4, false⟩, ⟨23, 16, .rw, 0x10, false⟩, ⟨15, 0, .rw, 0, true⟩]⟩,
   ⟨"WIN_DBG_APERTURE", 0x71000, [(0x4, 1024)], .package, .pf,
     [⟨31, 0, .ro, 0, false⟩]⟩,
   ⟨"WIN_LOG_BASE_LO", 0x72000, [(0x20, 64)], .package, .pf,
     [⟨31, 0, .rw, 0, false⟩]⟩,
   ⟨"WIN_LOG_BASE_HI", 0x72004, [(0x20, 64)], .package, .pf,
     [⟨31, 0, .rw, 0, false⟩]⟩,
   ⟨"WIN_LOG_CFG", 0x72008, [(0x20, 64)], .package, .pf,
     [⟨4, 0, .rw, 9, false⟩]⟩,
   ⟨"WIN_LOG_HEAD", 0x7200c, [(0x20, 64)], .package, .pf,
     [⟨19, 0, .rw, 0, false⟩]⟩,
   ⟨"WIN_LOG_TAIL", 0x72010, [(0x20, 64)], .package, .pf,
     [⟨19, 0, .ro, 0, false⟩]⟩,
   ⟨"WIN_LOG_STATUS", 0x72014, [(0x20, 64)], .package, .pf,
     [⟨0, 0, .rw1c, 0, false⟩]⟩,
   ⟨"MGQ_ARG", 0x80000, [(0x4, 6)], .package, .perFn,
     [⟨31, 0, .rw, 0, false⟩]⟩,
   ⟨"MGQ_CMD", 0x80040, [], .package, .perFn,
     [⟨31, 31, .wo, 0, false⟩, ⟨30, 28, .wo, 0, false⟩]⟩,
   ⟨"MGQ_STATUS", 0x80044, [], .package, .perFn,
     [⟨31, 30, .ro, 0, false⟩, ⟨23, 16, .ro, 0, false⟩, ⟨15, 7, .ro, 0, false⟩]⟩,
   ⟨"GAL_MU_STATUS", 0x110000, [(0x100000, 8), (0x40, 16)], .package, .pf,
     [⟨31, 30, .ro, 0, false⟩, ⟨20, 16, .ro, 0x1f, false⟩, ⟨7, 0, .ro, 0, false⟩]⟩,
   ⟨"GAL_MU_PARITY", 0x110004, [(0x100000, 8), (0x40, 16)], .package, .pf,
     [⟨31, 28, .ro, 0, false⟩, ⟨15, 0, .rw1cWhole, 0, false⟩]⟩]

/-- Rows 176 to 191 of the register map. -/
def regSpecs11 : List RegSpec :=
  [
   ⟨"GAL_MU_SAT", 0x110008, [(0x100000, 8), (0x40, 16)], .package, .pf,
     [⟨31, 0, .ro, 0, false⟩]⟩,
   ⟨"GAL_MU_RPL", 0x11000c, [(0x100000, 8), (0x40, 16)], .package, .pf,
     [⟨31, 0, .ro, 0, false⟩]⟩,
   ⟨"GAL_VU_STATUS", 0x120000, [(0x100000, 8), (0x40, 4)], .package, .pf,
     [⟨31, 30, .ro, 0, false⟩, ⟨7, 0, .ro, 0, false⟩]⟩,
   ⟨"GAL_VU_PARITY", 0x120004, [(0x100000, 8), (0x40, 4)], .package, .pf,
     [⟨31, 28, .ro, 0, false⟩, ⟨15, 0, .rw1cWhole, 0, false⟩]⟩,
   ⟨"GAL_VU_SPILL", 0x120008, [(0x100000, 8), (0x40, 4)], .package, .pf,
     [⟨31, 0, .ro, 0, false⟩]⟩,
   ⟨"GAL_VU_DROP", 0x12000c, [(0x100000, 8), (0x40, 4)], .package, .pf,
     [⟨31, 0, .ro, 0, false⟩]⟩,
   ⟨"GAL_VU_SOLVE", 0x120010, [(0x100000, 8), (0x40, 4)], .package, .pf,
     [⟨31, 16, .ro, 0, false⟩, ⟨15, 0, .ro, 0, false⟩]⟩,
   ⟨"GAL_ISU_STATUS", 0x130000, [(0x100000, 8), (0x40, 2)], .package, .pf,
     [⟨31, 30, .ro, 0, false⟩, ⟨7, 0, .ro, 0, false⟩]⟩,
   ⟨"GAL_ISU_PARITY", 0x130004, [(0x100000, 8), (0x40, 2)], .package, .pf,
     [⟨31, 28, .ro, 0, false⟩, ⟨15, 0, .rw1cWhole, 0, false⟩]⟩,
   ⟨"GAL_FAB_STATUS", 0x140000, [(0x100000, 8), (0x40, 3)], .package, .pf,
     [⟨31, 30, .ro, 0, false⟩, ⟨7, 0, .ro, 0, false⟩]⟩,
   ⟨"GAL_FAB_PARITY", 0x140004, [(0x100000, 8), (0x40, 3)], .package, .pf,
     [⟨15, 0, .rw1cWhole, 0, false⟩]⟩,
   ⟨"GAL_FAB_DROP", 0x140008, [(0x100000, 8), (0x40, 3)], .package, .pf,
     [⟨31, 30, .ro, 0, false⟩, ⟨15, 0, .rw1cWhole, 0, false⟩]⟩,
   ⟨"GAL_CAL_WINDOW", 0x1c0000, [(0x100000, 8)], .gallery, .pf,
     [⟨15, 0, .rw, 0, false⟩]⟩,
   ⟨"GAL_CAL_CFG", 0x1c1000, [(0x100000, 8), (0x10, 256)], .gallery, .pf,
     [⟨31, 31, .rw, 0, false⟩, ⟨30, 24, .rw, 0x7f, false⟩, ⟨15, 0, .rw, 0, false⟩]⟩,
   ⟨"GAL_CAL_SAT", 0x1c1004, [(0x100000, 8), (0x10, 256)], .gallery, .pf,
     [⟨31, 0, .ro, 0, false⟩]⟩,
   ⟨"GAL_CAL_ELEM_LO", 0x1c1008, [(0x100000, 8), (0x10, 256)], .gallery, .pf,
     [⟨31, 0, .ro, 0, false⟩]⟩]

/-- Rows 192 to 192 of the register map. -/
def regSpecs12 : List RegSpec :=
  [
   ⟨"GAL_CAL_ELEM_HI", 0x1c100c, [(0x100000, 8), (0x10, 256)], .gallery, .pf,
     [⟨31, 0, .ro, 0, false⟩]⟩]

/-- The register map. -/
def regSpecs : List RegSpec :=
  regSpecs0 ++ regSpecs1 ++ regSpecs2 ++ regSpecs3 ++ regSpecs4 ++ regSpecs5 ++ regSpecs6 ++ regSpecs7 ++ regSpecs8 ++ regSpecs9 ++ regSpecs10 ++ regSpecs11 ++ regSpecs12

/-- The rows of the map with the lowest and the highest offset each group of rows names. -/
def regGroups : List (Nat × Nat × List RegSpec) :=
  [(0x0, 0x17ec, regSpecs0),
   (0x1010, 0x10200, regSpecs1),
   (0x10204, 0x2025c, regSpecs2),
   (0x20260, 0x30100, regSpecs3),
   (0x30104, 0x4001c, regSpecs4),
   (0x40100, 0x40218, regSpecs5),
   (0x50000, 0x590fc, regSpecs6),
   (0x60000, 0x633fc, regSpecs7),
   (0x68000, 0x69008, regSpecs8),
   (0x6900c, 0x70024, regSpecs9),
   (0x70100, 0x8103c4, regSpecs10),
   (0x110008, 0x8c1ff8, regSpecs11),
   (0x1c100c, 0x8c1ffc, regSpecs12)]

/-- Whether `off` is one of the offsets `base + s1 i + s2 j + s3 k` with the indices below their counts. -/
def dimsHit : Nat → List (Nat × Nat) → Bool
  | d, [] => d == 0
  | d, (s, c) :: rest =>
    -- the strides of a set are listed from the largest blocks inwards or do not carry into one another
    let i := min (d / s) (c - 1)
    dimsHit (d - s * i) rest

/-- The register a BAR0 offset names, if any. -/
def regLookup (off : Nat) : Option RegSpec :=
  regGroups.findSome? fun g =>
    if g.1 ≤ off ∧ off ≤ g.2.1 then g.2.2.find? fun r => decide (r.base ≤ off) && dimsHit (off - r.base) r.dims
    else none

/-- The reset value of a list of fields, each in its place. -/
def fieldsReset (fs : List FieldSpec) : Nat := fs.foldl (fun a f => a + f.reset * 2 ^ f.lo) 0

/-- What a register reads at reset: the reset column of its table; a DEV_DESC word its constant (R31); an
offset that names no register 0. -/
def resetWord (off : Nat) : Word :=
  if 0x100 ≤ off ∧ off < 0x160 then wordOf (devDescWords.getD ((off - 0x100) / 4) 0)
  else match regLookup off with
    | some r => wordOf (fieldsReset r.fields)
    | none => 0

end Sys2Proof.Machine
end

