-- ==== Sys2Proof/Machine/Ops.lean ====
section
/-! DEFINITION. The named operations over sparse maps, memories, registers, events, the black box and time. -/

namespace Sys2Proof.Machine

/-! ### Sparse maps -/

/-- What a sparse map holds at a key; an unlisted key reads `d k`. -/
def smGet {β : Type} (d : Nat → β) : SMap β → Nat → β
  | [], k => d k
  | (k', v) :: m, k => if k = k' then v else smGet d m k

/-- The map without a key. -/
def smErase {β : Type} (m : SMap β) (k : Nat) : SMap β := m.filter fun p => p.1 != k

/-- The map with a key listed at a value. -/
def smInsert {β : Type} : SMap β → Nat → β → SMap β
  | [], k, v => [(k, v)]
  | (k', v') :: m, k, v =>
    if k = k' then (k, v) :: m else if k < k' then (k, v) :: (k', v') :: m else (k', v') :: smInsert m k v

/-- The map with a value at a key, in canonical form: the default value is not listed. -/
def smSet {β : Type} [DecidableEq β] (d : Nat → β) (m : SMap β) (k : Nat) (v : β) : SMap β :=
  if v = d k then smErase m k else smInsert m k v

/-- The canonical form: keys strictly rising, no listed value equal to what the key reads as unlisted. -/
def smWf {β : Type} [DecidableEq β] (d : Nat → β) : SMap β → Bool
  | [] => true
  | [(k, v)] => decide (v ≠ d k)
  | (k, v) :: (k', v') :: m => decide (k < k') && decide (v ≠ d k) && smWf d ((k', v') :: m)

/-- The map with its value at a key changed by `f`. -/
def smModify {β : Type} [DecidableEq β] (d : Nat → β) (m : SMap β) (k : Nat) (f : β → β) : SMap β :=
  smSet d m k (f (smGet d m k))

/-- The map without the keys of [lo, hi). -/
def smEraseRange {β : Type} (m : SMap β) (lo hi : Nat) : SMap β := m.filter fun p => p.1 < lo || hi ≤ p.1

/-- The keys of [lo, hi) that the map lists, with their values. -/
def smRange {β : Type} (m : SMap β) (lo hi : Nat) : SMap β := m.filter fun p => lo ≤ p.1 ∧ p.1 < hi

/-! ### Byte memories -/

/-- What an unlisted byte reads as (DESIGN CHOICE: log entry 1). -/
def byteDefault : Nat → Byte := fun _ => 0

/-- The canonical form of a byte memory. -/
def Memory.wf (m : Mem) : Bool := smWf byteDefault m

/-- One byte of a memory. -/
def memByte (m : Mem) (a : Nat) : Byte := smGet byteDefault m a

/-- The `n` bytes from address `a`. -/
def memRead (m : Mem) (a n : Nat) : List Byte :=
  (m.foldr (fun p out => if a ≤ p.1 ∧ p.1 < a + n then out.set! (p.1 - a) p.2 else out) (Array.replicate n 0)).toList

/-- A byte written. -/
def memPut (m : Mem) (a : Nat) (b : Byte) : Mem := smSet byteDefault m a b

/-- The listed cells of a run of bytes from address `a`. -/
def cellsOf : Nat → List Byte → Mem
  | _, [] => []
  | a, b :: bs => if b = 0 then cellsOf (a + 1) bs else (a, b) :: cellsOf (a + 1) bs

/-- A run of bytes written from address `a`. -/
def memWrite (m : Mem) (a : Nat) (bs : List Byte) : Mem :=
  (m.filter fun p => p.1 < a) ++ cellsOf a bs ++ (m.filter fun p => a + bs.length ≤ p.1)

/-- `n` bytes from address `a` set to zero. -/
def memZero (m : Mem) (a n : Nat) : Mem := smEraseRange m a (a + n)

/-- `n` bytes copied from address `a` to address `b`, clear of them. -/
def memCopy (m : Mem) (a b n : Nat) : Mem :=
  (m.filter fun p => p.1 < b) ++ ((smRange m a (a + n)).map fun (p : Nat × Byte) => (p.1 - a + b, p.2)) ++ (m.filter fun p => b + n ≤ p.1)

/-- A little-endian number of `n` bytes. -/
def memNat (m : Mem) (a n : Nat) : Nat := natOfBytes (memRead m a n)

/-- A word of a memory. -/
def memWord (m : Mem) (a : Nat) : Word := wordOf (memNat m a 4)

/-- A word written. -/
def memPutWord (m : Mem) (a : Nat) (w : Word) : Mem := memWrite m a w.bytes

/-! ### Registers -/

/-- The span of one copy of the register space. -/
def regSpan : Nat := 0x10000000

/-- What an unlisted register key reads as: its reset value. -/
def regDefault (k : Nat) : Word := resetWord (k % regSpan)

/-- The key of a register of a copy. -/
def regKey (c off : Nat) : Nat := regSpan * c + off

/-- The register file put in place. -/
def State.putRegs (s : State) (m : SMap Word) : State := { s with regs := m }

/-- A register of copy `c` (0 the package's, n + 1 function or instance n's). -/
def State.regC (s : State) (c off : Nat) : Word := smGet regDefault s.regs (regKey c off)

/-- A register of copy `c` set. -/
def State.setRegC (s : State) (c off : Nat) (v : Word) : State :=
  s.putRegs (smSet regDefault s.regs (regKey c off) v)

/-- A register of the package. -/
def State.reg (s : State) (off : Nat) : Word := s.regC 0 off

/-- A register of the package set. -/
def State.setReg (s : State) (off : Nat) (v : Word) : State := s.setRegC 0 off v

/-- The field [hi:lo] of a register. -/
def State.fld (s : State) (off hi lo : Nat) : Nat := (s.reg off).field hi lo

/-- The field [hi:lo] of a register set. -/
def State.setFld (s : State) (off hi lo v : Nat) : State := s.setReg off ((s.reg off).setField hi lo v)

/-- The field [hi:lo] of a register of a copy set. -/
def State.setFldC (s : State) (c off hi lo v : Nat) : State :=
  s.setRegC c off ((s.regC c off).setField hi lo v)

/-- A saturating count in the field [hi:lo] advanced. -/
def State.count (s : State) (off hi lo n : Nat) : State :=
  s.setFld off hi lo (satAdd (hi + 1 - lo) (s.fld off hi lo) n)

/-- A saturating 32-bit count scoped as TCK_DEFERRALS: the package's copy and the instance's advance. -/
def State.countScoped (s : State) (off : Nat) (inst : Option Nat) (n : Nat) : State :=
  let s1 := s.count off 31 0 n
  match inst with
  | some i => s1.setRegC (i + 1) off (wordOf (satAdd 32 (s1.regC (i + 1) off).toNat n))
  | none => s1

/-- A pair of LO and HI registers as one number. -/
def State.reg64 (s : State) (lo hi : Nat) : Nat := (s.reg lo).toNat + 0x100000000 * (s.reg hi).toNat

/-- A pair of LO and HI registers set. -/
def State.setReg64 (s : State) (lo hi v : Nat) : State :=
  (s.setReg lo (wordOf v)).setReg hi (wordOf (v / 0x100000000))

/-! ### Access codes (R9, R10) -/

/-- A field written by its access code (Table 0-3).  An event of the same cycle as a write stands after it in the queue, so that its bit
ends set (R11; DEDUCED: log entry 111). -/
def fieldWrite (locked : Bool) (old v w : Word) (f : FieldSpec) : Word :=
  match f.acc with
  | .ro | .wo => w
  | .rw | .rs => w.setField f.hi f.lo (v.field f.hi f.lo)
  | .rwl => if locked then w else w.setField f.hi f.lo (v.field f.hi f.lo)
  | .rw1c => w.setField f.hi f.lo ((old &&& ~~~v).field f.hi f.lo)
  | .rw1cWhole => if v.bit f.lo then w.setField f.hi f.lo 0 else w

/-- A register's word after a write of `v` over `old`. -/
def RegSpec.written (r : RegSpec) (locked : Bool) (old v : Word) : Word := r.fields.foldl (fieldWrite locked old v) old

/-- A word as the fields of the register at an offset take it: a reserved field stays as it was (R10). -/
def State.wordFor (s : State) (off : Nat) (w : Word) : Word :=
  match regLookup off with
  | some r => r.written false (s.reg off) w
  | none => w

/-! ### Free values -/

/-- The next free value, and the state with the counter past it (DESIGN CHOICE: log entry 8). -/
def State.free (s : State) : Nat × State := (Config.freeNat s.freeCtr, { s with freeCtr := s.freeCtr + 1 })

/-- A fresh seed for the job keys of a slot pair (R319). -/
def State.freshJobs (s : State) (pair : Nat) : State :=
  let (f, s1) := s.free
  { s1 with trust := { s1.trust with jobSeeds := (List.range 5).map fun i => if i = pair then f else s1.trust.jobSeeds.getD i 0 } }

/-! ### Numbers -/

/-- The two words of a 64-bit number, low word first. -/
def words64 (n : Nat) : List Word := [wordOf n, wordOf (n / 0x100000000)]

/-- 1 for true. -/
def b2n (b : Bool) : Nat := if b then 1 else 0

/-- Units of `tk.now` (250/256 ns) in a millisecond. -/
def msUnits : Nat := 1024000

/-- The length of the tick in those units: PERIOD_Q quarters of a microsecond, stretched. -/
def State.tickUnits (s : State) : Nat := s.fld Reg.TCK_PERIOD 6 0 * s.fld Reg.TCK_STRETCH 8 0

/-- Element `i` of a list of numbers, 0 past its end. -/
def natAt (l : List Nat) (i : Nat) : Nat := l.getD i 0

/-! ### The black box (R430 to R434) -/

/-- Payload bytes of a list of words, at most 228 (Table 15-7) (its corners, DEDUCED: log entry 81). -/
def payloadBytes (ws : List Word) : List Byte := (ws.flatMap Word.bytes).take 228

/-- BBX_STATUS.QUEUED follows the buffer. -/
def State.bbxShow (s : State) : State := s.setFld Reg.BBX_STATUS 29 23 s.bbx.queue.length

/-- A record put into the 64-record buffer; when it is full the record is dropped and counted in BBX_LOST (R431).
With the black box in FAULT nothing is recorded (R432). -/
def State.bbxPut (s : State) (rclass : Nat) (inst : Option Nat) (code : Nat) (payload : List Word) : State :=
  if s.fld Reg.BBX_STATUS 31 30 = 3 then s
  else if 64 ≤ s.bbx.queue.length then
    { s.count Reg.BBX_LOST 31 0 1 with bbx := { s.bbx with lostMark := s.bbx.lostMark + 1 } }
  else
    let r : BbxRecord := ⟨s.bbx.nextSeq, s.tk.count, rclass, inst.getD 0xFF, code, payloadBytes payload⟩
    { s with bbx := { s.bbx with queue := s.bbx.queue ++ [r], nextSeq := s.bbx.nextSeq + 1 } }.bbxShow

/-! ### Events (R12, R14, R351, R431) -/

/-- An event raised, to be published in phase E of a landing: this one when raised before its phase E, else the
next one (R351).  The black box records it when its class is enabled in BBX_MASK (R431). -/
def State.raiseTo (s : State) (code : Nat) (inst : Option Nat) (payload : List Word) (dests : List Nat) : State :=
  let e : Event := ⟨code, inst, payload, dests⟩
  let s1 := { s with events := s.events ++ [e] }
  if (s.reg Reg.BBX_MASK).bit (code / 4096) then s1.bbxPut 1 inst code payload else s1

/-- An event for the physical function alone. -/
def State.raisePf (s : State) (code : Nat) (payload : List Word) : State := s.raiseTo code none payload []

/-- An event for the instance concerned and the physical function (R14). -/
def State.raiseInst (s : State) (code inst : Nat) (payload : List Word) : State :=
  s.raiseTo code (some inst) payload [inst]

/-- An event for the physical function and every instance. -/
def State.raiseAll (s : State) (code : Nat) (payload : List Word) : State :=
  s.raiseTo code none payload (List.range 64)

/-! ### Units in service -/

/-- MU m of gallery g is in service (Table of GAL_MU_STATUS). -/
def State.muUp (s : State) (g m : Nat) : Bool := s.fld (Reg.GAL_MU_STATUS g m) 31 30 == 1 && decide (m < 16)

/-- VU v of gallery g is in service. -/
def State.vuUp (s : State) (g v : Nat) : Bool := s.fld (Reg.GAL_VU_STATUS g v) 31 30 == 1 && decide (v < 4)

/-- ISU i of gallery g is in service. -/
def State.isuUp (s : State) (g i : Nat) : Bool := s.fld (Reg.GAL_ISU_STATUS g i) 31 30 == 1 && decide (i < 2)

/-- A gallery has the link port: 0 the hall link, 1 the side link to the lower gallery of its row, 2 to the higher (R16, R325). -/
def hasPort (g k : Nat) : Bool := k == 0 || (k == 1 && g % 4 != 0) || (k == 2 && g % 4 != 3)

/-- Galleries joined by a side link (R16). -/
def sideAdjacent (a b : Nat) : Bool := a / 4 == b / 4 && (a + 1 == b || b + 1 == a)

/-- Gallery g is fenced as a whole (ERR_GAL_FENCE). -/
def State.galFenced (s : State) (g : Nat) : Bool := s.fld Reg.ERR_GAL_FENCE (4 * g + 3) (4 * g) != 0

/-- Gallery g is parked (PWR_STATE.PARKED). -/
def State.galParked (s : State) (g : Nat) : Bool := (s.reg Reg.PWR_STATE).bit (16 + g)

/-- Gallery g is in service (DEV_CAPACITY.GAL_LIVE). -/
def State.galLive (s : State) (g : Nat) : Bool := (s.reg Reg.DEV_CAPACITY).bit (16 + g)

/-- Galleries in service. -/
def State.liveGals (s : State) : List Nat := (List.range 8).filter s.galLive

/-! ### The tick period -/

/-- A tick period that a switch brought holds from here (step 6 of R27). -/
def State.applyPeriod (s : State) : State :=
  match s.tk.period with
  | some q => { s with tk := { s.tk with period := none } }.setFld Reg.TCK_PERIOD 6 0 q
  | none => s

/-! ### Outcomes -/

/-- A state with the flight images and the tick number of `s`: what a part of the device that never changes them hands on. -/
def State.keepFlights (s t : State) : State := { t with flights := s.flights, tk := { t.tk with count := s.tk.count } }

/-- A state with the queue, the flight images, the service port, JTAG and TCK_COUNT of `s`. -/
def State.kept (s t : State) : State := { s.keepFlights t with pending := s.pending, svc := s.svc, jtag := s.jtag }

/-- A next state in which the queue, the flight images, the service port, JTAG and TCK_COUNT stay as they were: the outcome
of every command that does not belong to them. -/
def keep (s t : State) : Host.Outcome State Fault Refusal := .next (s.kept t)

/-- A next state in which the queue and the flight images stay as they were. -/
def keepRun (s t : State) : Host.Outcome State Fault Refusal := .next { t with pending := s.pending, flights := s.flights }

/-- The state after what may end in a reset: the flight images stay as they were, or are those after a reset. -/
def State.orReset (s t : State) : State :=
  { t with flights := if t.flights = State.reset.flights then State.reset.flights else s.flights }

/-- A next state in which the queue stays as it was. -/
def keepQueue (s t : State) : Host.Outcome State Fault Refusal := .next { t with pending := s.pending }

/-- The policy asks for IDE and the streams are not all secure (R405) (its corners, DEDUCED: log entry 85). -/
def State.ideBlocks (s : State) : Bool := (s.reg Reg.SEC_STATUS).bit 29 && !(s.reg Reg.SEC_STATUS).bit 28

/-- The device's own accesses to host memory: the link is up and R405 blocks no memory traffic (log 65). -/
def State.linkOpen (s : State) : Bool := s.hs.linkUp && !s.ideBlocks

/-- The BARs and CXL.mem are served: the device is READY and its link carries more than configuration (R405, R456). -/
def State.barServed (s : State) : Bool := s.linkOpen && s.fld Reg.RST_STATUS 31 28 == 7

end Sys2Proof.Machine
end

