-- ==== Sys2Proof/Machine/Digest.lean ====
section
/-! DEFINITION. SHA-256 and CRC-32C (R304, R430). -/

namespace Sys2Proof.Machine

/-! ### SHA-256 (FIPS 180-4) -/

/-- Round constants 0 to 15. -/
def shaK0 : List Word :=
  [0x428a2f98#32, 0x71374491#32, 0xb5c0fbcf#32, 0xe9b5dba5#32, 0x3956c25b#32, 0x59f111f1#32, 0x923f82a4#32, 0xab1c5ed5#32,
   0xd807aa98#32, 0x12835b01#32, 0x243185be#32, 0x550c7dc3#32, 0x72be5d74#32, 0x80deb1fe#32, 0x9bdc06a7#32, 0xc19bf174#32]

/-- Round constants 16 to 31. -/
def shaK1 : List Word :=
  [0xe49b69c1#32, 0xefbe4786#32, 0xfc19dc6#32, 0x240ca1cc#32, 0x2de92c6f#32, 0x4a7484aa#32, 0x5cb0a9dc#32, 0x76f988da#32,
   0x983e5152#32, 0xa831c66d#32, 0xb00327c8#32, 0xbf597fc7#32, 0xc6e00bf3#32, 0xd5a79147#32, 0x6ca6351#32, 0x14292967#32]

/-- Round constants 32 to 47. -/
def shaK2 : List Word :=
  [0x27b70a85#32, 0x2e1b2138#32, 0x4d2c6dfc#32, 0x53380d13#32, 0x650a7354#32, 0x766a0abb#32, 0x81c2c92e#32, 0x92722c85#32,
   0xa2bfe8a1#32, 0xa81a664b#32, 0xc24b8b70#32, 0xc76c51a3#32, 0xd192e819#32, 0xd6990624#32, 0xf40e3585#32, 0x106aa070#32]

/-- Round constants 48 to 63. -/
def shaK3 : List Word :=
  [0x19a4c116#32, 0x1e376c08#32, 0x2748774c#32, 0x34b0bcb5#32, 0x391c0cb3#32, 0x4ed8aa4a#32, 0x5b9cca4f#32, 0x682e6ff3#32,
   0x748f82ee#32, 0x78a5636f#32, 0x84c87814#32, 0x8cc70208#32, 0x90befffa#32, 0xa4506ceb#32, 0xbef9a3f7#32, 0xc67178f2#32]

/-- The 64 round constants. -/
def shaK : List Word := shaK0 ++ shaK1 ++ shaK2 ++ shaK3

/-- The initial hash value. -/
def shaInit : List Word :=
  [0x6a09e667#32, 0xbb67ae85#32, 0x3c6ef372#32, 0xa54ff53a#32, 0x510e527f#32, 0x9b05688c#32, 0x1f83d9ab#32, 0x5be0cd19#32]

/-- A big-endian word from four bytes. -/
def beWord (bs : List Byte) : Word := wordOf (natOfBytes ((bs.take 4).reverse))

/-- The message padded to a multiple of 64 bytes. -/
def shaPad (bs : List Byte) : List Byte :=
  let n := bs.length
  bs ++ [0x80#8] ++ List.replicate ((119 - n % 64) % 64) 0 ++ (bytesOfNat 8 (8 * n)).reverse

/-- The message schedule extended by one word; the newest word is first. -/
def shaNext (w : List Word) : Word :=
  let a := wordAt w 1
  let b := wordAt w 14
  let s1 := a.rotateRight 17 ^^^ a.rotateRight 19 ^^^ a >>> 10
  let s0 := b.rotateRight 7 ^^^ b.rotateRight 18 ^^^ b >>> 3
  s1 + wordAt w 6 + s0 + wordAt w 15

/-- The schedule, newest word first. -/
def shaSched : (n : Nat) → List Word → List Word
  | 0, w => w
  | n + 1, w => shaSched n (shaNext w :: w)

/-- The eight working variables. -/
structure Sha where
  a : Word
  b : Word
  c : Word
  d : Word
  e : Word
  f : Word
  g : Word
  h : Word
  deriving DecidableEq, Repr

/-- One round. -/
def shaRound (v : Sha) (kw : Word) : Sha :=
  let s1 := v.e.rotateRight 6 ^^^ v.e.rotateRight 11 ^^^ v.e.rotateRight 25
  let ch := (v.e &&& v.f) ^^^ (~~~v.e &&& v.g)
  let t1 := v.h + s1 + ch + kw
  let s0 := v.a.rotateRight 2 ^^^ v.a.rotateRight 13 ^^^ v.a.rotateRight 22
  let mj := (v.a &&& v.b) ^^^ (v.a &&& v.c) ^^^ (v.b &&& v.c)
  ⟨t1 + (s0 + mj), v.a, v.b, v.c, v.d + t1, v.e, v.f, v.g⟩

/-- One block of 64 bytes. -/
def shaBlock (v : Sha) (bs : List Byte) : Sha :=
  let w0 := (List.range 16).map fun i => beWord (bs.drop (4 * i))
  let ws := (shaSched 48 w0.reverse).reverse
  let r := ((shaK.zip ws).map fun p => p.1 + p.2).foldl shaRound v
  ⟨v.a + r.a, v.b + r.b, v.c + r.c, v.d + r.d, v.e + r.e, v.f + r.f, v.g + r.g, v.h + r.h⟩

/-- The blocks of a padded message. -/
def shaBlocks : (n : Nat) → Sha → List Byte → Sha
  | 0, v, _ => v
  | n + 1, v, bs => shaBlocks n (shaBlock v (bs.take 64)) (bs.drop 64)

/-- The SHA-256 digest of a message, 32 bytes in order. -/
def sha256 (bs : List Byte) : List Byte :=
  let p := shaPad bs
  let i := wordAt shaInit
  let v := shaBlocks (p.length / 64) ⟨i 0, i 1, i 2, i 3, i 4, i 5, i 6, i 7⟩ p
  [v.a, v.b, v.c, v.d, v.e, v.f, v.g, v.h].flatMap fun w => w.bytes.reverse

/-- A digest as the eight words that stand in a table. -/
def sha256Words (bs : List Byte) : List Word := wordsOfBytes (sha256 bs)

/-! ### CRC-32C (R430) -/

/-- One bit of the reflected CRC. -/
def crcBit (c : Word) : Word := if c.bit 0 then (c >>> 1) ^^^ 0x82F63B78#32 else c >>> 1

/-- One byte. -/
def crcByte (c : Word) (b : Byte) : Word :=
  let x := c ^^^ wordOf b.toNat
  crcBit (crcBit (crcBit (crcBit (crcBit (crcBit (crcBit (crcBit x)))))))

/-- CRC-32C: initial value and final XOR 0xFFFFFFFF. -/
def crc32c (bs : List Byte) : Word := (bs.foldl crcByte 0xFFFFFFFF#32) ^^^ 0xFFFFFFFF#32

end Sys2Proof.Machine
end

