-- ==== Sys2Proof/Machine/Bbx.lean ====
section
/-! DEFINITION. The black box (R430 to R434). -/

namespace Sys2Proof.Machine

/-- The 256 bytes of a record, its CRC last (Table 15-7, R430). -/
def bbxBytes (r : BbxRecord) : List Byte :=
  let head := (words64 r.seq.toNat ++ words64 r.tick.toNat
    ++ [wordOf (r.rclass % 256 * 0x1000000 + r.inst % 256 * 0x10000 + r.code % 65536), wordOf (r.payload.length * 0x1000000)]).flatMap
      Word.bytes
  let body := head ++ r.payload ++ List.replicate (228 - r.payload.length) 0
  body ++ (crc32c body).bytes

/-- Where a record stands in the MRAM (R431). -/
def bbxOffset (seq : BitVec 64) : Nat := 256 * (seq.toNat % 32768)

/-- The black box goes to FAULT and the device runs on without it (R432). -/
def State.bbxFault (s : State) (cause : Nat) : State :=
  (s.setFld Reg.BBX_STATUS 31 30 3).raisePf 0x7030 [wordOf cause]

/-- Space freed after records were dropped: one RCLASS 5 record with the count lost (R431). -/
def State.bbxLostRecord (s : State) : State :=
  if s.bbx.lostMark = 0 then s
  else
    let n := s.bbx.lostMark
    { s with bbx := { s.bbx with lostMark := 0 } }.bbxPut 5 none 0 [wordOf n]

/-- The oldest record of the buffer taken out. -/
def State.bbxPop (s : State) : State := { s with bbx := { s.bbx with queue := s.bbx.queue.drop 1 } }.bbxShow

/-- Bytes written to the MRAM. -/
def State.bbxStore (s : State) (a : Nat) (bs : List Byte) : State :=
  { s with mem := { s.mem with mram := memWrite s.mem.mram a bs } }

/-- BBX_RECORD_WRITTEN: the oldest queued record is written in SEQ order by one 256-byte write; one that fails its
readback leaves undefined bytes and puts the black box in FAULT (R431, R432) (its corners, DEDUCED: log entry 74). -/
def execBbxRecordWritten (ok : Bool) (s : State) : Host.Outcome State Fault Refusal :=
  keep s (if s.fld Reg.BBX_STATUS 31 30 ≠ 1 then s
    else match s.bbx.queue with
      | [] => s
      | r :: _ =>
        if ok then ((s.bbxStore (bbxOffset r.seq) (bbxBytes r)).bbxPop).bbxLostRecord
        else
          let (f, s1) := s.free
          ((s1.bbxStore (bbxOffset r.seq) (bytesOfNat 256 f)).bbxPop).bbxFault 1)

/-- BBX_INDEX written. -/
def State.writeBbxIndex (s : State) (index : Nat) : State :=
  let s1 := (s.setReg Reg.BBX_INDEX (wordOf index)).setFld Reg.BBX_STATUS 0 0 0
  { s1 with bbx := { s1.bbx with reading := true } }

/-- BBX_INDEX_WRITE: the record to read; RDY clears and the read starts (R434). -/
def execBbxIndexWrite (index : BitVec 15) (s : State) : Host.Outcome State Fault Refusal := keep s (s.writeBbxIndex index.toNat)

/-- Word `w` of the record at BBX_INDEX, as stored. -/
def State.bbxWord (s : State) (w : Nat) : Word := memWord s.mem.mram (256 * s.fld Reg.BBX_INDEX 14 0 + 4 * w)

/-- BBX_DATA_READY: the read that BBX_INDEX started is done (R434). -/
def execBbxDataReady (s : State) : Host.Outcome State Fault Refusal :=
  keep s (if s.bbx.reading && s.fld Reg.BBX_STATUS 31 30 == 1 then
      let s1 := s.setFld Reg.BBX_STATUS 0 0 1
      { s1 with bbx := { s1.bbx with reading := false } }
    else s)

end Sys2Proof.Machine
end

