-- ==== Sys2Proof/Machine/Cipher.lean ====
section
/-! DEFINITION. HMAC-SHA-256 and HKDF-SHA-256 (R395, R397), AES-256-GCM (R319, R402), the check of an RSASSA-PSS signature (R388), RSAES-OAEP
(R396, R404) and FFDHE3072 (R391), as RFC 2104, RFC 5869, FIPS 197, SP 800-38D, RFC 8017 and RFC 7919 give them (PRESUMED: log entry 67). -/

namespace Sys2Proof.Machine

/-! ### HMAC and HKDF -/

/-- Bytes added bit by bit to the bytes of a second list, which reads 0 past its end. -/
def xorBytes : List Byte → List Byte → List Byte
  | [], _ => []
  | a :: as, bs => (a ^^^ bs.headD 0) :: xorBytes as bs.tail

/-- HMAC-SHA-256 of a message under a key of at most 64 bytes. -/
def hmac (key msg : List Byte) : List Byte :=
  let k := key ++ List.replicate (64 - key.length) 0
  sha256 (k.map (· ^^^ 0x5C#8) ++ sha256 (k.map (· ^^^ 0x36#8) ++ msg))

/-- 32 bytes of HKDF-SHA-256 from a secret, with a zero salt (R397). -/
def hkdf (secret info : List Byte) : List Byte := hmac (hmac (List.replicate 32 0) secret) (info ++ [1])

/-! ### AES-256 -/

/-- A byte of the AES field times x. -/
def aesTimes2 (b : Byte) : Byte := (b <<< 1) ^^^ (if b.getLsbD 7 then 0x1B#8 else 0)

/-- The product of two bytes in the AES field, from `n` bits of the second. -/
def aesMul (a b : Byte) : (n : Nat) → Byte
  | 0 => 0
  | n + 1 => (if b.getLsbD 0 then a else 0) ^^^ aesMul (aesTimes2 a) (b >>> 1) n

/-- A byte's square. -/
def aesSquare (a : Byte) : Byte := aesMul a a 8

/-- A byte's inverse, its 254th power. -/
def aesInverse (a : Byte) : Byte :=
  let a2 := aesSquare a
  let a3 := aesMul a2 a 8
  let a12 := aesSquare (aesSquare a3)
  let a15 := aesMul a12 a3 8
  let a240 := aesSquare (aesSquare (aesSquare (aesSquare a15)))
  aesMul (aesMul a240 a12 8) a2 8

/-- The substitution of a byte. -/
def aesSubstitute (b : Byte) : Byte :=
  let i := aesInverse b
  i ^^^ i.rotateLeft 1 ^^^ i.rotateLeft 2 ^^^ i.rotateLeft 3 ^^^ i.rotateLeft 4 ^^^ 0x63#8

/-- The substitution of every byte. -/
def aesBox : Array Byte := ((List.range 256).map fun i => aesSubstitute (byteOf i)).toArray

/-- The substitution looked up. -/
def aesSub (b : Byte) : Byte := aesBox.getD b.toNat 0

/-- The key schedule of a 32-byte key: 60 words of four bytes, from the words so far with the newest first. -/
def aesSchedule : (n i : Nat) → Byte → List (List Byte) → List (List Byte)
  | 0, _, _, ws => ws
  | n + 1, i, rcon, ws =>
    let last := ws.headD []
    let back := ws.getD 7 []
    let turned := (last.drop 1 ++ last.take 1).map aesSub
    let t := if i % 8 = 0 then xorBytes turned [rcon, 0, 0, 0] else if i % 8 = 4 then last.map aesSub else last
    aesSchedule n (i + 1) (if i % 8 = 0 then aesTimes2 rcon else rcon) (xorBytes back t :: ws)

/-- A list cut into rows of `w`. -/
def chunksOf {α : Type} (w : Nat) : (n : Nat) → List α → List (List α)
  | 0, _ => []
  | n + 1, xs => xs.take w :: chunksOf w n (xs.drop w)

/-- The 15 round keys of a 32-byte key. -/
def aesKeys (key : List Byte) : List (List Byte) :=
  let ws := (aesSchedule 52 8 1 (chunksOf 4 8 key).reverse).reverse
  (chunksOf 4 15 ws).map fun r => r.flatten

/-- The rows of a block shifted; a block is held column by column. -/
def aesShift (b : List Byte) : List Byte := (List.range 16).map fun i => b.getD ((i + 4 * (i % 4)) % 16) 0

/-- A column mixed. -/
def aesMix (c : List Byte) : List Byte :=
  (List.range 4).map fun i =>
    let x := fun k => c.getD ((i + k) % 4) 0
    aesTimes2 (x 0) ^^^ (aesTimes2 (x 1) ^^^ x 1) ^^^ x 2 ^^^ x 3

/-- The rounds after the first key addition; the last one mixes no column. -/
def aesRounds : List (List Byte) → List Byte → List Byte
  | [], b => b
  | [k], b => xorBytes (aesShift (b.map aesSub)) k
  | k :: ks, b => aesRounds ks (xorBytes ((chunksOf 4 4 (aesShift (b.map aesSub))).flatMap aesMix) k)

/-- A block of 16 bytes encrypted. -/
def aesBlock (keys : List (List Byte)) (b : List Byte) : List Byte :=
  match keys with
  | [] => b
  | k :: ks => aesRounds ks (xorBytes b k)

/-! ### GCM -/

/-- A block as a number, its first byte the highest. -/
def beNat (bs : List Byte) : Nat := bs.foldl (fun n b => 256 * n + b.toNat) 0

/-- A number as `n` bytes, the highest first. -/
def beBytes (n v : Nat) : List Byte := (bytesOfNat n v).reverse

/-- The product of two blocks in the field of GCM, from `n` bits of `x`, highest first. -/
def gcmMul (x v z : BitVec 128) : (n : Nat) → BitVec 128
  | 0 => z
  | n + 1 =>
    let z1 := if x.getLsbD n then z ^^^ v else z
    let v1 := (v >>> 1) ^^^ (if v.getLsbD 0 then 0xE1000000000000000000000000000000#128 else 0)
    gcmMul x v1 z1 n

/-- The hash of a run of blocks. -/
def ghash (h : BitVec 128) (blocks : List (List Byte)) : BitVec 128 :=
  blocks.foldl (fun y b => gcmMul (y ^^^ BitVec.ofNat 128 (beNat b)) h 0 128) 0

/-- Bytes in blocks of 16, the last one filled with zeros. -/
def gcmBlocks (bs : List Byte) : List (List Byte) :=
  chunksOf 16 (ceilDiv bs.length 16) (bs ++ List.replicate (ceilDiv bs.length 16 * 16 - bs.length) 0)

/-- Bytes in counter mode from counter `c` on. -/
def gcmStream (keys : List (List Byte)) (iv : List Byte) : (n c : Nat) → List Byte → List Byte
  | 0, _, _ => []
  | n + 1, c, bs => xorBytes (bs.take 16) (aesBlock keys (iv ++ beBytes 4 c)) ++ gcmStream keys iv n (c + 1) (bs.drop 16)

/-- Bytes encrypted or decrypted under a 12-byte initialisation vector. -/
def gcmCrypt (keys : List (List Byte)) (iv bs : List Byte) : List Byte := gcmStream keys iv (ceilDiv bs.length 16) 2 bs

/-- The tag of a ciphertext and its additional data. -/
def gcmTag (keys : List (List Byte)) (iv aad ct : List Byte) : List Byte :=
  let h := BitVec.ofNat 128 (beNat (aesBlock keys (List.replicate 16 0)))
  let lens := beBytes 8 (8 * aad.length) ++ beBytes 8 (8 * ct.length)
  let y := ghash h (gcmBlocks aad ++ gcmBlocks ct ++ [lens])
  xorBytes (beBytes 16 y.toNat) (aesBlock keys (iv ++ [0, 0, 0, 1]))

/-- AES-256-GCM: ciphertext and tag. -/
def gcmSeal (key iv aad pt : List Byte) : List Byte × List Byte :=
  let keys := aesKeys key
  let ct := gcmCrypt keys iv pt
  (ct, gcmTag keys iv aad ct)

/-- AES-256-GCM: the plaintext, none where the tag fails. -/
def gcmOpen (key iv aad ct tag : List Byte) : Option (List Byte) :=
  let keys := aesKeys key
  if gcmTag keys iv aad ct = tag then some (gcmCrypt keys iv ct) else none

/-! ### RSASSA-PSS with RSA-3072, SHA-256, MGF1 with SHA-256 and a salt of 32 bytes (R388) -/

/-- A number squared `n` times modulo `m`. -/
def modSquares (m : Nat) : (n : Nat) → Nat → Nat
  | 0, x => x
  | n + 1, x => modSquares m n (x * x % m)

/-- `len` bytes of MGF1 with SHA-256. -/
def mgf1 (seed : List Byte) (len : Nat) : List Byte :=
  ((List.range (ceilDiv len 32)).flatMap fun c => sha256 (seed ++ beBytes 4 c)).take len

/-- A signature of a message verifies under a modulus of 384 bytes, highest byte first, with exponent 65,537. -/
def rsaVerify (modulus msg sig : List Byte) : Bool :=
  let n := beNat modulus
  let x := beNat sig
  if modulus.length ≠ 384 ∨ sig.length ≠ 384 ∨ n < 2 ^ 3071 ∨ n ≤ x then false
  else
    let em := beBytes 384 (modSquares n 16 x * x % n)
    let h := (em.drop 351).take 32
    let masked := em.take 351
    let top := (masked.headD 0).getLsbD 7
    let db := match xorBytes masked (mgf1 h 351) with
      | [] => []
      | b :: bs => (b &&& 0x7F#8) :: bs
    let salt := db.drop 319
    em.getD 383 0 == 0xBC#8 && !top && db.take 319 == List.replicate 318 0 ++ [1] && sha256 (List.replicate 8 0 ++ sha256 msg ++ salt) == h

/-! ### RSAES-OAEP with SHA-256 and MGF1 with SHA-256 (R396, R404), and FFDHE3072 (R391) -/

/-- A power modulo `m`, from the lowest `n` bits of the exponent. -/
def modPow (m : Nat) : (n : Nat) → (e x acc : Nat) → Nat
  | 0, _, _, acc => acc
  | n + 1, e, x, acc => modPow m n (e / 2) (x * x % m) (if e % 2 = 1 then acc * x % m else acc)

/-- A message of at most 318 bytes wrapped to a modulus of 384 bytes, highest byte first, under a label and a seed of 32 bytes. -/
def oaepSeal (modulus label seed msg : List Byte) : List Byte :=
  let n := beNat modulus
  let db := sha256 label ++ List.replicate (318 - msg.length) 0 ++ [1] ++ msg
  let masked := xorBytes db (mgf1 seed 351)
  let x := beNat ([0] ++ xorBytes seed (mgf1 masked 32) ++ masked)
  beBytes 384 (modSquares n 16 x * x % n)

/-- The message that a wrapped run of 384 bytes holds under a private exponent and a label; none where it is not formed so. -/
def oaepOpen (n d : Nat) (label wrapped : List Byte) : Option (List Byte) :=
  let c := beNat wrapped
  if wrapped.length ≠ 384 ∨ n ≤ c then none
  else
    let em := beBytes 384 (modPow n 3072 d c 1)
    let masked := em.drop 33
    let seed := xorBytes ((em.drop 1).take 32) (mgf1 masked 32)
    let db := xorBytes masked (mgf1 seed 351)
    match (db.drop 32).dropWhile (· == 0) with
    | b :: msg => if em.headD 1 = 0 ∧ db.take 32 = sha256 label ∧ b = 1 then some msg else none
    | [] => none

/-- The prime of the group FFDHE3072, as RFC 7919 gives it (PRESUMED: log entry 67); its generator is 2. -/
def ffdhePrime : Nat :=
  let p0 := 0xFFFFFFFFFFFFFFFFADF85458A2BB4A9AAFDC5620273D3CF1D8B9C583CE2D3695A9E13641146433FBCC939DCE249B3EF9
  let p1 := 0x7D2FE363630C75D8F681B202AEC4617AD3DF1ED5D5FD65612433F51F5F066ED0856365553DED1AF3B557135E7F57C935
  let p2 := 0x984F0C70E0E68B77E2A689DAF3EFE8721DF158A136ADE73530ACCA4F483A797ABC0AB182B324FB61D108A94BB2C8E3FB
  let p3 := 0xB96ADAB760D7F4681D4F42A3DE394DF4AE56EDE76372BB190B07A7C8EE0A6D709E02FCE1CDF7E2ECC03404CD28342F61
  let p4 := 0x9172FE9CE98583FF8E4F1232EEF28183C3FE3B1B4C6FAD733BB5FCBC2EC22005C58EF1837D1683B2C6F34A26C1B2EFFA
  let p5 := 0x886B4238611FCFDCDE355B3B6519035BBC34F4DEF99C023861B46FC9D6E6C9077AD91D2691F7F7EE598CB0FAC186D91C
  let p6 := 0xAEFE130985139270B4130C93BC437944F4FD4452E2D74DD364F2E21E71F54BFF5CAE82AB9C9DF69EE86D2BC522363A0D
  let p7 := 0xABC521979B0DEADA1DBF9A42D5C4484E0ABCD06BFA53DDEF3C1B20EE3FD59D7C25E41D2B66C62E37FFFFFFFFFFFFFFFF
  [p0, p1, p2, p3, p4, p5, p6, p7].foldl (fun n w => n * 2 ^ 384 + w) 0

/-- 2 or another element of the group raised to an exponent of 3072 bits. -/
def ffdhePow (x e : Nat) : Nat := modPow ffdhePrime 3072 e (x % ffdhePrime) 1

end Sys2Proof.Machine
end

