-- ==== Sys2Proof/Machine/Fp.lean ====
section
/-! DEFINITION. Number formats (R105 to R131): decoding, exact arithmetic on decoded values, the one rounding, and
conversions.  A decoded value is exact; a rounding is always a separate step. -/

namespace Sys2Proof.Machine

/-- A decoded value: NaN, an infinity, or (-1)^neg × mant × 2^exp. -/
inductive Fv where
  | nan
  | inf (neg : Bool)
  | fin (neg : Bool) (mant : Nat) (exp : Int)
  deriving DecidableEq, Repr

/-- A floating-point format (Tables 4-2 and 4-3): mantissa bits, total bits but the sign, bias, the encodings of
the largest finite value, of +infinity (none: no infinity) and of the canonical NaN. -/
structure FpFmt where
  mbits : Nat
  mag : Nat
  bias : Nat
  maxFin : Nat
  infEnc : Option Nat
  nanEnc : Nat
  deriving DecidableEq, Repr

def fp32 : FpFmt := ⟨23, 31, 127, 0x7F7FFFFF, some 0x7F800000, 0x7FC00000⟩
def bf16 : FpFmt := ⟨7, 15, 127, 0x7F7F, some 0x7F80, 0x7FC0⟩
def fp16 : FpFmt := ⟨10, 15, 15, 0x7BFF, some 0x7C00, 0x7E00⟩
def e4m3 : FpFmt := ⟨3, 7, 7, 0x7E, none, 0x7F⟩
def e5m2 : FpFmt := ⟨2, 7, 15, 0x7B, some 0x7C, 0x7E⟩

/-- The exponent of the format's smallest subnormal (R106). -/
def fmtQMin (f : FpFmt) : Int := 1 - (f.bias : Int) - (f.mbits : Int)

/-- The value of an encoding (R106, R107): every NaN decodes alike (R108). -/
def fpDecode (f : FpFmt) (bits : Nat) : Fv :=
  let mag := bits % 2 ^ f.mag
  let neg := decide (bits / 2 ^ f.mag % 2 = 1)
  if f.maxFin < mag then
    match f.infEnc with
    | some i => if mag = i then .inf neg else .nan
    | none => .nan
  else
    let e := mag / 2 ^ f.mbits
    let m := mag % 2 ^ f.mbits
    if e = 0 then .fin neg m (fmtQMin f) else .fin neg (m + 2 ^ f.mbits) (fmtQMin f + (e : Int) - 1)

/-- `m / 2^k` rounded to nearest, ties to even (R120). -/
def rneShift (m k : Nat) : Nat :=
  let q := m / 2 ^ k
  let r := m % 2 ^ k
  if 2 * r > 2 ^ k ∨ (2 * r = 2 ^ k ∧ q % 2 = 1) then q + 1 else q

/-- The magnitude encoding a finite value rounds to as if the exponent range were unbounded (R121): it overflows
when it exceeds the encoding of the largest finite value. -/
def rneEnc (f : FpFmt) (m : Nat) (e : Int) : Nat :=
  if m = 0 then 0 else
  let top : Int := e + (Nat.log2 m : Int)
  let q := max (fmtQMin f) (top - (f.mbits : Int))
  let n := if e < q then rneShift m (q - e).toNat else m * 2 ^ (e - q).toNat
  n + (q - fmtQMin f).toNat * 2 ^ f.mbits

/-- A rounded value: the encoding, whether a finite value overflowed (R121), whether R129 counts it. -/
structure Rounded where
  enc : Nat
  ovfl : Bool
  sat : Bool
  deriving DecidableEq, Repr

/-- The sign bit of a format's encoding. -/
def signEnc (f : FpFmt) (neg : Bool) : Nat := if neg then 2 ^ f.mag else 0

/-- Rounding to a format under the overflow mode: OVF 0 SAT, 1 IEEE (R120 to R122, R129). -/
def fpRound (f : FpFmt) (ovf : Bool) : Fv → Rounded
  | .nan => ⟨f.nanEnc, false, false⟩
  | .inf neg =>
    if ovf then
      match f.infEnc with
      | some i => ⟨signEnc f neg + i, false, false⟩
      | none => ⟨f.nanEnc, false, true⟩
    else ⟨signEnc f neg + f.maxFin, false, true⟩
  | .fin neg m e =>
    let n := rneEnc f m e
    if n ≤ f.maxFin then ⟨signEnc f neg + n, false, false⟩
    else if ovf then
      match f.infEnc with
      | some i => ⟨signEnc f neg + i, true, true⟩
      | none => ⟨f.nanEnc, true, true⟩
    else ⟨signEnc f neg + f.maxFin, true, true⟩

/-- The value a rounding gives. -/
def fpRoundV (f : FpFmt) (ovf : Bool) (v : Fv) : Fv := fpDecode f (fpRound f ovf v).enc

/-- RNE to FP32 with the format's own infinities: the rounding inside a sum (R172). -/
def rne32 (v : Fv) : Fv := fpRoundV fp32 true v

/-- The value of a word as FP32. -/
def f32 (w : Word) : Fv := fpDecode fp32 w.toNat

/-- A value as an FP32 word under an overflow mode. -/
def toF32 (ovf : Bool) (v : Fv) : Word := wordOf (fpRound fp32 ovf v).enc

/-- +0. -/
def pz : Fv := .fin false 0 0

/-- The sign of a value; NaN counts as positive (R108). -/
def fvNeg : Fv → Bool
  | .nan => false
  | .inf n => n
  | .fin n _ _ => n

/-- A value is finite. -/
def fvFinite : Fv → Bool
  | .fin _ _ _ => true
  | _ => false

/-- A value is a zero. -/
def fvZero : Fv → Bool
  | .fin _ m _ => m == 0
  | _ => false

/-- -x, NaN staying NaN. -/
def fvNegate : Fv → Fv
  | .nan => .nan
  | .inf n => .inf !n
  | .fin n m e => .fin (!n) m e

/-- |x|. -/
def fvAbs : Fv → Fv
  | .nan => .nan
  | .inf _ => .inf false
  | .fin _ m e => .fin false m e

/-- An exact integer as a value; zero is +0. -/
def fvOfInt (i : Int) : Fv := .fin (decide (i < 0)) i.natAbs 0

/-- An exact integer times a power of two as a value; zero is +0. -/
def fvOfScaled (i : Int) (e : Int) : Fv := .fin (decide (i < 0)) i.natAbs e

/-- The signed mantissa. -/
def sInt (neg : Bool) (m : Nat) : Int := if neg then -(m : Int) else m

/-- The exact sum; an exact sum of zero is +0 but for two negative zeros (R109). -/
def fvAdd : Fv → Fv → Fv
  | .nan, _ => .nan
  | _, .nan => .nan
  | .inf a, .inf b => if a = b then .inf a else .nan
  | .inf a, _ => .inf a
  | _, .inf b => .inf b
  | .fin na ma ea, .fin nb mb eb =>
    if ma = 0 ∧ mb = 0 then .fin (na && nb) 0 0
    else if ma = 0 then .fin nb mb eb
    else if mb = 0 then .fin na ma ea
    else
      let e := min ea eb
      fvOfScaled (sInt na ma * 2 ^ (ea - e).toNat + sInt nb mb * 2 ^ (eb - e).toNat) e

/-- The exact difference. -/
def fvSub (a b : Fv) : Fv := fvAdd a (fvNegate b)

/-- The exact product; 0 × ∞ is NaN (R108), a zero keeps its sign (R109). -/
def fvMul : Fv → Fv → Fv
  | .nan, _ => .nan
  | _, .nan => .nan
  | .inf a, .inf b => .inf (a ^^ b)
  | .inf a, .fin nb m _ => if m = 0 then .nan else .inf (a ^^ nb)
  | .fin na m _, .inf b => if m = 0 then .nan else .inf (na ^^ b)
  | .fin na ma ea, .fin nb mb eb => .fin (na ^^ nb) (ma * mb) (ea + eb)

/-- A finite value times 2^k, exactly. -/
def fvScale (v : Fv) (k : Int) : Fv :=
  match v with
  | .fin n m e => .fin n m (e + k)
  | v => v

/-- a < b for values that are not NaN; zeros of both signs are equal. -/
def fvLt : Fv → Fv → Bool
  | .nan, _ => false
  | _, .nan => false
  | .inf a, .inf b => a && !b
  | .inf a, .fin _ _ _ => a
  | .fin _ _ _, .inf b => !b
  | .fin na ma ea, .fin nb mb eb =>
    let e := min ea eb
    decide (sInt na ma * 2 ^ (ea - e).toNat < sInt nb mb * 2 ^ (eb - e).toNat)

/-- Equality of values that are not NaN; zeros of both signs are equal. -/
def fvEq (a b : Fv) : Bool := a != .nan && b != .nan && !fvLt a b && !fvLt b a

/-- A quotient of naturals as a value with enough bits for one rounding: floor to `bits` bits, the last bit set
when anything was cut off. -/
def quotSticky (neg : Bool) (num den : Nat) (e : Int) : Fv :=
  let k := 160 + Nat.log2 den
  let q := num * 2 ^ k / den
  let s := if num * 2 ^ k % den = 0 then 0 else 1
  .fin neg (2 * q + s) (e - k - 1)

/-- The quotient, exact to one rounding; x / 0 is an infinity, 0 / 0 and ∞ / ∞ NaN (R108). -/
def fvDiv : Fv → Fv → Fv
  | .nan, _ => .nan
  | _, .nan => .nan
  | .inf _, .inf _ => .nan
  | .inf a, .fin nb _ _ => .inf (a ^^ nb)
  | .fin na _ _, .inf b => .fin (na ^^ b) 0 0
  | .fin na ma ea, .fin nb mb eb =>
    if mb = 0 then (if ma = 0 then .nan else .inf (na ^^ nb)) else quotSticky (na ^^ nb) ma mb (ea - eb)

/-- Integer square root, rounded down, by `fuel` bits from bit `fuel - 1` down. -/
def isqrtBits : Nat → Nat → Nat → Nat
  | 0, _, r => r
  | k + 1, n, r => if (r + 2 ^ k) * (r + 2 ^ k) ≤ n then isqrtBits k n (r + 2 ^ k) else isqrtBits k n r

/-- Integer square root, rounded down. -/
def isqrt (n : Nat) : Nat := isqrtBits (Nat.log2 n / 2 + 1) n 0

/-- The square root, exact to one rounding; −0 gives −0, a negative value NaN (Table 7-4). -/
def fvSqrt : Fv → Fv
  | .nan => .nan
  | .inf n => if n then .nan else .inf false
  | .fin n m e =>
    if m = 0 then .fin n 0 0
    else if n then .nan
    else
      let p : Nat := if e % 2 = 0 then 0 else 1
      let big := m * 2 ^ p * 2 ^ 160
      let r := isqrt big
      .fin false (2 * r + (if r * r = big then 0 else 1)) ((e - p) / 2 - 80 - 1)

/-! ### Integers (R111, R123) -/

/-- A finite value rounded to the nearest integer, ties to even. -/
def rneInt (neg : Bool) (m : Nat) (e : Int) : Int :=
  sInt neg (if e < 0 then rneShift m (-e).toNat else m * 2 ^ e.toNat)

/-- Conversion to an integer range: RNE then saturate; NaN goes to 0; the mark says whether R129 counts it. -/
def toInt (lo hi : Int) : Fv → Int × Bool
  | .nan => (0, true)
  | .inf n => (if n then lo else hi, true)
  | .fin n m e =>
    let i := rneInt n m e
    if i < lo then (lo, true) else if hi < i then (hi, true) else (i, false)

/-- An integer saturated to a range, and whether it was clamped. -/
def clampInt (lo hi i : Int) : Int × Bool :=
  if i < lo then (lo, true) else if hi < i then (hi, true) else (i, false)

/-- An integer as the bits of `n` bytes in two's complement. -/
def intBits (n : Nat) (i : Int) : Nat := (i % (2 ^ (8 * n) : Nat)).toNat

/-- The bits of `n` bits in two's complement as an integer. -/
def bitsInt (n v : Nat) : Int := if v % 2 ^ n < 2 ^ (n - 1) then (v % 2 ^ n : Nat) else (v % 2 ^ n : Nat) - (2 ^ n : Nat)

/-- The value of a 4-bit code that is an integer (R111). -/
def code4 (signed : Bool) (c : Nat) : Int := if signed then bitsInt 4 c else ((c % 16 : Nat) : Int)

/-! ### TwoSum (R172) -/

/-- TwoSum(a, b): s = RNE(a + b), t the exact rest; when s is infinite or NaN, t is +0. -/
def twoSum (a b : Fv) : Fv × Fv :=
  let x := fvAdd a b
  let s := rne32 x
  if fvFinite s then (s, fvSub x s) else (s, pz)

/-- A rest of TwoSum with its zero written +0. -/
def plusZero (v : Fv) : Fv := if fvZero v then pz else v

/-- DWADD without clamps (R176, R201): an overflow gives an infinity, carried on with rests of +0. -/
def dwAdd (x b : Fv × Fv) : Fv × Fv :=
  let (sh, sl) := twoSum x.1 b.1
  let (th, tl) := twoSum x.2 b.2
  let c := rne32 (fvAdd sl th)
  let (vh, vl) := twoSum sh c
  let w := rne32 (fvAdd tl vl)
  twoSum vh w

end Sys2Proof.Machine
end

