-- ==== Sys2Proof/Machine/Descriptors.lean ====
section
/-! DEFINITION. Operation descriptors read from the words of a descriptor pool (R168, R169, R197 to R212, R265, R282, R306, R313). -/

namespace Sys2Proof.Machine

/-- A run of bytes cut into numbers of `e` bytes. -/
def numsOf (e : Nat) : (count : Nat) → List Byte → List Nat
  | 0, _ => []
  | n + 1, bs => natOfBytes (bs.take e) :: numsOf e n (bs.drop e)

/-- A number as a field of `n` bits. -/
def fieldBV (n : Nat) (w : Word) (hi lo : Nat) : BitVec n := BitVec.ofNat n (w.field hi lo)

/-- `n` words of the descriptor pool from a byte offset. -/
def poolWords (pool : List Byte) (off n : Nat) : List Word := wordsOfBytes ((pool.drop off).take (4 * n))

/-- `n` 16-bit entries of the descriptor pool. -/
def poolHalves (pool : List Byte) (off n : Nat) : List (BitVec 16) :=
  (numsOf 2 n ((pool.drop off).take (2 * n))).map (BitVec.ofNat 16)

/-- The first of a list of reserved fields that is not 0. -/
def firstSet (ns : List Nat) : Nat := (ns.find? (· ≠ 0)).getD 0

/-- An operation descriptor of the pool. -/
inductive Op where
  | mm (d : MmDesc)
  | scaleLoad (d : ScaleLoadDesc)
  | accMove (op : Nat) (d : AccMoveDesc)
  | vu (op : Nat) (accIn : Bool) (d : VuDesc)
  | infl (d : VuDesc) (w : InflWords)
  | sign (d : VuDesc) (w : SignWords)
  | route (op : Nat) (d : VuDesc) (w : RouteWords)
  | solve (d : VuDesc) (w : SolveWords)
  | isu (op : Nat) (d : IsuDesc)
  | xfer (op : Nat) (d : XferDesc)
  | fab (d : FabDesc)
  | bad (op : Nat)
  deriving DecidableEq, Repr

/-- The MM descriptor of Table 5-7. -/
def parseMm (pool : List Byte) (ws : List Word) : MmDesc :=
  let w := wordAt ws
  let rg := fun (i hi lo : Nat) => fieldBV 10 (w i) hi lo
  { shape := fieldBV 3 (w 0) 27 25, acc := fieldBV 2 (w 0) 24 23, ovf := (w 0).bit 22, rpl := (w 0).bit 21, accInit := (w 0).bit 20,
    write := (w 0).bit 19, scaleSrc := fieldBV 2 (w 0) 18 17, infl := fieldBV 2 (w 0) 16 15, accBase := fieldBV 6 (w 0) 14 9,
    afmt := fieldBV 4 (w 1) 31 28, asgn := (w 1).bit 27, atrn := (w 1).bit 26, aexp := (w 1).bit 25, acb := (w 1).bit 24,
    amode := (w 1).bit 23, bfmt := fieldBV 4 (w 1) 15 12, bsgn := (w 1).bit 11, btrn := (w 1).bit 10, bexp := (w 1).bit 9,
    bcb := (w 1).bit 8, aOff := w 2, bOff := w 3, aPitch := fieldBV 16 (w 4) 31 16, bPitch := fieldBV 16 (w 4) 15 0,
    k32 := fieldBV 16 (w 5) 31 16, kOff32 := fieldBV 24 (w 6) 23 0, dOff := w 7, dPitch := fieldBV 16 (w 8) 31 16,
    wfmt := fieldBV 4 (w 8) 15 12, dmode := (w 8).bit 11, calEn := (w 8).bit 10, calSlot := fieldBV 8 (w 8) 7 0,
    scaleReg := fieldBV 12 (w 9) 31 20, scaleOff := w 10, inflOff := w 11, inflStride := fieldBV 16 (w 12) 31 16,
    inflCh0 := fieldBV 16 (w 12) 15 0, ypreOff := w 13, gaccBase := fieldBV 6 (w 14) 31 26, gblk := fieldBV 6 (w 14) 25 20,
    gk0 := fieldBV 12 (w 14) 11 0, statusOff := w 15,
    rg := [rg 16 29 20, rg 16 19 10, rg 16 9 0, rg 17 29 20, rg 17 19 10, rg 17 9 0, rg 18 29 20, rg 18 19 10],
    cbAOff := w 19, cbBOff := w 20,
    cbA := if (w 1).field 31 28 = 7 ∧ !(w 1).bit 24 then poolWords pool (w 19).toNat 16 else [],
    cbB := if (w 1).field 15 12 = 7 ∧ !(w 1).bit 8 then poolWords pool (w 20).toNat 16 else [] }

/-- The reserved fields of an MM descriptor. -/
def mmReserved (ws : List Word) : Nat :=
  let w := wordAt ws
  firstSet [(w 0).field 8 0, (w 1).field 22 16, (w 1).field 7 0, (w 5).field 15 0, (w 6).field 31 24, (w 8).field 9 8,
    (w 9).field 19 0, (w 14).field 19 12, (w 16).field 31 30, (w 17).field 31 30, (w 18).field 31 30, (w 18).field 9 0,
    (w 21).toNat, (w 22).toNat, (w 23).toNat]

/-- An MU descriptor (Tables 5-7 and 5-8) with its reserved bits. -/
def parseMu (pool : List Byte) (ws : List Word) : Op × Nat :=
  let w := wordAt ws
  let rest := fun (k : Nat) => (ws.drop k).map BitVec.toNat
  match (w 0).field 31 28 with
  | 0 => (.mm (parseMm pool ws), mmReserved ws)
  | 1 => (.scaleLoad ⟨fieldBV 12 (w 1) 31 20, fieldBV 13 (w 1) 12 0, w 2⟩,
      firstSet ([(w 0).field 27 0, (w 1).field 19 13] ++ rest 3))
  | 2 => (.accMove 2 ⟨fieldBV 6 (w 1) 31 26, fieldBV 7 (w 1) 25 19, w 2⟩, firstSet ([(w 0).field 27 0, (w 1).field 18 0] ++ rest 3))
  | 3 => (.accMove 3 ⟨fieldBV 6 (w 1) 31 26, fieldBV 7 (w 1) 25 19, w 2⟩, firstSet ([(w 0).field 27 0, (w 1).field 18 0] ++ rest 3))
  | k => (.bad k, 0)

/-- One operand of a VU descriptor. -/
def parseOperand (ws : List Word) (k : Nat) : VuOperand :=
  let w := wordAt ws (k + 1)
  ⟨wordAt ws k, fieldBV 4 w 31 28, w.bit 27, w.bit 26, fieldBV 2 w 25 24, fieldBV 24 w 23 0⟩

/-- The common words of a VU descriptor (Table 7-1). -/
def parseVuCommon (ws : List Word) : VuDesc :=
  let w := wordAt ws
  { ovf := (w 0).bit 23, calEn := (w 0).bit 22, calSlot := fieldBV 8 (w 0) 21 14, axis := fieldBV 2 (w 0) 13 12,
    func := fieldBV 4 (w 0) 11 8, rows := fieldBV 16 (w 1) 31 16, cols := fieldBV 16 (w 1) 15 0, statusOff := w 2,
    x := parseOperand ws 3, y := parseOperand ws 5, z := parseOperand ws 7, d := parseOperand ws 9 }

/-- A VU descriptor with its reserved bits (R197 to R212, R265). -/
def parseVu (seat : Nat) (pool : List Byte) (ws : List Word) : Op × Nat :=
  let w := wordAt ws
  let d := parseVuCommon ws
  let op := (w 0).field 31 24
  let common := [(w 0).field 7 0] ++ ((List.range 5).map fun i => (w (11 + i)).toNat)
  let rest := fun (k : Nat) => (ws.drop k).map BitVec.toNat
  let groups := ceilDiv d.rows.toNat 16
  if op = 0x08 then
    (.infl d ⟨w 16, fieldBV 16 (w 17) 31 16, fieldBV 16 (w 17) 15 0,
      if seat = 0x3FF then poolHalves pool (w 18).toNat groups else []⟩,
      firstSet (common ++ (if seat = 0x3FF then [] else [(w 18).toNat]) ++ rest 19))
  else if op = 0x09 then
    (.sign d ⟨w 16, w 17, w 18, fieldBV 8 (w 19) 31 24, fieldBV 12 (w 19) 23 12, w 20, w 21⟩,
      firstSet (common ++ [(w 19).field 11 0] ++ rest 22))
  else if op = 0x20 ∨ op = 0x21 then (.vu op ((w 16).bit 0) d, firstSet (common ++ [(w 16).field 31 1] ++ rest 17))
  else if op = 0x30 ∨ op = 0x31 then
    let r : RouteWords :=
      { kc := fieldBV 8 (w 16) 31 24, e := fieldBV 8 (w 16) 23 16, e0 := fieldBV 16 (w 16) 15 0, cap16 := fieldBV 16 (w 17) 31 16,
        ocap16 := fieldBV 16 (w 17) 15 0, bufStride := w 18, ovfOff := w 19, mapOff := w 20, omapOff := w 21,
        rgmap := poolHalves pool (w 22).toNat groups, slices := poolHalves pool (w 24).toNat ((w 23).field 31 26),
        expSrc := (w 25).bit 31 }
    (.route op d r, firstSet (common ++ [(w 23).field 25 0, (w 25).field 30 0] ++ (if op = 0x30 then [(w 25).field 31 31] else []) ++ rest 26))
  else if op = 0x40 then
    (.solve d ⟨fieldBV 16 (w 16) 31 16, fieldBV 16 (w 16) 15 0, (w 17).bit 31, w 18, w 19, w 20, w 21⟩,
      firstSet (common ++ [(w 17).field 30 0] ++ rest 22))
  else if (1 ≤ op ∧ op ≤ 7) ∨ (0x10 ≤ op ∧ op ≤ 0x14) then (.vu op false d, firstSet (common ++ rest 16))
  else (.bad op, 0)

/-- An ISU descriptor (Table 9-6) with its reserved bits. -/
def parseIsu (named : Bool) (ws : List Word) : Op × Nat :=
  let w := wordAt ws
  let d : IsuDesc := ⟨(w 0).bit 27, fieldBV 4 (w 0) 26 23, fieldBV 8 (w 0) 22 15, fieldBV 12 (w 0) 14 3, w 1, w 2, w 3, w 4, w 5, w 6, w 7, named⟩
  match (w 0).field 31 28 with
  | 1 => (.isu 1 d, firstSet ([(w 0).field 2 0] ++ (ws.drop 8).map BitVec.toNat))
  | 2 => (.isu 2 d, firstSet ([(w 0).field 2 0] ++ (ws.drop 8).map BitVec.toNat))
  | k => (.bad k, 0)

/-- A transfer descriptor (Table 10-5) with its reserved bits. -/
def parseXfer (named : Bool) (ws : List Word) : Op × Nat :=
  let w := wordAt ws
  let op := (w 0).field 31 28
  let d : XferDesc := ⟨fieldBV 2 (w 0) 27 26, (w 0).bit 25, fieldBV 5 (w 0) 24 20, w 1, fieldBV 16 (w 2) 31 16, w 3, w 4, w 5, w 6, w 7, w 8,
    fieldBV 16 (w 9) 31 16, fieldBV 16 (w 9) 15 0, named, []⟩
  if 1 ≤ op ∧ op ≤ 4 then (.xfer op d, firstSet ([(w 0).field 19 0, (w 2).field 15 0] ++ (ws.drop 10).map BitVec.toNat)) else (.bad op, 0)

/-- A fabric transfer descriptor (Table 11-2) with the path of its first slot entry, and its reserved bits. -/
def parseFab (slot : Option FabSlot) (ws : List Word) : Op × Nat :=
  let w := wordAt ws
  if (w 0).field 31 28 ≠ 1 then (.bad ((w 0).field 31 28), 0)
  else
    let f := slot.getD ⟨0, 0, 0, 0, 0, 0, 0, 0, 0, 0, 0⟩
    (.fab ⟨(w 0).bit 27, (w 0).bit 26, fieldBV 2 (w 0) 25 24, w 1, w 2, w 3, BitVec.ofNat 3 f.path, BitVec.ofNat 3 f.src,
        BitVec.ofNat 3 f.dst, BitVec.ofNat 3 f.cls, []⟩,
      firstSet ([(w 0).field 23 0] ++ (ws.drop 4).map BitVec.toNat))

end Sys2Proof.Machine
end

