-- ==== Sys2Proof/Machine/Tally.lean ====
section
/-! DEFINITION. Counted events: attribution and filters of the performance counters and the bandwidth monitors
(R478 to R483, R488). -/

namespace Sys2Proof.Machine

/-- A counted event: block id, EVENT, QUAL, the instance it is attributed to, the stream and class of its seat,
MASTER, its address in units of 4 KiB, and how many are counted. -/
structure CntEv where
  block : Nat
  event : Nat
  qual : Nat
  inst : Option Nat
  seat : Option (Nat × Nat)
  master : Nat
  addr : Option Nat
  n : Nat
  deriving DecidableEq, Repr

/-- Owner of counter index `k`: an instance, or 0x7F the physical function (CNT_OWN). -/
def State.cntOwner (s : State) (k : Nat) : Nat := s.fld (Reg.CNT_OWN (k / 4)) (8 * (k % 4) + 6) (8 * (k % 4))

/-- A counter of the central reader. -/
def State.ctr (s : State) (block k : Nat) : Counter := smGet (fun _ => Counter.fresh) s.cnt.ctrs (16 * block + k)

/-- A counter set. -/
def State.setCtr (s : State) (block k : Nat) (c : Counter) : State :=
  { s with cnt := { s.cnt with ctrs := smSet (fun _ => Counter.fresh) s.cnt.ctrs (16 * block + k) c } }

/-- Every listed counter changed. -/
def State.mapCtrs (s : State) (f : Nat → Counter → Counter) : State :=
  (s.cnt.ctrs.map (·.1)).foldl (fun u k => u.setCtr (k / 16) (k % 16) (f (k % 16) (u.ctr (k / 16) (k % 16)))) s

/-- The counters an instance owns at 0, their configuration kept (R381, Table 18-3). -/
def State.clearCounters (s : State) (n : Nat) : State :=
  s.mapCtrs fun k c => if s.cntOwner k = n then { c with value := 0, shadow := 0 } else c

/-- The configuration in force: on a counter owned by an instance INST is the owner, COMMIT 1 and CLASS bit 6 0
(R482). -/
def cntCfgInForce (owner : Nat) (w : Word) : Word :=
  if owner = 0x7F then w else ((w.setField 19 13 owner).setField 30 30 1).setField 26 26 0

/-- CLASS matches an event (R480). -/
def classMatch (w : Word) (seat : Option (Nat × Nat)) : Bool :=
  match seat with
  | some (stream, cls) => w.bit (20 + stream) && w.bit (23 + cls)
  | none => w.bit 26

/-- Every enabled filter of a counter matches the event (R478, R480). -/
def ctrMatch (c : Counter) (w : Word) (e : CntEv) : Bool :=
  w.bit 31 && w.field 7 0 == e.event
    && (w.field 10 8 == 7 || w.field 10 8 == e.qual)
    && (w.field 19 13 == 0x7F || some (w.field 19 13) == e.inst)
    && classMatch w e.seat
    && (c.filt.field 31 24 == 0xFF || c.filt.field 31 24 == e.master)
    && (!w.bit 29 || match e.addr with
        | some a => decide (c.addrBase.toNat ≤ a) && decide (a ≤ c.addrLimit.toNat)
        | none => false)

/-- One event added into the shadow counts of the block's counters (R483); nothing while counting is held (R486). -/
def State.tally (s : State) (e : CntEv) : State :=
  if s.cnt.holding ∨ e.n = 0 then s
  else (List.range 16).foldl (fun t k =>
    let c := t.ctr e.block k
    if ctrMatch c (cntCfgInForce (t.cntOwner k) c.cfg) e then t.setCtr e.block k { c with shadow := c.shadow + e.n }
    else t) s

/-- Bytes of the range [a, a + n) split at 4 KiB pages, as (page, bytes). -/
def pageSplit : (fuel a n : Nat) → List (Nat × Nat)
  | 0, _, _ => []
  | fuel + 1, a, n =>
    if n = 0 then [] else
    let room := min n (4096 - a % 4096)
    (a / 4096, room) :: pageSplit fuel (a + room) (n - room)

/-- An event with no instance, seat or address. -/
def State.tallyPlain (s : State) (block event n : Nat) : State := s.tally ⟨block, event, 7, none, none, 0xFF, none, n⟩

/-- A bandwidth monitor's bytes in the open window and the open tick advance (R488). -/
def State.tallyPort (s : State) (port tx rx : Nat) : State :=
  if s.cnt.holding then s
  else
    let b := smGet (fun _ => BwMon.fresh) s.cnt.bw port
    let b' := { b with tx := b.tx + tx, rx := b.rx + rx, tickTx := b.tickTx + tx, tickRx := b.tickRx + rx }
    { s with cnt := { s.cnt with bw := smSet (fun _ => BwMon.fresh) s.cnt.bw port b' } }

/-! ### The tiers (R291, R292, Table 18-1) -/

/-- The flash drives in use, by port (R291, R292). -/
def State.drives (s : State) : List Nat :=
  (List.range 8).filter fun d => s.fld (Reg.RES_DRIVE_STATUS d) 31 30 == 1 || s.fld (Reg.RES_DRIVE_STATUS d) 31 30 == 3

/-- The drive that holds a byte address of the flash tier, by its port, and the LBA there (R292). -/
def State.flashPlace (s : State) (a : Nat) : Nat × Nat :=
  let ds := s.drives
  let i := a / 0x100000
  if ds.isEmpty then (0, 0) else (natAt ds (i % ds.length), i / ds.length * 256 + a / 4096 % 256)

/-- The port of the drive that holds a flash address. -/
def State.drivePort (s : State) (a : Nat) : Nat := (s.flashPlace a).1

/-- Bytes of the flash tier: the drives in use, each at the capacity of the smallest in whole MiB (R284, R292). -/
def State.flashBytes (s : State) : Nat :=
  let caps := s.drives.map fun d => smGet (fun _ => 0) s.ls.driveMib d
  caps.length * (caps.foldl Nat.min (caps.headD 0)) * 0x100000

/-- A run of flash bytes lies in the tier, and no drive that holds a stripe of it has failed (R292). -/
def State.flashUp (s : State) (a n : Nat) : Bool :=
  decide (a + n ≤ s.flashBytes) && (List.range ((a % 0x100000 + n + 0xFFFFF) / 0x100000)).all fun i =>
    s.fld (Reg.RES_DRIVE_STATUS (s.drivePort (a + 0x100000 * i))) 31 30 == 1

/-- Bytes that cross the host link through CXL.cache for an instance: events of the host link and its monitor. -/
def State.tallyCache (s : State) (n tx rx : Nat) : State :=
  (s.tally ⟨0x102, 3, 7, some n, none, n, none, tx + rx⟩).tallyPort 30 tx rx

/-- Bytes that the fetch engine reads for an instance from a tier: 0 host memory, 1 the flash tier at a port; hall staging and a
gallery are no tier it counts. -/
def State.tallyFetch (s : State) (inst : Option Nat) (tier port n : Nat) : State :=
  let s1 := if tier ≤ 1 then s.tally ⟨0x101, 1, 7, inst, none, 0xFF, none, n⟩ else s
  match tier with
  | 0 => s1.tallyCache (inst.getD 0) 0 n
  | 1 => (s1.tally ⟨0x104 + port, 1, 7, inst, none, 0xFF, none, n⟩).tallyPort (31 + port) 0 n
  | _ => s1

/-- The bytes of one attempt at a shard counted, from the source whose turn it is (R303). -/
def State.tallySource (s : State) (inst : Option Nat) (m : Manifest) (x : Shard) (turn n : Nat) : State :=
  match m.sources[x.srcFirst + turn % x.srcCount]? with
  | some y => s.tallyFetch inst y.type (s.drivePort y.addr) n
  | none => s

end Sys2Proof.Machine
end

