-- ==== Sys2Proof/Machine/Program.lean ====
section
/-! DEFINITION. The tick programs that run: the flights and their positions, the variant in force on a gallery, the clause of the program
that places an operation (R22, R35, R43, R70, R90, R312). -/

namespace Sys2Proof.Machine

/-- The clause lists of a block with their stream numbers. -/
def Block.lists (b : Block) : List (Nat × List Clause) := [(0, b.f), (1, b.b), (2, b.u)]

/-- The HBM slot entries that name a clause (R90). -/
def Program.hbmOf (p : Program) (g stream i : Nat) : List HbmSlot :=
  p.hbm.filter fun h => h.kind != 2 && h.gal == g && h.stream == stream && h.clause == i

/-- The fabric slot entries that name a port clause of a gallery (R312). -/
def Program.fabOf (p : Program) (g stream i : Nat) : List FabSlot :=
  p.fabric.filter fun f => (if f.path = 2 then f.dst else f.src) == g && f.stream == stream && f.clause == i

/-- The descriptor of a clause and its first reserved bits that are set: the pool words of its KIND. -/
def Program.descOf (p : Program) (pool : List Byte) (g stream i : Nat) (c : Clause) : Op × Nat :=
  match c.kind with
  | 0 => parseMu pool (poolWords pool c.desc 24)
  | 1 => parseVu c.seat pool (poolWords pool c.desc 32)
  | 2 => parseIsu (!(p.hbmOf g stream i).isEmpty) (poolWords pool c.desc 16)
  | 3 => parseXfer (!(p.hbmOf g stream i).isEmpty) (poolWords pool c.desc 16)
  | 4 => if (poolWords pool c.desc 1).map (·.field 31 28) = [4] then parseXfer true (poolWords pool c.desc 16)
    else parseFab (p.fabOf g stream i).head? (poolWords pool c.desc 8)
  | 5 => parseFab (p.fabOf g stream i).head? (poolWords pool c.desc 8)
  | k => (.bad k, 0)

/-! ### Variants in force (R43, R55) -/

/-- The MU_SHORT variant of a gallery under a parent. -/
def Flight.muShort (f : Flight) (g parent : Nat) : Option Nat :=
  (f.variants.find? fun v => v.kind == 1 && v.gal == g && v.parent == parent).map (·.id)

/-- The GAL_OUT variant for a gallery. -/
def Flight.galOut (f : Flight) (g : Nat) : Option Nat :=
  (f.variants.find? fun v => v.kind == 2 && v.gal == g && v.parent == 0).map (·.id)

/-- The variant whose sections are in force on a gallery under a parent and a mask of MU_SHORT variants (R43). -/
def Flight.variantOn (f : Flight) (parent mask g : Nat) : Nat :=
  if (mask / 2 ^ g) % 2 = 1 then (f.muShort g parent).getD parent else parent

/-- The seat templates in force (R43). -/
def Flight.templatesIn (f : Flight) (parent mask : Nat) : List Template :=
  f.templates.filter fun t => t.variant == f.variantOn parent mask t.gal

/-- A program of a variant. -/
def Flight.prog (f : Flight) (v i : Nat) : Option Program := f.progs.find? fun p => p.variant == v && p.index == i

/-- The program whose clause block of a gallery is in force: an MU_SHORT variant's program may leave the blocks of the
other galleries out. -/
def Flight.blockIn (f : Flight) (parent mask i g : Nat) : Option (Program × Block) :=
  match f.prog (f.variantOn parent mask g) i with
  | none => none
  | some p => (p.blocks.find? fun b => b.gal == g).map fun b => (p, b)

/-- A route of the flight. -/
def Flight.route (f : Flight) (r : Nat) : Option Route := f.routes.find? fun x => x.route == r

/-- A flight that runs: 0 for the version 3 flight or p + 1 for pair p, its image, the parent and MU_SHORT mask in force,
and its position. -/
structure Running where
  pair : Nat
  f : Flight
  parent : Nat
  mask : Nat
  pos : Nat
  deriving DecidableEq, Repr

/-- The slots of a gallery pair. -/
def State.pairSlots (s : State) (p : Nat) : FlightSlots := s.flights.pairs.getD p FlightSlots.empty

/-- The flights that run. -/
def State.runs (s : State) : List Running :=
  match s.flights.v3.active with
  | some f => [⟨0, f, s.fld Reg.FLT_VARIANT 23 16, s.fld Reg.FLT_VARIANT 7 0, s.flights.v3.pos⟩]
  | none => (List.range 4).filterMap fun p => (s.pairSlots p).active.map fun f => ⟨p + 1, f, 0, 0, (s.pairSlots p).pos⟩

/-- Version 2 images run (R70). -/
def State.partitionMode (s : State) : Bool :=
  s.flights.v3.active.isNone && (List.range 4).any fun p => (s.pairSlots p).active.isSome

/-- The templates in force of a running flight (R43). -/
def Running.templates (r : Running) : List Template := r.f.templatesIn r.parent r.mask

/-- A route of a running flight; a version 2 image has no routes section, and its templates give the class and the stages
(DEDUCED: log entry 41). -/
def Flight.routeIn (f : Flight) (id : Nat) : Option Route :=
  if f.contract = 2 then
    match f.templates.filter fun t => t.route == id with
    | [] => none
    | t :: ts => some ⟨id, t.cls, 1 + ((t :: ts).map (·.stage)).foldl Nat.max 0, 0, 0⟩
  else f.route id

/-! ### What a newel issues (R22) -/

/-- The clause list of a stream of a block. -/
def Block.stream (b : Block) (stream : Nat) : List Clause := if stream = 0 then b.f else if stream = 1 then b.b else if stream = 2 then b.u else []

/-- The place of a clause entry is an operation's: KIND, UNIT, OCCUPANCY, SEAT and WINDOW agree. -/
def Clause.issues (k : Clause) (kind : Nat) (c : Issue) : Bool :=
  k.kind == kind && k.unit == c.unit.toNat && k.occ == c.occ.toNat && k.seat == c.seat.toNat && k.window == c.window.toNat

/-- The running program of a gallery that places an operation of a KIND, with the clause's index in its stream's list: the clause's descriptor in the
pool is the operation's (R22, DEDUCED: log entry 9). -/
def State.placing (s : State) (kind : Nat) (c : Issue) (o : Op) : Option (Program × Nat) :=
  let g := c.gal.toNat
  s.runs.findSome? fun r =>
    if r.pair ≠ 0 ∧ r.pair ≠ g / 2 + 1 then none
    else (r.f.blockIn r.parent r.mask r.pos g).bind fun x =>
      let l := x.2.stream c.stream.toNat
      ((List.range l.length).find? fun i => l[i]?.any fun k => k.issues kind c && (x.1.descOf r.f.pool g c.stream.toNat i k).1 == o).map fun i =>
        (x.1, i)

/-- A gallery issues clauses: ticks run and it is neither fenced nor parked. -/
def State.galRuns (s : State) (g : Nat) : Bool := s.tk.running && !s.galFenced g && !s.galParked g

/-- The newel of the gallery issues the operation: a clause of the running program places it.  A unit starts no other (R22). -/
def State.issued (s : State) (kind : Nat) (c : Issue) (o : Op) : Bool := s.galRuns c.gal.toNat && (s.placing kind c o).isSome

end Sys2Proof.Machine
end

