-- ==== Sys2Proof/Machine/Operands.lean ====
section
/-! DEFINITION. Operand forms of the clauses: scratchpad and context addressing, seats, element formats. -/

namespace Sys2Proof.Machine

/-- Bytes of a gallery's scratchpad (Table 1-1). -/
def spSize : Nat := 0xC000000

/-- The keys that a scratchpad, or a half of a context, takes: more than any offset a clause forms. -/
def areaSpan : Nat := 0x1000000000000

/-- The key of a scratchpad byte. -/
def spKey (g off : Nat) : Nat := 0x1000000000000 * g + off

/-- The key of a context byte: handle index, gallery, half, offset. -/
def ctxKey (h g half off : Nat) : Nat := 0x1000000000000 * (2 * (8 * h + g) + half) + off

/-- The seat bound at a slot of a gallery in the current tick, if a request fills it (R58). -/
def State.seatAt (s : State) (g slot : Nat) : Option Seat :=
  if slot = 0x3FF then none else s.tk.seats.find? fun t => t.gal == g && t.slot == slot

/-- The tracked request of a handle index. -/
def State.reqAt (s : State) (h : Nat) : Option Request := s.hs.reqs.find? fun r => r.handle == h

/-- A tracked request changed. -/
def State.updReq (s : State) (h : Nat) (f : Request → Request) : State :=
  { s with hs := { s.hs with reqs := s.hs.reqs.map fun r => if r.handle = h then f r else r } }

/-- The current half of a handle's context. -/
def State.curHalf (s : State) (h : Nat) : Nat :=
  match s.reqAt h with
  | some r => r.half
  | none => 0

/-- A request with an inflection fills the slot; one bound with NOINFL takes the identity, as an empty slot does (R153, Table 12-6). -/
def State.inflected (s : State) (t : Option Seat) : Bool :=
  match t with
  | none => false
  | some x => match s.reqAt x.handle with
    | some r => r.lexId.isSome
    | none => true

/-- An operand read: CTX reads the current half of the seat's context, +0 through a seat that no request fills
(R37, R58, R137, R195). -/
def State.opRead (s : State) (g : Nat) (ctx : Bool) (seat : Option Seat) (off n : Nat) : List Byte :=
  if ctx then
    match seat with
    | some t => memRead s.mem.ctx (ctxKey t.handle g (s.curHalf t.handle) off) n
    | none => List.replicate n 0
  else memRead s.mem.sp (spKey g off) n

/-- A scratchpad write. -/
def State.spWrite (s : State) (g off : Nat) (bs : List Byte) : State :=
  { s with mem := { s.mem with sp := memWrite s.mem.sp (spKey g off) bs } }

/-- An operand write: CTX writes the next half of the seat's context; through a seat that no request fills it is
discarded (R37, R58). -/
def State.opWrite (s : State) (g : Nat) (ctx : Bool) (seat : Option Seat) (off : Nat) (bs : List Byte) : State :=
  if ctx then
    match seat with
    | some t =>
      { s with mem := { s.mem with ctx := memWrite s.mem.ctx (ctxKey t.handle g (1 - s.curHalf t.handle) off) bs } }
    | none => s
  else s.spWrite g off bs

/-- `count` lines of `bytes` bytes at a pitch lie within the scratchpad; nothing to check in CTX mode. -/
def extentOk (ctx : Bool) (off pitch count bytes : Nat) : Bool :=
  ctx || decide (off + (count - 1) * pitch + bytes ≤ spSize)

/-- The stream and class of a seat, for the counters. -/
def seatTag (t : Option Seat) : Option (Nat × Nat) := t.map fun x => (x.stream, x.cls)

/-- The physical MU of a logical one: under an MU_SHORT variant the i-th MU in service, counting from MU0 (R44). -/
def State.physMu (s : State) (g i : Nat) : Nat :=
  if (s.reg Reg.FLT_VARIANT).bit g then ((List.range 16).filter (s.muUp g)).getD i 16 else i

/-- What an issued clause counts whatever it does: busy cycles of its unit and a clause of the newel (Table 18-1),
attributed by R479. -/
def State.tallyClause (s : State) (c : Issue) (block : Nat) : State :=
  let g := c.gal.toNat
  let t := s.seatAt g c.seat.toNat
  let inst := t.map (·.inst)
  let s1 := s.tally ⟨block, 1, 7, inst, seatTag t, 0xFF, none, c.occ.toNat⟩
  s1.tally ⟨0x20 * g + 24, 3, 7, inst, seatTag t, 0xFF, none, 1⟩

/-- Scratchpad bytes moved by a port: read (1) or written (2) lines, each counted page by page (Table 18-1) (its corners, DEDUCED: log entry 83). -/
def State.tallySp (s : State) (g master event : Nat) (t : Option Seat) (lines : List (Nat × Nat)) : State :=
  lines.foldl (fun u l => (pageSplit (l.2 / 4096 + 2) l.1 l.2).foldl (fun v p =>
    v.tally ⟨0x20 * g + 22, event, 7, t.map (·.inst), seatTag t, master, some p.1, p.2⟩) u) s

/-! ### Elements -/

/-- The 4-bit codes of a run of bytes, low nibble first (R113). -/
def codesOf (bs : List Byte) : List Nat := bs.flatMap fun b => [b.toNat % 16, b.toNat / 16]

/-- An MU operand's format: AFMT, ASGN and the codebook. -/
structure ElemFmt where
  fmt : Nat
  signed : Bool
  cb : List Word
  deriving DecidableEq, Repr

/-- The floating-point format of an MU operand format code (Table 5-7). -/
def muFp (f : Nat) : FpFmt :=
  match f with
  | 0 => fp32 | 1 => bf16 | 2 => fp16 | 3 => e4m3 | _ => e5m2

/-- Bits of an MU operand element. -/
def muBits (f : Nat) : Nat :=
  match f with
  | 0 => 32 | 1 | 2 => 16 | 3 | 4 | 5 => 8 | _ => 4

/-- `n` elements of an MU operand from their bytes (R111 to R115). -/
def muElems (f : ElemFmt) (n : Nat) (bs : List Byte) : List Fv :=
  match f.fmt with
  | 5 => (numsOf 1 n bs).map fun v => fvOfInt (if f.signed then bitsInt 8 v else v)
  | 6 => ((codesOf bs).take n).map fun c => fvOfInt (code4 f.signed c)
  | 7 => ((codesOf bs).take n).map fun c => f32 (wordAt f.cb c)
  | k => (numsOf (muBits k / 8) n bs).map (fpDecode (muFp k))

/-- Bytes that hold `n` elements. -/
def muBytes (fmt n : Nat) : Nat := (n * muBits fmt + 7) / 8

/-- A codebook entry is finite and exact in its expansion target, BF16 or E4M3 (R115). -/
def codeEntryOk (toE4m3 : Bool) (w : Word) : Bool :=
  let f := if toE4m3 then e4m3 else bf16
  let v := f32 w
  fvFinite v && (let r := fpRound f true v; !r.ovfl && fvEq (fpDecode f r.enc) v)

/-- A codebook: 16 entries, each of them good (R116). -/
def codebookOk (toE4m3 : Bool) (ws : List Word) : Bool := ws.length == 16 && ws.all (codeEntryOk toE4m3)

/-- The encoding of a codebook's first entry that is not good (R116). -/
def codebookBad (toE4m3 : Bool) (ws : List Word) : Nat := ((ws.find? fun w => !codeEntryOk toE4m3 w).getD 0).toNat

end Sys2Proof.Machine
end

