-- ==== Sys2Proof/Machine/Faults.lean ====
section
/-! DEFINITION. Detected faults: charging, replay marks, the fencing window (R412 to R421, R429). -/

namespace Sys2Proof.Machine

/-- Core cycles of the tick at nominal clock: 600 to a quarter microsecond of the period (R32, R33). -/
def State.budget (s : State) : Nat := 600 * s.fld Reg.TCK_PERIOD 6 0

/-- The first landing cycle of the tick (R35). -/
def State.landingStart (s : State) : Nat := s.budget - 1200

/-- Whether a fault at a cycle is found in landing cycles 512 to 1,199, and so marks the next tick (R414). -/
def State.lateCycle (s : State) (cycle : Nat) : Bool := decide (s.landingStart + 512 ≤ cycle)

/-- The tick, or for a late cycle the next, marked for replay (R414). -/
def State.markReplay (s : State) (cycle : Nat) : State :=
  if !s.tk.running then s
  else if s.lateCycle cycle then { s with tk := { s.tk with replayNext := true } }
  else { s with tk := { s.tk with replay := true } }

/-- The block of a domain is not fenced; the hall die never is (Table 15-1) (its corners, DEDUCED: log entry 83). -/
def State.blockLive (s : State) (domain g unit : Nat) : Bool :=
  if domain = 9 then true
  else if s.galFenced g then false
  else match domain with
    | 0 => s.muUp g unit
    | 1 => s.vuUp g unit
    | 2 => s.isuUp g unit
    | 7 => hasPort g unit
    | _ => true

/-- ERR_LAST and its tick, and the RCLASS 2 record of the fault (R431). -/
def State.faultShow (s : State) (domain g unit where_ cycle : Nat) : State :=
  let w := domain * 0x10000000 + g % 8 * 0x2000000 + unit % 32 * 0x100000 + cycle % 65536
  let s1 := (s.setReg Reg.ERR_LAST (wordOf w)).setReg64 Reg.ERR_LAST_TICK_LO Reg.ERR_LAST_TICK_HI s.tk.count.toNat
  s1.bbxPut 2 none 0 ([domain, g, unit, where_, cycle].map wordOf)

/-- The faults of a block in ticks t − 999 to t (R418). -/
def State.faultWindow (s : State) (domain g unit : Nat) : Nat :=
  s.faults.log.countP fun e =>
    e.1 == domain && e.2.1 == g && e.2.2.1 == unit && decide (s.tk.count.toNat < e.2.2.2.toNat + 1000)

/-- A fence queued once for a block, by R25. -/
def State.queueFence (s : State) (domain g unit cycle : Nat) : State :=
  if s.faults.fences.any fun f => f.domain == domain && f.gal == g && f.unit == unit then s
  else
    let f : Fence := ⟨domain, g, unit, decide (s.landingStart ≤ cycle)⟩
    { s with faults := { s.faults with fences := s.faults.fences ++ [f] } }

/-- A block records a fault, at most one a tick; the third within 1,000 ticks queues its fence (R418).  The hall die
is never fenced; a stack is fenced by its distinct bursts too (its corners, DEDUCED: log entry 83). -/
def State.recordFault (s : State) (domain g unit cycle : Nat) : State :=
  let t := s.tk.count
  let log := s.faults.log.filter fun e => decide (t.toNat < e.2.2.2.toNat + 1000)
  if log.any fun e => e.1 == domain && e.2.1 == g && e.2.2.1 == unit && e.2.2.2 == t then s
  else
    let s1 := { s with faults := { s.faults with log := log ++ [(domain, g, unit, t)] } }
    if (3 : Nat) ≤ s1.faultWindow domain g unit ∧ domain ≠ 9 then s1.queueFence domain g unit cycle else s1

/-- The port index of a link domain: 0 the hall link, 1 and 2 the side links (R325). -/
def portOf (domain unit : Nat) : Nat := if domain = 6 then 0 else unit

/-- The parity register of a block: LAST_WHERE and COUNT (Tables of GAL_*_PARITY). -/
def State.parityReg (s : State) (domain g unit where_ : Nat) : State :=
  match domain with
  | 0 => (s.setFld (Reg.GAL_MU_PARITY g unit) 31 28 where_).count (Reg.GAL_MU_PARITY g unit) 15 0 1
  | 1 => (s.setFld (Reg.GAL_VU_PARITY g unit) 31 28 where_).count (Reg.GAL_VU_PARITY g unit) 15 0 1
  | 2 => (s.setFld (Reg.GAL_ISU_PARITY g unit) 31 28 where_).count (Reg.GAL_ISU_PARITY g unit) 15 0 1
  | 6 | 7 => if portOf domain unit < 3 then s.count (Reg.GAL_FAB_PARITY g (portOf domain unit)) 15 0 1 else s
  | _ => s

/-- PARITY_ERROR: a parity checker finds an error at a cycle of the tick (R62, R412, R414, R418, R429) (its corners, DEDUCED: log entry 83). -/
def execParityError (domain : BitVec 4) (gal : BitVec 3) (unit : BitVec 5) (where_ : BitVec 4) (cycle : BitVec 16)
    (s : State) : Host.Outcome State Fault Refusal :=
  let d := domain.toNat
  let g := gal.toNat
  let u := unit.toNat
  let c := cycle.toNat
  keep s (if !s.blockLive d g u then s
    else
      let s1 := ((s.markReplay c).faultShow d g u where_.toNat c).parityReg d g u where_.toNat
      let s2 := s1.raisePf 0x7001 ([d, g, u, where_.toNat, c, s.tk.count.toNat].map wordOf)
      s2.recordFault d g u c)

/-- A flit that a receiving port drops (R321, R322): port 0 to 2 of a gallery, or the hall staging end of the sending
gallery's hall link (`staging`). -/
def State.fabricDrop (s : State) (staging : Bool) (g port cause cycle : Nat) : State :=
  let domain := if staging then 9 else if port = 0 then 6 else 7
  let unit := if staging then 0 else port
  let ev := [if staging then 8 else g, if staging then g else port, cause, cycle, s.tk.count.toNat].map wordOf
  let s1 := (s.markReplay cycle).faultShow domain g unit 0 cycle
  let s2 := if staging then s1
    else ((s1.setFld (Reg.GAL_FAB_DROP g port) 31 30 cause).count (Reg.GAL_FAB_DROP g port) 15 0 1).tallyPlain
      (0x20 * g + 25 + port) 3 1
  (s2.raisePf 0x7080 ev).recordFault domain g unit cycle

/-- Whether a page of a stack is poisoned. -/
def State.pagePoisoned (s : State) (stack page : Nat) : Bool :=
  s.faults.poison.any fun p => p.stack == stack && p.page == page

/-- A poisoned page whose frame is withheld awaits no repair any more (R422). -/
def State.pageWithheld (s : State) (p : Poison) : Bool := s.faults.withheld.contains (p.stack / 2, p.page / 8)

/-- HBM_UNCORRECTABLE: a clause reads a burst with an uncorrectable error; a poisoned page causes no replay (R414,
R418, R421). -/
def execHbmUncorrectable (stack : BitVec 4) (addr : BitVec 36) (kind : PageKind) (cycle : BitVec 16) (s : State) :
    Host.Outcome State Fault Refusal :=
  let st := stack.toNat
  let g := st / 2
  let page := addr.toNat / 4096
  let burst := addr.toNat / 64
  let c := cycle.toNat
  keep s (if s.galFenced g ∨ s.pagePoisoned st page then s
    else
      let t := s.tk.count
      let s1 := ((s.markReplay c).faultShow 8 g (st % 2) 0 c).count (Reg.ERR_HBM_UE st) 31 0 1
      let live := s.faults.bursts.filter fun b => decide (t.toNat < b.2.2.toNat + 1000)
      let bursts := (live.filter fun b => !(b.1 == st && b.2.1 == burst)) ++ [(st, burst, t)]
      let queued := s.faults.toPoison.any fun p => p.1.stack == st && p.1.page == page
      let tp := if queued then s.faults.toPoison else s.faults.toPoison ++ [(⟨st, page, kind⟩, s.lateCycle c)]
      let s2 := { s1 with faults := { s1.faults with bursts := bursts, toPoison := tp } }
      let s3 := s2.recordFault 8 g (st % 2) c
      if 16 ≤ bursts.countP (fun b => b.1 == st) then s3.queueFence 8 g (st % 2) c else s3)

/-- HBM_CORRECTED: a corrected error is counted and does nothing else (R420). -/
def execHbmCorrected (stack : BitVec 4) (s : State) : Host.Outcome State Fault Refusal :=
  let st := stack.toNat
  keep s ((s.count (Reg.ERR_HBM_CE st) 31 0 1).tallyPlain (0x20 * (st / 2) + 28 + st % 2) 5 1)

end Sys2Proof.Machine
end

