-- ==== Sys2Proof/Machine/Flags.lean ====
section
/-! DEFINITION. Status codes, opcodes and the flags of a completion record (R13, R343, Tables 12-9 and 12-13). -/

namespace Sys2Proof.Machine

namespace St

def ok : Nat := 0x00
def badField : Nat := 0x01
def badHandle : Nat := 0x02
def busy : Nat := 0x03
def notFound : Nat := 0x04
def denied : Nat := 0x05
def noCapacity : Nat := 0x06
def timeout : Nat := 0x07
def version : Nat := 0x08
def auth : Nat := 0x09
def objectFailed : Nat := 0x10
def stemMismatch : Nat := 0x11
def stemLayout : Nat := 0x12
def noAffix : Nat := 0x13
def slotOwned : Nat := 0x14
def keyRetired : Nat := 0x15
def poisoned : Nat := 0x16
def revoked : Nat := 0x20
def degraded : Nat := 0x21
def flightSwitched : Nat := 0x22
def stepSkipped : Nat := 0x23
def singular : Nat := 0x24
def detached : Nat := 0x25
def hostFault : Nat := 0x26

end St

/-! ### Completion flags (Table 12-9), as masks -/

namespace Flag

def replayed : Nat := 1
def late : Nat := 2
def accSat : Nat := 4
def expertDrop : Nat := 8
def partialEnd : Nat := 16
def deferred : Nat := 32
def inputWrite : Nat := 64
def stepReport : Nat := 128

end Flag

/-- A flag set in a request's flags. -/
def setFlag (flags mask : Nat) : Nat := flags ||| mask

/-! ### Opcodes (Table 12-6) -/

namespace Op

def create : Nat := 0x01
def bind : Nat := 0x02
def admitReq : Nat := 0x03
def destroy : Nat := 0x04
def trainBatch : Nat := 0x05
def trainStep : Nat := 0x06
def trainGate : Nat := 0x07
def lexCreate : Nat := 0x10
def lexDelete : Nat := 0x11
def lexQuery : Nat := 0x12
def lexConvert : Nat := 0x13
def affixClaim : Nat := 0x14
def affixRelease : Nat := 0x15
def resStore : Nat := 0x20
def resPrefetch : Nat := 0x21
def resEvict : Nat := 0x22
def resRetry : Nat := 0x23
def nop : Nat := 0x30

end Op

end Sys2Proof.Machine
end

