-- ==== Sys2Proof/Machine/Costs.lean ====
section
/-! DEFINITION. The timing contract (R74 to R97): bank factors, costs and ready cycles of clauses, refresh grids.
An access of a port is taken as the next port width of bytes of the operand, row after row (DEDUCED: log entry 11). -/

namespace Sys2Proof.Machine

/-! ### Bank factors (R79) -/

/-- The 64-byte lines of the bytes [k, last) of an operand of `row` bytes a row, row i at `start i`. -/
def accessLines (start : Nat → Nat) (row : Nat) : (fuel k last : Nat) → List Nat
  | 0, _, _ => []
  | fuel + 1, k, last =>
    if last ≤ k then [] else
    let take := min (row - k % row) (last - k)
    let a := start (k / row) + k % row
    (List.range ((a + take - 1) / 64 - a / 64 + 1)).map (· + a / 64) ++ accessLines start row fuel (k + take) last

/-- The largest number of distinct lines of one access in one bank. -/
def bankLoad (lines : List Nat) : Nat :=
  let ls := lines.dedup
  ls.foldl (fun m l => Nat.max m (ls.countP fun x => x % 64 == l % 64)) 1

/-- The bank factor of the accesses from number `i` on, `n` of them. -/
def bankFrom (start : Nat → Nat) (row total port : Nat) : (n i : Nat) → Nat
  | 0, _ => 1
  | n + 1, i =>
    Nat.max (bankLoad (accessLines start row (port + 1) (i * port) (min total ((i + 1) * port))))
      (bankFrom start row total port n (i + 1))

/-- The bank factor f of an operand of `rows` rows of `row` bytes, row i at `start i`, through a port (R79). -/
def bankRows (start : Nat → Nat) (row rows port : Nat) : Nat :=
  if row = 0 then 1 else bankFrom start row (row * rows) port (ceilDiv (row * rows) port) 0

/-- The bank factor f of an operand of `rows` rows of `row` bytes at a pitch, through a port (R79, R80). -/
def bankFactor (off pitch row rows port : Nat) : Nat := bankRows (fun i => off % 4096 + i * pitch) row rows port

/-! ### Matrix units (R81 to R84) -/

/-- Table 3-2's row of an operand: 0 16-bit floats, 1 8-bit floats, 2 8-bit integers, 3 FP32; codes by the format
they expand to. -/
def mmRow (fmt : Nat) (toE4m3 : Bool) : Nat :=
  match fmt with
  | 0 => 3
  | 1 | 2 => 0
  | 3 | 4 => 1
  | 5 => 2
  | _ => if toE4m3 then 1 else 0

/-- C256 of one operand under an accumulator (Table 3-2). -/
def mmC256One (row acc : Nat) : Nat :=
  match row, acc with
  | 0, 1 => 128
  | 0, _ => 256
  | 1, 1 => 64
  | 1, _ => 128
  | 2, _ => 128
  | _, _ => 768

/-- C256 of a pair: the slower row (R81). -/
def mmC256 (afmt : Nat) (aexp : Bool) (bfmt : Nat) (bexp : Bool) (acc : Nat) : Nat :=
  Nat.max (mmC256One (mmRow afmt aexp) acc) (mmC256One (mmRow bfmt bexp) acc)

/-- Rows and columns of a tile shape (R141). -/
def tileShape (shape : Nat) : Nat × Nat :=
  match shape with
  | 0 => (128, 128) | 1 => (128, 64) | 2 => (64, 128) | 3 => (64, 64) | _ => (32, 128)

/-- Bytes an element of an MU operand row takes: `n` elements of a format code. -/
def mmRowBytes (fmt n : Nat) : Nat :=
  match fmt with
  | 0 => 4 * n
  | 1 | 2 => 2 * n
  | 3 | 4 | 5 => n
  | _ => (n + 1) / 2

/-- Bytes per element written (Table 5-4). -/
def wfmtBytes (w : Nat) : Nat :=
  match w with
  | 0 => 4 | 1 => 2 | 2 => 2 | 3 => 1 | 4 => 1 | 5 => 1 | 6 => 1 | 7 => 4 | 8 => 8 | 9 => 4 | _ => 0

/-- The seat slot of row group `r`; 0x3FF where the map names none. -/
def mmGroup (d : MmDesc) (r : Nat) : Nat := (d.rg.getD r 0x3FF#10).toNat

/-- The bank factor of a plane in A's layout or the destination's: `fmt` its elements, `k` of them to a row.  In CTX mode the rows of each
row group lie in its seat's own context, whose base is a multiple of 4 KiB (R80, R137); a group mapped to no seat has none (R139). -/
def mmPlane (d : MmDesc) (ctx trn : Bool) (off pitch fmt k port : Nat) : Nat :=
  let rows := (tileShape d.shape.toNat).1
  if !ctx then
    if trn then bankFactor off pitch (mmRowBytes fmt rows) k port else bankFactor off pitch (mmRowBytes fmt k) rows port
  else
    let slots := ((List.range (rows / 16)).map (mmGroup d)).filter (· != 0x3FF)
    let base := fun (i : Nat) => 0x1000000000000 * slots.getD i 0 + off % 4096
    if trn then bankRows (fun i => base (i % slots.length) + i / slots.length * pitch) (mmRowBytes fmt 16) (k * slots.length) port
    else bankRows (fun i => base (i / 16) + i % 16 * pitch) (mmRowBytes fmt k) (16 * slots.length) port

/-- The bank factor of the inflection entries that an MM reads: one row of 4-byte channels for each row group with a seat (R153, R154). -/
def mmInflFactor (d : MmDesc) : Nat :=
  let (rows, cols) := tileShape d.shape.toNat
  if d.infl = 0 then 1 else
  let slots := ((List.range (rows / 16)).map (mmGroup d)).filter (· != 0x3FF)
  bankRows (fun i => d.inflOff.toNat + slots.getD i 0 * d.inflStride.toNat * 64 + 4 * d.inflCh0.toNat)
    (4 * (if d.infl = 1 then cols else 32 * d.k32.toNat)) slots.length 1024

/-- The bank factor of an MM: the largest over its operands (R79). -/
def mmFactor (d : MmDesc) : Nat :=
  let cols := (tileShape d.shape.toNat).2
  let k := 32 * d.k32.toNat
  let ap := 32 * d.aPitch.toNat
  let bp := 32 * d.bPitch.toNat
  let dp := 32 * d.dPitch.toNat
  let af := d.afmt.toNat
  let bf := d.bfmt.toNat
  let fa := mmPlane d d.amode d.atrn d.aOff.toNat ap af k 1024
  let fb := if d.btrn then bankFactor d.bOff.toNat bp (mmRowBytes bf k) cols 1024
    else bankFactor d.bOff.toNat bp (mmRowBytes bf cols) k 1024
  let fy := if d.infl = 3 then mmPlane d d.amode d.atrn d.ypreOff.toNat ap 1 k 1024 else 1
  let w := d.wfmt.toNat
  -- rows of 4-byte, 2-byte or 1-byte elements; a FULL row is twice as many 4-byte words
  let plane := fun (off fmt n : Nat) => mmPlane d d.dmode false off dp fmt n 512
  let fd := if !d.write then 1
    else if w = 9 then Nat.max (plane d.dOff.toNat 1 cols) (plane d.ypreOff.toNat 1 cols)
    else if w = 8 then plane d.dOff.toNat 0 (2 * cols)
    else plane d.dOff.toNat (match wfmtBytes w with | 4 => 0 | 2 => 1 | _ => 3) cols
  Nat.max (Nat.max fa fb) (Nat.max (mmInflFactor d) (Nat.max fy fd))

/-- The contraction term C of an MM without its bank factor. -/
def mmC (d : MmDesc) : Nat := d.k32.toNat * (mmC256 d.afmt.toNat d.aexp d.bfmt.toNat d.bexp d.acc.toNat / 8)

/-- Cost and ready cycle after START_CYCLE of an MM (R82, R83, Table 3-4). -/
def mmCost (d : MmDesc) : Nat × Nat :=
  let (rows, cols) := tileShape d.shape.toNat
  let c := mmC d * mmFactor d + (if d.scaleSrc = 2 then 1 else 0)
  let w := if d.write then rows * cols * wfmtBytes d.wfmt.toNat / 512 else 0
  if d.rpl then (32 + 2 * Nat.max c w, 32 + 2 * c + 6 + w) else (24 + Nat.max c w, 24 + c + 6 + w)

/-- Cost of SCALE_LOAD (0x1), ACC_SAVE (0x2) or ACC_RESTORE (0x3) of `len` units of 8 KiB (Table 3-4). -/
def muOpCost (op len : Nat) : Nat :=
  match op with
  | 1 => 40
  | 2 => 24 + ceilDiv (8192 * len) 512
  | _ => 24 + ceilDiv (8192 * len) 1024

/-! ### Vector units (R85, R86) -/

/-- Bytes of a VU element (Table 7-2). -/
def vuBytes (fmt : Nat) : Nat :=
  match fmt with
  | 0 => 4 | 1 => 2 | 2 => 2 | 3 => 1 | 4 => 1 | 5 => 1 | 6 => 1 | 7 => 4 | 8 => 8 | 9 => 64 | 10 => 2 | _ => 0

/-- Rows and columns an operand has in scratchpad under its broadcast (R194). -/
def vuShape (o : VuOperand) (rows cols : Nat) : Nat × Nat :=
  match o.bcast.toNat with
  | 0 => (rows, cols) | 1 => (1, cols) | 2 => (rows, 1) | _ => (1, 1)

/-- Bytes an operand moves; a broadcast operand counts once (R194, R198). -/
def vuMoved (o : VuOperand) (rows cols : Nat) : Nat :=
  let (r, c) := vuShape o rows cols
  r * c * vuBytes o.fmt.toNat

/-- Outputs of a reduction (R200). -/
def vuOutputs (axis rows cols : Nat) : Nat :=
  match axis with
  | 1 => rows | 2 => cols | _ => 1

/-- The bank factor of one VU operand of a shape. -/
def vuOperandFactor (o : VuOperand) (rows cols : Nat) : Nat :=
  if o.fmt = 15 then 1 else
  let (r, c) := vuShape o rows cols
  let e := vuBytes o.fmt.toNat
  if o.trn then bankFactor o.off.toNat o.pitch.toNat (r * e) c 2048 else bankFactor o.off.toNat o.pitch.toNat (c * e) r 2048

/-- The shape of the destination of an operation. -/
def vuDestShape (op : Nat) (d : VuDesc) : Nat × Nat :=
  let rows := d.rows.toNat
  let cols := d.cols.toNat
  if op = 0x14 then (if d.axis = 1 then (rows, d.func.toNat) else if d.axis = 2 then (d.func.toNat, cols) else (1, d.func.toNat))
  else if 0x10 ≤ op ∧ op ≤ 0x21 then (if d.axis = 1 then (rows, 1) else if d.axis = 2 then (1, cols) else (1, 1))
  else (rows, cols)

/-- The shape of Z: an image for each output in XRED and XCOMB (R203, R204). -/
def vuZShape (op : Nat) (d : VuDesc) : Nat × Nat := if op = 0x20 ∨ op = 0x21 then vuDestShape op d else (d.rows.toNat, d.cols.toNat)

/-- What the cost of an operation needs beside words 0 to 15: bytes read and written beyond X, Y, Z and D, the bank factor of the operands
that words 16 on describe, whether an image is loaded, the choices per token, the fields of SOLVE_SPD. -/
structure VuExtra where
  rb : Nat
  wb : Nat
  f : Nat
  accIn : Bool
  kc : Nat
  n : Nat
  r : Nat
  damp : Bool
  deriving DecidableEq, Repr

/-- Nothing beyond the common words. -/
def vuPlain : VuExtra := ⟨0, 0, 1, false, 0, 0, 0, false⟩

/-- The bank factor of a VU clause: operands X, Y, Z and the destination, each in its own shape: one element or
image per output for a reduction or combine, K values and indices per output for TOPK; the buffers of COMPRESS and EXPAND are among what
words 16 on describe. -/
def vuFactor (op : Nat) (d : VuDesc) (x : VuExtra) : Nat :=
  let rows := d.rows.toNat
  let cols := d.cols.toNat
  let (dr, dc) := vuDestShape op d
  let (zr, zc) := vuZShape op d
  let route := op = 0x30 ∨ op = 0x31
  let (yr, yc) := if op = 0x14 then (dr, dc) else if route then (rows, x.kc) else (rows, cols)
  Nat.max (Nat.max x.f (Nat.max (vuOperandFactor d.x rows cols) (vuOperandFactor d.y yr yc)))
    (Nat.max (if op = 0x31 then 1 else vuOperandFactor d.z zr zc) (if op = 0x30 then 1 else vuOperandFactor d.d dr dc))

/-- The streaming term of a VU clause without its bank factor: 4 × P × ceil(M / 512) of a combine, L of any other (R79, R85). -/
def vuStream (op : Nat) (d : VuDesc) (x : VuExtra) : Nat :=
  let rows := d.rows.toNat
  let cols := d.cols.toNat
  let n := rows * cols
  let out := vuOutputs d.axis.toNat rows cols
  if op = 0x40 then 0
  else if op = 0x21 then
    4 * (rows + (if x.accIn then 3 else 0) + (if d.d.fmt = 9 then 3 else 0)) * ceilDiv cols 512
  else
    let rbX := vuMoved d.x rows cols
    let stream := op < 0x10
    let rb := rbX + (if stream then vuMoved d.y rows cols + vuMoved d.z rows cols else 0)
      + (if op = 0x20 ∧ x.accIn then out * vuBytes d.z.fmt.toNat else 0) + x.rb
    let wb := (if stream ∨ op = 0x31 then n * vuBytes d.d.fmt.toNat
      else if op = 0x14 then out * d.func.toNat * (vuBytes d.d.fmt.toNat + 2)
      else if op = 0x30 then 0
      else out * vuBytes d.d.fmt.toNat) + x.wb
    Nat.max (ceilDiv n 512) (Nat.max (ceilDiv rb 2048) (ceilDiv wb 2048))

/-- Cost, which is also the ready cycle, of a VU clause (R85, R86, R202 to R209). -/
def vuCost (op : Nat) (d : VuDesc) (x : VuExtra) : Nat :=
  let l := vuFactor op d x * vuStream op d x
  if op = 0x40 then
    let fac := ceilDiv (x.n * (x.n + 1) * (x.n + 2)) 3072 + 12 * x.n
    let sol := 2 * (ceilDiv (x.n * (x.n + 1) * x.r) 1024 + 4 * x.n)
    40 + (if x.damp then 2 * fac else fac) + sol
  else if op = 0x21 then 44 + l
  else if op = 0x20 then 80 + 4 * l
  else if 0x10 ≤ op ∧ op < 0x20 then 40 + l + 9
  else if op = 0x30 ∨ op = 0x31 then 56 + l
  else 40 + l

/-- The bank factor of expert buffers: `n` rows of `row` bytes at a pitch for each expert, a stride apart. -/
def buffersFactor (off stride pitch row n experts : Nat) : Nat :=
  if n = 0 then 1 else bankRows (fun i => off % 4096 + i / n * stride + i % n * pitch) row (n * experts) 2048

/-- Bytes COMPRESS moves beyond X: choices read; buffers, overflow rows, MAP and the OMAP of every mapped token written (R208).  MAP and
OMAP are runs of bytes, which meet no bank twice. -/
def compressExtra (d : VuDesc) (w : RouteWords) : VuExtra :=
  let t := d.rows.toNat
  let row := d.cols.toNat * vuBytes d.x.fmt.toNat
  let pitch := d.d.pitch.toNat
  let mapped := ((List.range t).filter fun i => w.rgmap.getD (i / 16) 0x3FF#16 != 0x3FF).length
  let buf := 16 * w.cap16.toNat * w.slices.length
  let ovf := 16 * w.ocap16.toNat
  { vuPlain with
    kc := w.kc.toNat
    rb := vuMoved d.y t w.kc.toNat
    wb := w.e.toNat * (buf + ovf * w.slices.length) * row + 4 * w.kc.toNat * (t + mapped)
    f := Nat.max (buffersFactor d.d.off.toNat w.bufStride.toNat pitch row buf w.e.toNat)
      (buffersFactor w.ovfOff.toNat (ovf * pitch) pitch row ovf w.e.toNat) }

/-- Bytes EXPAND moves beyond X and D: gates, map words and the rows of Z its source holds (R209). -/
def expandExtra (seat : Nat) (d : VuDesc) (w : RouteWords) : VuExtra :=
  let t := d.rows.toNat
  let row := d.cols.toNat * vuBytes d.z.fmt.toNat
  let pitch := d.z.pitch.toNat
  let mine := ((List.range t).filter fun i => (w.rgmap.getD (i / 16) 0x3FF#16).toNat == seat).length
  let buf := 16 * w.cap16.toNat * w.slices.length
  let ovf := 16 * w.ocap16.toNat
  let (maps, zrows) := if w.expSrc then (mine * w.kc.toNat, w.e.toNat * ovf) else (t * w.kc.toNat, w.e.toNat * buf)
  { vuPlain with
    kc := w.kc.toNat
    rb := vuMoved d.y t w.kc.toNat + 4 * maps + zrows * row
    f := if w.expSrc then buffersFactor d.z.off.toNat (ovf * pitch) pitch row ovf w.e.toNat
      else buffersFactor d.z.off.toNat w.bufStride.toNat pitch row buf w.e.toNat }

/-- Bytes INFL reads beyond X: the vector entries, a row of 4-byte channels for each seat or row group (R205). -/
def inflExtra (seat : Nat) (d : VuDesc) (w : InflWords) : VuExtra :=
  let slots := if seat = 0x3FF then w.rgmap.map BitVec.toNat else [seat]
  let read := slots.filter (· != 0x3FF)
  { vuPlain with
    rb := if seat = 0x3FF then ceilDiv d.rows.toNat 16 * d.cols.toNat * 4 else d.cols.toNat * 4
    f := bankRows (fun i => w.inflOff.toNat + read.getD i 0 * w.inflStride.toNat * 64 + 4 * w.inflCh0.toNat) (4 * d.cols.toNat)
      read.length 2048 }

/-- Bytes SIGN_UPDATE moves beyond its operands: the records and the 32-byte step block (R265). -/
def signExtra (d : VuDesc) : VuExtra :=
  let n := d.rows.toNat * d.cols.toNat
  { vuPlain with rb := 8 * n + 32, wb := 8 * n }

/-- The extra of SOLVE_SPD (R86, R212). -/
def solveExtra (w : SolveWords) : VuExtra := { vuPlain with n := w.n.toNat, r := w.r.toNat, damp := w.damp }

/-! ### The other engines (R87, R94, R96, R97) -/

/-- The least occupancy of an ISU clause on `n` parameters (R87). -/
def isuCost (n : Nat) : Nat := 64 + ceilDiv n 256

/-- Read slots a data-dependent read of `n` bytes reserves on each pseudo-channel (R94). -/
def gatherSlots (n : Nat) : Nat := ceilDiv n 8192

/-- The least occupancy of a transfer clause: 1 READ, 2 WRITE, 3 GATHER, 4 WINDOW_FILL (R94, R96, R97). -/
def xferCost (op rowBytes rows spOff spPitch : Nat) : Nat :=
  let b := rows * rowBytes
  let f := bankFactor spOff spPitch rowBytes rows 2048
  match op with
  | 3 => 8 + 4 * f * gatherSlots b
  | 4 => 4 + ceilDiv b 768
  | _ => 8 + f * ceilDiv b 2048

/-- Cycles at which the refreshes of a pseudo-channel start, for a period of `q` units of 0.25 µs (R91). -/
def refreshStarts (q pc : Nat) : List Nat :=
  let n := ceilDiv q 6
  (List.range n).map fun k => 600 * (k * q / n) + 48 * pc

/-- A refresh of the pseudo-channel blocks some cycle of [start, start + len); a blocked interval that passes the end
of the budget continues from cycle 0 (R91). -/
def refreshBlocks (q pc start len : Nat) : Bool :=
  let b := 600 * q
  (refreshStarts q pc).any fun s =>
    let lo := s % b
    (decide (lo < start + len) && decide (start < lo + 192)) || (decide (b < lo + 192) && decide (start < lo + 192 - b))

end Sys2Proof.Machine
end

