-- ==== Sys2Proof/Machine/Mu.lean ====
section
/-! DEFINITION. Matrix units: MM, SCALE_LOAD, ACC_SAVE and ACC_RESTORE (R135 to R167, R172 to R181). -/

namespace Sys2Proof.Machine

/-! ### Admissible descriptors (R170) -/

/-- The first failing rule of a list of rules (holds, NEED, LIMIT). -/
def firstFail : List (Bool × Nat × Nat) → Option (Nat × Nat)
  | [] => none
  | (ok, n, l) :: rest => if ok then firstFail rest else some (n, l)

/-- The format code is a floating-point format, codes included. -/
def muFloat (f : Nat) : Bool := f != 5

/-- Whether ACC takes the write-out format (Table 5-4). -/
def wfmtAllowed (acc w : Nat) : Bool :=
  match w with
  | 5 | 6 => true
  | 7 => acc == 2
  | 8 => acc == 0
  | _ => acc == 0 || acc == 1

/-- What R170 asks of an MM descriptor in a clause whose SEAT is `seat`: NEED and LIMIT of the first rule broken (R509). -/
def mmCheck (seat : Nat) (d : MmDesc) : Option (Nat × Nat) :=
  let af := d.afmt.toNat
  let bf := d.bfmt.toNat
  let acc := d.acc.toNat
  let w := d.wfmt.toNat
  let groups := (tileShape d.shape.toNat).1 / 16
  let cols := (tileShape d.shape.toNat).2
  let k := 32 * d.k32.toNat
  let raw := w == 7 || w == 8
  let down := fun (v : Word) (n : Nat) => (v.toNat % n == 0, v.toNat, v.toNat / n * n)
  let maps := (List.range 8).flatMap fun r =>
    let m := mmGroup d r
    [(m == 0x3FF || decide (r < groups), m, 0x3FF), (m == 0x3FF || decide (m < 512), m, 511),
      (seat == 0x3FF || m == 0x3FF || m == seat, m, seat)]
  firstFail ([
    (decide (d.shape.toNat ≤ 4), d.shape.toNat, 4),
    (decide (acc ≤ 2), acc, 2),
    (decide (d.scaleSrc.toNat ≤ 2), d.scaleSrc.toNat, 2),
    (decide (af ≤ 7), af, 7),
    (decide (bf ≤ 7), bf, 7),
    (decide (w ≤ 9), w, 9),
    (decide (1 ≤ d.k32.toNat), 0, 65535),
    (muFloat af == muFloat bf, bf, 0),
    ((af == 0) == (bf == 0), bf, 0),
    (!(af == 0) || acc == 0, acc, 0),
    ((acc == 2) == !muFloat af, acc, 0),
    down d.cbAOff 64, down d.cbBOff 64,
    (!(af == 7 && !d.acb) || codebookOk d.aexp d.cbA, codebookBad d.aexp d.cbA, 0),
    (!(bf == 7 && !d.bcb) || codebookOk d.bexp d.cbB, codebookBad d.bexp d.cbB, 0),
    (wfmtAllowed acc w, w, 0),
    (!raw || d.infl == 0, d.infl.toNat, 0),
    (!raw || d.scaleSrc == 0, d.scaleSrc.toNat, 0),
    (!(d.scaleSrc == 1) || decide (d.scaleReg.toNat + cols ≤ 4096), d.scaleReg.toNat, 4096 - cols),
    (d.scaleSrc == 2 || d.scaleOff == 0, d.scaleOff.toNat, 0),
    (!(d.infl == 2) || decide (af ≤ 4), af, 4),
    (!(d.infl == 3) || acc == 0, acc, 0),
    (!(d.infl == 3) || af == 1 || af == 2, af, 2),
    (!(d.infl == 3) || k % 128 == 0, d.k32.toNat, d.k32.toNat / 4 * 4),
    (!(d.infl == 3) || decide (1 ≤ d.gblk.toNat ∧ d.gblk.toNat ≤ 32), d.gblk.toNat, 32),
    (!(d.infl == 3) || decide ((d.gk0.toNat + d.gblk.toNat) * 128 ≤ k), d.gk0.toNat, k / 128 - d.gblk.toNat),
    (d.infl == 3 || d.gblk == 0, d.gblk.toNat, 0),
    (!d.rpl || (d.accInit && d.write && decide (acc ≠ 2)), 1, 0),
    (d.statusOff == 0xFFFFFFFF || d.statusOff.toNat % 4 == 0, d.statusOff.toNat, d.statusOff.toNat / 4 * 4)] ++ maps)

/-! ### The order of additions (R174 to R181) -/

/-- A value rounded to FP32, and whether a finite one overflowed. -/
def r32o (v : Fv) : Fv × Bool :=
  let r := fpRound fp32 true v
  (fpDecode fp32 r.enc, r.ovfl)

/-- The largest finite value of a format with the sign of an exact sum. -/
def clampTo (f : FpFmt) (v : Fv) : Fv := fpDecode f (signEnc f (fvNeg v) + f.maxFin)

/-- A node of the block tree: TwoSum of the children's sums, their rests summed.  A non-finite child gives the IEEE
sum and +0 (R179); a rounding that overflows gives the largest finite value and +0 (R160). -/
def treeNode (a b : Fv × Fv) : (Fv × Fv) × Bool :=
  let x := fvAdd a.1 b.1
  if !(fvFinite a.1 && fvFinite b.1) then ((rne32 x, pz), false)
  else
    let (s, o1) := r32o x
    let t := fvSub x s
    let (u, o2) := r32o (fvAdd a.2 b.2)
    let (e, o3) := r32o (fvAdd u t)
    if o1 || o2 || o3 then ((clampTo fp32 (fvAdd x (fvAdd a.2 b.2)), pz), true) else ((s, e), false)

/-- One level of the block tree. -/
def treeLevel : List (Fv × Fv) → List (Fv × Fv) × Bool
  | a :: b :: rest =>
    let (n, o) := treeNode a b
    let (ns, os) := treeLevel rest
    (n :: ns, o || os)
  | l => (l, false)

/-- The levels of the block tree. -/
def treeReduce : Nat → List (Fv × Fv) → (Fv × Fv) × Bool
  | 0, l => (l.headD (pz, pz), false)
  | n + 1, l =>
    let (l', o) := treeLevel l
    let (r, o') := treeReduce n l'
    (r, o || o')

/-- The pair of one block of 256 leaves (R175). -/
def blockPair (leaves : List Fv) : (Fv × Fv) × Bool := treeReduce 8 (leaves.map fun x => (x, pz))

/-- A sum rounded to FP32 with the exact rest, and whether it overflowed. -/
def twoSumO (a b : Fv) : Fv × Fv × Bool :=
  let x := fvAdd a b
  let (s, o) := r32o x
  (s, if fvFinite s then fvSub x s else pz, o)

/-- DWADD with the clamp of R160 and the special values of R179. -/
def dwAddClamp (x b : Fv × Fv) : (Fv × Fv) × Bool :=
  if !(fvFinite x.1 && fvFinite b.1) then ((rne32 (fvAdd x.1 b.1), pz), false)
  else
    let (sh, sl, o1) := twoSumO x.1 b.1
    let (th, tl, o2) := twoSumO x.2 b.2
    let (c, o3) := r32o (fvAdd sl th)
    let (vh, vl, o4) := twoSumO sh c
    let (w, o5) := r32o (fvAdd tl vl)
    let (h, l, o6) := twoSumO vh w
    if o1 || o2 || o3 || o4 || o5 || o6 then
      ((clampTo fp32 (fvAdd (fvAdd x.1 b.1) (fvAdd x.2 b.2)), pz), true)
    else ((h, l), false)

/-- The sequential A32C form of the gradient sums, saturating (R156, R179). -/
def seqAdd (p : Fv × Fv) (x : Fv) : (Fv × Fv) × Bool :=
  if !(fvFinite p.1 && fvFinite x) then ((rne32 (fvAdd p.1 x), pz), false)
  else
    let y := fvAdd p.1 x
    let (h, t, o) := twoSumO p.1 x
    if o then ((clampTo fp32 y, pz), true)
    else
      let (l, o2) := r32o (fvAdd p.2 t)
      if o2 then ((clampTo fp32 (fvAdd y p.2), pz), true) else ((h, l), false)

/-- A product rounded once to the accumulator's element format after a factor 2^-shift; a finite overflow becomes the
largest finite value of its sign (R118, R161). -/
def mmProduct (f : FpFmt) (shift : Nat) (a b : Fv) : Fv × Bool :=
  let x := fvScale (fvMul a b) (-(shift : Int))
  let r := fpRound f true x
  if r.ovfl then (clampTo f x, true) else (fpDecode f r.enc, false)

/-- The two parts of an FP32 operand of the split mode: hi = BF16(a) and lo = BF16(a − hi); where hi overflows, the operand follows the
overflow mode before the split.  An infinite or NaN operand keeps a non-finite hi in either mode, and its lo is NaN (R108, R119, R191). -/
def splitFp32 (ovf : Bool) (a : Fv) : Fv × Fv :=
  if !fvFinite a then (a, .nan) else
  let h := fpRound bf16 ovf a
  let hv := fpDecode bf16 h.enc
  if h.ovfl then (hv, if fvFinite hv then pz else .nan) else (hv, fpRoundV bf16 true (fvSub a hv))

/-- The leaves of a reduction from position `k0` folded block by block into the running pair: `lists` are the
product lists of a pass, one or three (R174, R176, R177). -/
def foldBlocks : (fuel k0 : Nat) → (lists : List (List Fv)) → (run : Fv × Fv) → Bool → (Fv × Fv) × Bool
  | 0, _, _, run, o => (run, o)
  | fuel + 1, k0, lists, run, o =>
    if (lists.headD []).isEmpty then (run, o) else
    let j := k0 % 256
    let n := 256 - j
    let step := lists.foldl (fun acc l =>
      let leaves := List.replicate j pz ++ l.take n
      let full := leaves ++ List.replicate (256 - leaves.length) pz
      let (b, o1) := blockPair full
      let (r, o2) := dwAddClamp acc.1 b
      (r, acc.2 || o1 || o2)) (run, o)
    foldBlocks fuel (k0 + n) (lists.map (·.drop n)) step.1 step.2

/-- Leaves added one at a time in FP16 (R180), clamped by R160. -/
def foldA16 : List Fv → Fv → Bool → Fv × Bool
  | [], v, o => (v, o)
  | x :: xs, v, o =>
    let y := fvAdd v x
    let r := fpRound fp16 true y
    if r.ovfl && fvFinite v && fvFinite x then foldA16 xs (clampTo fp16 y) true else foldA16 xs (fpDecode fp16 r.enc) o

/-- The integer of a value that is one. -/
def fvInt : Fv → Int
  | .fin n m e => sInt n m * 2 ^ e.toNat
  | _ => 0

/-- Integer products added exactly in ascending order, saturating at the I32 range (R162, R181). -/
def foldI32 : List (Fv × Fv) → Int → Bool → Int × Bool
  | [], v, o => (v, o)
  | (a, b) :: xs, v, o =>
    let (s, c) := clampInt (-(2 ^ 31)) (2 ^ 31 - 1) (v + fvInt a * fvInt b)
    foldI32 xs s (o || c)

/-- One element of a tile over the clause's K: the accumulated pair (A16 and I32 in the first component), and whether
it overflowed (R159). -/
def mmElement (acc : Nat) (split ovf : Bool) (shift k0 : Nat) (row col : List Fv) (init : Fv × Fv) :
    (Fv × Fv) × Bool :=
  let ops := row.zip col
  if acc = 2 then
    let (v, o) := foldI32 ops (fvInt init.1) false
    ((fvOfInt v, pz), o)
  else if acc = 1 then
    let ps := ops.map fun p => mmProduct fp16 shift p.1 p.2
    let (v, o) := foldA16 (ps.map (·.1)) init.1 false
    ((v, pz), o || ps.any (·.2))
  else
    let passes := if split then
        let hs := ops.map fun p => (splitFp32 ovf p.1, splitFp32 ovf p.2)
        [hs.map fun p => mmProduct fp32 shift p.1.1 p.2.1, hs.map fun p => mmProduct fp32 shift p.1.1 p.2.2,
          hs.map fun p => mmProduct fp32 shift p.1.2 p.2.1]
      else [ops.map fun p => mmProduct fp32 shift p.1 p.2]
    let (v, o) := foldBlocks (ops.length + 1) k0 (passes.map fun l => l.map (·.1)) init false
    (v, o || passes.any (fun l => l.any (·.2)))

/-! ### Operands of an MM (R136 to R139) -/

/-- The rows of the tile's A operand, or of a plane in A's layout, `fmt` its elements; a quiet row group reads +0. -/
def mmRowsOf (s : State) (g : Nat) (d : MmDesc) (seats : List (Option Seat)) (quiet : List Bool) (off : Nat)
    (f : ElemFmt) (k : Nat) : List (List Fv) :=
  let pitch := 32 * d.aPitch.toNat
  (List.range seats.length).flatMap fun r =>
    let t := seats.getD r none
    if quiet.getD r false then List.replicate 16 (List.replicate k pz)
    else if d.atrn then
      let lines := (List.range k).map fun i =>
        let n := if d.amode then 16 else 16 * (r + 1)
        (muElems f n (s.opRead g d.amode t (off + i * pitch) (muBytes f.fmt n))).drop (n - 16)
      (List.range 16).map fun p => lines.map fun l => l.getD p pz
    else (List.range 16).map fun p =>
      muElems f k (s.opRead g d.amode t (off + (if d.amode then p else 16 * r + p) * pitch) (muBytes f.fmt k))

/-- The columns of the B operand, each its K elements. -/
def mmCols (s : State) (g : Nat) (d : MmDesc) (f : ElemFmt) (cols k : Nat) : List (List Fv) :=
  let pitch := 32 * d.bPitch.toNat
  let line := fun i n => muElems f n (s.opRead g false none (d.bOff.toNat + i * pitch) (muBytes f.fmt n))
  if d.btrn then (List.range cols).map fun j => line j k
  else
    let lines := (List.range k).map fun i => line i cols
    (List.range cols).map fun j => lines.map fun l => l.getD j pz

/-- The scale and offset of `n` channels from `ch0` of a seat slot's entry (R153); the identity where no request with an inflection
fills the slot (its corners, DEDUCED: log entry 70). -/
def inflEntry (s : State) (g base stride ch0 slot : Nat) (filled : Bool) (n : Nat) : List (Fv × Fv) :=
  if filled then
    (numsOf 4 n (s.opRead g false none (base + slot * stride * 64 + 4 * ch0) (4 * n))).map fun w =>
      (fpDecode fp16 (w % 65536), fpDecode fp16 (w / 65536))
  else List.replicate n (.fin false 1 0, .fin true 0 0)

/-- The entries of the listed slots that requests fill lie within scratchpad. -/
def inflInside (s : State) (g base stride ch0 n : Nat) (slots : List Nat) : Bool :=
  slots.all fun slot => (s.seatAt g slot).isNone || extentOk false (base + slot * stride * 64 + 4 * ch0) 0 1 (4 * n)

/-- The codebook of an operand: the descriptor pool's, or 64 bytes of scratchpad. -/
def mmCodebook (s : State) (g fmt : Nat) (inSp : Bool) (off : Nat) (pool : List Word) : List Word :=
  if fmt = 7 then (if inSp then wordsOfBytes (s.opRead g false none off 64) else pool) else []

/-! ### Accumulator storage (R142, R144) -/

/-- The key of a byte of an MU's accumulator storage. -/
def accKey (g m off : Nat) : Nat := 0x80000 * (16 * g + m) + off

/-- Bytes of an accumulator element. -/
def accBytes (acc : Nat) : Nat :=
  match acc with
  | 0 => 8 | 1 => 2 | _ => 4

/-- A tile element from its bytes. -/
def accDecode (acc : Nat) (v : Nat) : Fv × Fv :=
  match acc with
  | 0 => (fpDecode fp32 (v % 0x100000000), fpDecode fp32 (v / 0x100000000))
  | 1 => (fpDecode fp16 v, pz)
  | _ => (fvOfInt (bitsInt 32 v), pz)

/-- The bytes of a tile element; hi in the low word. -/
def accEncode (acc : Nat) (v : Fv × Fv) : List Byte :=
  match acc with
  | 0 => bytesOfNat 4 (fpRound fp32 true v.1).enc ++ bytesOfNat 4 (fpRound fp32 true v.2).enc
  | 1 => bytesOfNat 2 (fpRound fp16 true v.1).enc
  | _ => bytesOfNat 4 (intBits 4 (fvInt v.1))

/-- A tile's bytes put into accumulator storage. -/
def State.accWrite (s : State) (g m off : Nat) (bs : List Byte) : State :=
  { s with mem := { s.mem with acc := memWrite s.mem.acc (accKey g m off) bs } }

/-! ### Write-out (R151, R152) -/

/-- What the write-out of one element gives: its bytes, its y_pre bytes (WFMT 9), conversions counted and saturated,
whether the written element is NaN or infinite, whether a restored FULL pair saturated. -/
structure WoElem where
  bytes : List Byte
  pre : List Byte
  elems : Nat
  sats : Nat
  nonfin : Bool
  full : Bool
  deriving DecidableEq, Repr

/-- The floating-point destination of a write-out format. -/
def wfmtFp (w : Nat) : FpFmt :=
  match w with
  | 0 => fp32 | 1 => bf16 | 2 => fp16 | 3 => e4m3 | _ => e5m2

/-- Steps 1 to 4 of R151 on one element: `shift` restores a second-pass value, `c` is the column scale (none:
SCALE_SRC 0), `infl` the row group's scale and offset (none: INFL is not 1).  WFMT 9 converts two values per element and counts both (DEDUCED: log
entry 56). -/
def writeOut (acc w : Nat) (ovf : Bool) (shift : Nat) (v : Fv × Fv) (c : Option Fv) (infl : Option (Fv × Fv)) :
    WoElem :=
  if w = 7 then ⟨accEncode 2 v, [], 0, 0, false, false⟩
  else if w = 8 then
    let h := fvScale v.1 shift
    let r := fpRound fp32 true h
    if r.ovfl then ⟨accEncode 0 (clampTo fp32 h, pz), [], 0, 0, false, true⟩
    else ⟨accEncode 0 (h, fvScale v.2 shift), [], 0, 0, !fvFinite h, false⟩
  else
    let x := fvScale (if acc = 0 ∧ fvFinite v.1 then fvAdd v.1 v.2 else v.1) shift
    let pre := match c with
      | some sc => if fvFinite sc then fpRoundV fp32 ovf (fvMul x sc) else .nan
      | none => fpRoundV fp32 ovf x
    let y := match infl with
      | some (sc, b) => fpRoundV fp32 ovf (fvAdd (fvMul sc pre) b)
      | none => pre
    if w = 5 ∨ w = 6 then
      let (i, sat) := if w = 5 then toInt (-128) 127 y else toInt 0 255 y
      ⟨bytesOfNat 1 (intBits 1 i), [], 1, b2n sat, false, false⟩
    else if w = 9 then
      let a := fpRound bf16 ovf y
      let b := fpRound bf16 ovf pre
      ⟨bytesOfNat 2 a.enc, bytesOfNat 2 b.enc, 2, b2n a.sat + b2n b.sat,
        !(fvFinite (fpDecode bf16 a.enc) && fvFinite (fpDecode bf16 b.enc)), false⟩
    else
      let f := wfmtFp w
      let a := fpRound f ovf y
      ⟨bytesOfNat (wfmtBytes w) a.enc, [], 1, b2n a.sat, !fvFinite (fpDecode f a.enc), false⟩

/-! ### MM -/

/-- Bytes of an MU's accumulator storage. -/
def accSize : Nat := 0x80000

/-- The tiles and gradient blocks of an MM lie within accumulator storage (R143, R165). -/
def mmAccInside (d : MmDesc) : Bool :=
  let tile := (tileShape d.shape.toNat).1 * (tileShape d.shape.toNat).2 * accBytes d.acc.toNat
  decide (8192 * d.accBase.toNat + (if d.rpl then 2 * tile else tile) ≤ accSize)
    && (!(d.infl == 3) || decide (8192 * d.gaccBase.toNat + 16384 * d.gblk.toNat ≤ accSize))

/-- Every ABS range of an MM lies within scratchpad, its tiles within accumulator storage (Table 1-1, R143) (its corners, DEDUCED: log entry 69). -/
def mmInside (d : MmDesc) : Bool :=
  let (rows, cols) := tileShape d.shape.toNat
  let k := 32 * d.k32.toNat
  let ap := 32 * d.aPitch.toNat
  let bp := 32 * d.bPitch.toNat
  let dp := 32 * d.dPitch.toNat
  let af := d.afmt.toNat
  let bf := d.bfmt.toNat
  mmAccInside d && (if d.atrn then extentOk d.amode d.aOff.toNat ap k (mmRowBytes af rows) else extentOk d.amode d.aOff.toNat ap rows (mmRowBytes af k))
    && (if d.btrn then extentOk false d.bOff.toNat bp cols (mmRowBytes bf k) else extentOk false d.bOff.toNat bp k (mmRowBytes bf cols))
    && (!d.write || extentOk d.dmode d.dOff.toNat dp rows (if d.wfmt = 9 then 2 * cols else wfmtBytes d.wfmt.toNat * cols))
    && (!(d.write && d.wfmt == 9) || extentOk d.dmode d.ypreOff.toNat dp rows (2 * cols))
    && (!(d.infl == 3) || (if d.atrn then extentOk d.amode d.ypreOff.toNat ap k (2 * rows)
      else extentOk d.amode d.ypreOff.toNat ap rows (2 * k)))
    && (!(d.afmt == 7 && d.acb) || extentOk false d.cbAOff.toNat 0 1 64)
    && (!(d.bfmt == 7 && d.bcb) || extentOk false d.cbBOff.toNat 0 1 64)
    && (!(d.scaleSrc == 2) || extentOk false d.scaleOff.toNat 0 1 (4 * cols))
    && (d.statusOff == 0xFFFFFFFF || extentOk false d.statusOff.toNat 0 1 4)

/-- The inflection entries that an MM reads lie within scratchpad (R153, Table 1-1) (its corners, DEDUCED: log entry 69). -/
def mmInflInside (s : State) (c : Issue) (d : MmDesc) : Bool :=
  d.infl == 0 || inflInside s c.gal.toNat d.inflOff.toNat d.inflStride.toNat d.inflCh0.toNat
    (if d.infl = 1 then (tileShape d.shape.toNat).2 else 32 * d.k32.toNat)
    ((List.range ((tileShape d.shape.toNat).1 / 16)).map (mmGroup d))

/-- The gradient sums of one row group and channel over its 16 rows: P, Q and whether either saturated; a product or a sum that saturates
leaves lo = +0 (R156). -/
def gradSums : List (Fv × Fv) → (Fv × Fv) → (Fv × Fv) → Bool → (Fv × Fv) × (Fv × Fv) × Bool
  | [], p, q, o => (p, q, o)
  | (g, y) :: xs, p, q, o =>
    let (x, o1) := mmProduct fp32 0 g y
    let (p1, o2) := seqAdd p x
    let p' := if o1 then (p1.1, pz) else p1
    let (q', o3) := seqAdd q g
    gradSums xs p' q' (o || o1 || o2 || o3)

/-- A mask of the row groups for which a mark holds. -/
def groupMask (marks : List Bool) : Nat :=
  ((List.range marks.length).map fun r => if marks.getD r false then 2 ^ r else 0).sum

/-- Rows from a tile's elements, `cols` to a row. -/
def cutRows {β : Type} (cols : Nat) : (rows : Nat) → List β → List (List β)
  | 0, _ => []
  | n + 1, l => l.take cols :: cutRows cols n (l.drop cols)

/-- An effect put into the list of what waits for a commit. -/
def State.pendPut (s : State) (p : Pend) : State := { s with tk := { s.tk with pend := s.tk.pend ++ [p] } }

/-- What an MM computes: its tile after the first and the second pass, the gradient sums of its blocks, groups and channels, the
elements it writes out, and for each row group whether it saturated, took the second pass, holds a non-finite element, saturated a
gradient sum. -/
structure MmResult where
  first : List (List ((Fv × Fv) × Bool))
  second : List (List ((Fv × Fv) × Bool))
  armed : Bool
  grads : List (List (List ((Fv × Fv) × (Fv × Fv) × Bool)))
  outs : List (List WoElem)
  sat : List Bool
  rpld : List Bool
  nonfin : List Bool
  gsat : List Bool

/-- The seats of an MM's row groups (R138). -/
def mmSeats (s : State) (g : Nat) (d : MmDesc) : List (Option Seat) :=
  (List.range ((tileShape d.shape.toNat).1 / 16)).map fun r => s.seatAt g (mmGroup d r)

/-- A row group is quiet: no request fills its seat and an operand or the destination is in CTX mode (R58). -/
def mmQuiet (d : MmDesc) (t : Option Seat) : Bool := t.isNone && (d.amode || d.dmode)

/-- The elements of row group `r`'s 16 rows. -/
def groupOuts (outs : List (List WoElem)) (r : Nat) : List WoElem := (List.range 16).flatMap fun p => outs.getD (16 * r + p) []

/-- What the MM clause on physical MU `m` computes (R135 to R167, R174 to R181); K is 32 × K32 (DEDUCED: log entry 118). -/
def mmCalc (s : State) (c : Issue) (m : Nat) (d : MmDesc) : MmResult :=
  let g := c.gal.toNat
  let rows := (tileShape d.shape.toNat).1
  let cols := (tileShape d.shape.toNat).2
  let ng := rows / 16
  let acc := d.acc.toNat
  let k := 32 * d.k32.toNat
  let k0 := 32 * d.kOff32.toNat
  let seats := mmSeats s g d
  let quiet := seats.map (mmQuiet d)
  let fa : ElemFmt := ⟨d.afmt.toNat, d.asgn, mmCodebook s g d.afmt.toNat d.acb d.cbAOff.toNat d.cbA⟩
  let fb : ElemFmt := ⟨d.bfmt.toNat, d.bsgn, mmCodebook s g d.bfmt.toNat d.bcb d.cbBOff.toNat d.cbB⟩
  let a0 := mmRowsOf s g d seats quiet d.aOff.toNat fa k
  let b := mmCols s g d fb cols k
  -- backward: g' = RNE(s × g) in A's format (R155)
  let a := if d.infl = 2 ∨ d.infl = 3 then
      (List.range rows).map fun i =>
        let r := i / 16
        let t := seats.getD r none
        let ent := inflEntry s g d.inflOff.toNat d.inflStride.toNat d.inflCh0.toNat (mmGroup d r) (s.inflected t) k
        (ent.zip (a0.getD i [])).map fun p =>
          if fvEq p.1.1 (.fin false 1 0) then p.2 else fpRoundV (muFp d.afmt.toNat) d.ovf (fvMul p.1.1 p.2)
    else a0
  -- gradient sums (R156, R158)
  let grads := if d.infl = 3 then
      let yp := mmRowsOf s g d seats quiet d.ypreOff.toNat ⟨1, false, []⟩ k
      (List.range d.gblk.toNat).map fun j => (List.range ng).map fun r => (List.range 128).map fun ch =>
        let kk := 128 * (d.gk0.toNat + j) + ch
        gradSums ((List.range 16).map fun p => (((a0.getD (16 * r + p) []).getD kk pz), ((yp.getD (16 * r + p) []).getD kk pz)))
          (pz, pz) (pz, pz) false
    else []
  let gsat := (List.range ng).map fun r =>
    (seats.getD r none).isSome && grads.any fun blk => (blk.getD r []).any (·.2.2)
  -- the first pass (R145)
  let base := 8192 * d.accBase.toNat
  let e := accBytes acc
  let stored := if d.accInit then List.replicate (rows * cols) (pz, pz)
    else (numsOf e (rows * cols) (memRead s.mem.acc (accKey g m base) (rows * cols * e))).map (accDecode acc)
  let inits := cutRows cols rows stored
  let split := decide (d.afmt = 0)
  let tile := fun (shift : Nat) (start : List (List (Fv × Fv))) => (a.zip start).map fun ra =>
    (b.zip ra.2).map fun cb => mmElement acc split d.ovf shift k0 ra.1 cb.1 cb.2
  let first := tile 0 inits
  let ovfOf := fun (t : List (List ((Fv × Fv) × Bool))) (r : Nat) =>
    (List.range 16).any fun p => (t.getD (16 * r + p) []).any (·.2)
  -- the second pass (R161, R165)
  let take := (List.range ng).map fun r =>
    d.rpl && decide (acc ≠ 2) && ovfOf first r && (match seats.getD r none with
      | some t => t.cls == 1 || t.cls == 2
      | none => false)
  let armed := take.any id
  let shift := if acc = 1 then 12 else 64
  let second := if armed then tile shift (List.replicate rows (List.replicate cols (pz, pz))) else []
  -- write-out (R151)
  let scales : List (Option Fv) :=
    if d.scaleSrc = 1 then (List.range cols).map fun j =>
      some (f32 (smGet (fun _ => 0x7FC00000#32) s.mem.scale ((16 * g + m) * 4096 + d.scaleReg.toNat + j)))
    else if d.scaleSrc = 2 then (numsOf 4 cols (s.opRead g false none d.scaleOff.toNat (4 * cols))).map fun w =>
      some (fpDecode fp32 w)
    else List.replicate cols none
  let outs := if d.write then
      (List.range rows).map fun i =>
        let r := i / 16
        let ent : List (Option (Fv × Fv)) := if d.infl = 1 then
            (inflEntry s g d.inflOff.toNat d.inflStride.toNat d.inflCh0.toNat (mmGroup d r)
              (s.inflected (seats.getD r none)) cols).map some
          else List.replicate cols none
        let tk := take.getD r false
        let vals := (if tk then second else first).getD i []
        (vals.zip (scales.zip ent)).map fun x =>
          writeOut acc d.wfmt.toNat d.ovf (if tk then shift else 0) x.1.1 x.2.1 x.2.2
    else []
  let written := fun (r : Nat) => d.write && !(quiet.getD r false)
  let sat := (List.range ng).map fun r => (seats.getD r none).isSome &&
    (if take.getD r false then ovfOf second r || (written r && (groupOuts outs r).any (·.full)) else ovfOf first r)
  let rpld := (List.range ng).map fun r => (seats.getD r none).isSome && take.getD r false
  let nonfin := (List.range ng).map fun r => (seats.getD r none).isSome && written r && (groupOuts outs r).any (·.nonfin)
  ⟨first, second, armed, grads, outs, sat, rpld, nonfin, gsat⟩

/-- The bytes of a tile in accumulator storage. -/
def tileBytes (acc : Nat) (t : List (List ((Fv × Fv) × Bool))) : List Byte := t.flatMap fun row => row.flatMap fun x => accEncode acc x.1

/-- The bytes of a gradient block: eight row groups of 128 channels, P and Q (R156). -/
def gradBytes (ng : Nat) (blk : List (List ((Fv × Fv) × (Fv × Fv) × Bool))) : List Byte :=
  (List.range 8).flatMap fun r => if r < ng then ((blk.getD r []).take 128).flatMap fun x => accEncode 0 x.1 ++ accEncode 0 x.2.1
    else List.replicate 2048 0

/-- Accumulator storage as an MM leaves it (R142, R156, R161). -/
def mmStoreAcc (s : State) (g m : Nat) (d : MmDesc) (r : MmResult) : State :=
  let tile := (tileShape d.shape.toNat).1 * (tileShape d.shape.toNat).2 * accBytes d.acc.toNat
  let s1 := s.accWrite g m (8192 * d.accBase.toNat) (tileBytes d.acc.toNat r.first)
  let s2 := if r.armed then s1.accWrite g m (8192 * d.accBase.toNat + tile) (tileBytes d.acc.toNat r.second) else s1
  (List.range r.grads.length).foldl (fun u j => u.accWrite g m (8192 * d.gaccBase.toNat + 16384 * j)
    (gradBytes ((tileShape d.shape.toNat).1 / 16) (r.grads.getD j []))) s2

/-- Row `i` of an MM written out through its row group's seat (R137, R151). -/
def mmStoreRow (s : State) (g : Nat) (d : MmDesc) (t : Option Seat) (i : Nat) (es : List WoElem) : State :=
  if mmQuiet d t then s else
    let row := (if d.dmode then i % 16 else i) * (32 * d.dPitch.toNat)
    let u := s.opWrite g d.dmode t (d.dOff.toNat + row) (es.flatMap (·.bytes))
    if d.wfmt = 9 then u.opWrite g d.dmode t (d.ypreOff.toNat + row) (es.flatMap (·.pre)) else u

/-- What an MM stores: its accumulator storage, its destination, its status word (R142, R151, R167). -/
def mmStore (s : State) (g m : Nat) (d : MmDesc) (seats : List (Option Seat)) (r : MmResult) : State :=
  let s3 := mmStoreAcc s g m d r
  let s4 := if d.write then (List.range (tileShape d.shape.toNat).1).foldl (fun u i =>
      mmStoreRow u g d (seats.getD (i / 16) none) i (r.outs.getD i [])) s3
    else s3
  if d.statusOff = 0xFFFFFFFF then s4 else
    s4.spWrite g d.statusOff.toNat (bytesOfNat 4 (groupMask r.sat * 0x1000000 + groupMask r.rpld * 0x10000
      + groupMask r.nonfin * 0x100 + groupMask r.gsat))

/-- What of an MM waits for the commit of each row group's request, and what it counts (R130, R131, R166). -/
def mmNote (s : State) (g m : Nat) (d : MmDesc) (seats : List (Option Seat)) (res : MmResult) : State :=
  (List.range seats.length).foldl (fun u r =>
    match seats.getD r none with
    | none => u
    | some t =>
      let u1 := if res.sat.getD r false then u.pendPut (.sat g m t.handle 1) else u
      let u2 := if res.rpld.getD r false then u1.pendPut (.rpl g m t.handle 1) else u1
      let os := if d.write then groupOuts res.outs r else []
      let n := (os.map (·.elems)).sum
      let u3 := if d.calEn && decide (0 < n) then
          u2.pendPut (.cal g d.calSlot.toNat (some t.handle) (os.map (·.sats)).sum n) else u2
      let ev := fun event n => (⟨0x20 * g + m, event, 7, some t.inst, some (t.stream, t.cls), 0xFF, none, n⟩ : CntEv)
      ((u3.tally (ev 2 (16 * (tileShape d.shape.toNat).2 * (32 * d.k32.toNat)))).tally (ev 4 (b2n (res.rpld.getD r false)))).tally
        (ev 5 (b2n (res.sat.getD r false)))) s

/-- The MM clause on physical MU `m` of its gallery (R135 to R167, R174 to R181). -/
def mmRun (s : State) (c : Issue) (m : Nat) (d : MmDesc) : State :=
  let r := mmCalc s c m d
  let seats := mmSeats s c.gal.toNat d
  mmNote (mmStore s c.gal.toNat m d seats r) c.gal.toNat m d seats r

/-- Scratchpad lines an MM reads and writes in ABS mode, for the counters. -/
def mmLines (d : MmDesc) : List (Nat × Nat) × List (Nat × Nat) :=
  let (rows, cols) := tileShape d.shape.toNat
  let k := 32 * d.k32.toNat
  let lines := fun (off pitch n bytes : Nat) => (List.range n).map fun i => (off + i * pitch, bytes)
  let ap := 32 * d.aPitch.toNat
  let bp := 32 * d.bPitch.toNat
  let a := if d.amode then [] else if d.atrn then lines d.aOff.toNat ap k (mmRowBytes d.afmt.toNat rows)
    else lines d.aOff.toNat ap rows (mmRowBytes d.afmt.toNat k)
  let b := if d.btrn then lines d.bOff.toNat bp cols (mmRowBytes d.bfmt.toNat k)
    else lines d.bOff.toNat bp k (mmRowBytes d.bfmt.toNat cols)
  let w := if d.write && !d.dmode then lines d.dOff.toNat (32 * d.dPitch.toNat) rows (wfmtBytes d.wfmt.toNat * cols) else []
  (a ++ b, w)

/-- An MU clause is issued when the running program places it and the physical unit is in service; otherwise no newel
issues it and it has no effect (R22, R44). -/
def State.muReady (s : State) (c : Issue) (o : Op) : Bool := s.issued 0 c o && s.muUp c.gal.toNat (s.physMu c.gal.toNat c.unit.toNat)

/-- MM (R135 to R167); no admitted program places a descriptor that R170 forbids, so no newel issues it (check 0x07, R22). -/
def execMm (c : Issue) (d : MmDesc) (s : State) : Host.Outcome State Fault Refusal :=
  if !s.muReady c (.mm d) || (mmCheck c.seat.toNat d).isSome || !(mmInside d && mmInflInside s c d) then keep s s
  else
    let g := c.gal.toNat
    let m := s.physMu g c.unit.toNat
    let t := s.seatAt g c.seat.toNat
    let s1 := (mmRun s c m d).tallyClause c (0x20 * g + m)
    let s2 := s1.tally ⟨0x20 * g + m, 3, 7, t.map (·.inst), seatTag t, 0xFF, none, (mmFactor d - 1) * mmC d⟩
    let s3 := s2.tally ⟨0x20 * g + 22, 3, 7, t.map (·.inst), seatTag t, m, none, (mmFactor d - 1) * mmC d⟩
    keep s ((s3.tallySp g m 1 t (mmLines d).1).tallySp g m 2 t (mmLines d).2)

/-- What check 0x07 asks of a SCALE_LOAD (R148). -/
def scaleLoadOk (d : ScaleLoadDesc) : Bool :=
  decide (1 ≤ d.count.toNat ∧ d.reg0.toNat + d.count.toNat ≤ 4096 ∧ d.srcOff.toNat % 64 = 0)

/-- SCALE_LOAD: COUNT FP32 words from scratchpad into the scale registers from REG0 (R148). -/
def execScaleLoad (c : Issue) (d : ScaleLoadDesc) (s : State) : Host.Outcome State Fault Refusal :=
  let g := c.gal.toNat
  let m := s.physMu g c.unit.toNat
  let n := d.count.toNat
  if !s.muReady c (.scaleLoad d) || !scaleLoadOk d || !extentOk false d.srcOff.toNat 0 1 (4 * n) then keep s s
  else
    let ws := (numsOf 4 n (memRead s.mem.sp (spKey g d.srcOff.toNat) (4 * n))).map wordOf
    let key := (16 * g + m) * 4096 + d.reg0.toNat
    let scale := (List.range n).foldl (fun mp i => smSet (fun _ => 0x7FC00000#32) mp (key + i) (wordAt ws i)) s.mem.scale
    let s1 := ({ s with mem := { s.mem with scale := scale } }).tallyClause c (0x20 * g + m)
    keep s (s1.tallySp g m 1 (s.seatAt g c.seat.toNat) [(d.srcOff.toNat, 4 * n)])

/-- An ACC_SAVE or ACC_RESTORE names a range that accumulator storage has (Table 5-8). -/
def accMoveOk (d : AccMoveDesc) : Bool :=
  decide (1 ≤ d.len.toNat ∧ d.accBase.toNat + d.len.toNat ≤ 64 ∧ d.spOff.toNat % 64 = 0)

/-- ACC_SAVE: a range of accumulator storage copied to scratchpad byte for byte (R146). -/
def execAccSave (c : Issue) (d : AccMoveDesc) (s : State) : Host.Outcome State Fault Refusal :=
  let g := c.gal.toNat
  let m := s.physMu g c.unit.toNat
  let n := 8192 * d.len.toNat
  if !s.muReady c (.accMove 2 d) || !accMoveOk d || !extentOk false d.spOff.toNat 0 1 n then keep s s
  else
    let s1 := (s.spWrite g d.spOff.toNat (memRead s.mem.acc (accKey g m (8192 * d.accBase.toNat)) n)).tallyClause c (0x20 * g + m)
    keep s (s1.tallySp g m 2 (s.seatAt g c.seat.toNat) [(d.spOff.toNat, n)])

/-- ACC_RESTORE: the same image copied back (R146). -/
def execAccRestore (c : Issue) (d : AccMoveDesc) (s : State) : Host.Outcome State Fault Refusal :=
  let g := c.gal.toNat
  let m := s.physMu g c.unit.toNat
  let n := 8192 * d.len.toNat
  if !s.muReady c (.accMove 3 d) || !accMoveOk d || !extentOk false d.spOff.toNat 0 1 n then keep s s
  else
    let s1 := (s.accWrite g m (8192 * d.accBase.toNat) (memRead s.mem.sp (spKey g d.spOff.toNat) n)).tallyClause c (0x20 * g + m)
    keep s (s1.tallySp g m 1 (s.seatAt g c.seat.toNat) [(d.spOff.toNat, n)])

end Sys2Proof.Machine
end

