-- ==== Sys2Proof/Machine/Objects.lean ====
section
/-! DEFINITION. Address spaces behind transfers and updates: program space, objects and their planes, slots, the
reservations of a request (R89, R222, R231, R253, R285, R307). -/

namespace Sys2Proof.Machine

/-! ### Program space (R20, R89) -/

/-- Bytes of a gallery's program space: 126 GiB (Table 10-1). -/
def progSize : Nat := 126 * 0x40000000

/-- The stack of a gallery, 0 or 1, that an address of its program space lies on (R89). -/
def stackBit (a : Nat) : Nat := a / 4096 % 2

/-- The key of a program-space byte: alternate 4 KiB blocks lie on the gallery's two stacks (R89). -/
def progKey (g a : Nat) : Nat := 0x1000000000 * (2 * g + stackBit a) + (a / 8192 * 4096 + a % 4096)

/-- A run of bytes cut at 4 KiB boundaries. -/
def pageRuns (a n : Nat) : List (Nat × Nat) :=
  (pageSplit (n / 4096 + 2) a n).foldl (fun (acc : List (Nat × Nat) × Nat) p => (acc.1 ++ [(acc.2, p.2)], acc.2 + p.2))
    ([], a) |>.1

/-- Bytes of program space; a poisoned page reads +0 (R421). -/
def State.progRead (s : State) (g a n : Nat) : List Byte :=
  (pageRuns a n).flatMap fun p =>
    if s.pagePoisoned (2 * g + stackBit p.1) (p.1 / 8192) then List.replicate p.2 0
    else memRead s.mem.hbm (progKey g p.1) p.2

/-- Bytes of program space written. -/
def State.progWrite (s : State) (g a : Nat) (bs : List Byte) : State :=
  let m := (pageRuns a bs.length).foldl (fun (acc : Mem × List Byte) p =>
    (memWrite acc.1 (progKey g p.1) (acc.2.take p.2), acc.2.drop p.2)) (s.mem.hbm, bs)
  { s with mem := { s.mem with hbm := m.1 } }

/-- The byte address of a stem slot's region in every gallery's program space (R221). -/
def State.stemBase (s : State) (slot : Nat) : Nat := s.fld (Reg.LEX_STEM_BASE slot) 16 0 * 0x100000

/-! ### The lexicon and slots, read -/

/-- A lexicon entry. -/
def State.lexAt (s : State) (id : Nat) : LexEntry := smGet (fun _ => LexEntry.free) s.ls.lex id

/-- The sixteen words of an entry (Table 8-11). -/
def lexWords (e : LexEntry) : List Word :=
  [wordOf (e.kind * 0x10000000 + e.state * 0x1000000 + e.inst * 0x40000 + e.form * 0x20000 + b2n e.hdrOk * 0x10000 + e.gen),
    wordOf (e.keySlot * 0x10000 + e.pins), wordOf e.pages, wordOf e.manifest, e.place,
    wordOf (b2n e.slotted * 0x80000000 + e.slot)] ++ words64 e.lastLanding.toNat
    ++ (e.stemDigest ++ List.replicate (8 - e.stemDigest.length) 0)

/-- The gallery of a copy of the lexicon, of the header store and of the ring engine's state: copy 0 lies on G0's stacks, copy 1 on G4's (R19). -/
def copyGal (c : Nat) : Nat := 4 * c

/-- What a lexicon id reads as in a copy that has no words for it: a free entry's (DESIGN CHOICE: log entry 5). -/
def freeWords : Nat → List Word := fun _ => lexWords LexEntry.free

/-- The copies of the lexicon with an entry's words written, but for a copy whose gallery is fenced (R236, R427). -/
def State.lexCopied (s : State) (id : Nat) (e : LexEntry) : List (SMap (List Word)) :=
  (List.range 2).map fun c =>
    let m := s.ls.lexCopies.getD c []
    if s.galFenced (copyGal c) then m else smSet freeWords m id (lexWords e)

/-- A lexicon entry set, in both copies (R236). -/
def State.setLex (s : State) (id : Nat) (e : LexEntry) : State :=
  { s with ls := { s.ls with lex := smSet (fun _ => LexEntry.free) s.ls.lex id e, lexCopies := s.lexCopied id e } }

/-- A copy of an id's words can be read: its gallery is not fenced, and the stack that holds the id has no page of the lexicon that awaits
repair (R236, R421, Table 15-2). -/
def State.lexCopyUp (s : State) (c id : Nat) : Bool :=
  !s.galFenced (copyGal c) && !s.faults.poison.any fun p => p.kind == .lexiconCopy && p.stack == 8 * c + id % 2

/-- The words of an entry, from copy 0, or from copy 1 where copy 0 cannot be read (R236). -/
def State.lexRead (s : State) (id : Nat) : List Word :=
  smGet freeWords (s.ls.lexCopies.getD (if s.lexCopyUp 0 id then 0 else 1) []) id

/-! ### The header store (R287) -/

/-- Bytes of the header store written in both copies, but for a copy whose gallery is fenced. -/
def State.hdrWrite (s : State) (a : Nat) (bs : List Byte) : State :=
  let put := fun (c : Nat) (m : Mem) => if s.galFenced (copyGal c) then m else memWrite m a bs
  { s with mem := { s.mem with hdr := put 0 s.mem.hdr, hdrM := put 1 s.mem.hdrM } }

/-- Bytes of the header store, from the copy on S9 while G0 is fenced. -/
def State.hdrRead (s : State) (a n : Nat) : List Byte := memRead (if s.galFenced 0 then s.mem.hdrM else s.mem.hdr) a n

/-- Bytes of a record's first page: from the header store while the entry has a page there, else as last verified (R239, R287). -/
def State.headRead (s : State) (id off n : Nat) : List Byte :=
  let e := s.lexAt id
  if e.state = 0 ∨ e.state = 5 then (e.first.drop off).takeD n 0 else s.hdrRead (4096 * id + off) n

/-- An entry's page of the header store given back, what it held kept as last verified (R287). -/
def State.dropHead (s : State) (id : Nat) : State :=
  let e := s.lexAt id
  let page := if (e.state == 2 || e.state == 3 || e.state == 4) && e.shards.all (·.verified) then s.hdrRead (4096 * id) 4096 else e.first
  (s.hdrWrite (4096 * id) (List.replicate 4096 0)).setLex id { e with first := page }

/-- A training object's state, by the lexicon id of its inflection. -/
def State.trainAt (s : State) (id : Nat) : TrainObj := smGet (fun _ => TrainObj.blank) s.ls.train id

/-- A training object's state set. -/
def State.setTrain (s : State) (id : Nat) (t : TrainObj) : State :=
  { s with ls := { s.ls with train := smSet (fun _ => TrainObj.blank) s.ls.train id t } }

/-- An affix slot. -/
def State.slotAt (s : State) (n : Nat) : AffixSlot := smGet (fun _ => AffixSlot.free) s.ls.slots n

/-- An affix slot set. -/
def State.setSlot (s : State) (n : Nat) (a : AffixSlot) : State :=
  { s with ls := { s.ls with slots := smSet (fun _ => AffixSlot.free) s.ls.slots n a } }

/-- The gallery of an affix slot (R231). -/
def slotGal (n : Nat) : Nat := n / 512

/-- The stack of an affix slot (R231). -/
def slotStack (n : Nat) : Nat := 2 * slotGal n + n % 2

/-- The slot in which a handle holds an affix (R232). -/
def State.slotOf (s : State) (handle id : Nat) : Option Nat :=
  (s.ls.slots.find? fun p => p.2.owner == some handle && p.2.lexId == id).map (·.1)

/-! ### Planes (R253, R254, R307) -/

/-- Key of a byte of an inflection's frames. -/
def objKey (id g plane off : Nat) : Nat := 0x40000000 * (4 * (8 * id + g) + plane) + off

/-- Key of a byte of an affix slot. -/
def slotKey (slot plane off : Nat) : Nat := 0x40000000 * (4 * slot + plane) + off

/-- Key of a byte of a request's KV (0) or activation (1) reservation. -/
def reqKey (h g kind off : Nat) : Nat := 0x10000000000 * (2 * (8 * h + g) + kind) + off

/-- The plane of its training object that a request reads: for a serving request the one current at its admission,
for training work the current one (R254). -/
def State.reqPlane (s : State) (r : Request) : Nat :=
  if r.opcode = Op.admitReq then r.plane else (s.trainAt (r.lexId.getD 0x1000000)).cur

/-- Bytes of a record (Table 8-11: PAGES). -/
def LexEntry.bytes (e : LexEntry) : Nat := e.pages * 4096

/-- Bytes of an object's gradient workspace (R260) (its corners, DEDUCED: log entry 71). -/
def TrainObj.gradBytes (t : TrainObj) : Nat := (t.groups.map fun x => x.gradKib * 1024).sum

/-- Bytes from `off` to the end of a shard that gallery g homes and that holds `off`, 0 where none does (Table 10-4). -/
def LexEntry.homeRoom (e : LexEntry) (g off : Nat) : Nat :=
  match e.man with
  | some m => ((m.shards.filter fun x => x.home == g && decide (64 * x.targetOff ≤ off)).map fun x => 64 * x.targetOff + x.bytes - off).foldl Nat.max 0
  | none => 0

/-- Whether a byte of an inflection's record lies in a shard that gallery g homes. -/
def LexEntry.homes (e : LexEntry) (g off : Nat) : Bool := e.homeRoom g off != 0

/-- The gallery that mirrors a training object (R279). -/
def TrainObj.mirrorGal (t : TrainObj) : Option Nat :=
  match t.groups with
  | g :: _ => if g.mirror then some g.partner else none
  | [] => none

/-- The object is held in HBM: RESIDENT, PINNED or EVICTING (Table 10-2). -/
def LexEntry.held (e : LexEntry) : Bool := e.state == 2 || e.state == 3 || e.state == 4

/-- The gallery that serves an instance's window range: its home, or the mirror while the home is fenced (R330). -/
def State.winGal (s : State) (inst : Nat) : Nat :=
  let h := s.fld (Reg.WIN_RANGE inst) 4 2
  if s.galFenced h then h ^^^ 4 else h

/-- The poisoned page that holds a window offset in the copy of the window that a gallery backs (Table 15-2). -/
def State.windowPoison (s : State) (g off : Nat) : Option Poison :=
  s.faults.poison.find? fun p => p.kind == .windowPage (BitVec.ofNat 32 (off / 4096)) && p.stack / 2 == g

/-- Reads of a poisoned window page are served from the other copy: its repair has failed, and the other gallery is not fenced (Table 15-2). -/
def State.servedByMirror (s : State) (g : Nat) (p : Poison) : Bool := s.pageWithheld p && !s.galFenced (g ^^^ 4)

/-- A read of a window offset meets a poisoned page (R421). -/
def State.windowPoisoned (s : State) (inst off : Nat) : Bool :=
  (s.windowPoison (s.winGal inst) off).any fun p => !s.servedByMirror (s.winGal inst) p

/-- Window bytes, from the copy in use; a poisoned page reads +0, and from the other copy once its repair has failed (R330, R421, R422). -/
def State.winRead (s : State) (inst off n : Nat) : List Byte :=
  let fenced := s.galFenced (s.fld (Reg.WIN_RANGE inst) 4 2)
  let use := fun (m : Bool) => if m then s.mem.winM else s.mem.win
  if s.faults.poison.isEmpty then memRead (use fenced) off n
  else (pageRuns off n).flatMap fun r => match s.windowPoison (s.winGal inst) r.1 with
    | none => memRead (use fenced) r.1 r.2
    | some p => if s.servedByMirror (s.winGal inst) p then memRead (use !fenced) r.1 r.2 else List.replicate r.2 0

/-! ### Instances: their state, and what the device writes for them (R371, R373) -/

/-- An instance. -/
def State.instAt (s : State) (n : Nat) : Inst := smGet (fun _ => Inst.fresh) s.insts n

/-- An instance changed. -/
def State.updInst (s : State) (n : Nat) (f : Inst → Inst) : State :=
  { s with insts := smModify (fun _ => Inst.fresh) s.insts n f }

/-- An instance's state (Table 13-2): 0 RUNNING, 1 PAUSING, 2 PAUSED, 3 FROZEN, 4 SAVING, 5 RESTORING, 6 STOPPED. -/
def State.instState (s : State) (n : Nat) : Nat := s.fld (Reg.DEV_INST_STATE n) 31 28

/-- An instance is FROZEN, SAVING or RESTORING (R371). -/
def State.frozen (s : State) (n : Nat) : Bool := s.instState n == 3 || s.instState n == 4 || s.instState n == 5

/-- The 4 KiB pages that ranges touch. -/
def pagesOf (ranges : List (Nat × Nat)) : List Nat :=
  (ranges.flatMap fun r => if r.2 = 0 then [] else (List.range ((r.1 + r.2 - 1) / 4096 - r.1 / 4096 + 1)).map (· + r.1 / 4096)).dedup

/-- The pages of a run of bytes noted for an instance's log, once a page a tick. -/
def State.logPages (s : State) (n a len : Nat) (win : Bool) : State :=
  if (s.reg (Reg.DEV_INST_STATE n)).bit 26 then
    s.updInst n fun i => { i with logPages := i.logPages ++ (((pagesOf [(a, len)]).map fun p => (p, win)).filter fun x => !i.logPages.contains x) }
  else s

/-- Window bytes written to both copies (R330). -/
def State.winWrite (s : State) (off : Nat) (bs : List Byte) : State :=
  { s with mem := { s.mem with win := memWrite s.mem.win off bs, winM := memWrite s.mem.winM off bs } }

/-- First byte and bytes of an instance's window range (R330). -/
def State.winBase (s : State) (inst : Nat) : Nat := s.fld (Reg.WIN_RANGE inst) 31 19 * 0x4000000
def State.winSize (s : State) (inst : Nat) : Nat := s.fld (Reg.WIN_RANGE inst) 18 5 * 0x4000000

/-- The window offset that a function's own offset names: relative to its range for a virtual function (R329). -/
def State.winAbs (s : State) (inst off : Nat) : Nat := if inst = 0 then off else s.winBase inst + off

/-- A buffer at a function's own offset lies in its instance's window range. -/
def State.winHas (s : State) (inst off len : Nat) : Bool :=
  let a := s.winAbs inst off
  decide (s.winBase inst ≤ a ∧ a + len ≤ s.winBase inst + s.winSize inst)

/-- Offsets of the input and output pages within OBJ 4 (R334). -/
def inPages : Nat := 0x80000000
def outPages : Nat := 0xC0000000

/-- What OBJ and an offset name for a request on a gallery (Table 10-5, R307): a memory and a key, and whether a WRITE may
reach it. -/
inductive ObjPlace where
  | obj (key : Nat) (writable : Bool)
  | slot (key : Nat) (writable : Bool)
  | req (key : Nat)
  | win (inst off : Nat)
  deriving DecidableEq, Repr

/-- A place and the bytes from it that stand in one run; none where no byte does. -/
def placeRun (p : ObjPlace) (room : Nat) : Option (ObjPlace × Nat) := if room = 0 then none else some (p, room)

/-- The place of byte `off` of object OBJ of a request on gallery g, with the bytes resident there from it on; none where the byte is not
resident there. -/
def State.objSpan (s : State) (r : Request) (g obj off : Nat) : Option (ObjPlace × Nat) :=
  let cur := s.reqPlane r
  if obj = 2 then placeRun (.req (reqKey r.handle g 0 off)) (natAt r.kv g * 65536 - off)
  else if obj = 4 then
    if off < natAt r.act g * 65536 then placeRun (.req (reqKey r.handle g 1 off)) (natAt r.act g * 65536 - off)
    else if s.winGal r.inst ≠ g then none
    else if inPages ≤ off ∧ off < outPages then placeRun (.win r.inst (r.inOff + (off - inPages))) (inPages + r.inBytes - off)
    else if outPages ≤ off then placeRun (.req (reqKey r.handle g 1 off)) (outPages + r.outBytes - off)
    else none
  else if obj < 4 then
    match r.lexId with
    | none => none
    | some id =>
      let e := s.lexAt id
      let room := if (s.trainAt id).mirrorGal = some g then e.bytes - off else e.homeRoom g off
      if !e.held then none
      else if obj = 3 then (if e.form = 1 then placeRun (.obj (objKey id g 2 off) true) ((s.trainAt id).gradBytes - off) else none)
      else if obj = 0 then placeRun (.obj (objKey id g cur off) false) room
      else if e.form = 1 then placeRun (.obj (objKey id g (1 - cur) off) true) room
      else none
  else
    match r.affixes[obj - 5]? with
    | none => none
    | some id =>
      match s.slotOf r.handle id with
      | none => none
      | some n =>
        let e := s.lexAt id
        if !e.held then none
        else if slotGal n ≠ g then
          (if ((r.lexId.map s.trainAt).bind TrainObj.mirrorGal) = some g then placeRun (.obj (objKey id g cur off) false) (e.bytes - off) else none)
        else if off < e.bytes then placeRun (.slot (slotKey n cur off) false) (e.bytes - off)
        else if e.form = 1 then placeRun (.slot (slotKey n 2 (off - e.bytes)) true) (e.bytes + (s.trainAt id).gradBytes - off)
        else none

/-- The place of a byte. -/
def State.objPlace (s : State) (r : Request) (g obj off : Nat) : Option ObjPlace := (s.objSpan r g obj off).map (·.1)

/-- Where a WRITE reaches: the write plane, the reservations and the gradient workspace, the request's input and output pages; of an affix its write
plane and its gradient area (R307). -/
def State.writeSpan (s : State) (r : Request) (g obj off : Nat) : Option (ObjPlace × Nat) :=
  match s.objSpan r g obj off with
  | some (.slot k false, n) =>
    match r.affixes[obj - 5]? with
    | some id =>
      if (s.lexAt id).form = 1 then
        (s.slotOf r.handle id).map fun x => (.slot (slotKey x (1 - s.reqPlane r) (k % 0x40000000)) true, n)
      else none
    | none => none
  | some (.obj k false, n) =>
    if 5 ≤ obj then some (.obj (k + 0x40000000 * (1 - s.reqPlane r) - 0x40000000 * s.reqPlane r) true, n) else none
  | p => p

/-- The place that a WRITE of a byte reaches. -/
def State.objPlaceW (s : State) (r : Request) (g obj off : Nat) : Option ObjPlace := (s.writeSpan r g obj off).map (·.1)

/-- Bytes at a place. -/
def State.objGet (s : State) (p : ObjPlace) (n : Nat) : List Byte :=
  match p with
  | .obj k _ => memRead s.mem.obj k n
  | .slot k _ => memRead s.mem.slot k n
  | .req k => memRead s.mem.req k n
  | .win i o => s.winRead i o n

/-- Bytes written at a place. -/
def State.objPut (s : State) (p : ObjPlace) (bs : List Byte) : State :=
  match p with
  | .obj k _ => { s with mem := { s.mem with obj := memWrite s.mem.obj k bs } }
  | .slot k _ => { s with mem := { s.mem with slot := memWrite s.mem.slot k bs } }
  | .req k => { s with mem := { s.mem with req := memWrite s.mem.req k bs } }
  | .win i o => (s.winWrite o bs).logPages i o bs.length true

/-- 64 bytes of an object-relative operand; +0 for each byte that is not resident (R307). -/
def State.objRead64 (s : State) (r : Option Request) (g obj off : Nat) : List Byte :=
  let at_ := fun k => r.bind fun r => s.objSpan r g obj (off + k)
  match (at_ 0).filter fun x => decide (64 ≤ x.2) with
  | some x => s.objGet x.1 64
  | none => (List.range 64).flatMap fun k => match at_ k with
    | some x => s.objGet x.1 1
    | none => [0]

/-- 64 bytes of an object-relative destination written; each byte that is not resident is discarded and counted in RES_OOB (R307) (its corners, DEDUCED: log entry 78). -/
def State.objWrite64 (s : State) (r : Option Request) (g obj off : Nat) (bs : List Byte) : State :=
  let at_ := fun k => r.bind fun r => s.writeSpan r g obj (off + k)
  match (at_ 0).filter fun x => decide (64 ≤ x.2) with
  | some x => s.objPut x.1 (bs.take 64)
  | none => (List.range 64).foldl (fun u k => match at_ k with
    | some x => u.objPut x.1 ((bs.drop k).take 1)
    | none => u.countScoped Reg.RES_OOB (r.map (·.inst)) 1) s

end Sys2Proof.Machine
end

