-- ==== Sys2Proof/Machine/Manifest.lean ====
section
/-! DEFINITION. Records and manifests as bytes: manifests (Tables 10-3, 10-4), record headers and their checks (Tables
8-3 to 8-10, R225 to R230, R239), parameter groups (Table 9-2, R261), pages at rest (R402), the arrival engine (R304). -/

namespace Sys2Proof.Machine

/-- What a device decides on a command: its status, the field of ST_BAD_FIELD, a detail and result words. -/
structure Decision where
  status : Nat
  field : Nat
  detail : Nat
  result : List Word
  deriving DecidableEq, Repr

/-- Success. -/
def Decision.ok : Decision := ⟨0, 0, 0, []⟩

/-- Success with result words. -/
def Decision.give (ws : List Word) : Decision := ⟨0, 0, 0, ws⟩

/-- A refusal with a status. -/
def Decision.no (st : Nat) : Decision := ⟨st, 0, 0, []⟩

/-- ST_BAD_FIELD naming a field: 32 × word + lowest bit (Table 12-8). -/
def Decision.bad (word bit : Nat) : Decision := ⟨St.badField, 32 * word + bit, 0, []⟩

/-! ### Manifests -/

/-- Word `i` of a run of bytes. -/
def byteWord (bs : List Byte) (i : Nat) : Word := wordOf (natOfBytes ((bs.drop (4 * i)).take 4))

/-- A shard entry (Table 10-4). -/
def parseShard (ws : List Word) : Shard :=
  let w := wordAt ws
  { shard := (w 0).field 31 20, home := (w 0).field 19 16, srcCount := (w 0).field 15 13, tiered := (w 0).bit 12,
    coding := (w 0).field 11 8, layout := (w 0).field 7 6, quant := (w 0).field 5 4, targetOff := (w 1).toNat,
    bytes := (w 2).toNat, stored := (w 3).toNat, k32 := (w 4).field 31 16, cols := (w 4).field 15 0,
    scaleOff := (w 5).toNat, cbOff := (w 6).toNat, srcFirst := (w 7).toNat, digest := (ws.drop 8).take 8 }

/-- A shard entry obeys Table 10-4; TIERED is a stem's alone (R296). What CODING, LAYOUT and QUANT an inflection's or an affix's shard may have
is check 7 of R239 (R304). -/
def shardOk (kind sources : Nat) (ws : List Word) : Bool :=
  let x := parseShard ws
  decide (x.home ≤ 9) && decide (1 ≤ x.srcCount ∧ x.srcCount ≤ 4) && (wordAt ws 0).field 3 0 == 0 && decide (1 ≤ x.bytes) && decide (x.srcFirst + x.srcCount ≤ sources)
    && (if kind = 3 then decide (x.home ≤ 7) && decide (x.coding ≤ 1) && decide (x.layout ≤ 1) else !x.tiered)

/-- A manifest from its bytes; none where it breaks Table 10-3 or 10-4. -/
def parseManifest (kind : Nat) (bs : List Byte) : Option Manifest :=
  let w := byteWord bs
  let n := (w 1).field 15 0
  let m := (w 3).field 31 16
  if w 0 = 0x4E4D464B#32 ∧ (w 1).field 31 16 = 1 ∧ 1 ≤ n ∧ n ≤ 4096 ∧ (w 2).field 31 24 = kind ∧ (w 2).field 23 0 = 0
      ∧ 1 ≤ m ∧ m ≤ 16384 ∧ (w 3).field 15 0 = 0 ∧ w 4 = 0 ∧ w 5 = 0 ∧ w 6 = 0 ∧ w 7 = 0
      ∧ 32 + 64 * n + 16 * m ≤ bs.length then
    let ws := wordsOfBytes (bs.take (32 + 64 * n + 16 * m))
    let ents := (List.range n).map fun i => (ws.drop (8 + 16 * i)).take 16
    let srcs := (List.range m).map fun i => (ws.drop (8 + 16 * n + 4 * i)).take 4
    if ents.all (shardOk kind m)
        && srcs.all (fun x => decide ((wordAt x 0).field 31 28 ≤ 2) && (wordAt x 0).field 27 0 == 0 && wordAt x 3 == 0
          && ((wordAt x 0).field 31 28 != 1 || (wordAt x 1).field 11 0 == 0)) then
      some ⟨kind, ents.map parseShard,
        srcs.map fun x => ⟨(wordAt x 0).field 31 28, (wordAt x 1).toNat + 0x100000000 * (wordAt x 2).toNat⟩⟩
    else none
  else none

/-! ### Record headers (R239) -/

/-- A run (first, count) put in its place among runs in ascending order. -/
def insRun (x : Nat × Nat) : List (Nat × Nat) → List (Nat × Nat)
  | [] => [x]
  | y :: ys => if x.1 ≤ y.1 then x :: y :: ys else y :: insRun x ys

/-- Runs in ascending order. -/
def sortRuns (l : List (Nat × Nat)) : List (Nat × Nat) := l.foldr insRun []

/-- Tables as (offset, bytes), each on its boundary, inside the record and disjoint from the others (R225). -/
def tablesOk (len : Nat) (ts : List (Nat × Nat × Nat)) : Bool :=
  ts.all (fun t => t.2.1 == 0 || (t.1 % t.2.2 == 0 && decide (128 ≤ t.1) && decide (t.1 + t.2.1 ≤ len)))
    && ((List.range ts.length).all fun i => (List.range i).all fun j =>
      let a := ts.getD i (0, 0, 0)
      let b := ts.getD j (0, 0, 0)
      a.2.1 == 0 || b.2.1 == 0 || decide (a.1 + a.2.1 ≤ b.1 ∨ b.1 + b.2.1 ≤ a.1))

/-- Check 7 on an inflection header (R225, R230, Table 8-3). -/
def inflHeaderOk (w : Nat → Word) : Bool :=
  let train := (w 1).bit 0
  let layers := (w 14).field 31 16
  let projs := (w 14).field 15 0
  let affixes := (w 15).field 31 24
  let groups := (w 15).field 15 0
  (w 1).field 15 1 == 0 && (w 3).field 7 0 == 0 && (w 12).field 15 0 == 0 && (w 15).field 23 16 == 0
    && ((List.range 8).all fun i => w (24 + i) == 0)
    && decide (layers ≤ 4096) && decide (affixes ≤ 16) && ((w 18 == 0) == (affixes == 0))
    && (if train then decide (1 ≤ groups ∧ groups ≤ 256) else groups == 0 && w 19 == 0 && w 21 == 0 && w 22 == 0 && w 23 == 0)
    && (w 20).toNat % 4096 == 0 && (w 21).toNat % 4096 == 0
    && decide ((w 2).toNat ≤ 67108864)
    && tablesOk (w 2).toNat [((w 16).toNat, 16 * layers, 64), ((w 17).toNat, 16 * projs, 64), ((w 18).toNat, 16 * affixes, 64),
      ((w 19).toNat, 64 * groups, 64)]

/-- Check 7 on an affix header (R230, Table 8-9). -/
def affixHeaderOk (w : Nat → Word) : Bool :=
  let train := (w 1).bit 0
  let mats := (w 14).field 31 24
  let groups := (w 14).field 15 0
  (w 1).field 15 1 == 0 && (w 3).field 7 0 == 0 && (w 12).field 15 0 == 0 && (w 14).field 23 16 == 0
    && ((List.range 13).all fun i => w (19 + i) == 0)
    && decide (1 ≤ mats ∧ mats ≤ 8)
    && (if train then decide (1 ≤ groups ∧ groups ≤ 256) else groups == 0 && w 16 == 0 && w 17 == 0 && w 18 == 0)
    && decide ((w 2).toNat ≤ 67108864)
    && tablesOk (w 2).toNat [((w 15).toNat, 16 * mats, 64), ((w 16).toNat, 64 * groups, 64)]

/-- A parameter group entry obeys Table 9-2 (R261). -/
def groupOk (first : Bool) (ws : List Word) : Bool :=
  let w := wordAt ws
  let fin := fun x => fvFinite (f32 x) && !fvNeg (f32 x)
  let unit := fun x => fin x && !fvLt (fvOfInt 1) (f32 x)
  let clip := w 5
  decide ((w 0).field 31 30 ≤ 2) && (w 0).field 25 0 == 0 && (first || !(w 0).bit 29) && ((w 0).bit 29 || (w 0).field 28 26 == 0)
    && fin (w 1) && fin (w 2) && unit (w 3) && unit (w 4)
    && (clip == 0 || (fin clip && decide (0x800000 ≤ clip.toNat)))
    && ((w 0).field 31 30 != 2 || decide (1 ≤ (w 6).field 31 16)) && (w 6).field 15 0 == 0
    && w 12 == 0 && w 13 == 0 && w 14 == 0 && w 15 == 0

/-- A parameter group entry (Table 9-2). -/
def parseGroup (ws : List Word) : Group :=
  let w := wordAt ws
  { policy := (w 0).field 31 30, mirror := (w 0).bit 29, partner := (w 0).field 28 26, eta := w 1, lambda := w 2,
    beta1 := w 3, beta2 := w 4, clip := w 5, holdTicks := (w 6).field 31 16, ckptSteps := (w 7).toNat,
    ckptStep := (w 8).toNat + 0x100000000 * (w 9).toNat, params := (w 10).toNat, gradKib := (w 11).toNat }

/-- The checks of R239 on a header against its entry: the number of the first that fails.  `accepts` is the record
format the running firmware takes. -/
def headerCheck (e : LexEntry) (id : Nat) (accepts : Nat → Bool) (w : Nat → Word) : Option Nat :=
  let infl := e.kind == 1
  let plain := match e.man with
    | some m => m.shards.all fun x => x.coding == 0 && x.layout == 0 && x.quant == 0
    | none => true
  ([(1, w 0 == (if infl then 0x4E49464B#32 else 0x5841464B#32)), (2, accepts ((w 1).field 31 16)),
    (3, (w 1).field 0 0 == e.form), (4, (w 2).toNat == e.bytes), (5, (w 3).field 31 8 == id),
    (6, (w 12).field 31 16 == e.keySlot), (7, plain && (if infl then inflHeaderOk w else affixHeaderOk w))].find? fun p => !p.2).map (·.1)

/-! ### Pages at rest (R402) -/

/-- Pages of a shard of `bytes` bytes, and bytes of its trailer table. -/
def shardPages (bytes : Nat) : Nat := ceilDiv bytes 4096

/-- Bytes of the trailer table of `n` pages. -/
def trailerBytes (n : Nat) : Nat := ceilDiv (32 * n) 4096 * 4096

/-- The additional authenticated data of a page (R402). -/
def pageAad (id slot epoch page : Nat) : List Byte :=
  bytesOfNat 4 id ++ bytesOfNat 4 slot ++ bytesOfNat 4 epoch ++ bytesOfNat 4 page

/-- The initialisation vector of a page: WRITE_CTR and the page's index (R402). -/
def pageIv (page ctr : Nat) : List Byte := bytesOfNat 8 ctr ++ bytesOfNat 4 page

/-- The slot and the epoch as the information of a derived key holds them, as R396's label does (PRESUMED: log entry 67). -/
def keyInfo (slot epoch : Nat) : List Byte := bytesOfNat 2 slot ++ bytesOfNat 4 epoch

/-- The page key of an epoch key: info "page", the slot and the epoch (R397). -/
def pageKey (k : BitVec 256) (slot epoch : Nat) : List Byte :=
  hkdf (bytesOfNat 32 k.toNat) ([0x70#8, 0x61#8, 0x67#8, 0x65#8] ++ keyInfo slot epoch)

/-- The epoch key that a slot holds for an epoch; a condemned key still serves attempts in flight (R398, R399). -/
def KeySlot.keyOf (k : KeySlot) (epoch : Word) : Option (BitVec 256) :=
  if epoch = 0 then none
  else if k.state ≠ 0 ∧ k.cur = epoch then some k.keyCur
  else if k.state = 2 ∧ k.prev = epoch then some k.keyPrev
  else (k.condemned.find? fun c => c.1 == epoch).map (·.2)

/-- A key slot. -/
def State.keyAt (s : State) (n : Nat) : KeySlot := smGet (fun _ => KeySlot.empty) s.trust.keys n

/-- A key slot set. -/
def State.setKey (s : State) (n : Nat) (k : KeySlot) : State :=
  { s with trust := { s.trust with keys := smSet (fun _ => KeySlot.empty) s.trust.keys n k } }

/-- Why a fetch attempt fails (R309): 0 timeout, 1 authentication, 2 digest, 3 decompression, 4 quantiser, 5 drive,
and ST_KEY_RETIRED, under an epoch that a forced retirement destroyed (R399). -/
inductive Arrived where
  | bad (cause : Nat)
  | good (bytes : List Byte) (epochs : List Nat) (sat : Nat)
  deriving DecidableEq, Repr

/-- The pages of an inflection or affix shard decrypted under the epochs their trailers name; a page under an epoch that a forced
retirement destroyed fails with ST_KEY_RETIRED, any other without a key fails authentication (R304 step 1, R387, R399, R402). -/
def decryptPages (k : KeySlot) (slot id first : Nat) (ct trailers : List Byte) : (n i : Nat) → List (List Byte × Nat) ⊕ Nat
  | 0, _ => .inl []
  | n + 1, i =>
    let tr := (trailers.drop (32 * i)).take 32
    let epoch := byteWord tr 0
    match k.keyOf epoch with
    | none => .inr (if k.destroyed.contains epoch then St.keyRetired else 1)
    | some key =>
      let page := first + i
      let ctr := (byteWord tr 2).toNat + 0x100000000 * (byteWord tr 3).toNat
      match gcmOpen (pageKey key slot epoch.toNat) (pageIv page ctr) (pageAad id slot epoch.toNat page)
          ((ct.drop (4096 * i)).take 4096) (tr.drop 16) with
      | none => .inr 1
      | some pt =>
        match decryptPages k slot id first ct trailers n (i + 1) with
        | .inl rest => .inl ((pt, epoch.toNat) :: rest)
        | .inr c => .inr c

/-- A matrix re-laid out in MU tile order (R304 step 4): K × COLS row-major elements of `e` bytes. -/
def tileOrder (e k cols : Nat) (bs : List Byte) : List Byte :=
  (List.range (ceilDiv cols 128)).flatMap fun b =>
    (List.range k).flatMap fun i =>
      let n := Nat.min 128 (cols - 128 * b)
      ((bs.drop (e * (i * cols + 128 * b))).take (e * n)) ++ List.replicate (e * (128 - n)) 0

/-- The code of an element under INT4, UINT4 or C4, and whether it is counted (R127, R128). An infinite x under C4, for which no entry is
nearest, takes the largest entry or, with a minus sign, the smallest, and is counted as out of range (DESIGN CHOICE: log entry 57). -/
def quantCode (quant : Nat) (cb : List Word) (scale x : Fv) : Nat × Bool :=
  if quant = 3 then
    let vs := (List.range 16).map fun n => f32 (wordAt cb n)
    let fold := fun (f : Fv → Fv → Bool) => (List.range 16).foldl (fun b n =>
      if f (vs.getD n pz) (vs.getD b pz) then n else b) 0
    if x = .nan then (fold fun a b => fvLt (fvAbs a) (fvAbs b), true)
    else
      let q := fvDiv x scale
      let best := fold fun a b => fvLt (fvAbs (fvSub q a)) (fvAbs (fvSub q b))
      let hi := vs.getD (fold fun a b => fvLt b a) pz
      let lo := vs.getD (fold fun a b => fvLt a b) pz
      if q = .inf false then (fold fun a b => fvLt b a, true)
      else if q = .inf true then (fold fun a b => fvLt a b, true)
      else (best, fvLt hi q || fvLt q lo)
  else if x = .nan then (0, true)
  else
    let (i, c) := if quant = 1 then toInt (-8) 7 (fvDiv x scale) else toInt 0 15 (fvDiv x scale)
    ((i % 16).toNat, c)

/-- A row of codes packed two to a byte (R113). -/
def packCodes : List Nat → List Byte
  | a :: b :: cs => byteOf (a + 16 * b) :: packCodes cs
  | [a] => [byteOf a]
  | [] => []

/-- A BF16 matrix quantised row by row with one scale per column (R304 step 5); none where a scale is not a positive
normal value or a codebook is not admissible (R116, R127). -/
def quantise (quant : Nat) (exp : Bool) (scales cb : List Word) (cols : Nat) (rows : List (List Nat)) : Option (List Byte × Nat) :=
  let good := fun (w : Word) => fvFinite (f32 w) && decide (0x800000 ≤ w.toNat ∧ w.toNat < 0x80000000)
  if !((List.range cols).all fun c => good (wordAt scales c)) || (quant = 3 && !codebookOk exp cb) then none
  else
    let qs := rows.map fun row => (List.range row.length).map fun c =>
      quantCode quant cb (f32 (if c < cols then wordAt scales c else 0x3F800000#32)) (fpDecode bf16 (natAt row c))
    some (qs.flatMap fun r => packCodes (r.map (·.1)), (qs.flatten.countP (·.2)))

end Sys2Proof.Machine
end

