-- ==== Sys2Proof/Machine/Transfer.lean ====
section
/-! DEFINITION. Transfer clauses of the memory-side cache and of the link ports (R222, R284, R288 to R296, R306, R307,
R311 to R324). -/

namespace Sys2Proof.Machine

/-! ### Transfer descriptors (Table 10-5, R307) -/

/-- What R307 asks of a transfer descriptor: NEED and LIMIT of the first rule broken. `op` 1 READ, 2 WRITE, 3 GATHER,
4 WINDOW_FILL. -/
def xferCheck (op seat : Nat) (d : XferDesc) : Option (Nat × Nat) :=
  let one := seat != 0x3FF
  firstFail [
    (d.hmode != 3, d.hmode.toNat, 2),
    (decide (1 ≤ d.rowBytes.toNat), d.rowBytes.toNat, 0xFFFFFFC0), (d.rowBytes.toNat % 64 == 0, d.rowBytes.toNat, d.rowBytes.toNat / 64 * 64),
    (op != 3 || decide (d.rowBytes.toNat ≤ 8192), d.rowBytes.toNat, 8192),
    (decide (1 ≤ d.rows.toNat), d.rows.toNat, 65535),
    (d.hbmLo.toNat % 64 == 0, d.hbmLo.toNat, d.hbmLo.toNat / 64 * 64),
    (d.hmode != 2 || decide (d.obj.toNat ≤ 20), d.obj.toNat, 20),
    (d.hmode != 2 || one, d.hmode.toNat, 0),
    (!d.smodeCtx || one, 1, 0),
    (op != 2 || d.hmode != 2 || d.obj != 0, d.obj.toNat, 1)]

/-- The scratchpad side of a transfer lies within scratchpad (its corners, DEDUCED: log entry 69). -/
def xferInside (op : Nat) (d : XferDesc) : Bool :=
  extentOk d.smodeCtx d.spOff.toNat d.spPitch.toNat d.rows.toNat d.rowBytes.toNat
    && (op != 3 || extentOk d.smodeCtx d.indexOff.toNat 0 1 (4 * d.rows.toNat))

/-- The 64-bit HBM offset of a descriptor. -/
def xHbm (d : XferDesc) : Nat := d.hbmLo.toNat + 0x100000000 * d.hbmHi.toNat

/-- The program-space address of a program-space or stem-relative offset: the base of the gallery's tick-stem slot is
added to a stem-relative one (R222). -/
def State.xferBase (s : State) (g hmode off : Nat) : Nat :=
  if hmode = 1 then s.stemBase (natAt s.tk.tickStem g) + off else off

/-- A run of 64-byte pieces of an object read. -/
def State.objRead (s : State) (r : Option Request) (g obj off n : Nat) : List Byte :=
  (List.range (n / 64)).flatMap fun k => s.objRead64 r g obj (off + 64 * k)

/-- A run of 64-byte pieces of an object written. -/
def State.objWrite (s : State) (r : Option Request) (g obj off : Nat) (bs : List Byte) : State :=
  (List.range (bs.length / 64)).foldl (fun u k => u.objWrite64 r g obj (off + 64 * k) ((bs.drop (64 * k)).take 64)) s

/-- A row read from the memory side of a transfer. -/
def State.xferRead (s : State) (r : Option Request) (g : Nat) (d : XferDesc) (off : Nat) : List Byte :=
  if d.hmode = 2 then s.objRead r g d.obj.toNat off d.rowBytes.toNat
  else s.progRead g (s.xferBase g d.hmode.toNat off) d.rowBytes.toNat

/-- A row written to the memory side of a transfer. -/
def State.xferWrite (s : State) (r : Option Request) (g : Nat) (d : XferDesc) (off : Nat) (bs : List Byte) : State :=
  if d.hmode = 2 then s.objWrite r g d.obj.toNat off bs
  else s.progWrite g (s.xferBase g d.hmode.toNat off) bs

/-- Every row of a transfer's memory side lies in program space; object-relative bytes that are not resident read +0 or
are discarded (R307). -/
def State.memInside (s : State) (g : Nat) (d : XferDesc) (offs : List Nat) : Bool :=
  d.hmode == 2 || offs.all fun o => decide (s.xferBase g d.hmode.toNat o + d.rowBytes.toNat ≤ progSize)

/-- HBM slots of a transfer on the gallery's two stacks, with the address of each 4 KiB page, and bytes on the monitors
of the stacks (Tables 18-1 and 18-2). -/
def State.stackTally (s : State) (c : Issue) (event : Nat) (runs : List (Nat × Nat)) : State :=
  let g := c.gal.toNat
  let t := s.seatAt g c.seat.toNat
  runs.foldl (fun u p =>
    let st := 2 * g + stackBit p.1
    let u1 := u.tally ⟨0x20 * g + 28 + stackBit p.1, event, 7, t.map (·.inst), seatTag t, c.stream.toNat,
      some (p.1 / 4096), p.2 / 64⟩
    if event = 2 then u1.tallyPort (14 + st) p.2 0 else u1.tallyPort (14 + st) 0 p.2) s

/-- The runs of a transfer's memory side. -/
def State.xferRuns (s : State) (g : Nat) (d : XferDesc) (offs : List Nat) : List (Nat × Nat) :=
  offs.flatMap fun o => pageRuns (if d.hmode = 2 then o else s.xferBase g d.hmode.toNat o) d.rowBytes.toNat

/-- The request behind a clause's seat. -/
def State.seatReq (s : State) (c : Issue) : Option Request :=
  (s.seatAt c.gal.toNat c.seat.toNat).bind fun t => s.reqAt t.handle

/-- Row `i` of the scratchpad side. -/
def xSpRow (d : XferDesc) (i : Nat) : Nat := d.spOff.toNat + i * d.spPitch.toNat

/-- Offsets of the rows of READ and WRITE. -/
def xRowOffs (d : XferDesc) : List Nat := (List.range d.rows.toNat).map fun i => xHbm d + i * d.hbmPitch.toNat

/-- Scratchpad lines of a transfer, none for a context side. -/
def xSpLines (d : XferDesc) : List (Nat × Nat) :=
  if d.smodeCtx then [] else (List.range d.rows.toNat).map fun i => (xSpRow d i, d.rowBytes.toNat)

/-- A memory-side cache transfer clause: nothing when it is not issued, as no descriptor that R307 forbids ever is (check 0x07, R22), nor one with an
address past its space (R509); with no slot entry that names it, nothing moves (R88). -/
def xferClause (s : State) (c : Issue) (op : Nat) (d : XferDesc) (offs : List Nat) (run : State → State) :
    Host.Outcome State Fault Refusal :=
  let g := c.gal.toNat
  if !s.issued 3 c (.xfer op d) || (xferCheck op c.seat.toNat d).isSome then keep s s
  else if !d.named then keep s (s.tallyClause c (0x20 * g + 23))
  else if !(xferInside op d && s.memInside g d offs) then keep s s
  else keep s ((run s).tallyClause c (0x20 * g + 23))

/-- Rows read into scratchpad or the context. -/
def xferIn (s : State) (c : Issue) (d : XferDesc) (offs : List Nat) : State :=
  let g := c.gal.toNat
  let t := s.seatAt g c.seat.toNat
  let r := s.seatReq c
  (List.range offs.length).foldl (fun u i => u.opWrite g d.smodeCtx t (xSpRow d i) (s.xferRead r g d (natAt offs i))) s

/-! ### The memory-side cache (R288 to R290) -/

/-- The lines of a transfer in its order: each its number, which tells apart the spaces of Table 10-5, and its set, address bits [20:6]
(R288, DESIGN CHOICE: log entry 20).  Set bits [6:0] name the stack and the pseudo-channel (R89). -/
def State.linesOf (s : State) (r : Option Request) (g : Nat) (d : XferDesc) (offs : List Nat) : List (Nat × Nat) :=
  (s.xferRuns g d offs).flatMap fun p => (List.range (p.2 / 64)).map fun k =>
    let a := p.1 + 64 * k
    let line := if d.hmode ≠ 2 then a
      else match r.bind fun q => s.objPlace q g d.obj.toNat a with
        | some (.obj k _) => 2 ^ 60 + k
        | some (.slot k _) => 2 ^ 61 + k
        | some (.req k) => 2 ^ 62 + k
        | some (.win _ o) => 2 ^ 63 + o
        | none => 2 ^ 64 + a
    (line / 64, a / 64 % 32768)

/-- The key of a line's place in a gallery's cache. -/
def cacheKey (g way set : Nat) : Nat := 0x100000 * (32 * g + way) + set

/-- What a GATHER has met in the cache: the lines it holds, how many hit, missed, were prefetched, and prefetched and used, the last line, and
the slots used on each of the gallery's 128 pseudo-channels. -/
structure CacheRun where
  cache : SMap Nat
  hits : Nat
  misses : Nat
  pre : Nat
  used : Nat
  last : Option (Nat × Nat)
  slots : SMap Nat
  deriving DecidableEq, Repr

/-- Slots that a clause has used of a line's pseudo-channel. -/
def CacheRun.used64 (x : CacheRun) (l : Nat × Nat) : Nat := smGet (fun _ => 0) x.slots (l.2 % 128)

/-- A line read from HBM in a slot of its pseudo-channel. -/
def CacheRun.load (x : CacheRun) (l : Nat × Nat) : CacheRun := { x with slots := smSet (fun _ => 0) x.slots (l.2 % 128) (x.used64 l + 1) }

/-- Lines read from HBM on one stack of the gallery. -/
def CacheRun.loads (x : CacheRun) (bit : Nat) : Nat := ((x.slots.filter fun p => p.1 / 64 == bit).map (·.2)).sum

/-- A line read from HBM and filled into one of an instance's ways; which of them is free (R288). -/
def CacheRun.fill (x : CacheRun) (g : Nat) (ways : List Nat) (f : Nat) (l : Nat × Nat) : CacheRun :=
  { x.load l with cache := smSet (fun _ => 0) x.cache (cacheKey g (natAt ways (f % ways.length)) l.2) (l.1 + 1) }

/-- A line is in one of an instance's ways. -/
def CacheRun.has (x : CacheRun) (g : Nat) (ways : List Nat) (l : Nat × Nat) : Bool :=
  ways.any fun w => smGet (fun _ => 0) x.cache (cacheKey g w l.2) == l.1 + 1

/-- One line of a GATHER looked up among its instance's ways.  A line that follows the one before it may have been prefetched in time: that is free
(R288, R290). -/
def CacheRun.line (x : CacheRun) (g : Nat) (ways : List Nat) (pf : Bool) (f : Nat) (l : Nat × Nat) : CacheRun :=
  if ways.isEmpty then { x.load l with misses := x.misses + 1 }
  else if x.has g ways l then { x with hits := x.hits + 1, last := some l }
  else
    let y := { x.fill g ways (f / 2) l with last := some l }
    if pf && f % 2 == 1 && (x.last.any fun q => q.1 + 1 == l.1) then { y with hits := y.hits + 1, pre := y.pre + 1, used := y.used + 1 }
    else { y with misses := y.misses + 1 }

/-- Lines that the clause's prefetcher fetched ahead of its last line: at most 16, how many is free, each in a slot that the clause has reserved on
the line's pseudo-channel and not used (R95, R290). -/
def CacheRun.ahead (x : CacheRun) (g : Nat) (ways : List Nat) (slots n f : Nat) : CacheRun :=
  match x.last with
  | none => x
  | some l => (List.range n).foldl (fun y k =>
      let q := (l.1 + k + 1, (l.2 + k + 1) % 32768)
      if y.has g ways q || decide (slots ≤ y.used64 q) then y else { y.fill g ways (f + k) q with pre := y.pre + 1 }) x

/-- A WRITE's lines leave every way of the gallery's cache (R289). -/
def State.cacheDrop (s : State) (g : Nat) (lines : List (Nat × Nat)) : State :=
  { s with ls := { s.ls with cache := s.ls.cache.filter fun p => !(p.1 / 0x2000000 == g && lines.any fun l => l.1 + 1 == p.2) } }

/-! ### READ, WRITE and GATHER -/

/-- READ: rows from HBM, the stem or an object to scratchpad (R306, R307). -/
def execRead (c : Issue) (d : XferDesc) (s : State) : Host.Outcome State Fault Refusal :=
  xferClause s c 1 d (xRowOffs d) fun s =>
    let g := c.gal.toNat
    ((xferIn s c d (xRowOffs d)).tallySp g 20 2 (s.seatAt g c.seat.toNat) (xSpLines d)).stackTally c 1 (s.xferRuns g d (xRowOffs d))

/-- WRITE: rows from scratchpad to HBM, the stem or an object (R289, R306, R307). -/
def execWrite (c : Issue) (d : XferDesc) (s : State) : Host.Outcome State Fault Refusal :=
  xferClause s c 2 d (xRowOffs d) fun s =>
    let g := c.gal.toNat
    let t := s.seatAt g c.seat.toNat
    let r := s.seatReq c
    let s1 := (List.range d.rows.toNat).foldl (fun u i =>
      u.xferWrite r g d (natAt (xRowOffs d) i) (s.opRead g d.smodeCtx t (xSpRow d i) d.rowBytes.toNat)) s
    ((s1.cacheDrop g (s.linesOf r g d (xRowOffs d))).tallySp g 20 1 t (xSpLines d)).stackTally c 2 (s.xferRuns g d (xRowOffs d))

/-- Offsets of the rows of a GATHER, from its index list (Table 10-5) (its corners, DEDUCED: log entry 69). -/
def State.gatherOffs (s : State) (c : Issue) (d : XferDesc) : List Nat :=
  (numsOf 4 d.rows.toNat (s.opRead c.gal.toNat d.smodeCtx (s.seatAt c.gal.toNat c.seat.toNat) d.indexOff.toNat
    (4 * d.rows.toNat))).map fun i => xHbm d + 8192 * i

/-- A GATHER's lines met in the cache, which keeps what it fills, and what the cache and the stacks count.  A clause of an instance with
prefetchers takes one and gives it back at its end, so none is held between commands (R94, R95, R288 to R290, DESIGN CHOICE: log entry 20). -/
def State.cacheTally (s : State) (c : Issue) (inst : Option Nat) (lines : List (Nat × Nat)) (slots : Nat) : State :=
  let g := c.gal.toNat
  let t := s.seatAt g c.seat.toNat
  let ways := match inst with
    | some n => (List.range 32).filter fun w => (s.reg (Reg.RES_CACHE_WAYS n)).bit w
    | none => []
  let pf := !ways.isEmpty && inst.any fun n => s.fld (Reg.RES_INST_CFG n) 19 13 != 0
  let (f, s1) := s.free
  let x : CacheRun := (List.range lines.length).foldl (fun (x : CacheRun) i => x.line g ways pf (Config.partConst f i) (lines.getD i (0, 0)))
    ⟨s.ls.cache, 0, 0, 0, 0, none, []⟩
  let y := if pf then x.ahead g ways slots (f % 17) f else x
  let s2 := { s1 with ls := { s1.ls with cache := y.cache } }
  let cache := fun (e n : Nat) (u : State) => u.tally ⟨0x20 * g + 23, e, 7, inst, seatTag t, c.stream.toNat, none, n⟩
  let stack := fun (bit e n : Nat) (u : State) => u.tally ⟨0x20 * g + 28 + bit, e, 7, inst, seatTag t, c.stream.toNat, none, n⟩
  let s3 := cache 5 y.used (cache 4 y.pre (cache 3 y.misses (cache 2 y.hits (cache 1 lines.length s2))))
  (List.range 2).foldl (fun u bit =>
    (stack bit 4 (64 * slots - y.loads bit) (stack bit 1 (y.loads bit) u)).tallyPort (14 + 2 * g + bit) 0 (64 * y.loads bit)) s3

/-- GATHER: rows at indices from a list in scratchpad (R94, R288 to R290, R306, R307). -/
def execGather (c : Issue) (d : XferDesc) (s : State) : Host.Outcome State Fault Refusal :=
  let offs := s.gatherOffs c d
  xferClause s c 3 d offs fun s =>
    let g := c.gal.toNat
    let t := s.seatAt g c.seat.toNat
    let bytes := d.rows.toNat * d.rowBytes.toNat
    let s1 := (xferIn s c d offs).tallySp g 20 2 t (xSpLines d)
    s1.cacheTally c (t.map (·.inst)) (s.linesOf (s.seatReq c) g d offs) (gatherSlots bytes)

/-! ### Slots of the fabric (R311, R312) -/

/-- The fabric slot entries that name the port clause an operation is the issue of (R312). -/
def State.portSlots (s : State) (kind : Nat) (c : Issue) (o : Op) : List FabSlot :=
  match s.placing kind c o with
  | some (p, i) => p.fabOf c.gal.toNat c.stream.toNat i
  | none => []

/-- The job key index and the cycle of the slot that carries a flit of a transfer (Table 11-1) (its corners, DEDUCED: log entry 75). -/
def flitSlot (fs : List FabSlot) (f : Nat) : Nat × Nat :=
  (fs.findSome? fun x => if x.first ≤ f ∧ f < x.first + x.count then some (x.job, x.start + (f - x.first)) else none).getD (0, 0)

/-! ### Job keys and segments (R313, R319, R320) -/

/-- The flit size of a path: 768 bytes on a hall link, 384 on a side link (R313). -/
def flitBytes (path : Nat) : Nat := if path = 3 then 384 else 768

/-- The gallery that issues a port clause (R312). -/
def fabOwner (d : FabDesc) : Nat := if d.path = 2 then d.dst.toNat else d.src.toNat

/-- The monitored port of a side link (Table 18-2). -/
def sidePort (a b : Nat) : Nat := 8 + (if a < 4 then Nat.min a b else Nat.min a b - 1)

/-- The sending endpoint of a transfer: 0 to 7 the hall link of a gallery, 8 hall staging, 9 to 14 the ends of the side links (R320) (its corners, DEDUCED: log entry 75). -/
def fabEndpoint (d : FabDesc) : Nat := if d.path = 2 then 8 else if d.path = 3 then 9 + (sidePort d.src.toNat d.dst.toNat - 8) else d.src.toNat

/-- A segment of a transfer: its first slot's flit, its place in that flit, and its bytes (R320) (its corners, DEDUCED: log entry 75). -/
def fabSegment (d : FabDesc) (bs : List Byte) (k : Nat) : Nat × Nat × List Byte :=
  let seg := (bs.drop (256 * k)).take 256
  if d.path = 3 then (256 * k / 384, (if k % 3 = 2 then 1 else k % 3), seg) else (k / 3, k % 3, seg)

/-- The 96-bit initialisation vector of a segment: TCK_COUNT, endpoint, the cycle of its first slot, its place in the flit (R320). -/
def State.fabIv (s : State) (d : FabDesc) (cycle place : Nat) : Nat :=
  s.tk.count.toNat % 2 ^ 48 * 2 ^ 48 + fabEndpoint d * 2 ^ 43 + cycle % 65536 * 2 ^ 27 + place * 2 ^ 25

/-- The key of a job of the flight that runs on a gallery: each pair has its own in partition mode (R319). -/
def State.jobKey (s : State) (g job : Nat) : Nat := Config.kdf (natAt s.trust.jobSeeds (if s.partitionMode then 1 + g / 2 else 0)) (bytesOfNat 4 job)

/-- The header of the flit that carries a segment's tag, its last byte's: JOB, PATH, SRC, DST, the flit index, the destination offset (R320). -/
def fabHeader (d : FabDesc) (fs : List FabSlot) (x : Nat × Nat × List Byte) (k : Nat) : List Byte :=
  let flit := (256 * k + x.2.2.length - 1) / flitBytes d.path.toNat
  [byteOf (flitSlot fs x.1).1, byteOf d.path.toNat, byteOf d.src.toNat, byteOf d.dst.toNat] ++ bytesOfNat 4 flit ++ bytesOfNat 4 d.dstOff.toNat

/-- The key and the initialisation vector of a segment: those of the job and the cycle of its first slot, of the gallery that issues the transfer
(R319, R320). -/
def State.fabKeyIv (s : State) (d : FabDesc) (fs : List FabSlot) (x : Nat × Nat × List Byte) : List Byte × List Byte :=
  let (job, cycle) := flitSlot fs x.1
  (bytesOfNat 32 (s.jobKey (fabOwner d) job), bytesOfNat 12 (s.fabIv d cycle x.2.1))

/-- What crosses the wires for a segment: ciphertext and tag under its job's key, the header authenticated (R319, R320). -/
def State.fabSeal (s : State) (d : FabDesc) (fs : List FabSlot) (bs : List Byte) (k : Nat) : List Byte × List Byte :=
  let x := fabSegment d bs k
  let ki := s.fabKeyIv d fs x
  gcmSeal ki.1 ki.2 (fabHeader d fs x k) x.2.2

/-- A segment as the receiving port opens it; none where its tag fails (R320, R321). -/
def State.fabOpen (s : State) (d : FabDesc) (fs : List FabSlot) (bs : List Byte) (k : Nat) : Option (List Byte) :=
  let x := fabSegment d bs k
  let ki := s.fabKeyIv d fs x
  let w := s.fabSeal d fs bs k
  gcmOpen ki.1 ki.2 (fabHeader d fs x k) w.1 w.2

/-- The bytes of a transfer as its receiver opens them, segment by segment. -/
def State.fabCarried (s : State) (d : FabDesc) (fs : List FabSlot) (bs : List Byte) : List Byte :=
  (List.range (ceilDiv bs.length 256)).flatMap fun k => (s.fabOpen d fs bs k).getD []

/-! ### Fetch windows (R295) -/

/-- What R295 allows of a WINDOW_FILL: HMODE 2 with one seat, HMODE 1, or HMODE 0 from staging. -/
def windowOk (seat : Nat) (d : XferDesc) : Bool := (xferCheck 4 seat d).isNone

/-- The fill of a window of a gallery (its corners, DEDUCED: log entry 101). -/
def State.fillOf (s : State) (g w : Nat) : Option Fill := s.ls.fills.find? fun f => f.gal == g && f.window == w

/-- The rows a window carries, none while its data is not in staging: offsets in hall staging for HMODE 0, else what the fetch engine holds. -/
def State.windowRows (s : State) (g : Nat) (d : XferDesc) : Option (List (List Byte)) :=
  let n := d.rowBytes.toNat
  if d.hmode = 0 then some ((xRowOffs d).map fun o => memRead s.mem.staging o n)
  else (s.fillOf g d.window.toNat).bind fun f =>
    if f.present then some ((List.range d.rows.toNat).map fun i => (f.data.drop (i * n)).takeD n 0) else none

/-- The transfer of a WINDOW_FILL, from hall staging to its gallery (R295, R318). -/
def fillPath (g : Nat) (d : XferDesc) : FabDesc :=
  ⟨false, d.smodeCtx, 0, 0, d.spOff, wordOf (d.rows.toNat * d.rowBytes.toNat), 2, 0, BitVec.ofNat 3 g, 4, []⟩

/-- The runs of a row of a WINDOW_FILL that arrive, as (offset in the row, bytes): the transfer's rows follow one another in flits of 768 bytes, and
a flit that the port drops writes nothing (R295, R313, R321). -/
def fillRuns (d : XferDesc) (i : Nat) : List (Nat × Nat) :=
  let n := d.rowBytes.toNat
  if d.drops.isEmpty then [(0, n)]
  else
    let first := i * n / 768
    ((List.range ((i * n + n - 1) / 768 + 1 - first)).filter fun k => !d.drops.any fun p => p.1 == first + k).map fun k =>
      let lo := Nat.max (i * n) (768 * (first + k))
      (lo - i * n, Nat.min (i * n + n) (768 * (first + k + 1)) - lo)

/-- The drops of a transfer, each marked, counted and reported at the cycle of its slot (R321, R322); a drop with cause 0 past the last flit is a
stray one that no slot expects, and its number is the cycle at which it comes (DESIGN CHOICE: log entry 115). -/
def State.dropFlits (s : State) (fs : List FabSlot) (staging : Bool) (g port flits : Nat) (drops : List (Nat × BitVec 2)) : State :=
  (drops.filter fun p => decide (p.1 < flits) || p.2 == 0).foldl (fun u p =>
    u.fabricDrop staging g port p.2.toNat (if p.1 < flits then (flitSlot fs p.1).2 else p.1)) s

/-- A WINDOW_FILL is issued when the running program places its clause and every fabric slot of it is a path 2 slot (R22, R318). -/
def State.fillReady (s : State) (c : Issue) (d : XferDesc) : Bool :=
  let op := Op.xfer 4 { d with drops := [] }
  s.issued 4 c op && (s.portSlots 4 c op).all fun x => x.path == 2

/-- WINDOW_FILL: the window's bytes placed at SP_OFF of the receiving gallery, but for the flits that its port drops; a window whose data is not in
staging places nothing, and its seats are deferred at the landing (R63, R295, R296, R321). -/
def execWindowFill (c : Issue) (d : XferDesc) (s : State) : Host.Outcome State Fault Refusal :=
  let g := c.gal.toNat
  let fs := s.portSlots 4 c (.xfer 4 { d with drops := [] })
  if !s.fillReady c d || !windowOk c.seat.toNat d || !xferInside 4 d
      || (d.hmode == 0 && (xRowOffs d).any fun o => decide (0x10000000 < o + d.rowBytes.toNat)) then keep s s
  else
    let t := s.seatAt g c.seat.toNat
    let rb := d.rowBytes.toNat
    keep s (match s.windowRows g d with
      | none => s.tallyClause c (0x20 * g + 25)
      | some rows =>
        let n := d.rows.toNat * rb
        let bs := chunksOf rb d.rows.toNat (s.fabCarried (fillPath g d) fs rows.flatten)
        let s0 := (List.range d.rows.toNat).foldl (fun u i => (fillRuns d i).foldl (fun v x =>
          v.opWrite g d.smodeCtx t (xSpRow d i + x.1) (((bs.getD i []).drop x.1).take x.2)) u) s
        let s1 := s0.dropFlits fs false g 0 (ceilDiv n 768) d.drops
        let s2 := (s1.tallyClause c (0x20 * g + 25)).tally ⟨0x20 * g + 25, 2, 4, t.map (·.inst), seatTag t, 0xFF, none, n⟩
        (s2.tallySp g 21 2 t (xSpLines d)).tallyPort g 0 n)

/-! ### The hall fabric (R311 to R324) -/

/-- What R312 to R314 ask of a fabric transfer (its corners, DEDUCED: log entry 76). -/
def sendOk (c : Issue) (d : FabDesc) : Bool :=
  decide (d.path.toNat ≤ 3) && d.cls != 7 && decide (d.dkind.toNat ≤ 1)
    && ((d.dkind == 1) == (d.path == 1)) && (d.path != 2 || (d.src == 0 && !d.smodeCtx)) && (d.path != 1 || (d.dst == 0 && !d.dmodeCtx))
    && (d.path != 3 || sideAdjacent d.src.toNat d.dst.toNat) && (d.path != 0 || d.src != d.dst)
    && c.gal.toNat == (fabOwner d)
    && decide (64 ≤ d.bytes.toNat) && decide (d.bytes.toNat ≤ 50331648) && d.bytes.toNat % 64 == 0
    && ((!d.smodeCtx && !d.dmodeCtx) || c.seat != 0x3FF)

/-- Source and destination of a fabric transfer lie within scratchpad or the 256 MiB of staging. -/
def sendInside (d : FabDesc) : Bool :=
  let lim := fun (staging ctx : Bool) (off : Nat) => ctx || decide (off + d.bytes.toNat ≤ if staging then 0x10000000 else spSize)
  lim (d.path == 2) d.smodeCtx d.srcOff.toNat && lim (d.path == 1) d.dmodeCtx d.dstOff.toNat

/-- The port that receives a transfer: 0 the hall link, 1 and 2 the side links to the lower and the higher gallery
(R325). -/
def fabRx (d : FabDesc) : Nat :=
  if d.path = 3 then (if d.src.toNat < d.dst.toNat then 1 else 2) else 0

/-- The port that sends a transfer. -/
def fabTx (d : FabDesc) : Nat :=
  if d.path = 3 then (if d.src.toNat < d.dst.toNat then 2 else 1) else 0

/-- The bytes a flit carries, at their offset in the transfer. -/
def flitRun (d : FabDesc) (f : Nat) : Nat × Nat :=
  let n := flitBytes d.path.toNat
  (f * n, Nat.min n (d.bytes.toNat - f * n))

/-- The bytes of a segment, at their offset in the transfer (R320). -/
def segRun (d : FabDesc) (k : Nat) : Nat × Nat := (256 * k, Nat.min 256 (d.bytes.toNat - 256 * k))

/-- A flit that carries bytes of a segment was dropped, so that the segment's bytes keep their values (R320, R321). -/
def segLost (d : FabDesc) (k : Nat) : Bool :=
  let n := flitBytes d.path.toNat
  let r := segRun d k
  d.drops.any fun p => decide (r.1 / n ≤ p.1) && decide (p.1 ≤ (r.1 + r.2 - 1) / n)

/-- What the ports, the switch and their monitors count for a transfer (Tables 18-1 and 18-2). -/
def State.fabTally (s : State) (c : Issue) (d : FabDesc) (sent received flits : Nat) : State :=
  let t := s.seatAt c.gal.toNat c.seat.toNat
  let src := d.src.toNat
  let dst := d.dst.toNat
  let ev := fun (b e n : Nat) (u : State) => u.tally ⟨b, e, d.cls.toNat, t.map (·.inst), seatTag t, 0xFF, none, n⟩
  let s1 := s.tallyClause c (0x20 * c.gal.toNat + 25 + (if d.path = 2 then (fabRx d) else (fabTx d)))
  let s2 := if d.path = 2 then s1 else ev (0x20 * src + 25 + (fabTx d)) 1 sent s1
  let s3 := if d.path = 1 then s2 else ev (0x20 * dst + 25 + (fabRx d)) 2 received s2
  let s4 := if d.path = 3 then s3 else s3.tallyPlain 0x100 1 flits
  match d.path.toNat with
  | 0 => (s4.tallyPort src sent 0).tallyPort dst 0 received
  | 1 => s4.tallyPort src sent 0
  | 2 => s4.tallyPort dst 0 received
  | _ => if src < dst then s4.tallyPort (sidePort src dst) received 0 else s4.tallyPort (sidePort src dst) 0 received

/-- The fabric slot entries that name the clause a SEND is the issue of. -/
def State.sendSlots (s : State) (c : Issue) (d : FabDesc) : List FabSlot :=
  s.portSlots (if d.path = 3 then 5 else 4) c (.fab { d with drops := [] })

/-- A SEND is issued when the running program places its clause and every fabric slot of it has the transfer's path, ends and class: the
fabric carries nothing that the flight has not placed (R17, R22, R312). -/
def State.sendReady (s : State) (c : Issue) (d : FabDesc) : Bool :=
  let fs := s.sendSlots c d
  s.issued (if d.path = 3 then 5 else 4) c (.fab { d with drops := [] }) && !fs.isEmpty
    && fs.all fun x => x.path == d.path.toNat && x.src == d.src.toNat && x.dst == d.dst.toNat && x.cls == d.cls.toNat

/-- SEND: the bytes of every segment whose flits arrive whole are written at the destination; a flit that its receiving port
drops writes nothing of its segments, marks the tick for replay and is counted and reported (R313, R319 to R324) (its corners, DEDUCED: log entry 75). -/
def execSend (c : Issue) (d : FabDesc) (s : State) : Host.Outcome State Fault Refusal :=
  if !s.sendReady c d || !sendOk c d || !sendInside d then keep s s
  else
    let src := d.src.toNat
    let dst := d.dst.toNat
    let t := s.seatAt c.gal.toNat c.seat.toNat
    let bs := s.fabCarried d (s.sendSlots c d) (if d.path = 2 then memRead s.mem.staging d.srcOff.toNat d.bytes.toNat
      else s.opRead src d.smodeCtx t d.srcOff.toNat d.bytes.toNat)
    let flits := ceilDiv d.bytes.toNat (flitBytes d.path.toNat)
    let lost := fun f => d.drops.any fun p => p.1 == f
    let live := d.path == 1 || !s.galFenced dst
    let put := fun (u : State) (off : Nat) (b : List Byte) =>
      if d.path = 1 then { u with mem := { u.mem with staging := memWrite u.mem.staging (d.dstOff.toNat + off) b } }
      else u.opWrite dst d.dmodeCtx t (d.dstOff.toNat + off) b
    let s1 := (List.range (ceilDiv d.bytes.toNat 256)).foldl (fun u k =>
      if segLost d k || !live then u else (let r := segRun d k; put u r.1 ((bs.drop r.1).take r.2))) s
    let s2 := if !live then s1 else s1.dropFlits (s.sendSlots c d) (d.path == 1) (if d.path = 1 then src else dst) (fabRx d) flits d.drops
    let got := if live then ((List.range flits).map fun f => if lost f then 0 else (flitRun d f).2).sum else 0
    keep s (s2.fabTally c d d.bytes.toNat got flits)

end Sys2Proof.Machine
end

