-- ==== Sys2Proof/Machine/Exact.lean ====
section
/-! DEFINITION. The 320-bit exact accumulator (R183 to R185, R188, Table 6-1). -/

namespace Sys2Proof.Machine

/-- An exact accumulator: the value in units of 2^-149, and the flags and count of Table 6-1. -/
structure XAcc where
  value : Int
  anyIn : Bool
  ovr : Bool
  negz : Bool
  ninf : Bool
  pinf : Bool
  nanIn : Bool
  inputs : Nat
  deriving DecidableEq, Repr

/-- The empty accumulator. -/
def xEmpty : XAcc := ⟨0, false, false, false, false, false, false, 0⟩

/-- The value as 320 bits of two's complement, with OVR when a carry reached the sign bit (Table 6-1). -/
def xWrap (v : Int) : Int × Bool :=
  if -(2 ^ 319) ≤ v ∧ v < 2 ^ 319 then (v, false) else (bitsInt 320 (v % (2 ^ 320 : Nat)).toNat, true)

/-- The exact integer of a finite value in units of 2^-149; every FP32 and I32 value is one (R183). -/
def xUnits (neg : Bool) (m : Nat) (e : Int) : Int :=
  if 0 ≤ e + 149 then sInt neg m * 2 ^ (e + 149).toNat else sInt neg m / 2 ^ (-(e + 149)).toNat

/-- NEGZ after an input: every input so far was −0. -/
def xNegz (a : XAcc) (isNegZero : Bool) : Bool := isNegZero && (a.negz || !a.anyIn)

/-- One input word added exactly (R184). -/
def xAdd (a : XAcc) (v : Fv) : XAcc :=
  let n := satAdd 32 a.inputs 1
  match v with
  | .nan => { a with anyIn := true, nanIn := true, negz := false, inputs := n }
  | .inf true => { a with anyIn := true, ninf := true, negz := false, inputs := n }
  | .inf false => { a with anyIn := true, pinf := true, negz := false, inputs := n }
  | .fin neg m e =>
    let (s, o) := xWrap (a.value + xUnits neg m e)
    { a with value := s, anyIn := true, ovr := a.ovr || o, negz := xNegz a (neg && m == 0), inputs := n }

/-- Two images added: the exact sum of their values, flags as if every input had gone to one accumulator (R188). -/
def xJoin (a b : XAcc) : XAcc :=
  let (s, o) := xWrap (a.value + b.value)
  { value := s, anyIn := a.anyIn || b.anyIn, ovr := a.ovr || b.ovr || o,
    negz := (a.negz || !a.anyIn) && (b.negz || !b.anyIn) && (a.anyIn || b.anyIn),
    ninf := a.ninf || b.ninf, pinf := a.pinf || b.pinf, nanIn := a.nanIn || b.nanIn,
    inputs := satAdd 32 a.inputs b.inputs }

/-- The accumulator's sum as a value, special results first (R185, Table 6-2). -/
def xValue (a : XAcc) : Fv :=
  if a.ovr || a.nanIn || (a.pinf && a.ninf) then .nan
  else if a.pinf then .inf false
  else if a.ninf then .inf true
  else if a.value = 0 then .fin a.negz 0 0
  else fvOfScaled a.value (-149)

/-- The double-word of R185: hi and lo under OVF; a special, clamped or overflowing hi takes lo = +0. -/
def xPair (ovf : Bool) (a : XAcc) : Word × Word :=
  let v := xValue a
  let h := fpRound fp32 ovf v
  let hv := fpDecode fp32 h.enc
  if fvFinite v && !h.ovfl then (wordOf h.enc, wordOf (fpRound fp32 ovf (plusZero (fvSub v hv))).enc)
  else (wordOf h.enc, 0)

/-- The 12 words of an image (Table 6-1). -/
def xImage (a : XAcc) : List Word :=
  let v := (a.value % (2 ^ 320 : Nat)).toNat
  let flags := b2n a.anyIn * 32 + b2n a.ovr * 16 + b2n a.negz * 8 + b2n a.ninf * 4 + b2n a.pinf * 2 + b2n a.nanIn
  (List.range 10).map (fun i => wordOf (v / 2 ^ (32 * i))) ++ [wordOf flags, wordOf a.inputs]

/-- The accumulator an image loads; reserved bits that are not 0 make it NaN with OVR, the rest ignored (ANY and
INPUTS afterwards, DESIGN CHOICE: log entry 116). -/
def xOfImage (ws : List Word) : XAcc :=
  let f := wordAt ws 10
  if f.toNat / 64 ≠ 0 then { xEmpty with nanIn := true, ovr := true, anyIn := true }
  else
    let v := ((List.range 10).map fun i => (wordAt ws i).toNat * 2 ^ (32 * i)).sum
    { value := bitsInt 320 v, anyIn := f.bit 5, ovr := f.bit 4, negz := f.bit 3 && f.bit 5, ninf := f.bit 2,
      pinf := f.bit 1, nanIn := f.bit 0, inputs := (wordAt ws 11).toNat }

end Sys2Proof.Machine
end

