-- ==== Sys2Proof/Machine/MapFun.lean ====
section
/-! DEFINITION. The functions of MAP (R199, Table 7-4): each the exact real function of an FP32 value, held to more
bits than any one rounding needs.  The transcendental ones are computed as integers scaled by 2^-640, with an
interval around the result, and taken as correctly rounded when both ends of that interval round alike (DEDUCED: log entry 10). -/

namespace Sys2Proof.Machine

/-- Bits of the fixed-point scale. -/
def mfP : Nat := 640

/-- The bound of the error, in units of 2^-640. -/
def mfErr : Int := 2 ^ 80

/-- A fixed-point product. -/
def mfMul (a b : Int) : Int := a * b / 2 ^ mfP

/-- A finite value as a fixed-point number, cut off below 2^-640. -/
def mfOf (neg : Bool) (m : Nat) (e : Int) : Int :=
  if 0 ≤ e + mfP then sInt neg m * 2 ^ (e + mfP).toNat else sInt neg m / 2 ^ (-(e + mfP)).toNat

/-- Terms x^k / k! added from the k-th to the (k + n)-th. -/
def expTerms (x : Int) : (n : Nat) → (k : Nat) → (term acc : Int) → Int
  | 0, _, _, acc => acc
  | n + 1, k, term, acc =>
    let t := mfMul term x / (k + 1 : Nat)
    expTerms x n (k + 1) t (acc + t)

/-- A number squared `n` times. -/
def mfSquare : Nat → Int → Int
  | 0, y => y
  | n + 1, y => mfSquare n (mfMul y y)

/-- e^x for |x| ≤ 2^-16, with 40 terms. -/
def expSmall (x : Int) : Int := expTerms x 40 0 (2 ^ mfP) (2 ^ mfP)

/-- e^x for a fixed-point x of magnitude at most 400: x / 2^26, then 26 squarings.  e^x for a positive
x is the reciprocal of e^-x. -/
def expFix (x : Int) : Int :=
  let y := mfSquare 26 (expSmall (-(x.natAbs : Int) / 2 ^ 26))
  if x ≤ 0 then y else 2 ^ (2 * mfP) / y

/-- atanh(z) = z + z^3/3 + ... with `n` more terms. -/
def atanhTerms (z2 : Int) : (n : Nat) → (k : Nat) → (pow acc : Int) → Int
  | 0, _, _, acc => acc
  | n + 1, k, pow, acc =>
    let p := mfMul pow z2
    atanhTerms z2 n (k + 2) p (acc + p / (k + 2 : Nat))

/-- 2 atanh((a - b) / (a + b)) = ln(a / b) for 1/2 ≤ a / b ≤ 2. -/
def lnRatio (a b : Nat) : Int :=
  let z : Int := ((a : Int) - b) * 2 ^ mfP / ((a + b : Nat) : Int)
  2 * atanhTerms (mfMul z z) 400 1 z z

/-- ln 2. -/
def ln2Fix : Int := lnRatio 2 1

/-- ln of a positive value m × 2^e. -/
def lnFix (m : Nat) (e : Int) : Int :=
  let k := Nat.log2 m
  lnRatio m (2 ^ k) + (e + k) * ln2Fix

/-- arctan(1 / q) with `n` more terms. -/
def atanInvTerms (q2 : Nat) : (n : Nat) → (k : Nat) → (neg : Bool) → (pow acc : Int) → Int
  | 0, _, _, _, acc => acc
  | n + 1, k, neg, pow, acc =>
    let p := pow / (q2 : Int)
    let t := p / (k + 2 : Nat)
    atanInvTerms q2 n (k + 2) (!neg) p (if neg then acc + t else acc - t)

/-- arctan(1 / q). -/
def atanInv (q : Nat) : Int := atanInvTerms (q * q) 300 1 false (2 ^ mfP / (q : Int)) (2 ^ mfP / (q : Int))

/-- π by 16 arctan(1/5) - 4 arctan(1/239). -/
def piFix : Int := 16 * atanInv 5 - 4 * atanInv 239

/-- √(2/π). -/
def sqrt2OverPi : Int := isqrt ((2 * 2 ^ (3 * mfP)) / piFix.toNat)

/-- 1 / (1 + e^-v). -/
def sigmoidFix (v : Int) : Int := 2 ^ (2 * mfP) / (2 ^ mfP + expFix (-v))

/-- The enclosure of a fixed-point result: from `r - err` to `r + err`. -/
abbrev Enclosure := Fv × Fv

/-- A fixed-point number as a value. -/
def mfVal (r : Int) : Fv := fvOfScaled r (-(mfP : Int))

/-- The enclosure around a fixed-point result: 2^-560, and 2^-300 of the result. -/
def enclose (r : Int) : Enclosure :=
  let err := mfErr + (r.natAbs : Int) / 2 ^ 300
  (mfVal (r - err), mfVal (r + err))

/-- The enclosure of a result whose error is absolute: 2^-560. -/
def encloseNear (r : Int) : Enclosure := (mfVal (r - mfErr), mfVal (r + mfErr))

/-- A value that is exact. -/
def exactly (v : Fv) : Enclosure := (v, v)

/-- A non-zero value too small for any rounding to see, of a sign. -/
def tiny (neg : Bool) : Fv := .fin neg 1 (-640)

/-- A finite value larger than any format holds. -/
def huge : Fv := .fin false 1 1000

/-- A value just below a finite one in magnitude. -/
def justBelow (neg : Bool) (m : Nat) (e : Int) : Fv := .fin neg (m * 2 ^ 64 - 1) (e - 64)

/-- |x| > 200 for a finite value. -/
def beyond200 (m : Nat) (e : Int) : Bool := fvLt (.fin false 200 0) (.fin false m e)

/-- x σ(v) with v of the sign of x, for a finite x other than 0; for a positive x the error of σ is absolute, and 1 - σ may be as small as e^-300. -/
def timesSigmoid (neg : Bool) (m : Nat) (e : Int) (v : Int) : Enclosure :=
  let r := mfMul (mfOf neg m e) (sigmoidFix v)
  if neg then enclose r else encloseNear r

/-- The exact value of MAP function `f` at a value, as an enclosure (Table 7-4). -/
def mapFun (f : Nat) (x : Fv) : Enclosure :=
  match x with
  | .nan => exactly .nan
  | .inf neg =>
    match f with
    | 0 => exactly x
    | 1 => exactly (.inf !neg)
    | 2 => exactly (.inf false)
    | 3 => exactly (.fin neg 0 0)
    | 4 => exactly (if neg then .nan else x)
    | 5 => exactly (if neg then .nan else pz)
    | 6 => exactly (if neg then pz else x)
    | 7 => exactly (if neg then .nan else x)
    | 8 => exactly (.fin neg 1 0)
    | 9 => exactly (if neg then pz else .fin false 1 0)
    | 10 => exactly (if neg then .fin true 0 0 else x)
    | 11 => exactly (if neg then .fin true 0 0 else x)
    | 12 => exactly (if neg then pz else x)
    | _ => exactly .nan
  | .fin neg m e =>
    match f with
    | 0 => exactly x
    | 1 => exactly (fvNegate x)
    | 2 => exactly (fvAbs x)
    | 3 => exactly (fvDiv (.fin false 1 0) x)
    | 4 => exactly (fvSqrt x)
    | 5 =>
      if m = 0 then exactly (.inf neg)
      else if neg then exactly .nan
      else
        let p : Nat := if e % 2 = 0 then 0 else 1
        let d := m * 2 ^ p
        let j := 100 + Nat.log2 d
        let r := isqrt (2 ^ (2 * j) / d)
        exactly (.fin false (2 * r + (if r * r * d = 2 ^ (2 * j) then 0 else 1)) (-((e - p) / 2) - j - 1))
    | 6 =>
      if m = 0 then exactly (.fin false 1 0)
      else if beyond200 m e then exactly (if neg then tiny false else huge)
      else enclose (expFix (mfOf neg m e))
    | 7 =>
      if m = 0 then exactly (.inf true)
      else if neg then exactly .nan
      else if fvEq x (.fin false 1 0) then exactly pz
      else enclose (lnFix m e)
    | 8 =>
      if m = 0 then exactly x
      else if beyond200 m e then exactly (justBelow neg 1 0)
      else
        let t := expFix (-2 * (mfOf false m e))
        let r := (2 ^ mfP - t) * 2 ^ mfP / (2 ^ mfP + t)
        enclose (if neg then -r else r)
    | 9 =>
      if m = 0 then exactly (.fin false 1 (-1))
      else if beyond200 m e then exactly (if neg then tiny false else justBelow false 1 0)
      else enclose (sigmoidFix (mfOf neg m e))
    | 10 =>
      if m = 0 then exactly x
      else if beyond200 m e then exactly (if neg then tiny true else justBelow false m e)
      else timesSigmoid neg m e (mfOf neg m e)
    | 11 =>
      if m = 0 then exactly x
      else if beyond200 m e then exactly (if neg then tiny true else justBelow false m e)
      else
        let v := mfOf neg m e
        let cube := mfMul v (mfMul v v)
        let u := mfMul sqrt2OverPi (v + 44715 * cube / 1000000)
        if 150 * 2 ^ mfP < u.natAbs then exactly (if neg then tiny true else justBelow false m e)
        else timesSigmoid neg m e (2 * u)
    | 12 => exactly (if neg then pz else x)
    | _ => exactly .nan

/-- The rounding of an enclosure: the common rounding of its ends, or the free encoding where they differ. -/
def roundEnclosure (f : FpFmt) (ovf : Bool) (free : Nat) (x : Enclosure) : Rounded :=
  let a := fpRound f ovf x.1
  let b := fpRound f ovf x.2
  if a = b then a else ⟨free % 2 ^ (f.mag + 1), false, false⟩

end Sys2Proof.Machine
end

