-- ==== Sys2Proof/Machine/Vu.lean ====
section
/-! DEFINITION. Vector units (R192 to R216); SIGN_UPDATE stands with the update. -/

namespace Sys2Proof.Machine

/-! ### Operands (R193 to R195) -/

/-- The raw elements of a VU operand, ROWS × COLS of them, transposed and broadcast as it says (R194). -/
def vuGrid (s : State) (g : Nat) (t : Option Seat) (o : VuOperand) (rows cols : Nat) : List (List Nat) :=
  let e := vuBytes o.fmt.toNat
  let b := o.bcast.toNat
  let r := if b = 1 ∨ b = 3 then 1 else rows
  let c := if b = 2 ∨ b = 3 then 1 else cols
  let line := fun i n => numsOf e n (s.opRead g o.ctx t (o.off.toNat + i * o.pitch.toNat) (n * e))
  let grid := if o.trn then
      let ls := (List.range c).map fun j => line j r
      (List.range r).map fun i => ls.map fun l => natAt l i
    else (List.range r).map fun i => line i c
  let wide := grid.map fun row => if c = cols then row else List.replicate cols (natAt row 0)
  if r = rows then wide else List.replicate rows (wide.headD [])

/-- The exact value of an element (Table 7-2); a pair is hi + lo. -/
def vuExact (fmt raw : Nat) : Fv :=
  match fmt with
  | 0 => fpDecode fp32 raw
  | 1 => fpDecode bf16 raw
  | 2 => fpDecode fp16 raw
  | 3 => fpDecode e4m3 raw
  | 4 => fpDecode e5m2 raw
  | 5 => fvOfInt (bitsInt 8 raw)
  | 6 => fvOfInt (raw % 256 : Nat)
  | 7 => fvOfInt (bitsInt 32 raw)
  | 8 => fvAdd (fpDecode fp32 (raw % 0x100000000)) (fpDecode fp32 (raw / 0x100000000))
  | 9 => fpDecode fp32 (Config.imageElem raw)
  | _ => fvOfInt (raw % 65536 : Nat)

/-- The FP32 value a value operation receives: exact but for I32 and pairs, which are rounded once (R193). -/
def vuVal (fmt raw : Nat) : Fv :=
  match fmt with
  | 7 | 8 => rne32 (vuExact fmt raw)
  | _ => vuExact fmt raw

/-- The values of an operand. -/
def vuVals (s : State) (g : Nat) (t : Option Seat) (o : VuOperand) (rows cols : Nat) : List (List Fv) :=
  (vuGrid s g t o rows cols).map fun row => row.map (vuVal o.fmt.toNat)

/-- The floating-point format of a VU element format 0 to 4. -/
def vuFp (fmt : Nat) : FpFmt :=
  match fmt with
  | 0 => fp32 | 1 => bf16 | 2 => fp16 | 3 => e4m3 | _ => e5m2

/-- A stored element: its bytes, whether its conversion is counted, whether it is a saturation. -/
structure VuOut where
  bytes : List Byte
  counted : Bool
  sat : Bool
  deriving DecidableEq, Repr

/-- An image as its 64 bytes: 12 words used, words 12 to 15 written 0 (Table 7-2). -/
def imageBytes (a : XAcc) : List Byte := (xImage a ++ [0, 0, 0, 0]).flatMap Word.bytes

/-- A result stored in a destination format with one rounding (R120 to R123, R193).  PAIR, IMAGE and U16 take the FP32
result.  A store to any format but FP32, PAIR and IMAGE counts, I32 among them (DEDUCED: log entry 55). -/
def vuStore (fmt : Nat) (ovf : Bool) (v : Fv) : VuOut :=
  let r32 := fpRound fp32 ovf v
  let v32 := fpDecode fp32 r32.enc
  match fmt with
  | 0 => ⟨bytesOfNat 4 r32.enc, false, false⟩
  | 5 => let (i, c) := toInt (-128) 127 v; ⟨bytesOfNat 1 (intBits 1 i), true, c⟩
  | 6 => let (i, c) := toInt 0 255 v; ⟨bytesOfNat 1 (intBits 1 i), true, c⟩
  | 7 => let (i, c) := toInt (-(2 ^ 31)) (2 ^ 31 - 1) v; ⟨bytesOfNat 4 (intBits 4 i), true, c⟩
  | 8 => ⟨bytesOfNat 4 r32.enc ++ bytesOfNat 4 0, false, false⟩
  | 9 => ⟨imageBytes (xAdd xEmpty v32), false, false⟩
  | 10 => let (i, c) := toInt 0 65535 v32; ⟨bytesOfNat 2 (intBits 2 i), true, c⟩
  | f => let r := fpRound (vuFp f) ovf v; ⟨bytesOfNat (vuBytes f) r.enc, true, r.sat⟩

/-- An enclosure stored: the common result of its ends, or a free encoding where they differ. -/
def vuStoreEnc (fmt : Nat) (ovf : Bool) (free : Nat) (x : Enclosure) : VuOut :=
  let a := vuStore fmt ovf x.1
  if a = vuStore fmt ovf x.2 then a else ⟨bytesOfNat (vuBytes fmt) free, a.counted, false⟩

/-- A grid of stored elements written at an operand's addresses. -/
def vuWrite (s : State) (g : Nat) (t : Option Seat) (o : VuOperand) (grid : List (List VuOut)) : State :=
  let put := fun (u : State) (i : Nat) (es : List VuOut) =>
    u.opWrite g o.ctx t (o.off.toNat + i * o.pitch.toNat) (es.flatMap (·.bytes))
  if o.trn then
    (List.range (grid.headD []).length).foldl (fun u j => put u j (grid.map fun row => row.getD j ⟨[], false, false⟩)) s
  else (List.range grid.length).foldl (fun u i => put u i (grid.getD i [])) s

/-! ### Admissible descriptors (R196, R217) -/

/-- Whether two families of lines share a byte: `n` lines of `b` bytes at a pitch. -/
def strideOverlap (off1 p1 n1 b1 off2 p2 n2 b2 : Nat) : Bool :=
  (List.range n1).any fun i =>
    let a := off1 + i * p1
    -- the first line of the second family that ends past a
    let j := if off2 + b2 > a then 0 else if p2 = 0 then n2 else (a - off2 - b2) / p2 + 1
    decide (j < n2) && decide (0 < b1) && decide (0 < b2) && decide (off2 + j * p2 < a + b1)

/-- Lines of an operand of a shape: offset, pitch, count, bytes. -/
def vuLines (o : VuOperand) (rows cols : Nat) : Nat × Nat × Nat × Nat :=
  let (r, c) := vuShape o rows cols
  let e := vuBytes o.fmt.toNat
  if o.trn then (o.off.toNat, o.pitch.toNat, c, r * e) else (o.off.toNat, o.pitch.toNat, r, c * e)

/-- A destination and a source overlap otherwise than by coinciding exactly, both ABS (R196). -/
def vuOverlap (d : VuOperand) (dr dc : Nat) (o : VuOperand) (rows cols : Nat) : Bool :=
  if o.fmt = 15 ∨ o.ctx ∨ d.ctx ∨ d.fmt = 15 then false
  else if d.off = o.off ∧ d.pitch = o.pitch ∧ d.trn = o.trn ∧ vuBytes d.fmt.toNat = vuBytes o.fmt.toNat then false
  else
    let (a, b, c, e) := vuLines d dr dc
    let (a', b', c', e') := vuLines o rows cols
    strideOverlap a b c e a' b' c' e'

/-- Which of X, Y, Z and D an operation uses. -/
def vuUses (op : Nat) (accIn : Bool) : Bool × Bool × Bool × Bool :=
  match op with
  | 0x02 | 0x03 | 0x04 | 0x05 | 0x06 | 0x14 | 0x30 | 0x40 => (true, true, false, true)
  | 0x07 | 0x31 => (true, true, true, true)
  | 0x09 => (true, false, false, true)
  | 0x20 | 0x21 => (true, false, accIn, true)
  | _ => (true, false, false, true)

/-- What R217 asks of the common words of a VU descriptor: NEED and LIMIT of the first rule broken. -/
def vuCheck (op seat : Nat) (accIn : Bool) (d : VuDesc) : Option (Nat × Nat) :=
  let (ux, uy, uz, ud) := vuUses op accIn
  let reduction := decide (0x10 ≤ op ∧ op ≤ 0x21)
  let down := fun (v n : Nat) => (v % n == 0, v, v / n * n)
  let operand := fun (o : VuOperand) (used : Bool) =>
    (if used then decide (o.fmt.toNat ≤ 10) else o.fmt == 15, o.fmt.toNat, if used then 10 else 15) ::
    if o.fmt = 15 then [] else [down o.pitch.toNat (vuBytes o.fmt.toNat), (!o.ctx || seat != 0x3FF, 1, 0)]
      ++ if o.fmt = 9 then [down o.off.toNat 64] else []
  let (dr, dc) := vuDestShape op d
  let rows := d.rows.toNat
  let cols := d.cols.toNat
  let clash := fun (o : VuOperand) => vuOverlap d.d dr dc o rows cols
  let (zr, zc) := vuZShape op d
  firstFail ([
    (if op = 1 then decide (d.func.toNat ≤ 12) else if op = 0x14 then decide (1 ≤ d.func.toNat ∧ d.func.toNat ≤ 8)
      else d.func == 0, d.func.toNat, if op = 1 then 12 else if op = 0x14 then 8 else 0),
    (if op = 0x21 then d.axis == 2 else if reduction then d.axis != 0 else d.axis == 0, d.axis.toNat,
      if op = 0x21 then 2 else if reduction then 3 else 0),
    (op == 0x40 || decide (1 ≤ rows), rows, 65535), (op == 0x40 || decide (1 ≤ cols), cols, 65535),
    (d.statusOff == 0xFFFFFFFF || d.statusOff.toNat % 8 == 0, d.statusOff.toNat, d.statusOff.toNat / 8 * 8)]
    ++ operand d.x ux ++ operand d.y uy ++ operand d.z uz ++ operand d.d (ud && !(op == 9 && d.d.fmt == 15))
    ++ [(d.d.bcast == 0, d.d.bcast.toNat, 0),
      (!(op == 0x14) || d.d.fmt == d.x.fmt, d.d.fmt.toNat, d.x.fmt.toNat),
      (!(op == 0x14) || d.y.fmt == 10, d.y.fmt.toNat, 10),
      (!(op == 0x14) || !vuOverlap d.y dr dc d.x rows cols, d.y.off.toNat, 0),
      (!accIn || d.z.fmt == 9, d.z.fmt.toNat, 9),
      (!(op == 0x21) || d.x.fmt == 8 || d.x.fmt == 0 || d.x.fmt == 7, d.x.fmt.toNat, 8),
      (op == 0x30 || op == 0x40 || !clash d.x, d.d.off.toNat, 0),
      (op == 0x30 || op == 0x31 || op == 0x40 || op == 0x14 || !clash d.y, d.d.off.toNat, 0),
      (op == 0x31 || !vuOverlap d.d dr dc d.z zr zc, d.d.off.toNat, 0)])

/-- Every ABS operand of a VU clause lies within scratchpad (its corners, DEDUCED: log entry 69). -/
def vuInside (op : Nat) (d : VuDesc) : Bool :=
  let rows := d.rows.toNat
  let cols := d.cols.toNat
  let ok := fun (o : VuOperand) (r c : Nat) => o.fmt == 15 ||
    (let (off, p, n, b) := vuLines o r c; extentOk o.ctx off p n b)
  let (dr, dc) := vuDestShape op d
  let (zr, zc) := vuZShape op d
  (op == 0x40 || ok d.x rows cols) && (op == 0x30 || op == 0x31 || op == 0x14 || ok d.y rows cols) && (op == 0x31 || ok d.z zr zc)
    && (op == 0x30 || ok d.d dr dc)
    && (d.statusOff == 0xFFFFFFFF || extentOk false d.statusOff.toNat 0 1 8)

/-! ### The frame every VU clause shares -/

/-- A VU clause is issued when the running program places it and the VU is in service (R22). -/
def State.vuReady (s : State) (c : Issue) (o : Op) : Bool := s.issued 1 c o && s.vuUp c.gal.toNat c.unit.toNat

/-- The status word of a clause, words 0 and 1 (R215). -/
def vuStatus (s : State) (g : Nat) (d : VuDesc) (w0 w1 : Word) : State :=
  if d.statusOff = 0xFFFFFFFF then s else s.spWrite g d.statusOff.toNat (w0.bytes ++ w1.bytes)

/-- Elements counted in the named calibration slot when the seat commits (R129 to R131); with no instance where no request fills the seat
named (DEDUCED: log entry 58). -/
def vuCal (s : State) (c : Issue) (d : VuDesc) (outs : List (List VuOut)) : State :=
  let all := outs.flatten.filter (·.counted)
  if d.calEn && !all.isEmpty then
    s.pendPut (.cal c.gal.toNat d.calSlot.toNat ((s.seatAt c.gal.toNat c.seat.toNat).map (·.handle))
      (all.countP (·.sat)) all.length)
  else s

/-- Lines of an ABS operand, for the scratchpad counters. -/
def vuCountLines (o : VuOperand) (rows cols : Nat) : List (Nat × Nat) :=
  if o.fmt = 15 ∨ o.ctx then [] else
  let (off, p, n, b) := vuLines o rows cols
  (List.range n).map fun i => (off + i * p, b)

/-- What a VU clause counts (Table 18-1): busy cycles, elements, scratchpad bytes and bank-conflict cycles. -/
def vuTally (s : State) (c : Issue) (op : Nat) (d : VuDesc) (x : VuExtra) : State :=
  let g := c.gal.toNat
  let v := c.unit.toNat
  let t := s.seatAt g c.seat.toNat
  let rows := d.rows.toNat
  let cols := d.cols.toNat
  let (dr, dc) := vuDestShape op d
  let s1 := (s.tallyClause c (0x20 * g + 16 + v)).tally
    ⟨0x20 * g + 16 + v, 2, 7, t.map (·.inst), seatTag t, 0xFF, none, rows * cols⟩
  let s2 := s1.tally ⟨0x20 * g + 22, 3, 7, t.map (·.inst), seatTag t, 16 + v, none,
    (vuFactor op d x - 1) * vuStream op d x⟩
  let (zr, zc) := vuZShape op d
  let reads := vuCountLines d.x rows (if op = 0x40 then rows else cols)
    ++ (if op = 0x14 then [] else vuCountLines d.y rows (if op = 0x30 ∨ op = 0x31 then x.kc else cols)) ++ vuCountLines d.z zr zc
  (s2.tallySp g (16 + v) 1 t reads).tallySp g (16 + v) 2 t (vuCountLines d.d dr dc)

/-- A VU clause: nothing when it is not issued, as no descriptor that R217 forbids ever is, nor one with an address past scratchpad (check 0x07,
R22, R509); otherwise its effect, its status word and its counts. -/
def vuClause (s : State) (c : Issue) (o : Op) (op : Nat) (x : VuExtra) (d : VuDesc) (ok inside : Bool) (run : State → State) :
    Host.Outcome State Fault Refusal :=
  if !s.vuReady c o || (vuCheck op c.seat.toNat x.accIn d).isSome || !ok || !(vuInside op d && inside) then keep s s
  else keep s (vuTally (run s) c op d x)

/-- A clause whose result is a grid of stored elements: written at D, counted, status words 0. -/
def vuResult (s : State) (c : Issue) (d : VuDesc) (outs : List (List VuOut)) : State :=
  let g := c.gal.toNat
  let t := s.seatAt g c.seat.toNat
  vuStatus (vuCal (vuWrite s g t d.d outs) c d outs) g d 0 0

/-! ### Stream operations (R198, R199) -/

/-- The elements of X, each through `f`. -/
def map1Outs (s : State) (c : Issue) (d : VuDesc) (f : Fv → VuOut) : List (List VuOut) :=
  let t := s.seatAt c.gal.toNat c.seat.toNat
  (vuVals s c.gal.toNat t d.x d.rows.toNat d.cols.toNat).map fun row => row.map f

/-- The elements of X and Y in pairs: the exact result, rounded once on store. -/
def map2Outs (s : State) (c : Issue) (d : VuDesc) (f : Fv → Fv → Fv) : List (List VuOut) :=
  let t := s.seatAt c.gal.toNat c.seat.toNat
  let xs := vuVals s c.gal.toNat t d.x d.rows.toNat d.cols.toNat
  let ys := vuVals s c.gal.toNat t d.y d.rows.toNat d.cols.toNat
  (xs.zip ys).map fun r => (r.1.zip r.2).map fun p => vuStore d.d.fmt.toNat d.ovf (f p.1 p.2)

/-- Element by element over X and Y. -/
def vuMap2 (s : State) (c : Issue) (d : VuDesc) (f : Fv → Fv → Fv) : State := vuResult s c d (map2Outs s c d f)

/-- max(X, Y): NaN if either is NaN; max(+0, −0) = +0 (Table 7-3) (its corners, DEDUCED: log entry 81). -/
def fvMax (a b : Fv) : Fv :=
  if a = .nan ∨ b = .nan then .nan
  else if fvZero a && fvZero b then (if fvNeg a then b else a)
  else if fvLt a b then b else a

/-- min(X, Y): NaN if either is NaN; min(+0, −0) = −0 (Table 7-3) (its corners, DEDUCED: log entry 81). -/
def fvMin (a b : Fv) : Fv :=
  if a = .nan ∨ b = .nan then .nan
  else if fvZero a && fvZero b then (if fvNeg a then a else b)
  else if fvLt b a then b else a

/-- The elements that MAP stores (R199). -/
def mapOuts (s : State) (c : Issue) (d : VuDesc) : List (List VuOut) :=
  map1Outs s c d fun x => vuStoreEnc d.d.fmt.toNat d.ovf s.free.1 (mapFun d.func.toNat x)

/-- MAP (R199). -/
def execMap (c : Issue) (d : VuDesc) (s : State) : Host.Outcome State Fault Refusal :=
  vuClause s c (.vu 0x01 false d) 0x01 vuPlain d true true fun s => { vuResult s c d (mapOuts s c d) with freeCtr := s.freeCtr + 1 }

/-- ADD: D = X + Y. -/
def execAdd (c : Issue) (d : VuDesc) (s : State) : Host.Outcome State Fault Refusal :=
  vuClause s c (.vu 0x02 false d) 0x02 vuPlain d true true fun s => vuMap2 s c d fvAdd

/-- SUB: D = X − Y. -/
def execSub (c : Issue) (d : VuDesc) (s : State) : Host.Outcome State Fault Refusal :=
  vuClause s c (.vu 0x03 false d) 0x03 vuPlain d true true fun s => vuMap2 s c d fvSub

/-- MUL: D = X × Y. -/
def execMul (c : Issue) (d : VuDesc) (s : State) : Host.Outcome State Fault Refusal :=
  vuClause s c (.vu 0x04 false d) 0x04 vuPlain d true true fun s => vuMap2 s c d fvMul

/-- MAX: D = max(X, Y). -/
def execMax (c : Issue) (d : VuDesc) (s : State) : Host.Outcome State Fault Refusal :=
  vuClause s c (.vu 0x05 false d) 0x05 vuPlain d true true fun s => vuMap2 s c d fvMax

/-- MIN: D = min(X, Y). -/
def execMin (c : Issue) (d : VuDesc) (s : State) : Host.Outcome State Fault Refusal :=
  vuClause s c (.vu 0x06 false d) 0x06 vuPlain d true true fun s => vuMap2 s c d fvMin

/-- The elements that FMA stores. -/
def fmaOuts (s : State) (c : Issue) (d : VuDesc) : List (List VuOut) :=
  let t := s.seatAt c.gal.toNat c.seat.toNat
  let grid := fun o => vuVals s c.gal.toNat t o d.rows.toNat d.cols.toNat
  ((grid d.x).zip ((grid d.y).zip (grid d.z))).map fun r => (r.1.zip (r.2.1.zip r.2.2)).map fun p =>
    vuStore d.d.fmt.toNat d.ovf (fvAdd (fvMul p.1 p.2.1) p.2.2)

/-- FMA: D = X × Y + Z with one rounding. -/
def execFma (c : Issue) (d : VuDesc) (s : State) : Host.Outcome State Fault Refusal :=
  vuClause s c (.vu 0x07 false d) 0x07 vuPlain d true true fun s => vuResult s c d (fmaOuts s c d)

/-- The seat slot whose vectors row `i` of INFL takes: SEAT, or the row-group map's (R205). -/
def inflSlot (c : Issue) (w : InflWords) (i : Nat) : Nat :=
  if c.seat = 0x3FF then (w.rgmap.getD (i / 16) 0x3FF#16).toNat else c.seat.toNat

/-- The elements that INFL stores. -/
def inflOuts (s : State) (c : Issue) (d : VuDesc) (w : InflWords) : List (List VuOut) :=
  let g := c.gal.toNat
  let cols := d.cols.toNat
  let xs := vuVals s g (s.seatAt g c.seat.toNat) d.x d.rows.toNat cols
  (List.range xs.length).map fun i =>
    let slot := inflSlot c w i
    let ent := inflEntry s g w.inflOff.toNat w.inflStride.toNat w.inflCh0.toNat slot (s.inflected (s.seatAt g slot)) cols
    ((xs.getD i []).zip ent).map fun p =>
      vuStore d.d.fmt.toNat d.ovf (fvAdd (fvMul p.2.1 p.1) p.2.2)

/-- The inflection entries that an INFL reads lie within scratchpad (R205, Table 1-1). -/
def inflRead (s : State) (c : Issue) (d : VuDesc) (w : InflWords) : Bool :=
  inflInside s c.gal.toNat w.inflOff.toNat w.inflStride.toNat w.inflCh0.toNat d.cols.toNat
    ((List.range d.rows.toNat).map (inflSlot c w))

/-- What check 0x07 asks of an INFL beside the common words: a row-group map of seat slots and 0x3FF (R205, R217). -/
def inflRules (seat rows : Nat) (w : InflWords) : List (Bool × Nat × Nat) :=
  if seat = 0x3FF then (decide (ceilDiv rows 16 ≤ w.rgmap.length), w.rgmap.length, 0) ::
    w.rgmap.map fun x => (decide (x.toNat < 512) || x == 0x3FF, x.toNat, 511)
  else []

/-- INFL: D = RNE(s × X + b), s and b of each row's seat (R205). -/
def execInfl (c : Issue) (d : VuDesc) (w : InflWords) (s : State) : Host.Outcome State Fault Refusal :=
  vuClause s c (.infl d w) 0x08 (inflExtra c.seat.toNat d w) d (firstFail (inflRules c.seat.toNat d.rows.toNat w)).isNone (inflRead s c d w) fun s =>
    vuResult s c d (inflOuts s c d w)

/-! ### Reductions (R200 to R204) -/

/-- The elements of each output's range, in the order of index i, from the grid. -/
def vuRanges {β : Type} (axis : Nat) (grid : List (List β)) (blank : β) : List (List β) :=
  match axis with
  | 1 => grid
  | 2 => (List.range (grid.headD []).length).map fun j => grid.map fun row => row.getD j blank
  | _ => [grid.flatten]

/-- The outputs of a reduction as a grid of D: a column for AXIS 1, a row for AXIS 2, one element for AXIS 3. -/
def vuShapeOut (axis : Nat) (outs : List VuOut) : List (List VuOut) :=
  if axis = 1 then outs.map fun o => [o] else [outs]

/-- The elements of lane l: indices l, l + 512, ... -/
def laneOf (xs : List Fv) (l : Nat) : List Fv :=
  (List.range (ceilDiv (xs.length - l) 512)).map fun k => xs.getD (l + 512 * k) pz

/-- One lane of a fast reduction (R201). -/
def laneSum (xs : List Fv) : Fv × Fv :=
  xs.foldl (fun p x =>
    let (h, t) := twoSum p.1 x
    (h, if fvFinite h then rne32 (fvAdd p.2 t) else pz)) (pz, pz)

/-- DWADD of the reduction tree: an infinity takes rests of +0 (R172, R201). -/
def treeDw (a b : Fv × Fv) : Fv × Fv :=
  if fvFinite a.1 && fvFinite b.1 then
    let r := dwAdd a b
    if fvFinite r.1 then r else (r.1, pz)
  else (rne32 (fvAdd a.1 b.1), pz)

/-- A level of the lane tree. -/
def pairUp (f : Fv × Fv → Fv × Fv → Fv × Fv) : List (Fv × Fv) → List (Fv × Fv)
  | a :: b :: rest => f a b :: pairUp f rest
  | l => l

/-- The 9 levels of the lane tree. -/
def pairLevels (f : Fv × Fv → Fv × Fv → Fv × Fv) : Nat → List (Fv × Fv) → Fv × Fv
  | 0, l => l.headD (pz, pz)
  | n + 1, l => pairLevels f n (pairUp f l)

/-- The pair of a fast sum over an output's range (R201). -/
def fastSum (xs : List Fv) : Fv × Fv :=
  pairLevels treeDw 9 ((List.range 512).map fun l => laneSum (laneOf xs l))

/-- A pair stored: FMT 8 the pair itself, else RNE(hi + lo) in one rounding (R201). -/
def pairStore (fmt : Nat) (ovf : Bool) (p : Fv × Fv) : VuOut :=
  if fmt = 8 then
    let h := fpRound fp32 ovf p.1
    ⟨bytesOfNat 4 h.enc ++ bytesOfNat 4 (if fvFinite p.1 then (fpRound fp32 ovf p.2).enc else 0), false, false⟩
  else vuStore fmt ovf (if fvFinite p.1 then fvAdd p.1 p.2 else p.1)

/-- The outputs of a reduction of values along AXIS. -/
def reduceOuts (s : State) (c : Issue) (d : VuDesc) (f : List Fv → VuOut) : List (List VuOut) :=
  let t := s.seatAt c.gal.toNat c.seat.toNat
  let xs := vuVals s c.gal.toNat t d.x d.rows.toNat d.cols.toNat
  vuShapeOut d.axis.toNat ((vuRanges d.axis.toNat xs pz).map f)

/-- A fast reduction of values along AXIS (its corners, DEDUCED: log entry 81). -/
def vuReduce (s : State) (c : Issue) (d : VuDesc) (f : List Fv → VuOut) : State := vuResult s c d (reduceOuts s c d f)

/-- RSUM: the sum along AXIS (R201). -/
def execRsum (c : Issue) (d : VuDesc) (s : State) : Host.Outcome State Fault Refusal :=
  vuClause s c (.vu 0x10 false d) 0x10 vuPlain d true true fun s => vuReduce s c d fun xs => pairStore d.d.fmt.toNat d.ovf (fastSum xs)

/-- RSUMSQ: the sum of the squares, each rounded to FP32 (R201). -/
def execRsumsq (c : Issue) (d : VuDesc) (s : State) : Host.Outcome State Fault Refusal :=
  vuClause s c (.vu 0x11 false d) 0x11 vuPlain d true true fun s => vuReduce s c d fun xs =>
    pairStore d.d.fmt.toNat d.ovf (fastSum (xs.map fun x => rne32 (fvMul x x)))

/-- RMAX: the maximum along AXIS (R201). -/
def execRmax (c : Issue) (d : VuDesc) (s : State) : Host.Outcome State Fault Refusal :=
  vuClause s c (.vu 0x12 false d) 0x12 vuPlain d true true fun s => vuReduce s c d fun xs =>
    vuStore d.d.fmt.toNat d.ovf (xs.foldl fvMax (.inf true))

/-- RMIN: the minimum along AXIS (R201). -/
def execRmin (c : Issue) (d : VuDesc) (s : State) : Host.Outcome State Fault Refusal :=
  vuClause s c (.vu 0x13 false d) 0x13 vuPlain d true true fun s => vuReduce s c d fun xs =>
    vuStore d.d.fmt.toNat d.ovf (xs.foldl fvMin (.inf false))

/-- `a` ranks strictly above `b` in TOPK: larger value, NaN below −infinity (R202). -/
def topAbove (a b : Fv) : Bool := if b = .nan then a != .nan else fvLt b a

/-- A candidate put into a list in descending order, after its equals. -/
def topInsert (x : Fv × Nat × Nat) : List (Fv × Nat × Nat) → List (Fv × Nat × Nat)
  | [] => [x]
  | y :: ys => if topAbove x.1 y.1 then x :: y :: ys else y :: topInsert x ys

/-- The K largest of a range as (value, raw element, index), in descending order, equal values by lower index; an I32 element or a pair
ranks by the FP32 value that R193 gives it (DEDUCED: log entry 53). -/
def topK (k fmt : Nat) (xs : List Nat) : List (Fv × Nat × Nat) :=
  ((List.range xs.length).foldl (fun acc i =>
    (topInsert (vuVal fmt (natAt xs i), natAt xs i, i) acc).take k) [])

/-- An element TOPK passes on: a finite pair's or an integer's own bits, a floating-point value by Table 4-5 and R108; a pair with a word
that is not finite is such a value in hi with lo = +0 (R185).  An element passed on with its own bits is no converted element of R129; a
floating-point one narrower than FP32 is (DESIGN CHOICE: log entry 113). -/
def topStore (fmt : Nat) (ovf : Bool) (v : Fv) (raw : Nat) : VuOut :=
  if 5 ≤ fmt ∧ (fmt ≠ 8 ∨ (fvFinite (fpDecode fp32 (raw % 0x100000000)) && fvFinite (fpDecode fp32 (raw / 0x100000000))))
  then ⟨bytesOfNat (vuBytes fmt) raw, false, false⟩ else vuStore fmt ovf v

/-- −infinity in a place past the end of a range: in a format with infinity that value in either mode, else by R202 (DEDUCED: log entry 54); the value it takes in an integer format or in E4M3 counts as a converted element and a saturation
(DESIGN CHOICE: log entry 113). -/
def topFill (fmt : Nat) (ovf : Bool) : VuOut := vuStore fmt (ovf || fmt != 3) (.inf true)

/-- What TOPK finds in each range. -/
def topRanges (s : State) (c : Issue) (d : VuDesc) : List (List (Fv × Nat × Nat)) :=
  (vuRanges d.axis.toNat (vuGrid s c.gal.toNat (s.seatAt c.gal.toNat c.seat.toNat) d.x d.rows.toNat d.cols.toNat) 0).map fun xs =>
    topK d.func.toNat d.x.fmt.toNat xs

/-- What TOPK finds as a grid: place i of each range. -/
def topShape (d : VuDesc) (tops : List (List (Fv × Nat × Nat))) (f : List (Fv × Nat × Nat) → Nat → VuOut) : List (List VuOut) :=
  if d.axis = 2 then (List.range d.func.toNat).map fun i => tops.map fun l => f l i
  else tops.map fun l => (List.range d.func.toNat).map (f l)

/-- The values that TOPK stores; −infinity past the end of a range. -/
def topVals (s : State) (c : Issue) (d : VuDesc) : List (List VuOut) :=
  topShape d (topRanges s c d) fun l i => match l[i]? with
    | some x => topStore d.x.fmt.toNat d.ovf x.1 x.2.1
    | none => topFill d.x.fmt.toNat d.ovf

/-- The indices that TOPK stores; 0xFFFF past the end of a range.  An AXIS 3 index above 65,535 is stored modulo 2^16 (DESIGN CHOICE: log entry 113). -/
def topIdxs (s : State) (c : Issue) (d : VuDesc) : List (List VuOut) :=
  topShape d (topRanges s c d) fun l i => match l[i]? with
    | some x => ⟨bytesOfNat 2 x.2.2, false, false⟩
    | none => ⟨bytesOfNat 2 0xFFFF, false, false⟩

/-- TOPK: the largest K along AXIS into D, their indices into Y (R202). -/
def execTopk (c : Issue) (d : VuDesc) (s : State) : Host.Outcome State Fault Refusal :=
  vuClause s c (.vu 0x14 false d) 0x14 vuPlain d true (d.y.ctx || (let (r, k) := vuDestShape 0x14 d
      let (o, p, n, b) := vuLines d.y r k; extentOk false o p n b)) fun s =>
    vuResult (vuWrite s c.gal.toNat (s.seatAt c.gal.toNat c.seat.toNat) d.y (topIdxs s c d)) c d (topVals s c d)

/-- One loaded element added to an exact accumulator: both words of a pair, an image whole (R184, R188, R193). -/
def xAddElem (fmt : Nat) (a : XAcc) (raw : Nat) : XAcc :=
  match fmt with
  | 8 => xAdd (xAdd a (fpDecode fp32 (raw % 0x100000000))) (fpDecode fp32 (raw / 0x100000000))
  | 9 => xJoin a (xOfImage (wordsOfBytes (bytesOfNat 64 raw)))
  | f => xAdd a (vuExact f raw)

/-- An accumulator written to D: the image, the double-word, or the value in one rounding (R185, R203). -/
def xStore (fmt : Nat) (ovf : Bool) (a : XAcc) : VuOut :=
  match fmt with
  | 9 => ⟨imageBytes a, false, false⟩
  | 8 => let (h, l) := xPair ovf a; ⟨h.bytes ++ l.bytes, false, false⟩
  | 10 => let (i, x) := toInt 0 65535 (xValue a); ⟨bytesOfNat 2 (intBits 2 i), true, x⟩
  | f => vuStore f ovf (xValue a)

/-- The outputs of an exact sum: each its range's, from its image in Z when ACC_IN is 1 (R203, R204). -/
def exactOuts (s : State) (c : Issue) (d : VuDesc) (axis : Nat) (accIn : Bool) : List (List VuOut) :=
  let g := c.gal.toNat
  let t := s.seatAt g c.seat.toNat
  let ranges := vuRanges axis (vuGrid s g t d.x d.rows.toNat d.cols.toNat) 0
  let n := ranges.length
  let starts : List XAcc := if accIn then
      let (r, k) := if axis = 1 then (n, 1) else (1, n)
      ((vuGrid s g t d.z r k).flatten).map fun raw => xJoin xEmpty (xOfImage (wordsOfBytes (bytesOfNat 64 raw)))
    else List.replicate n xEmpty
  let sums := (starts.zip ranges).map fun p => p.2.foldl (xAddElem d.x.fmt.toNat) p.1
  vuShapeOut axis (sums.map (xStore d.d.fmt.toNat d.ovf))

/-- The exact sums stored, and their additions counted. -/
def vuExactSum (s : State) (c : Issue) (d : VuDesc) (axis : Nat) (accIn : Bool) : State :=
  let g := c.gal.toNat
  let t := s.seatAt g c.seat.toNat
  let adds := d.rows.toNat * d.cols.toNat * (if d.x.fmt = 8 then 2 else 1)
  (vuResult s c d (exactOuts s c d axis accIn)).tally ⟨0x20 * g + 16 + c.unit.toNat, 3, 7, t.map (·.inst), seatTag t, 0xFF, none, adds⟩

/-- XRED: the exact sum along AXIS (R203). -/
def execXred (c : Issue) (d : VuDesc) (accIn : Bool) (s : State) : Host.Outcome State Fault Refusal :=
  vuClause s c (.vu 0x20 accIn d) 0x20 { vuPlain with accIn := accIn } d true true fun s => vuExactSum s c d d.axis.toNat accIn

/-- XCOMB: the exact sum of the P rows of each column (R204). -/
def execXcomb (c : Issue) (d : VuDesc) (accIn : Bool) (s : State) : Host.Outcome State Fault Refusal :=
  vuClause s c (.vu 0x21 accIn d) 0x21 { vuPlain with accIn := accIn } d true true fun s => vuExactSum s c d 2 accIn

/-! ### Expert routing (R206 to R211) -/

/-- The slice of a token row: the place of its row group's seat in the slice table. -/
def tokenSlice (w : RouteWords) (t : Nat) : Option Nat :=
  let seat := w.rgmap.getD (t / 16) 0x3FF#16
  if seat = 0x3FF then none else w.slices.findIdx? (· == seat)

/-- Where a choice goes (Table 7-6). -/
inductive Dest where
  | buffer (pos : Nat)
  | overflow (pos : Nat)
  | dropped
  | nothing
  deriving DecidableEq, Repr

/-- One allotted choice: token row, rank, expert less E0, slice, destination. -/
structure Choice where
  token : Nat
  rank : Nat
  exp : Nat
  slice : Nat
  dest : Dest
  deriving DecidableEq, Repr

/-- The choices of one slice and expert in ascending (rank, token row), allotted to buffer rows, overflow rows, then
dropped (R207). -/
def allot (w : RouteWords) (slice exp : Nat) (picks : List (Nat × Nat)) : List Choice :=
  let cap := 16 * w.cap16.toNat
  let ocap := 16 * w.ocap16.toNat
  (List.range picks.length).map fun i =>
    let (rank, token) := picks.getD i (0, 0)
    ⟨token, rank, exp, slice, if i < cap then .buffer i else if i < cap + ocap then .overflow (i - cap) else .dropped⟩

/-- Every choice in range of COMPRESS, allotted; `ys` are the rows of choices. -/
def allotAll (w : RouteWords) (ys : List (List Nat)) : List Choice :=
  (List.range w.slices.length).flatMap fun j => (List.range w.e.toNat).flatMap fun e =>
    allot w j e ((List.range w.kc.toNat).flatMap fun k => (List.range ys.length).filterMap fun t =>
      if tokenSlice w t = some j ∧ natAt (ys.getD t []) k = w.e0.toNat + e ∧ natAt (ys.getD t []) k ≠ 0xFFFF
      then some (k, t) else none)

/-- The map word of a choice (Table 7-6); EXP of a choice outside the range is free, and SLICE of a token that no slice takes. -/
def mapWord (free : Nat) (w : RouteWords) (choices : List Choice) (t k : Nat) : Word :=
  match choices.find? fun c => c.token == t && c.rank == k with
  | some c =>
    let (dest, pos) := match c.dest with
      | .buffer p => (0, p)
      | .overflow p => (1, p)
      | .dropped => (2, 0)
      | .nothing => (3, 0)
    wordOf (dest * 2 ^ 30 + c.exp * 2 ^ 23 + c.slice * 2 ^ 18 + pos)
  | none => wordOf (3 * 2 ^ 30 + free % 128 * 2 ^ 23 + ((tokenSlice w t).getD (free / 128)) % 32 * 2 ^ 18)

/-- The ABS ranges of COMPRESS and EXPAND: each expert's buffer and MAP, as (offset, pitch, count, bytes). -/
def routeBuffers (off pitch row : Nat) (w : RouteWords) : List (Nat × Nat × Nat × Nat) :=
  (List.range w.e.toNat).map fun e => (off + e * w.bufStride.toNat, pitch, 16 * w.cap16.toNat * w.slices.length, row)

/-- MAP as one line. -/
def routeMap (rows : Nat) (w : RouteWords) : Nat × Nat × Nat × Nat := (w.mapOff.toNat, 0, 1, rows * w.kc.toNat * 4)

/-- Two families of lines overlap. -/
def linesOverlap (a b : Nat × Nat × Nat × Nat) : Bool :=
  strideOverlap a.1 a.2.1 a.2.2.1 a.2.2.2 b.1 b.2.1 b.2.2.1 b.2.2.2

/-- No two of a list of line families overlap. -/
def disjointLines : List (Nat × Nat × Nat × Nat) → Bool
  | [] => true
  | a :: rest => rest.all (fun b => !linesOverlap a b) && disjointLines rest

/-- A family of lines lies within scratchpad. -/
def lineInside (a : Nat × Nat × Nat × Nat) : Bool := extentOk false a.1 a.2.1 a.2.2.1 a.2.2.2

/-- No ABS destination of COMPRESS overlaps a source or another destination (R206); NEED is D_OFF for a buffer that meets a source, BUF_STRIDE for
buffers that meet each other, MAP_OFF for MAP (R217; DEDUCED: log entry 84). -/
def compressDisjoint (d : VuDesc) (w : RouteWords) : List (Bool × Nat × Nat) :=
  let rows := d.rows.toNat
  let row := d.cols.toNat * vuBytes d.x.fmt.toNat
  let buffers := if d.d.ctx then [] else routeBuffers d.d.off.toNat d.d.pitch.toNat row w
  let map := routeMap rows w
  let srcs := (if d.x.ctx then [] else [vuLines d.x rows d.cols.toNat]) ++
    (if d.y.ctx then [] else [vuLines d.y rows w.kc.toNat])
  [(buffers.all fun a => srcs.all fun b => !linesOverlap a b, d.d.off.toNat, 0), (disjointLines buffers, w.bufStride.toNat, 0),
    ((buffers ++ srcs).all fun b => !linesOverlap map b, w.mapOff.toNat, 0)]

/-- No ABS destination of EXPAND overlaps a source; D may coincide with X (R196, R206). -/
def expandDisjoint (d : VuDesc) (w : RouteWords) : Bool :=
  let rows := d.rows.toNat
  let row := d.cols.toNat * vuBytes d.z.fmt.toNat
  d.d.ctx ||
    (let dl := vuLines d.d rows d.cols.toNat
     let srcs := (if d.y.ctx then [] else [vuLines d.y rows w.kc.toNat]) ++
       (if w.expSrc then [] else (if d.z.ctx then [] else routeBuffers d.z.off.toNat d.z.pitch.toNat row w) ++ [routeMap rows w])
     !vuOverlap d.d rows d.cols.toNat d.x rows d.cols.toNat && srcs.all fun b => !linesOverlap dl b)

/-- What check 0x07 asks of COMPRESS (0x30) and EXPAND (0x31) beside the common words: the ranges of Table 7-5, a row-group map whose seats
stand in the slice table (0x3FF names no seat: its rows go to no slice, DESIGN CHOICE: log entry 114), Y's format, the one seat of EXP_SRC 1, no overlap (R206, R209, R217). -/
def routingRules (op seat : Nat) (d : VuDesc) (w : RouteWords) : List (Bool × Nat × Nat) :=
  let groups := ceilDiv d.rows.toNat 16
  [(decide (1 ≤ w.kc.toNat ∧ w.kc.toNat ≤ 8), w.kc.toNat, 8), (decide (1 ≤ w.e.toNat ∧ w.e.toNat ≤ 128), w.e.toNat, 128),
    (decide (1 ≤ w.cap16.toNat ∧ w.cap16.toNat ≤ 64), w.cap16.toNat, 64), (decide (w.ocap16.toNat ≤ 64), w.ocap16.toNat, 64),
    (decide (1 ≤ w.slices.length ∧ w.slices.length ≤ 32), w.slices.length, 32),
    (decide (groups ≤ w.rgmap.length), w.rgmap.length, 0)]
    ++ (w.rgmap.take groups).flatMap (fun x => [(decide (x.toNat < 512) || x == 0x3FF, x.toNat, 511),
      (x == 0x3FF || w.slices.contains x, x.toNat, 0)])
    ++ w.slices.map (fun x => (decide (x.toNat < 512), x.toNat, 511))
    ++ [if op = 0x30 then (d.y.fmt == 10, d.y.fmt.toNat, 10) else (d.y.fmt == 0, d.y.fmt.toNat, 0),
      (!(op == 0x31 && w.expSrc) || seat != 0x3FF, seat, 511),
      (op == 0x30 || expandDisjoint d w, d.d.off.toNat, 0)] ++ if op = 0x30 then compressDisjoint d w else []

/-- The bytes of a token row: its elements, unconverted. -/
def rowBytesOf (fmt : Nat) (row : List Nat) : List Byte := row.flatMap fun v => bytesOfNat (vuBytes fmt) v

/-- What COMPRESS does once issued: buffers, overflow rows, maps, counts and its status (its corners, DEDUCED: log entry 82). -/
def compressRun (c : Issue) (d : VuDesc) (w : RouteWords) (s0 : State) : State :=
  let rows := d.rows.toNat
  let row := d.cols.toNat * vuBytes d.x.fmt.toNat
  let (free, s) := s0.free
  let g := c.gal.toNat
  let v := c.unit.toNat
  let t := s.seatAt g c.seat.toNat
  let xs := vuGrid s g t d.x rows d.cols.toNat
  let ys := vuGrid s g t d.y rows w.kc.toNat
  let choices := allotAll w ys
  let cap := 16 * w.cap16.toNat
  let ocap := 16 * w.ocap16.toNat
  let kc := w.kc.toNat
  let src := fun (want : Choice → Bool) => match choices.find? want with
    | some x => rowBytesOf d.x.fmt.toNat (xs.getD x.token [])
    | none => List.replicate row 0
  let seatOf := fun (j : Nat) => s.seatAt g (w.slices.getD j 0x3FF#16).toNat
  let s1 := (List.range w.e.toNat).foldl (fun u e => (List.range w.slices.length).foldl (fun u j =>
    let u1 := (List.range cap).foldl (fun u p =>
      u.opWrite g d.d.ctx t (d.d.off.toNat + e * w.bufStride.toNat + (cap * j + p) * d.d.pitch.toNat)
        (src fun x => x.exp == e && x.slice == j && x.dest == .buffer p)) u
    (List.range ocap).foldl (fun u p =>
      u.opWrite g true (seatOf j) (w.ovfOff.toNat + e * ocap * d.d.pitch.toNat + p * d.d.pitch.toNat)
        (src fun x => x.exp == e && x.slice == j && x.dest == .overflow p)) u1) u) s
  let mapAt := fun t => (List.range kc).flatMap fun k => (mapWord free w choices t k).bytes
  let s2 := (List.range rows).foldl (fun u t => u.spWrite g (w.mapOff.toNat + 4 * kc * t) (mapAt t)) s1
  let s3 := (List.range w.slices.length).foldl (fun u j =>
    let mine := (List.range rows).filter fun t => tokenSlice w t == some j
    u.opWrite g true (seatOf j) w.omapOff.toNat (mine.flatMap mapAt)) s2
  let count := fun (j : Option Nat) (spilled : Bool) => choices.countP fun x =>
    (j.isNone || j == some x.slice) && (match x.dest with
      | .overflow _ => spilled
      | .dropped => !spilled
      | _ => false)
  let s4 := (List.range w.slices.length).foldl (fun u j =>
    match seatOf j with
    | some st =>
      let sp := count (some j) true
      let dr := count (some j) false
      let ev := fun event n => (⟨0x20 * g + 16 + v, event, 7, some st.inst, some (st.stream, st.cls), 0xFF, none, n⟩ : CntEv)
      ((u.pendPut (.spill g v st.handle sp dr (decide (0 < sp)))).tally (ev 4 sp)).tally (ev 5 dr)
    | none => u) s3
  vuStatus s4 g d 0 (wordOf (satAdd 16 (count none true) 0 * 65536 + satAdd 16 (count none false) 0))

/-- COMPRESS: token rows packed by expert into buffers sliced by seat (R206 to R208). -/
def execCompress (c : Issue) (d : VuDesc) (w : RouteWords) (s : State) : Host.Outcome State Fault Refusal :=
  let rows := d.rows.toNat
  let row := d.cols.toNat * vuBytes d.x.fmt.toNat
  vuClause s c (.route 0x30 d w) 0x30 (compressExtra d w) d (firstFail (routingRules 0x30 c.seat.toNat d w)).isNone
    ((d.d.ctx || (routeBuffers d.d.off.toNat d.d.pitch.toNat row w).all lineInside) && lineInside (routeMap rows w)
      && (d.y.ctx || lineInside (vuLines d.y rows w.kc.toNat))) (compressRun c d w)

/-- The elements that EXPAND stores: X and each kept choice's gate times its row; an overflow on the way is an infinity and only the store to D
follows OVF, as R209 writes D by R193 (its corners, DEDUCED: log entry 82). -/
def expandOuts (s : State) (c : Issue) (d : VuDesc) (w : RouteWords) : List (List VuOut) :=
  let rows := d.rows.toNat
  let cols := d.cols.toNat
  let zrow := cols * vuBytes d.z.fmt.toNat
  let g := c.gal.toNat
  let t := s.seatAt g c.seat.toNat
  let kc := w.kc.toNat
  let xs := vuVals s g t d.x rows cols
  let gates := vuVals s g t d.y rows kc
  let mine := (List.range rows).filter fun r => (w.rgmap.getD (r / 16) 0x3FF#16).toNat == c.seat.toNat
  let wordsAt := fun (r : Nat) => if w.expSrc then
      match mine.findIdx? (· == r) with
      | some i => numsOf 4 kc (s.opRead g true t (w.omapOff.toNat + 4 * kc * i) (4 * kc))
      | none => []
    else numsOf 4 kc (memRead s.mem.sp (spKey g (w.mapOff.toNat + 4 * kc * r)) (4 * kc))
  let outRow := fun (m : Nat) =>
    let e := m / 2 ^ 23 % 128
    let j := m / 2 ^ 18 % 32
    let pos := m % 1024
    let off := if w.expSrc then d.z.off.toNat + (e * 16 * w.ocap16.toNat + pos) * d.z.pitch.toNat
      else d.z.off.toNat + e * w.bufStride.toNat + (16 * w.cap16.toNat * j + pos) * d.z.pitch.toNat
    (numsOf (vuBytes d.z.fmt.toNat) cols (s.opRead g (w.expSrc || d.z.ctx) t off zrow)).map (vuVal d.z.fmt.toNat)
  (List.range rows).map fun r =>
    let ms := wordsAt r
    let acc := (List.range ms.length).foldl (fun acc k =>
      let m := natAt ms k
      if m / 2 ^ 30 = (if w.expSrc then 1 else 0) then
        let gate := (gates.getD r []).getD k pz
        (acc.zip (outRow m)).map fun p => rne32 (fvAdd p.1 (fvMul gate p.2))
      else acc) (xs.getD r [])
    acc.map (vuStore d.d.fmt.toNat d.ovf)

/-- EXPAND: expert outputs added back to token rows in ascending rank, one rounding a step (R209). -/
def execExpand (c : Issue) (d : VuDesc) (w : RouteWords) (s : State) : Host.Outcome State Fault Refusal :=
  let rows := d.rows.toNat
  let cols := d.cols.toNat
  let zrow := cols * vuBytes d.z.fmt.toNat
  vuClause s c (.route 0x31 d w) 0x31 (expandExtra c.seat.toNat d w) d (firstFail (routingRules 0x31 c.seat.toNat d w)).isNone
    ((w.expSrc || (d.z.ctx || (routeBuffers d.z.off.toNat d.z.pitch.toNat zrow w).all lineInside) && lineInside (routeMap rows w))
      && (d.y.ctx || lineInside (vuLines d.y rows w.kc.toNat))) fun s => vuResult s c d (expandOuts s c d w)


/-! ### SOLVE_SPD (R212 to R214) -/


/-- A sum of exact products, each rounded to FP32, added in the sequential A32C form from (first term, +0) and
rounded once (R213) (its corners, DEDUCED: log entry 82). -/
def solveSum (ps : List (Fv × Fv)) : Fv :=
  match ps.map fun p => rne32 (fvMul p.1 p.2) with
  | [] => pz
  | x :: xs =>
    let r := xs.foldl (fun p y =>
      let (h, t) := twoSum p.1 y
      (h, if fvFinite h then rne32 (fvAdd p.2 t) else pz)) (x, pz)
    if fvFinite r.1 then rne32 (fvAdd r.1 r.2) else r.1

/-- An element of a matrix held by rows. -/
def matAt (m : List (List Fv)) (i j : Nat) : Fv := (m.getD i []).getD j pz

/-- A factorisation: the columns of L so far (each from its diagonal down), the smallest pivot value, or the failing
pivot and its value. -/
abbrev Factor := Except (Nat × Fv) (List (List Fv) × Fv)

/-- l[i][j] of the columns so far: column j lists rows j, j + 1, ... -/
def colAt (cols : List (List Fv)) (i j : Nat) : Fv := (cols.getD j []).getD (i - j) pz

/-- The factorisation from column `j`, `n` columns left (R213) (its corners, DEDUCED: log entry 82). -/
def factorFrom (a : List (List Fv)) (order : Nat) (thresh : Fv) : (n j : Nat) → List (List Fv) → Fv → Factor
  | 0, _, cols, dmin => .ok (cols, dmin)
  | n + 1, j, cols, dmin =>
    let d := rne32 (fvSub (matAt a j j) (solveSum ((List.range j).map fun k => (colAt cols j k, colAt cols j k))))
    if !(fvLt thresh d) then .error (j, d)
    else
      let root := rne32 (fvSqrt d)
      let below := (List.range (order - j - 1)).map fun x =>
        let i := j + 1 + x
        rne32 (fvDiv (rne32 (fvSub (matAt a i j)
          (solveSum ((List.range j).map fun k => (colAt cols i k, colAt cols j k))))) root)
      factorFrom a order thresh n (j + 1) (cols ++ [root :: below])
        (if j = 0 then d else if fvLt d dmin then d else dmin)

/-- Forward substitution on one column of B. -/
def solveDown (cols : List (List Fv)) : (n i : Nat) → (b ys : List Fv) → List Fv
  | 0, _, _, ys => ys
  | n + 1, i, b, ys =>
    let y := rne32 (fvDiv (rne32 (fvSub (b.getD i pz)
      (solveSum ((List.range i).map fun k => (colAt cols i k, ys.getD k pz))))) (colAt cols i i))
    solveDown cols n (i + 1) b (ys ++ [y])

/-- Back substitution; `xs` holds the values of the rows below `i`, nearest first. -/
def solveUp (cols : List (List Fv)) (order : Nat) : (i : Nat) → (ys xs : List Fv) → List Fv
  | 0, _, xs => xs
  | i + 1, ys, xs =>
    let x := rne32 (fvDiv (rne32 (fvSub (ys.getD i pz)
      (solveSum ((List.range (order - i - 1)).map fun k => (colAt cols (i + 1 + k) i, xs.getD k pz))))) (colAt cols i i))
    solveUp cols order i ys (x :: xs)

/-- What check 0x07 asks of a SOLVE_SPD beside the common words: its words in their ranges, FP32 operands, D apart from X and, unless it
coincides with it, from Y (R196, R212, R217). -/
def solveRules (d : VuDesc) (w : SolveWords) : List (Bool × Nat × Nat) :=
  let n := w.n.toNat
  let r := w.r.toNat
  let fp := fun (o : VuOperand) => (o.fmt == 0, o.fmt.toNat, 0)
  [(decide (1 ≤ n ∧ n ≤ 256), n, 256), (decide (1 ≤ r ∧ r ≤ 256), r, 256), (decide (w.thresh.toNat < 0x7F800000), w.thresh.toNat, 0x7F7FFFFF),
    (decide (0x00800000 ≤ w.lambda.toNat ∧ w.lambda.toNat < 0x7F800000), w.lambda.toNat, 0x7F7FFFFF),
    (w.wsOff.toNat % 64 == 0, w.wsOff.toNat, w.wsOff.toNat / 64 * 64), fp d.x, fp d.y, fp d.d,
    (!vuOverlap d.d n r d.x n n, d.d.off.toNat, 0), (!vuOverlap d.d n r d.y n r, d.d.off.toNat, 0)]

/-- What SOLVE_SPD does once issued: the factorisation, the solution, the workspace and the status (R213 to R215) (its corners, DEDUCED: log entry 82). -/
def solveRun (c : Issue) (d : VuDesc) (w : SolveWords) (s0 : State) : State :=
  let n := w.n.toNat
  let r := w.r.toNat
  let (free, s) := s0.free
  let g := c.gal.toNat
  let t := s.seatAt g c.seat.toNat
  let a := vuVals s g t d.x n n
  let b := vuVals s g t d.y n r
  let thresh := f32 w.thresh
  let run := fun (m : List (List Fv)) => factorFrom m n thresh n 0 [] pz
  let damped := (List.range n).map fun i => (List.range n).map fun j =>
    if i = j then rne32 (fvAdd (matAt a i i) (f32 w.lambda)) else matAt a i j
  let first := run a
  let (res, again) : Factor × Bool := match first with
    | .ok x => (.ok x, false)
    | .error e => if w.damp then (run damped, true) else (.error e, false)
  -- the workspace is undefined afterwards: free bytes (R214)
  let s1 := s.spWrite g w.wsOff.toNat (bytesOfNat (4 * n * (n + r)) free)
  let note := fun (u : State) (bad : Bool) => u.pendPut (.solve g c.unit.toNat (t.map (·.handle)) bad again)
  match res with
  | .error (p, v) => note (vuStatus s1 g d (wordOf (0x24 * 2 ^ 24 + b2n again * 2 ^ 23 + p)) (toF32 d.ovf v)) true
  | .ok (cols, dmin) =>
    let xcols := (List.range r).map fun k =>
      solveUp cols n n (solveDown cols n 0 (b.map fun row => row.getD k pz) []) []
    let outs := (List.range n).map fun i => xcols.map fun x => vuStore d.d.fmt.toNat d.ovf (x.getD i pz)
    let s2 := vuCal (vuWrite s1 g t d.d outs) c d outs
    let s3 := if w.lOff = 0xFFFFFFFF then s2 else (List.range n).foldl (fun u i =>
      u.spWrite g (w.lOff.toNat + 4 * n * i) ((List.range (i + 1)).flatMap fun j => (toF32 d.ovf (colAt cols i j)).bytes)) s2
    note (vuStatus s3 g d (wordOf (b2n again * 2 ^ 23)) (toF32 d.ovf dmin)) false

/-- SOLVE_SPD: A·X = B for a symmetric positive definite A (R212 to R215). -/
def execSolveSpd (c : Issue) (d : VuDesc) (w : SolveWords) (s : State) : Host.Outcome State Fault Refusal :=
  let n := w.n.toNat
  let r := w.r.toNat
  let d' := { d with rows := BitVec.ofNat 16 n, cols := BitVec.ofNat 16 r }
  vuClause s c (.solve d w) 0x40 (solveExtra w) d' (firstFail (solveRules d w)).isNone
    (extentOk false w.wsOff.toNat 0 1 (4 * n * (n + r)) && (w.lOff == 0xFFFFFFFF || extentOk false w.lOff.toNat 0 1 (4 * n * n))
      && (d.x.ctx || lineInside (vuLines d.x n n))) (solveRun c d w)

end Sys2Proof.Machine
end

