-- ==== Sys2Proof/Machine/Update.lean ====
section
/-! DEFINITION. The update: SIGN_UPDATE on the vector units, UPDATE and PUBLISH in the stacks (R262 to R269). -/

namespace Sys2Proof.Machine

/-! ### One parameter (R263, R264) -/

/-- The parameter registers: η, λ, β1, β2, ω1, ω2 and κ of a step block (Table 9-4). -/
structure StepRegs where
  eta : Fv
  lambda : Fv
  beta1 : Fv
  beta2 : Fv
  omega1 : Fv
  omega2 : Fv
  kappa : Fv
  deriving DecidableEq, Repr

/-- The registers of a step block's words. -/
def stepRegs (ws : List Word) : StepRegs :=
  let w := fun i => f32 (wordAt ws i)
  ⟨w 0, w 1, w 2, w 3, w 4, w 5, w 6⟩

/-- What the update of one parameter gives: the record written, whether the parameter is non-finite, and the three
squares of R269; `sat` says that SERVE saturated in its conversion (R129). -/
structure Updated where
  master : Nat
  serve : Nat
  sat : Bool
  moment : Nat
  nonfin : Bool
  w2 : Fv
  g2 : Fv
  u2 : Fv
  deriving DecidableEq, Repr

/-- The sign of the third step: ±1, or 0 for ±0. -/
def signOf (c : Fv) : Fv := if fvZero c then pz else fvOfInt (if fvNeg c then -1 else 1)

/-- The update of one parameter from its gradient, MASTER and MOMENT (R263, R264). -/
def updateOne (r : StepRegs) (gBits wBits mBits : Nat) : Updated :=
  let g := fpDecode fp32 gBits
  let w := fpDecode fp32 wBits
  let m := fpDecode bf16 mBits
  let gsq := fpRound fp32 true (fvMul g g)
  let gOk := fvFinite g && !gsq.ovfl
  let stOk := fvFinite w && fvFinite m
  let gk := rne32 (fvMul r.kappa g)
  let c := rne32 (fvAdd (fvMul r.beta1 m) (fvMul r.omega1 gk))
  let w' := fpRound fp32 true (fvSub (fvSub w (fvMul r.eta (signOf c))) (fvMul (fvMul r.eta r.lambda) w))
  let m' := fpRound bf16 true (fvAdd (fvMul r.beta2 m) (fvMul r.omega2 gk))
  let newOk := !w'.ovfl && !m'.ovfl
  let ok := gOk && stOk && newOk
  let wn := if ok then w'.enc else wBits
  let mn := if ok then m'.enc else mBits
  let wv := fpDecode fp32 wn
  let gn := if !gOk && stOk then pz else g
  let sv := fpRound fp16 false wv
  { master := wn, serve := sv.enc, sat := sv.sat, moment := mn, nonfin := !ok,
    w2 := rne32 (fvMul wv wv), g2 := rne32 (fvMul gn gn),
    u2 := (let d := fvSub wv w; rne32 (fvMul d d)) }

/-- The eight bytes of a state record (Table 8-7). -/
def recordBytes (u : Updated) : List Byte :=
  bytesOfNat 4 u.master ++ bytesOfNat 2 u.moment ++ bytesOfNat 2 u.serve

/-- Parameters updated: gradients and records read. -/
def updateAll (r : StepRegs) (gs : List Nat) (recs : List Nat) : List Updated :=
  (gs.zip recs).map fun p => updateOne r p.1 (p.2 % 0x100000000) (p.2 / 0x100000000 % 65536)

/-! ### Norm areas and step summaries (R269) -/

/-- The area a clause adds into: what this tick's clauses left there, else what the pass holds, else empty (its corners, DEDUCED: log entry 76). -/
def State.areaWords (s : State) (h g off : Nat) : List Word :=
  let here := fun (a : AreaSum) => a.handle == h && a.gal == g && a.off == off
  let inTick := s.tk.pend.filterMap fun p => match p with | .area a => if here a then some a else none | _ => none
  match inTick.getLast? with
  | some a => a.words
  | none =>
    match (s.reqAt h).bind fun r => r.sums.find? here with
    | some a => a.words
    | none => []

/-- An image with values added, from 12 words (no words: empty). -/
def imageAdd (ws : List Word) (vs : List Fv) : List Word :=
  xImage (vs.foldl xAdd (if ws.isEmpty then xEmpty else xOfImage ws))

/-- An area's new words written to the next half and kept for the commit. -/
def State.areaPut (s : State) (c : Issue) (t : Seat) (norm : Bool) (index off : Nat) (words : List Word) : State :=
  let bytes := (if norm then
      ((words.take 12 ++ [0, 0, 0, 0]) ++ ((words.drop 12).take 12 ++ [0, 0, 0, 0]) ++ ((words.drop 24).take 12 ++ [0, 0, 0, 0]))
    else words.take 14 ++ [0, 0]).flatMap Word.bytes
  (s.opWrite c.gal.toNat true (some t) off bytes).pendPut (.area ⟨t.handle, c.gal.toNat, off, norm, index, words⟩)

/-- The three squares and the counts of a clause added into its norm entry and step summary; a clause with no request
has no areas (R58, R269) (its corners, DEDUCED: log entry 76). -/
def State.addNorms (s : State) (c : Issue) (layer normOff group sumOff : Nat) (us : List Updated) : State :=
  match s.seatAt c.gal.toNat c.seat.toNat with
  | none => s
  | some t =>
    let g := c.gal.toNat
    let nOff := normOff + 192 * layer
    let sOff := sumOff + 64 * group
    let n := s.areaWords t.handle g nOff
    let m := s.areaWords t.handle g sOff
    let s1 := s.areaPut c t true layer nOff
      (imageAdd (n.take 12) (us.map (·.w2)) ++ imageAdd ((n.drop 12).take 12) (us.map (·.g2))
        ++ imageAdd (n.drop 24) (us.map (·.u2)))
    s1.areaPut c t false group sOff
      (imageAdd (m.take 12) (us.map (·.g2))
        ++ [wordOf (satAdd 32 (wordAt m 12).toNat (us.countP (·.nonfin))), wordOf (satAdd 32 (wordAt m 13).toNat us.length)])

/-- Zeros added to a clause's areas (R87, R268). -/
def State.addZeros (s : State) (c : Issue) (layer normOff group sumOff : Nat) : State :=
  match s.seatAt c.gal.toNat c.seat.toNat with
  | none => s
  | some t =>
    let g := c.gal.toNat
    let nOff := normOff + 192 * layer
    let sOff := sumOff + 64 * group
    let keepOr := fun (ws : List Word) (n : Nat) => if ws.isEmpty then List.replicate n (0 : Word) else ws
    (s.areaPut c t true layer nOff (keepOr (s.areaWords t.handle g nOff) 36)).areaPut c t false group sOff
      (keepOr (s.areaWords t.handle g sOff) 14)

/-- A group's step block, in the current half of the seat's context (R266, Table 9-4). -/
def State.stepBlock (s : State) (g : Nat) (t : Option Seat) (off group : Nat) : StepRegs :=
  stepRegs (wordsOfBytes (s.opRead g true t (off + 32 * group) 32))

/-! ### SIGN_UPDATE (R265) -/

/-- What check 0x07 asks of a SIGN_UPDATE beside the common words (R256, R265). -/
def signRules (c : Issue) (d : VuDesc) (w : SignWords) : List (Bool × Nat × Nat) :=
  let n := 8 * d.rows.toNat * d.cols.toNat
  let down := fun (v : Word) => (v.toNat % 8 == 0, v.toNat, v.toNat / 8 * 8)
  [(c.stream == 2, 1, 0), (c.seat != 0x3FF, c.seat.toNat, 511), (d.x.fmt == 0, d.x.fmt.toNat, 0),
    (d.d.fmt == 15 || d.d.fmt == 2, d.d.fmt.toNat, 0), down w.recIn, down w.recOut,
    (!strideOverlap w.recIn.toNat 0 1 n w.recOut.toNat 0 1 n, w.recOut.toNat, 0)]

/-- A SIGN_UPDATE that admission passes. -/
def signOk (c : Issue) (d : VuDesc) (w : SignWords) : Bool := (firstFail (signRules c d w)).isNone

/-- What SIGN_UPDATE does once issued. -/
def signRun (c : Issue) (d : VuDesc) (w : SignWords) (s : State) : State :=
  let n := d.rows.toNat * d.cols.toNat
  let g := c.gal.toNat
  let t := s.seatAt g c.seat.toNat
  let gs := (vuGrid s g t d.x d.rows.toNat d.cols.toNat).flatten
  let recs := numsOf 8 n (s.opRead g false none w.recIn.toNat (8 * n))
  let us := updateAll (s.stepBlock g t w.gpOff.toNat w.group.toNat) gs recs
  let s1 := s.spWrite g w.recOut.toNat (us.flatMap recordBytes)
  let outs := (List.range d.rows.toNat).map fun i => ((us.drop (i * d.cols.toNat)).take d.cols.toNat).map fun u =>
    (⟨bytesOfNat 2 u.serve, true, u.sat⟩ : VuOut)
  let s2 := if d.d.fmt = 15 then s1 else vuCal (vuWrite s1 g t d.d outs) c d outs
  vuStatus (s2.addNorms c w.layer.toNat w.normOff.toNat w.group.toNat w.sumOff.toNat us) g d 0 0

/-- SIGN_UPDATE: the records of X's parameters updated, their serving copies at D, norms and summary (R263 to R265,
R269). -/
def execSignUpdate (c : Issue) (d : VuDesc) (w : SignWords) (s : State) : Host.Outcome State Fault Refusal :=
  let n := d.rows.toNat * d.cols.toNat
  vuClause s c (.sign d w) 0x09 (signExtra d) d (signOk c d w)
    (extentOk false w.recIn.toNat 0 1 (8 * n) && extentOk false w.recOut.toNat 0 1 (8 * n)) (signRun c d w)


/-! ### In-stack update engines (R87, R267, R268) -/


/-- An ISU clause is issued when the running program places it and the ISU is in service (R22). -/
def State.isuReady (s : State) (c : Issue) (o : Op) : Bool := s.issued 2 c o && s.isuUp c.gal.toNat c.unit.toNat

/-- What R256, R282 and R46 ask of an ISU clause: one seat, the U stream, at least one parameter. -/
def isuOk (c : Issue) (d : IsuDesc) : Bool := c.seat != 0x3FF && c.stream == 2 && decide (1 ≤ d.params.toNat)

/-- Where an ISU's addresses point: its stack's program space, or the planes of the slot that holds affix AFX, when that
slot lies on its stack (R268) (its corners, DEDUCED: log entry 71). -/
inductive IsuSpace where
  | stack (n : Nat)
  | slot (n cur : Nat)
  | nowhere
  deriving DecidableEq, Repr

/-- The space of an ISU clause (its corners, DEDUCED: log entry 71). -/
def State.isuSpace (s : State) (c : Issue) (d : IsuDesc) : IsuSpace :=
  let st := 2 * c.gal.toNat + c.unit.toNat
  if !d.named then .nowhere
  else if !d.amode then .stack st
  else
    match (s.seatAt c.gal.toNat c.seat.toNat).bind fun t => s.reqAt t.handle with
    | none => .nowhere
    | some r =>
      match r.affixes[d.afx.toNat]? with
      | none => .nowhere
      | some id =>
        match s.slotOf r.handle id with
        | some n => if slotStack n = st then .slot n (s.reqPlane r) else .nowhere
        | none => .nowhere

/-- `len` bytes at an offset of one area of an ISU's space: 0 current plane, 1 write plane, 2 gradients; a poisoned page of a stack reads +0 (R421). -/
def State.isuRead (s : State) (sp : IsuSpace) (area off len : Nat) : List Byte :=
  match sp with
  | .stack n => (pageRuns off len).flatMap fun r =>
      if s.pagePoisoned n (r.1 / 4096) then List.replicate r.2 0 else memRead s.mem.hbm (n * 0x1000000000 + r.1) r.2
  | .slot n cur => memRead s.mem.slot (slotKey n (if area = 2 then 2 else if area = 1 then 1 - cur else cur) off) len
  | .nowhere => List.replicate len 0

/-- Bytes written in the write plane of an ISU's space. -/
def State.isuWrite (s : State) (sp : IsuSpace) (off : Nat) (bs : List Byte) : State :=
  match sp with
  | .stack n => { s with mem := { s.mem with hbm := memWrite s.mem.hbm (n * 0x1000000000 + off) bs } }
  | .slot n cur => { s with mem := { s.mem with slot := memWrite s.mem.slot (slotKey n (1 - cur) off) bs } }
  | .nowhere => s

/-- Bytes of one stack's program space: half of a gallery's. -/
def stackSize : Nat := progSize / 2

/-- An area of an ISU clause lies within its space (its corners, DEDUCED: log entry 69). -/
def isuInside (sp : IsuSpace) (off len : Nat) : Bool :=
  match sp with
  | .stack _ => decide (off + len ≤ stackSize)
  | .slot _ _ => decide (off + len ≤ 0x40000000)
  | .nowhere => true

/-- What an ISU clause counts (Table 18-1). -/
def State.isuTally (s : State) (c : Issue) (params bytes : Nat) (acted : Bool) : State :=
  let b := 0x20 * c.gal.toNat + 20 + c.unit.toNat
  let t := s.seatAt c.gal.toNat c.seat.toNat
  let inst := t.map (·.inst)
  let s1 := s.tallyClause c b
  if !acted then s1
  else
    let slots := ceilDiv bytes 64
    let s2 := (s1.tally ⟨b, 2, 7, inst, seatTag t, 0xFF, none, params⟩).tally ⟨b, 3, 7, inst, seatTag t, 0xFF, none, slots⟩
    s2.tally ⟨0x20 * c.gal.toNat + 28 + c.unit.toNat, 3, 7, inst, seatTag t, c.stream.toNat, none, slots⟩

/-- UPDATE: PARAMS parameters updated inside the stack; a clause that no slot entry names, or whose slot is elsewhere,
moves nothing and adds zeros (R87, R267 to R269). -/
def execUpdate (c : Issue) (d : IsuDesc) (s : State) : Host.Outcome State Fault Refusal :=
  if !s.isuReady c (.isu 1 d) || !isuOk c d then keep s s
  else
    let n := d.params.toNat
    let sp := s.isuSpace c d
    let a := 64 * d.gAddr64.toNat
    let i := 64 * d.recIn64.toNat
    let o := 64 * d.recOut64.toNat
    if sp = .nowhere then
      keep s ((s.addZeros c d.layer.toNat d.normOff.toNat d.group.toNat d.sumOff.toNat).isuTally c n 0 false)
    else if !(isuInside sp a (4 * n) && isuInside sp i (8 * n) && isuInside sp o (8 * n)) then keep s s
    else
      let gs := numsOf 4 n (s.isuRead sp 2 a (4 * n))
      let recs := numsOf 8 n (s.isuRead sp 0 i (8 * n))
      let us := updateAll (s.stepBlock c.gal.toNat (s.seatAt c.gal.toNat c.seat.toNat) 0 d.group.toNat) gs recs
      let s1 := s.isuWrite sp o (us.flatMap recordBytes)
      keep s ((s1.addNorms c d.layer.toNat d.normOff.toNat d.group.toNat d.sumOff.toNat us).isuTally c n (20 * n) true)

/-- PUBLISH: the SERVE fields of PARAMS records of the write plane written to its serving weights (R267). -/
def execPublish (c : Issue) (d : IsuDesc) (s : State) : Host.Outcome State Fault Refusal :=
  if !s.isuReady c (.isu 2 d) || !isuOk c d then keep s s
  else
    let n := d.params.toNat
    let sp := s.isuSpace c d
    let o := 64 * d.recOut64.toNat
    let p := 64 * d.pub64.toNat
    if sp = .nowhere then keep s (s.isuTally c 0 0 false)
    else if !(isuInside sp o (8 * n) && isuInside sp p (2 * n)) then keep s s
    else
      let recs := numsOf 8 n (s.isuRead sp 1 o (8 * n))
      let s1 := s.isuWrite sp p (recs.flatMap fun v => bytesOfNat 2 (v / 0x1000000000000))
      keep s (s1.isuTally c 0 (10 * n) true)

end Sys2Proof.Machine
end

