-- ==== Sys2Proof/Machine/Image.lean ====
section
/-! DEFINITION. A flight image read into tables: header, directory, sections, operation descriptors (R41 to R44, R168,
R169, R197, R282, R306, R313). -/

namespace Sys2Proof.Machine

/-! ### The image -/

/-- A directory entry (Table 2-3). -/
structure DirEnt where
  type : Nat
  variant : Nat
  index : Nat
  off : Nat
  len : Nat
  rsv : Nat
  deriving DecidableEq, Repr

/-- Word `i` of an image. -/
def imgWord (bs : List Byte) (i : Nat) : Word := byteWord bs i

/-- Bytes of an image. -/
def imgBytes (bs : List Byte) (off len : Nat) : List Byte := (bs.drop off).take len

/-- The byte offset of the directory. -/
def dirOffset (bs : List Byte) : Nat := 64 * (imgWord bs 7).field 15 0

/-- The directory. -/
def directory (bs : List Byte) : List DirEnt :=
  (List.range ((imgWord bs 7).field 31 16)).map fun k =>
    let ws := wordsOfBytes (imgBytes bs (dirOffset bs + 16 * k) 16)
    let w := wordAt ws
    ⟨(w 0).field 31 24, (w 0).field 23 16, (w 0).field 15 0, (w 1).toNat, (w 2).toNat, (w 3).toNat⟩

/-- The words of a section. -/
def secWords (bs : List Byte) (d : DirEnt) : List Word := wordsOfBytes (imgBytes bs d.off d.len)

/-- `n` entries of `k` words from word `at_` on. -/
def entriesAt (ws : List Word) (at_ k n : Nat) : List (List Word) := (List.range n).map fun i => (ws.drop (at_ + k * i)).take k

/-- A clause entry (Table 2-6). -/
def parseClause (ws : List Word) : Clause :=
  let w := wordAt ws
  ⟨(w 0).field 31 16, (w 0).field 15 12, (w 0).field 11 8, (w 1).toNat, (w 2).field 31 16, (w 2).field 9 0, (w 3).field 31 16,
    (w 3).field 15 0, firstSet [(w 0).field 7 0, (w 2).field 15 10]⟩

/-- A gallery's clause block at a word of a tick program section. -/
def parseBlock (ws : List Word) (g at_ : Nat) : Block :=
  let f := (wordAt ws at_).field 31 16
  let b := (wordAt ws at_).field 15 0
  let u := (wordAt ws (at_ + 1)).field 31 16
  let list := fun (a n : Nat) => (entriesAt ws a 4 n).map parseClause
  ⟨g, list (at_ + 2) f, list (at_ + 2 + 4 * f) b, list (at_ + 2 + 4 * (f + b)) u⟩

/-- Words of a clause block. -/
def blockWords (ws : List Word) (at_ : Nat) : Nat :=
  2 + 4 * ((wordAt ws at_).field 31 16 + (wordAt ws at_).field 15 0 + (wordAt ws (at_ + 1)).field 31 16)

/-- A fabric slot table entry (Table 11-1). -/
def parseFabSlot (ws : List Word) : FabSlot :=
  let w := wordAt ws
  ⟨(w 0).field 31 16, (w 0).field 15 13, (w 0).field 12 10, (w 0).field 9 7, (w 0).field 6 4, (w 1).field 31 16, (w 1).field 15 8,
    (w 2).field 31 30, (w 2).field 29 16, (w 2).field 15 0, firstSet [(w 0).field 3 0, (w 1).field 7 0, (w 3).toNat]⟩

/-- An HBM slot table entry (Table 3-7). -/
def parseHbmSlot (ws : List Word) : HbmSlot :=
  let w := wordAt ws
  ⟨(w 0).field 31 16, (w 0).field 15 14, (w 0).field 13 11, (w 0).field 10 10, (w 0).field 9 4, (w 1).field 31 16,
    (w 1).field 15 14, (w 1).field 13 0, (w 0).field 3 0⟩

/-- A fetch window entry (Table 2-7). -/
def parseFetchWin (ws : List Word) : FetchWin :=
  let w := wordAt ws
  ⟨(w 0).field 31 26, (w 0).field 18 16, (w 0).field 15 0, (w 1).field 31 16, (w 1).field 15 0, (w 2).toNat, (w 3).field 3 0,
    firstSet [(w 0).field 25 19, (w 3).field 31 4]⟩

/-- A claim entry (Table 2-10). -/
def parseClaim (ws : List Word) : Claim :=
  let w := wordAt ws
  ⟨(w 0).field 31 28, (w 0).field 27 24, (w 0).field 23 16, (w 1).toNat, (w 2).toNat, firstSet [(w 0).field 15 0, (w 3).toNat]⟩

/-- A seat template (Table 2-8) of a variant's section. -/
def parseTemplate (v : Nat) (ws : List Word) : Template :=
  let w := wordAt ws
  ⟨v, (w 0).field 31 30, (w 0).field 29 28, (w 0).field 27 25, (w 0).field 24 16, (w 0).field 15 0, (w 1).field 31 20, (w 1).field 19 12,
    (w 1).field 11 4, (w 1).bit 0, (w 2).field 31 16, (w 2).field 15 8, firstSet [(w 1).field 3 1, (w 2).field 7 0, (w 3).toNat]⟩

/-- A route entry (Table 2-9). -/
def parseRoute (ws : List Word) : Route :=
  let w := wordAt ws
  ⟨(w 0).field 31 24, (w 0).field 23 22, (w 0).field 7 0, (w 1).field 31 16, firstSet [(w 0).field 21 8, (w 1).field 15 0]⟩

/-- A variant entry (Table 2-11). -/
def parseVariant (ws : List Word) : Variant :=
  let w := wordAt ws
  ⟨(w 0).field 31 24, (w 0).field 23 16, (w 0).field 15 8, (w 0).field 7 0, (w 1).field 31 16,
    firstSet [(w 1).field 15 0, (w 2).toNat, (w 3).toNat]⟩

/-- A partition entry (Table 2-16). -/
def parsePartition (ws : List Word) : Partition :=
  let w := wordAt ws
  ⟨(w 0).field 31 24, (w 0).field 23 18, (w 0).field 17 16, (w 0).field 15 0, (w 1).toNat⟩

/-- Every entry of `k` words of the sections of a type. -/
def typeEntries (bs : List Byte) (dir : List DirEnt) (type k : Nat) : List (Nat × List Word) :=
  (dir.filter fun d => d.type == type).flatMap fun d =>
    (entriesAt (secWords bs d) 0 k (d.len / (4 * k))).map fun e => (d.variant, e)

/-- The words of a tick program section that Table 2-5 describes, as tables: (word offset, entries, words per entry) of
the fabric, HBM and fetch window tables. -/
def progTables (ws : List Word) : List (Nat × Nat × Nat) :=
  let w := wordAt ws
  [((w 10).toNat / 4, (w 11).toNat, 4), ((w 12).toNat / 4, (w 13).toNat, 2), ((w 14).toNat / 4, (w 1).field 31 16, 4)]

/-- A tick program section with its claims (Tables 2-5 to 2-7, 2-10). -/
def parseProgram (bs : List Byte) (dir : List DirEnt) (d : DirEnt) : Program :=
  let ws := secWords bs d
  let table := fun (i : Nat) => (progTables ws).getD i (0, 0, 1)
  let rows := fun (i : Nat) => let t := table i; entriesAt ws t.1 t.2.2 t.2.1
  let claims := (dir.filter fun c => c.type == 5 && c.variant == d.variant && c.index == d.index).flatMap fun c =>
    (entriesAt (secWords bs c) 0 4 (c.len / 16)).map parseClaim
  { variant := d.variant, index := d.index, galMask := (wordAt ws 0).field 7 0,
    blocks := ((List.range 8).filter fun g => wordAt ws (2 + g) != 0).map fun g => parseBlock ws g ((wordAt ws (2 + g)).toNat / 4),
    fabric := (rows 0).map parseFabSlot, hbm := (rows 1).map parseHbmSlot, fetch := (rows 2).map parseFetchWin, claims := claims }

/-- The signed message of an image: header, directory, digest section (R42). -/
def signedMessage (bs : List Byte) : List Byte :=
  let dir := directory bs
  imgBytes bs 0 32 ++ imgBytes bs (dirOffset bs) (16 * dir.length)
    ++ ((dir.filter fun d => d.type == 8).flatMap fun d => imgBytes bs d.off d.len)

/-- An image whose directory and tables lie in bounds, read whole. -/
def parseFlight (bs : List Byte) : Flight :=
  let w := imgWord bs
  let dir := directory bs
  { contract := (w 1).field 31 16, descVer := (w 1).field 15 0, programs := (w 3).field 31 16, periodQ := (w 3).field 7 0,
    galMask := (w 4).field 7 0, flightId := w 5, progs := (dir.filter fun d => d.type == 1).map (parseProgram bs dir),
    templates := (typeEntries bs dir 3 4).map fun e => parseTemplate e.1 e.2, routes := (typeEntries bs dir 4 2).map fun e => parseRoute e.2,
    variants := (typeEntries bs dir 6 4).map fun e => parseVariant e.2, partitions := (typeEntries bs dir 7 2).map fun e => parsePartition e.2,
    pool := (dir.filter fun d => d.type == 2).flatMap fun d => imgBytes bs d.off d.len, digest := sha256Words (signedMessage bs) }

/-! ### What an image says of its clauses -/

/-- The clauses of a program: gallery, stream, index in its list, clause. -/
def Program.clauses (p : Program) : List (Nat × Nat × Nat × Clause) :=
  p.blocks.flatMap fun b => b.lists.flatMap fun l => (List.range l.2.length).filterMap fun i => l.2[i]?.map fun c => (b.gal, l.1, i, c)

/-- The cycle after the last slot of HBM slot entries. -/
def hbmEnd (hs : List HbmSlot) : Nat := hs.foldl (fun m h => Nat.max m (h.start + 4 * h.count)) 0

/-- The cycle of the last slot of fabric slot entries with its arrival delay (Table 3-9). -/
def fabArrival (fs : List FabSlot) : Nat :=
  fs.foldl (fun m f => Nat.max m (f.start + f.count - 1 + (match f.path with | 0 => 40 | 1 => 24 | 2 => 32 | _ => 16))) 0

/-- The least occupancy of a clause by the timing contract (R81 to R97). -/
def opCost (seat : Nat) (fs : List FabSlot) : Op → Nat
  | .mm d => (mmCost d).1
  | .scaleLoad _ => 40
  | .accMove op d => muOpCost op d.len.toNat
  | .vu op accIn d => vuCost op d { vuPlain with accIn := accIn }
  | .infl d w => vuCost 0x08 d (inflExtra seat d w)
  | .sign d _ => vuCost 0x09 d (signExtra d)
  | .route op d w => vuCost op d (if op = 0x30 then compressExtra d w else expandExtra seat d w)
  | .solve d w => vuCost 0x40 d (solveExtra w)
  | .isu _ d => isuCost d.params.toNat
  | .xfer 4 _ => 4 + (fs.map (·.count)).sum
  | .xfer op d => xferCost op d.rowBytes.toNat d.rows.toNat d.spOff.toNat d.spPitch.toNat
  | .fab _ => 4 + (fs.map (·.count)).sum
  | .bad _ => 0

/-- The ready cycle of a clause (R76 to R97). -/
def opReady (c : Clause) (hs : List HbmSlot) (fs : List FabSlot) (op : Op) : Nat :=
  let least := c.start + opCost c.seat fs op
  match op with
  | .mm d => c.start + (mmCost d).2
  | .isu _ _ => if hs.isEmpty then c.start + c.occ else hbmEnd hs + 64
  | .xfer 4 _ | .fab _ => if fs.isEmpty then c.start + c.occ else fabArrival fs
  | .xfer 2 _ => if hs.isEmpty then c.start + c.occ else hbmEnd hs
  | .xfer 3 _ => if hs.isEmpty then c.start + c.occ else hbmEnd hs + 192
  | .xfer _ _ => if hs.isEmpty then c.start + c.occ else hbmEnd hs + 160
  | _ => least

/-- The seats that a clause concerns (R510): none where it names every seat of its program on its gallery. -/
def opSeats (c : Clause) (op : Op) : Option (List Nat) :=
  if c.seat ≠ 0x3FF then some [c.seat]
  else match op with
    | .mm d => some ((d.rg.map (·.toNat)).filter (· ≠ 0x3FF))
    | .infl _ w => some ((w.rgmap.map (·.toNat)).filter (· ≠ 0x3FF))
    | .route _ _ w => some (((w.rgmap ++ w.slices).map (·.toNat)).filter (· ≠ 0x3FF))
    | _ => if c.window = 0xFFFF then some [] else none

/-- The cost of a seat template (R366). -/
def Flight.seatCost (f : Flight) (parent mask : Nat) (t : Template) : Nat :=
  match f.blockIn parent mask t.program t.gal with
  | none => 0
  | some (p, b) =>
    (b.lists.flatMap fun l => (List.range l.2.length).filterMap fun i => l.2[i]?.map fun c => (l.1, i, c)).foldl (fun n x =>
      let c := x.2.2
      n + if c.seat = t.slot then c.occ
        else if c.seat = 0x3FF ∧ c.kind = 0 then
          match (p.descOf f.pool t.gal x.1 x.2.1 c).1 with
          | .mm d =>
            let groups := (d.rg.map (·.toNat)).filter (· ≠ 0x3FF)
            if groups.isEmpty then 0 else c.occ * groups.countP (· == t.slot) / groups.length
          | _ => 0
        else 0) 0

end Sys2Proof.Machine
end

