-- ==== Sys2Proof/Machine/Admit.lean ====
section
/-! DEFINITION. Admission of a flight image: the checks of Table 2-12 and the report of the first failure (R45 to R47, R509). -/

namespace Sys2Proof.Machine

/-- A failed check with its report (R46, R509). -/
structure Fail where
  check : Nat
  variant : Nat
  program : Nat
  gal : Nat
  table : Nat
  entry : Nat
  need : Nat
  limit : Nat
  deriving DecidableEq, Repr

/-- The order of failures of one check: variant, program, gallery, table, entry (R46). -/
def Fail.before (a b : Fail) : Bool :=
  let key := fun (x : Fail) => [x.variant, x.program, x.gal, x.table, x.entry]
  decide (List.Lex (· < ·) (key a) (key b))

/-- The first of a list of failures; of equals the one listed first. -/
def firstOf : List Fail → Option Fail
  | [] => none
  | a :: rest => match firstOf rest with
    | some b => if b.before a then some b else some a
    | none => some a

/-- A failure unless a rule holds. -/
def rule (ok : Bool) (f : Fail) : List Fail := if ok then [] else [f]

/-! ### Checks 0x01 to 0x06 -/

/-- Word 16 of the device descriptor, [15:0]: the flight contract versions accepted (Table 1-7). -/
def flightVers : Nat := (devDescWords.getD 16 0) % 65536

/-- Word 0 of the device descriptor, [31:16]: the descriptor version. -/
def devDescVer : Nat := (devDescWords.getD 0 0) / 65536

/-- Checks 0x01 to 0x03 on the header; an image of a contract version that the load's PAIR does not take fails 0x02 (DEDUCED: log
entry 40). -/
def headerChecks (pair len : Nat) (bs : List Byte) : List Fail :=
  let w := imgWord bs
  let bytes := (w 2).toNat
  let con := (w 1).field 31 16
  let ver := (w 1).field 15 0
  let at0 := fun (check need limit : Nat) => (⟨check, 0, 0, 0, 0, 0, need, limit⟩ : Fail)
  rule (w 0 == 0x544C464B && bytes == len && decide (bytes ≤ 0x20000000)) (at0 1 bytes len)
    ++ rule (decide (con < 16) && flightVers / 2 ^ con % 2 == 1 && ((pair == 0) == (con == 3))) (at0 2 con flightVers)
    ++ rule (ver == devDescVer) (at0 3 ver devDescVer)

/-- A part of an image: its bytes and where a failure of it is reported. -/
structure ImgPart where
  lo : Nat
  hi : Nat
  variant : Nat
  program : Nat
  table : Nat
  entry : Nat
  deriving DecidableEq, Repr

/-- The failure of two parts of an image that share a byte, at the part that starts later. -/
def overlapFail (a b : ImgPart) : List Fail :=
  let (x, y) := if b.lo < a.lo then (b, a) else (a, b)
  rule (decide (x.hi ≤ y.lo ∨ y.hi ≤ x.lo ∨ y.hi = y.lo ∨ x.hi = x.lo)) ⟨4, y.variant, y.program, 0, y.table, y.entry, y.lo, x.hi⟩

/-- Every pair of a list of parts. -/
def overlapFails : List ImgPart → List Fail
  | [] => []
  | a :: rest => rest.flatMap (overlapFail a) ++ overlapFails rest

/-- The sections R42 asks for: (type, variant, index). -/
def sectionsWanted (bs : List Byte) (dir : List DirEnt) : List (Nat × Nat × Nat) :=
  let w := imgWord bs
  let progs := (w 3).field 31 16
  let v3 := (w 1).field 31 16 == 3
  let variants := if v3 then ((typeEntries bs dir 6 4).map fun e => (parseVariant e.2).id).dedup else []
  let perVariant := (0 :: variants).flatMap fun v =>
    ((List.range progs).flatMap fun i => [(1, v, i), (5, v, i)]) ++ [(3, v, 0)]
  perVariant ++ (if v3 then [(2, 0, 0), (4, 0, 0), (6, 0, 0), (8, 0, 0), (9, 0, 0)] else [(2, 0, 0), (7, 0, 0), (8, 0, 0), (9, 0, 0)])

/-- The bytes of a gallery's part of an image (R19). -/
def partBytes (bs : List Byte) (dir : List DirEnt) (g : Nat) : Nat :=
  let whole := ((dir.filter fun d => d.type != 1).map (·.len)).sum
  32 + 16 * dir.length + whole + ((dir.filter fun d => d.type == 1).map fun d =>
    let ws := secWords bs d
    let block := (wordAt ws (2 + g)).toNat / 4
    64 + ((progTables ws).map fun t => 4 * t.2.1 * t.2.2).sum + (if block = 0 then 0 else 4 * blockWords ws block)).sum

/-- The tables that the header and clause blocks of a tick program section describe: (gallery, end offset within the
section). -/
def progEnds (ws : List Word) : List (Nat × Nat) :=
  [(0, 64)] ++ ((progTables ws).filter fun t => t.2.1 != 0).map (fun t => (0, 4 * (t.1 + t.2.1 * t.2.2)))
    ++ ((List.range 8).filter fun g => wordAt ws (2 + g) != 0).map fun g =>
      let b := (wordAt ws (2 + g)).toNat / 4
      (g, 4 * (b + blockWords ws b))

/-- Check 0x04: directory, sections and tables in bounds, aligned, disjoint; the sections R42 asks for and no other; each
gallery's part at most 192 MiB. -/
def boundsChecks (bs : List Byte) : List Fail :=
  let len := (imgWord bs 2).toNat
  let dir := directory bs
  let n := dir.length
  let dOff := dirOffset bs
  let dEnd := dOff + 16 * n
  let dirFails :=
    rule (dOff != 0) ⟨4, 0, 0, 0, 0, 0, 0, 32⟩ ++ rule (decide (dEnd ≤ len)) ⟨4, 0, 0, 0, 0, 0, dEnd, len⟩
  if !dirFails.isEmpty then dirFails
  else
    let idx := List.range n
    let ent := fun (i : Nat) => dir.getD i ⟨0, 0, 0, 0, 0, 0⟩
    let secs := idx.flatMap fun i =>
      let d := ent i
      rule (decide (d.off + d.len ≤ len)) ⟨4, d.variant, d.index, 0, 1, i, d.off + d.len, len⟩
        ++ rule (d.off % 64 == 0) ⟨4, d.variant, d.index, 0, 1, i, d.off, d.off / 64 * 64⟩
    let parts : List ImgPart := ⟨0, 32, 0, 0, 0, 0⟩ :: ⟨dOff, dEnd, 0, 0, 0, 0⟩ ::
      idx.map fun i => ⟨(ent i).off, (ent i).off + (ent i).len, (ent i).variant, (ent i).index, 1, i⟩
    let wanted := sectionsWanted bs dir
    let name := fun (d : DirEnt) => (d.type, d.variant, d.index)
    let named := idx.flatMap fun i =>
      rule (wanted.contains (name (ent i)) && !((List.range i).any fun j => name (ent j) == name (ent i)))
        ⟨4, (ent i).variant, (ent i).index, 0, 1, i, (ent i).type, 0⟩
    let missing := wanted.flatMap fun x => rule (dir.any fun d => name d == x) ⟨4, x.2.1, x.2.2, 0, 1, n, x.1, 0⟩
    let tables := idx.flatMap fun i =>
      let d := ent i
      if d.type ≠ 1 then [] else
      (progEnds (secWords bs d)).flatMap fun t =>
        rule (decide (t.2 ≤ d.len)) ⟨4, d.variant, d.index, t.1, 13, d.index, d.off + t.2, d.off + d.len⟩
    let sized := (List.range 8).flatMap fun g =>
      rule (decide (partBytes bs dir g ≤ 0xC000000)) ⟨4, 0, 0, g, 0, 0, partBytes bs dir g, 0xC000000⟩
    secs ++ overlapFails parts ++ named ++ missing ++ tables ++ sized

/-- Check 0x05: every section's digest, in directory order, types 0x08 and 0x09 left out (Table 2-4). -/
def digestChecks (bs : List Byte) : List Fail :=
  let dir := directory bs
  let dig := (dir.filter fun d => d.type == 8).flatMap fun d => imgBytes bs d.off d.len
  let taken := (List.range dir.length).filter fun i => (dir.getD i ⟨0, 0, 0, 0, 0, 0⟩).type < 8
  (List.range taken.length).flatMap fun k =>
    let i := natAt taken k
    let d := dir.getD i ⟨0, 0, 0, 0, 0, 0⟩
    rule (sha256 (imgBytes bs d.off d.len) == (dig.drop (32 * k)).take 32) ⟨5, d.variant, d.index, 0, 1, i, 0, 0⟩

/-- Check 0x06: the signature over the signed message, under one of the accepted keys (R42, R388). -/
def signatureCheck (keys : List (List Byte)) (bs : List Byte) : List Fail :=
  let dir := directory bs
  let sig := (dir.filter fun d => d.type == 9).flatMap fun d => imgBytes bs d.off d.len
  rule (keys.any fun k => rsaVerify k (signedMessage bs) sig) ⟨6, 0, 0, 0, 1, (dir.findIdx? fun d => d.type == 9).getD 0, 0, 0⟩

/-! ### Check 0x07 -/

/-- A place of an entry: variant, program, gallery, table, entry. -/
abbrev Place := Nat × Nat × Nat × Nat × Nat

/-- The failures of one entry's rules (holds, NEED, LIMIT): the first broken rule (its corners, DEDUCED: log entry 84). -/
def entryFail (check : Nat) (at_ : Place) (rules : List (Bool × Nat × Nat)) : List Fail :=
  match firstFail rules with
  | none => []
  | some (n, l) => [⟨check, at_.1, at_.2.1, at_.2.2.1, at_.2.2.2.1, at_.2.2.2.2, n, l⟩]

/-- Every element of a list with its index. -/
def indexed {β : Type} (l : List β) : List (Nat × β) := (List.range l.length).filterMap fun i => l[i]?.map fun x => (i, x)

/-- The header and the directory. -/
def headerFields (bs : List Byte) : List Fail :=
  let w := imgWord bs
  entryFail 7 (0, 0, 0, 0, 0) [
    (decide (1 ≤ (w 3).field 31 16 ∧ (w 3).field 31 16 ≤ 4096), (w 3).field 31 16, 4096),
    (decide ((w 3).field 15 8 ≤ 72), (w 3).field 15 8, 72),
    (decide (20 ≤ (w 3).field 7 0 ∧ (w 3).field 7 0 ≤ 80), (w 3).field 7 0, 80),
    ((w 4).field 31 8 == 0, (w 4).field 31 8, 0)]
    ++ (indexed (directory bs)).flatMap fun e => entryFail 7 (e.2.variant, e.2.index, 0, 1, e.1) [(e.2.rsv == 0, e.2.rsv, 0)]

/-- The headers of the tick program sections; the offsets that they hold are multiples of 4, as their tables are made of words (DEDUCED: log entry 51). -/
def progHeaders (bs : List Byte) (programs : Nat) : List Fail :=
  ((directory bs).filter fun d => d.type == 1).flatMap fun d =>
    let ws := secWords bs d
    let w := wordAt ws
    let aligned := fun (k : Nat) => ((w k).toNat % 4 == 0, (w k).toNat, (w k).toNat / 4 * 4)
    entryFail 7 (d.variant, d.index, 0, 13, d.index) ([
      ((w 0).field 31 16 == d.index && decide (d.index < programs), (w 0).field 31 16, programs - 1),
      ((w 0).field 15 8 == d.variant, (w 0).field 15 8, d.variant),
      ((List.range 8).all (fun g => (w 0).bit g == (w (2 + g) != 0)), (w 0).field 7 0, 0),
      ((w 1).field 15 0 == 0, (w 1).field 15 0, 0)] ++ (List.range 8).map (fun g => aligned (2 + g))
      ++ [aligned 10, aligned 12, aligned 14, (w 15 == 0, (w 15).toNat, 0)])
    ++ ((List.range 8).filter fun g => w (2 + g) != 0).flatMap fun g =>
      let u := w ((w (2 + g)).toNat / 4 + 1)
      entryFail 7 (d.variant, d.index, g, 13, d.index) [(u.field 15 0 == 0, u.field 15 0, 0)]

/-- The least alignment of a clause's descriptor and its length in bytes. -/
def descAlign (kind : Nat) (windowFill : Bool) : Nat × Nat :=
  match kind with
  | 0 => (32, 96)
  | 1 => (128, 128)
  | 2 => (64, 64)
  | 3 => (64, 64)
  | _ => if windowFill then (64, 64) else (32, 32)

/-- The gallery of an MU_SHORT variant's program and the parent's program of that index; none for a program of any other variant (R43). -/
def Flight.under (f : Flight) (p : Program) : Option (Nat × Program) :=
  ((f.variants.find? fun v => v.id == p.variant && v.kind == 1)).bind fun v => (f.prog v.parent p.index).map fun q => (v.gal, q)

/-- The gallery that a claim lies on; a claim on staging or on a unit of the hall lies on none (Table 2-10). -/
def Claim.gallery (k : Claim) : Option Nat :=
  if k.kind = 4 ∨ k.kind = 7 then none else some (if k.kind = 5 then k.where_ / 2 else k.where_)

/-- A program's blocks that are its own: an MU_SHORT variant's program has that of its gallery alone (R43). -/
def Flight.own (f : Flight) (p : Program) : Program :=
  match f.under p with
  | some (g, _) => { p with blocks := p.blocks.filter fun b => b.gal == g }
  | none => p

/-- The program as it runs: an MU_SHORT variant's own block and claims with its parent's of the other galleries (R43, R45). -/
def Flight.whole (f : Flight) (p : Program) : Program :=
  match f.under p with
  | some (g, q) => { f.own p with
      blocks := (f.own p).blocks ++ q.blocks.filter (fun b => b.gal != g)
      claims := p.claims ++ q.claims.filter fun k => k.gallery != some g }
  | none => p

/-- The claims table that the REGION fields of a gallery's clauses index: that of the program whose block it is (R43). -/
def Flight.claimsOf (f : Flight) (p : Program) (g : Nat) : List Claim :=
  match f.under p with
  | some (h, q) => if g = h then p.claims else q.claims
  | none => p.claims

/-- The flit of a slot entry whose slot lies outside the cycles lo to hi of its clause: the first of them (R314). -/
def FabSlot.astray (x : FabSlot) (lo hi : Nat) : Nat := if x.start < lo then x.first else x.first + (hi + 1 - x.start)

/-- Rules of an operation descriptor and of its clause's stream (R170, R217, R256, R282, R307, R313, R314) (its corners, DEDUCED: log entry 84). -/
def opRules (f : Flight) (p : Program) (g stream i : Nat) (c : Clause) (op : Op) : List (Bool × Nat × Nat) :=
  let fs := p.fabOf g stream i
  let claims := (f.whole p).claims
  let check := fun (r : Option (Nat × Nat)) => match r with
    | none => [(true, 0, 0)]
    | some (n, l) => [(false, n, l)]
  let issue : Issue := ⟨BitVec.ofNat 3 g, BitVec.ofNat 4 c.unit, BitVec.ofNat 10 c.seat, BitVec.ofNat 16 c.window, BitVec.ofNat 2 stream,
    BitVec.ofNat 16 c.occ⟩
  let flits := fun (bytes size : Nat) =>
    let carried := fs.flatMap fun x => (List.range x.count).map (· + x.first)
    ((List.range (ceilDiv bytes size)).map fun k => (carried.countP (· == k) == 1, k, ceilDiv bytes size - 1))
      ++ [(carried.length == ceilDiv bytes size, (carried.find? fun k => decide (ceilDiv bytes size ≤ k)).getD 0, ceilDiv bytes size - 1)]
      ++ fs.map fun x => (decide (c.start + 4 ≤ x.start ∧ x.start + x.count ≤ c.start + c.occ),
        x.astray (c.start + 4) (c.start + c.occ - 1), c.start + c.occ - 1)
  match op with
  | .mm d => check (mmCheck c.seat d) ++ [
      (!(d.infl == 2 || d.infl == 3) || stream == 1, d.infl.toNat, 1),
      (!d.rpl || f.contract == 3, 1, 0)]
  | .scaleLoad d => [
      (decide (1 ≤ d.count.toNat ∧ d.count.toNat ≤ 4096), d.count.toNat, 4096),
      (decide (d.reg0.toNat + d.count.toNat ≤ 4096), d.reg0.toNat, 4096 - d.count.toNat),
      (d.srcOff.toNat % 64 == 0, d.srcOff.toNat, d.srcOff.toNat / 64 * 64)]
  | .accMove _ d => [
      (decide (1 ≤ d.len.toNat ∧ d.len.toNat ≤ 64), d.len.toNat, 64),
      (decide (d.accBase.toNat + d.len.toNat ≤ 64), d.accBase.toNat, 64 - d.len.toNat),
      (d.spOff.toNat % 64 == 0, d.spOff.toNat, d.spOff.toNat / 64 * 64)]
  | .vu op accIn d => check (vuCheck op c.seat accIn d)
  | .infl d w => check (vuCheck 0x08 c.seat false d) ++ inflRules c.seat d.rows.toNat w
  | .sign d w => check (vuCheck 0x09 c.seat false d) ++ signRules issue d w
  | .route op d w => check (vuCheck op c.seat false d) ++ routingRules op c.seat d w
  | .solve d w => check (vuCheck 0x40 c.seat false d) ++ solveRules d w
  | .isu _ d => [(decide (1 ≤ d.params.toNat), 0, 0xFFFFFFFF), (stream == 2, 2, 0), (c.seat != 0x3FF, c.seat, 511)]
  | .xfer op d =>
    check (xferCheck op c.seat d) ++ [
      ((op == 4) == (c.kind == 4), op, if c.kind = 4 then 4 else 3),
      (op != 4 || p.fetch.any (fun x => x.window == c.window && x.gal == g), d.window.toNat, 0),
      (op != 4 || d.window.toNat == c.window, d.window.toNat, c.window),
      (op != 4 || d.hmode != 0 || (p.fetch.all fun x => x.window != c.window || x.sources == 4), d.hmode.toNat, 0),
      (op != 4 || fs.all (fun x => x.path == 2), ((fs.find? fun x => x.path != 2).map (·.path)).getD 0, 2),
      (op != 4 || d.hmode != 0 || (claims.any fun k => k.kind == 7 && (xRowOffs d).all fun o => decide (k.base ≤ o
        ∧ o + d.rowBytes.toNat ≤ k.base + k.amount)), d.hbmLo.toNat, 0)]
      ++ (if op = 4 then flits (d.rows.toNat * d.rowBytes.toNat) 768 else [])
  | .fab d =>
    let rx := if d.path = 1 then 8 else d.dst.toNat
    [(decide (64 ≤ d.bytes.toNat ∧ d.bytes.toNat ≤ 50331648), d.bytes.toNat, 50331648),
      (d.bytes.toNat % 64 == 0, d.bytes.toNat, d.bytes.toNat / 64 * 64),
      (decide (d.dkind.toNat ≤ 1), d.dkind.toNat, 1),
      ((!d.smodeCtx && !d.dmodeCtx) || c.seat != 0x3FF, 1, 0),
      (!fs.isEmpty, 0, 0),
      ((d.dkind == 1) == (d.path == 1), d.dkind.toNat, 0),
      ((c.kind == 5) == (d.path == 3), c.kind, 0),
      (c.kind != 5 || (c.unit == 1) == decide (d.src.toNat < d.dst.toNat), c.unit, 0),
      (fs.all (fun x => x.path == d.path.toNat && x.src == d.src.toNat && x.dst == d.dst.toNat), 0, 0),
      (d.dmodeCtx || claims.any (fun k => (if rx = 8 then k.kind == 7 else k.kind == 6 && k.where_ == rx)
        && decide (k.base ≤ d.dstOff.toNat ∧ d.dstOff.toNat + d.bytes.toNat ≤ k.base + k.amount)), d.dstOff.toNat, 0)]
      ++ flits d.bytes.toNat (flitBytes d.path.toNat)
  | .bad op => [(false, op, if c.kind = 0 then 3 else if c.kind = 1 then 0x40 else if c.kind = 2 then 2 else if c.kind ≤ 4 then 4 else 1)]

/-- A clause's own fields and its descriptor (R46, R509). -/
def clauseRules (f : Flight) (p : Program) (g stream i : Nat) (c : Clause) : List (Bool × Nat × Nat) :=
  let (op, rsv) := p.descOf f.pool g stream i c
  let wf := match op with | .xfer 4 _ => true | _ => false
  let (al, len) := descAlign c.kind wf
  let units := match c.kind with | 0 => 15 | 1 => 3 | 2 => 1 | 5 => 1 | _ => 0
  let seated := (f.templates.filter fun t => t.variant == p.variant && t.program == p.index && t.gal == g && t.slot == c.seat)
  [(decide (c.kind ≤ 5), c.kind, 5), (decide (c.unit ≤ units), c.unit, units), (c.rsv == 0, c.rsv, 0),
    (c.desc % al == 0, c.desc, c.desc / al * al), (decide (c.desc + len ≤ f.pool.length), c.desc, f.pool.length - len),
    (decide (c.seat < 512) || c.seat == 0x3FF, c.seat, 511),
    (c.seat == 0x3FF || seated.all (fun t => t.stream == stream), c.kind, 0),
    (c.region == 0xFFFF || (match (f.claimsOf p g)[c.region]? with | some k => k.kind == 6 && k.where_ == g | none => false), c.region, 0),
    (c.window == 0xFFFF || p.fetch.any (fun x => x.window == c.window && x.gal == g), c.window, 0),
    (rsv == 0, rsv, 0)] ++ opRules f p g stream i c op

/-- The clause list of a stream of a gallery. -/
def Program.listOf (p : Program) (g stream : Nat) : List Clause :=
  match p.blocks.find? fun b => b.gal == g with
  | some b => if stream = 0 then b.f else if stream = 1 then b.b else b.u
  | none => []

/-- Rules of a fabric slot entry (R312). -/
def fabRules (p : Program) (x : FabSlot) : List (Bool × Nat × Nat) :=
  let own := if x.path = 2 then x.dst else x.src
  let c := (p.listOf own x.stream)[x.clause]?
  [(decide (x.path ≤ 3), x.path, 3), (x.path != 2 || x.src == 0, x.src, 0),
    (x.path != 3 || sideAdjacent x.src x.dst, x.src, 0), (x.path != 0 || x.src != x.dst, x.src, 0), (x.path != 1 || x.dst == 0, x.dst, 0),
    (decide (x.cls ≤ 6), x.cls, 6), (x.rsv == 0, x.rsv, 0), (decide (1 ≤ x.count), 0, 65535), (decide (x.stream ≤ 2), x.stream, 2),
    ((match c with | some k => k.kind == (if x.path = 3 then 5 else 4) | none => false), x.clause, 0)]

/-- Rules of an HBM slot entry (R90); a refresh entry is judged by check 0x0C. -/
def hbmRules (p : Program) (x : HbmSlot) : List (Bool × Nat × Nat) :=
  let c := (p.listOf x.gal x.stream)[x.clause]?
  [(x.rsv == 0, x.rsv, 0), (decide (1 ≤ x.count), 0, 65535), (x.kind == 2 || decide (x.stream ≤ 2), x.stream, 2),
    (x.kind == 2 || (match c with
      | some k => if x.kind = 3 then k.kind == 2 && k.unit == x.stack else k.kind == 3
      | none => false), x.clause, 0)]

/-- Rules of a fetch window entry. -/
def fetchRules (p : Program) (i : Nat) (x : FetchWin) : List (Bool × Nat × Nat) :=
  [(x.rsv == 0, x.rsv, 0),
    (x.window != 0xFFFF && !((p.fetch.take i).any fun y => y.window == x.window && y.gal == x.gal), x.window, 0xFFFE)]

/-- Rules of a claim entry (Table 2-10, R80). -/
def claimRules (x : Claim) : List (Bool × Nat × Nat) :=
  let wheres := match x.kind with | 4 => 5 | 5 => 15 | 7 => 0 | _ => 7
  let units := match x.kind with | 0 => 15 | 1 => 3 | 2 => 1 | 5 => 63 | _ => 0
  [(decide (x.kind ≤ 8), x.kind, 8), (decide (x.where_ ≤ wheres), x.where_, wheres), (decide (x.unit ≤ units), x.unit, units),
    (x.rsv == 0, x.rsv, 0), (decide (6 ≤ x.kind) || x.base == 0, x.base, 0),
    (x.kind != 6 || x.base % 4096 == 0, x.base, x.base / 4096 * 4096)]

/-- Rules of a seat template (Table 2-8, R256). -/
def templateRules (f : Flight) (t : Template) : List (Bool × Nat × Nat) :=
  [(decide (t.cls ≤ 2), t.cls, 2), (decide (t.stream ≤ 2), t.stream, 2), (t.cls == 2 || t.stream == 0, t.stream, 0),
    (f.templates.countP (fun u => u.variant == t.variant && u.program == t.program && u.gal == t.gal && u.slot == t.slot) == 1, t.slot, 0),
    (f.templates.countP (fun u => u.tid == t.tid) == 1, t.tid, 0), (decide (t.program < f.programs), t.program, f.programs - 1),
    ((match f.route t.route with | some r => r.cls == t.cls | none => true), t.cls, 0),
    (decide (t.seqLog2 ≤ 22), t.seqLog2, 22), (t.rsv == 0, t.rsv, 0)]

/-- Rules of a route entry (Table 2-9). -/
def routeRules (f : Flight) (r : Route) : List (Bool × Nat × Nat) :=
  [(f.routes.countP (fun x => x.route == r.route) == 1, r.route, 0), (decide (r.cls ≤ 2), r.cls, 2), (decide (1 ≤ r.stages), 0, 255),
    (r.cls == 0 || r.deadline == 0, r.deadline, 0), (r.rsv == 0, r.rsv, 0)]

/-- Rules of a variant entry's fields (Table 2-11). -/
def variantFields (v : Variant) : List (Bool × Nat × Nat) :=
  [(decide (1 ≤ v.id ∧ v.id ≤ 72), v.id, 72), (decide (1 ≤ v.kind ∧ v.kind ≤ 2), v.kind, 2), (decide (v.gal ≤ 7), v.gal, 7),
    (decide (v.parent ≤ 72), v.parent, 72), (v.rsv == 0, v.rsv, 0)]

/-- Rules of a partition entry's fields (Table 2-16) (its corners, DEDUCED: log entry 84). -/
def partitionFields (p : Partition) : List (Bool × Nat × Nat) := [(decide (1 ≤ p.slice), p.slice, 65535), (p.rsv == 0, p.rsv, 0)]

/-- Check 0x07 over the whole image. -/
def fieldChecks (bs : List Byte) (f : Flight) : List Fail :=
  let variantTable := (indexed f.variants).flatMap fun e => entryFail 7 (0, 0, 0, 11, e.1) (variantFields e.2)
  let count := rule ((imgWord bs 3).field 15 8 == f.variants.length) ⟨7, 0, 0, 0, 0, 0, (imgWord bs 3).field 15 8, f.variants.length⟩
  let progs := f.progs.flatMap fun p =>
    (p.clauses.flatMap fun x => entryFail 7 (p.variant, p.index, x.1, 2 + x.2.1, x.2.2.1) (clauseRules f p x.1 x.2.1 x.2.2.1 x.2.2.2))
      ++ ((indexed p.fabric).flatMap fun e => entryFail 7 (p.variant, p.index, if e.2.path = 2 then e.2.dst else e.2.src, 5, e.1) (fabRules (f.whole p) e.2))
      ++ ((indexed p.hbm).flatMap fun e => entryFail 7 (p.variant, p.index, e.2.gal, 6, e.1) (hbmRules (f.whole p) e.2))
      ++ ((indexed p.fetch).flatMap fun e => entryFail 7 (p.variant, p.index, e.2.gal, 7, e.1) (fetchRules p e.1 e.2))
      ++ ((indexed p.claims).flatMap fun e => entryFail 7 (p.variant, p.index, if e.2.kind = 7 ∨ e.2.kind = 4 then 0
        else if e.2.kind = 5 then e.2.where_ / 2 else e.2.where_, 8, e.1) (claimRules e.2))
  let temps := (f.templates.map (·.variant)).dedup.flatMap fun v =>
    (indexed (f.templates.filter fun t => t.variant == v)).flatMap fun e =>
      entryFail 7 (v, e.2.program, e.2.gal, 9, e.1) (templateRules f e.2)
  let routes := (indexed f.routes).flatMap fun e => entryFail 7 (0, 0, 0, 10, e.1) (routeRules f e.2)
  let parts := (indexed f.partitions).flatMap fun e => entryFail 7 (0, 0, 0, 12, e.1) (partitionFields e.2)
  headerFields bs ++ count ++ progHeaders bs f.programs ++ variantTable ++ progs ++ temps ++ routes ++ parts

/-! ### Checks 0x08 to 0x0D -/

/-- The galleries a variant leaves out and the galleries short of an MU. -/
def Flight.lost (f : Flight) (v : Nat) : Option Nat × Option Nat :=
  match f.variants.find? fun x => x.id == v with
  | none => (none, none)
  | some x =>
    if x.kind = 2 then (some x.gal, none)
    else ((f.variants.find? fun y => y.id == x.parent).map (·.gal), some x.gal)

/-- The unit of a clause exists in a variant (R44, R45): a fenced gallery has no units and no links, a short gallery 15 MUs,
a gallery at the end of a row one side link; the hall carries nothing to a gallery that is left out. -/
def unitExists (out short : Option Nat) (g : Nat) (c : Clause) (op : Op) : Bool :=
  let far := match op with
    | .fab d => c.kind == 4 && d.path == 0 && out == some d.dst.toNat
    | _ => false
  out != some g && !far && !(c.kind == 0 && c.unit == 15 && short == some g)
    && !(c.kind == 5 && ((c.unit == 0 && (g % 4 == 0 || out == some (g - 1))) || (c.unit == 1 && (g % 4 == 3 || out == some (g + 1)))))

/-- What HBM slots an operation asks for: rules of R87, R94 and R96.  A cache transfer that no entry names is legal whatever its OP (R88, DEDUCED: log
entry 49). -/
def slotRules (g : Nat) (c : Clause) (hs : List HbmSlot) (op : Op) : List (Bool × Nat × Nat) :=
  let total := (hs.map (·.count)).sum
  let within := fun (lo hi : Nat) => (hs.all (fun h => decide (lo ≤ h.start)), (hs.foldl (fun m h => Nat.min m h.start) 65535), lo) ::
    [(decide (hs.isEmpty = true ∨ hbmEnd hs ≤ hi), hbmEnd hs, hi)]
  match op with
  | .isu k d =>
    let want := ceilDiv (d.params.toNat * (if k = 1 then 20 else 10)) 64
    (hs.isEmpty || total == want, total, want) :: within (c.start + 32) (c.start + c.occ - 32)
  | .xfer 3 d =>
    let want := gatherSlots (d.rows.toNat * d.rowBytes.toNat)
    let per := fun (st pc : Nat) => ((hs.filter fun h => h.stack == st && h.pc == pc && h.kind == 0).map (·.count)).sum
    let least := (List.range 128).foldl (fun m k => Nat.min m (per (k / 64) (k % 64))) total
    (hs.isEmpty || decide (want ≤ least), least, want) :: within c.start (c.start + c.occ)
  | .xfer 4 _ => []
  | .xfer k d =>
    let want := d.rows.toNat * d.rowBytes.toNat / 64
    (hs.isEmpty || total == want, total, want) :: (hs.all (fun h => h.kind == (if k = 2 then 1 else 0) && h.gal == g), total, want)
      :: within c.start (c.start + c.occ)
  | _ => []

/-- Check 0x08 for one clause. -/
def clauseTiming (f : Flight) (p : Program) (bound : Nat) (g stream i : Nat) (c : Clause) : List (Bool × Nat × Nat) :=
  let (out, short) := f.lost p.variant
  let hs := p.hbmOf g stream i
  let fs := p.fabOf g stream i
  let op := (p.descOf f.pool g stream i c).1
  let cost := opCost c.seat fs op
  let lim := if f.contract = 2 ∧ c.kind = 0 then bound - 1048 else bound
  let prev := if i = 0 then 0 else ((p.listOf g stream)[i - 1]?.map (·.start)).getD 0
  [(unitExists out short g c op, c.unit, if c.kind = 0 then 14 else 0), (decide (cost ≤ c.occ), c.occ, cost),
    (!(f.contract == 2 && c.kind == 0) || decide (536 ≤ c.start), c.start, 536),
    (decide (c.start + c.occ ≤ lim), c.start + c.occ, lim), (decide (opReady c hs fs op ≤ lim), opReady c hs fs op, lim)]
    ++ slotRules g c hs op ++ [(decide (prev ≤ c.start), c.start, prev)]

/-- Check 0x09: clauses of one unit that overlap, over all three streams. -/
def unitOverlaps (p : Program) : List Fail :=
  let cs := p.clauses
  cs.flatMap fun x =>
    let c := x.2.2.2
    let before := cs.filter fun y =>
      let k := y.2.2.2
      y.1 == x.1 && k.kind == c.kind && k.unit == c.unit && decide (c.start < k.start + k.occ)
        && (decide (k.start < c.start) || (k.start == c.start && (decide (y.2.1 < x.2.1) || (y.2.1 == x.2.1 && decide (y.2.2.1 < x.2.2.1)))))
    match before with
    | [] => []
    | y :: _ => [⟨9, p.variant, p.index, x.1, 2 + x.2.1, x.2.2.1, c.start, y.2.2.2.start + y.2.2.2.occ⟩]

/-- Check 0x0A: cycle claims cover each unit's clauses, and no claim passes the budget. -/
def claimSums (p : Program) (bound : Nat) : List Fail :=
  let cs := p.clauses.filter fun x => decide (x.2.2.2.kind ≤ 2)
  let units := (cs.map fun x => (x.1, x.2.2.2.kind, x.2.2.2.unit)).dedup
  (units.flatMap fun u =>
    let mine := fun (k : Claim) => k.kind == u.2.1 && k.where_ == u.1 && k.unit == u.2.2
    let occ : Nat := ((cs.filter fun x => x.1 == u.1 && x.2.2.2.kind == u.2.1 && x.2.2.2.unit == u.2.2).map fun x => x.2.2.2.occ).sum
    let have_ : Nat := ((p.claims.filter mine).map (·.amount)).sum
    rule (decide (occ ≤ have_)) ⟨10, p.variant, p.index, u.1, 8, (p.claims.findIdx? mine).getD p.claims.length, occ, have_⟩)
    ++ (indexed p.claims).flatMap fun e =>
      rule (decide (2 < e.2.kind) || decide (e.2.amount ≤ bound)) ⟨10, p.variant, p.index, e.2.where_, 8, e.1, e.2.amount, bound⟩

/-- The links an entry occupies: (link, first cycle); a hall link inbound g, outbound 8 + g, a side link in one direction
16 + 8 src + dst (R98, R312). -/
def fabLinks (x : FabSlot) : List (Nat × Nat) :=
  match x.path with
  | 0 => [(x.src, x.start), (8 + x.dst, x.start + 20)]
  | 1 => [(x.src, x.start)]
  | 2 => [(8 + x.dst, x.start)]
  | _ => [(16 + 8 * x.src + x.dst, x.start)]

/-- Check 0x0B: a fabric slot used twice on one link in one cycle. -/
def fabClashes (p : Program) : List Fail :=
  (indexed p.fabric).flatMap fun e =>
    let x := e.2
    let hits := (p.fabric.take e.1).flatMap fun y => (fabLinks x).flatMap fun a => (fabLinks y).filterMap fun b =>
      if a.1 = b.1 ∧ a.2 < b.2 + y.count ∧ b.2 < a.2 + x.count then some (Nat.max a.2 b.2) else none
    match hits with
    | [] => []
    | h :: rest => [⟨11, p.variant, p.index, if x.path = 2 then x.dst else x.src, 5, e.1, rest.foldl Nat.min h, 0⟩]

/-- Check 0x0C: HBM slots that meet each other or a refresh; refresh positions as R91 and R92 require.  A refresh whose START itself passes the
budget is listed unreduced (DEDUCED: log entry 52). -/
def hbmClashes (q : Nat) (p : Program) : List Fail :=
  let isRef := fun (x : HbmSlot) => x.kind == 2
  ((indexed p.hbm).flatMap fun e =>
    let x := e.2
    let same := fun (y : HbmSlot) => y.gal == x.gal && y.stack == x.stack && y.pc == x.pc
    let ok := if isRef x then
        (refreshStarts q x.pc).contains x.start && x.count == 48 && x.stream == 3 && x.clause == 0x3FFF
          && !((p.hbm.take e.1).any fun y => isRef y && same y && y.start == x.start)
      else !refreshBlocks q x.pc x.start (4 * x.count)
        && !((p.hbm.take e.1).any fun y => !isRef y && same y && decide (x.start < y.start + 4 * y.count ∧ y.start < x.start + 4 * x.count))
    rule ok ⟨12, p.variant, p.index, x.gal, 6, e.1, x.start, 0⟩)
  ++ (List.range 1024).flatMap fun k =>
    let g := k / 128
    (refreshStarts q (k % 64)).flatMap fun s =>
      rule (p.hbm.any fun y => isRef y && y.gal == g && y.stack == k / 64 % 2 && y.pc == k % 64 && y.start == s)
        ⟨12, p.variant, p.index, g, 6, p.hbm.length, s, 0⟩

/-- The accumulator ranges a clause touches: (base, end, initialises) (R142, R143, R158, R165). -/
def accRanges : Op → List (Nat × Nat × Bool)
  | .mm d =>
    let (r, c) := tileShape d.shape.toNat
    let b := 8192 * d.accBase.toNat
    (b, b + r * c * accBytes d.acc.toNat * (if d.rpl then 2 else 1), d.accInit) ::
      (if d.infl = 3 then [(8192 * d.gaccBase.toNat, 8192 * d.gaccBase.toNat + 16384 * d.gblk.toNat, true)] else [])
  | .accMove op d => [(8192 * d.accBase.toNat, 8192 * (d.accBase.toNat + d.len.toNat), op == 3)]
  | _ => []

/-- A live range of an MU's accumulator storage: gallery, MU, base, end, first cycle, last cycle, place of the clause that
initialises it. -/
structure AccLife where
  gal : Nat
  unit : Nat
  lo : Nat
  hi : Nat
  born : Nat
  last : Nat
  table : Nat
  entry : Nat
  deriving DecidableEq, Repr

/-- The parts of some pieces of storage that the bytes [lo, hi) leave. -/
def cutPieces (pieces : List (Nat × Nat)) (lo hi : Nat) : List (Nat × Nat) :=
  pieces.flatMap fun p => ([(p.1, Nat.min p.2 lo), (Nat.max p.1 hi, p.2)] : List (Nat × Nat)).filter fun q => decide (q.1 < q.2)

/-- The live ranges, newest first, whose contents a clause reads until `ready`, each byte from the newest range that holds it; and the
pieces that no range holds. -/
def extendLives (g unit ready : Nat) : List (Nat × Nat) → List AccLife → List AccLife × List (Nat × Nat)
  | pieces, [] => ([], pieces)
  | pieces, l :: ls =>
    let hit := l.gal == g && l.unit == unit && pieces.any fun p => decide (p.1 < l.hi ∧ l.lo < p.2)
    let (rest, left) := extendLives g unit ready (if hit then cutPieces pieces l.lo l.hi else pieces) ls
    ((if hit then { l with last := Nat.max l.last ready } else l) :: rest, left)

/-- The live ranges of a program, its clauses taken in order of start: a clause that does not initialise its range extends
the ranges whose contents it reads; what it reads of no range is a range from there on (R143). -/
def accLives (f : Flight) (p : Program) : List AccLife :=
  let cs := (p.clauses.filter fun x => x.2.2.2.kind == 0).mergeSort fun a b => decide (a.2.2.2.start ≤ b.2.2.2.start)
  cs.foldl (fun ls x =>
    let c := x.2.2.2
    let op := (p.descOf f.pool x.1 x.2.1 x.2.2.1 c).1
    let ready := Nat.max (c.start + 1) (opReady c [] [] op)
    (accRanges op).foldl (fun ls r =>
      let life := fun (q : Nat × Nat) => (⟨x.1, c.unit, q.1, q.2, c.start, ready, 2 + x.2.1, x.2.2.1⟩ : AccLife)
      if r.2.2 then life (r.1, r.2.1) :: ls
      else
        let (ls', left) := extendLives x.1 c.unit ready [(r.1, r.2.1)] ls
        left.map life ++ ls') ls) []

/-- Check 0x0D: scratchpad regions and accumulator ranges in bounds and apart while live (R143). -/
def regionClashes (f : Flight) (p : Program) : List Fail :=
  let regions := (indexed p.claims).flatMap fun e =>
    rule (e.2.kind != 6 || decide (e.2.base + e.2.amount ≤ spSize)) ⟨13, p.variant, p.index, e.2.where_, 8, e.1, e.2.base + e.2.amount, spSize⟩
  let uses := (p.clauses.filter fun x => x.2.2.2.region != 0xFFFF).filterMap fun x =>
    p.claims[x.2.2.2.region]?.map fun k =>
      let op := (p.descOf f.pool x.1 x.2.1 x.2.2.1 x.2.2.2).1
      (x, k, Nat.max (x.2.2.2.start + 1) (opReady x.2.2.2 (p.hbmOf x.1 x.2.1 x.2.2.1) (p.fabOf x.1 x.2.1 x.2.2.1) op))
  let live := (indexed uses).flatMap fun e =>
    let (x, k, r) := e.2
    let clash := (uses.take e.1).any fun y =>
      y.1.1 == x.1 && y.1.2.2.2.region != x.2.2.2.region && decide (y.2.1.base < k.base + k.amount ∧ k.base < y.2.1.base + y.2.1.amount)
        && decide (x.2.2.2.start < y.2.2 ∧ y.1.2.2.2.start < r)
    rule (!clash) ⟨13, p.variant, p.index, x.1, 2 + x.2.1, x.2.2.1, k.base + k.amount, spSize⟩
  let lives := accLives f p
  let bounds := p.clauses.flatMap fun x =>
    (accRanges (p.descOf f.pool x.1 x.2.1 x.2.2.1 x.2.2.2).1).flatMap fun r =>
      rule (x.2.2.2.kind != 0 || decide (r.2.1 ≤ 524288)) ⟨13, p.variant, p.index, x.1, 2 + x.2.1, x.2.2.1, r.2.1, 524288⟩
  let acc := (indexed lives).flatMap fun e =>
    let l := e.2
    rule (!((lives.drop (e.1 + 1)).any fun m => m.gal == l.gal && m.unit == l.unit && decide (m.lo < l.hi ∧ l.lo < m.hi)
        && decide (m.born < l.last ∧ l.born < m.last))) ⟨13, p.variant, p.index, l.gal, l.table, l.entry, l.hi, 524288⟩
  regions ++ live ++ bounds ++ acc

/-! ### Checks 0x0E to 0x13 -/

/-- Check 0x0E: HBM and staging regions in bounds; each lies in a space no larger than the bound on the union. -/
def spaceChecks (p : Program) : List Fail :=
  (indexed p.claims).flatMap fun e =>
    let end_ := e.2.base + e.2.amount
    rule (e.2.kind != 8 || decide (end_ ≤ progSize)) ⟨14, p.variant, p.index, e.2.where_, 8, e.1, end_, progSize⟩
      ++ rule (e.2.kind != 7 || decide (end_ ≤ 0x10000000)) ⟨14, p.variant, p.index, 0, 8, e.1, end_, 0x10000000⟩

/-- The templates in force while a variant runs: its own and, for an MU_SHORT variant, its parent's elsewhere (R43). -/
def Flight.templatesFor (f : Flight) (v : Nat) : List Template :=
  match f.variants.find? fun x => x.id == v with
  | some x => if x.kind = 1 then f.templates.filter fun t => t.variant == (if t.gal = x.gal then v else x.parent)
    else f.templates.filter fun t => t.variant == v
  | none => f.templates.filter fun t => t.variant == 0

/-- Check 0x0F: templates and routes; a version 2 image has no routes section, so that its templates name no entry of one (R42). -/
def routeChecks (f : Flight) (vs : List Nat) : List Fail :=
  let temps := (f.templates.map (·.variant)).dedup.flatMap fun v =>
    let ts := f.templates.filter fun t => t.variant == v
    (indexed ts).flatMap fun e =>
      let t := e.2
      let n := ts.countP fun u => u.program == t.program && u.gal == t.gal
      let stages := ((f.route t.route).map (·.stages)).getD 0
      let at_ := fun (need limit : Nat) => (⟨15, v, t.program, t.gal, 9, e.1, need, limit⟩ : Fail)
      rule (decide (n ≤ 512)) (at_ n 512) ++ rule (f.contract == 2 || (f.route t.route).isSome) (at_ t.route 0)
        ++ rule ((f.route t.route).isNone || decide (t.stage < stages)) (at_ t.stage (stages - 1))
  let routes := (indexed f.routes).flatMap fun e =>
    let r := e.2
    rule (r.cls != 0 || decide (r.stages ≤ r.deadline)) ⟨15, 0, 0, 0, 10, e.1, r.deadline, r.stages⟩
      ++ vs.flatMap fun v =>
        let ts := f.templatesFor v
        match (List.range r.stages).find? fun k => !(ts.any fun t => t.route == r.route && t.stage == k) with
        | some k => [⟨15, v, 0, 0, 10, e.1, k, r.stages - 1⟩]
        | none => []
  temps ++ routes

/-- Check 0x10: a seat whose clause reads a fetch window has its route and stage again in the next program (R510). -/
def windowSeats (f : Flight) (vs : List Nat) : List Fail :=
  vs.flatMap fun v =>
    let ts := f.templatesFor v
    (indexed ts).flatMap fun e =>
      let t := e.2
      let reads := match f.prog t.variant t.program with
        | some p => p.clauses.any fun x => x.1 == t.gal && x.2.2.2.window != 0xFFFF &&
            (match opSeats x.2.2.2 (p.descOf f.pool x.1 x.2.1 x.2.2.1 x.2.2.2).1 with
              | some ss => ss.contains t.slot
              | none => true)
        | none => false
      rule (!reads || ts.any fun u => u.program == (t.program + 1) % f.programs && u.route == t.route && u.stage == t.stage)
        ⟨16, v, t.program, t.gal, 9, e.1, t.tid, 0⟩

/-- Check 0x11: fetch windows within the budget and the slots claimed on the hall link. -/
def windowChecks (p : Program) (bound : Nat) : List Fail :=
  (indexed p.fetch).flatMap fun e =>
    let x := e.2
    let room := 768 * ((p.claims.filter fun k => k.kind == 3 && k.where_ == x.gal).map (·.amount)).sum
    let sum := ((p.fetch.take (e.1 + 1)).filter fun y => y.gal == x.gal).map (·.maxBytes) |>.sum
    rule (decide (x.deadline ≤ bound)) ⟨17, p.variant, p.index, x.gal, 7, e.1, x.deadline, bound⟩
      ++ rule (decide (sum ≤ room)) ⟨17, p.variant, p.index, x.gal, 7, e.1, sum, room⟩

/-- Check 0x12: the variant structure (R43). -/
def variantChecks (f : Flight) : List Fail :=
  (indexed f.variants).flatMap fun e =>
    let v := e.2
    let parent := f.variants.find? fun x => x.id == v.parent
    let dup := (f.variants.take e.1).any fun x => x.id == v.id || (x.parent == v.parent && x.kind == v.kind && x.gal == v.gal)
    let parentOk := v.parent == 0 || (v.kind == 1 && (match parent with | some x => x.kind == 2 && x.gal != v.gal | none => false))
    let own := fun (p : Program) => match f.prog v.parent p.index with
      | none => false
      | some q => p.fabric == q.fabric && p.hbm == q.hbm && p.fetch == q.fetch
          && p.claims.all (fun k => (if k.kind = 5 then k.where_ / 2 else k.where_) == v.gal && k.kind != 4 && k.kind != 7)
          && p.blocks.all (fun b => b.gal == v.gal || q.blocks.contains b)
    let r43 := v.kind != 1 || ((f.templates.all fun t => t.variant != v.id || t.gal == v.gal)
      && f.progs.all fun p => p.variant != v.id || own p)
    rule (!dup && parentOk && r43) ⟨18, v.id, 0, 0, 11, e.1, v.id, 0⟩

/-- Check 0x13: the partitions of a version 2 image lie on a gallery and have ids of their own. -/
def partitionChecks (f : Flight) : List Fail :=
  (indexed f.partitions).flatMap fun e =>
    rule (decide (1 ≤ e.2.dies) && !((f.partitions.take e.1).any fun y => y.id == e.2.id)) ⟨19, 0, 0, 0, 12, e.1, e.1, 0⟩

/-- The checks of the parsed image from 0x08 on, in order. -/
def timingChecks (f : Flight) : List (List Fail) :=
  let budget := 600 * f.periodQ
  let bound := budget - 1200
  let vs := 0 :: f.variants.map (·.id)
  let each := fun (c : Program → List Fail) => f.progs.flatMap c
  [each fun p => p.clauses.flatMap fun x =>
      entryFail 8 (p.variant, p.index, x.1, 2 + x.2.1, x.2.2.1) (clauseTiming f p bound x.1 x.2.1 x.2.2.1 x.2.2.2),
    each unitOverlaps, each fun p => claimSums (f.own p) bound, each fabClashes, each (hbmClashes f.periodQ), each fun p => regionClashes f (f.own p),
    each spaceChecks, routeChecks f vs, windowSeats f vs,
    each fun p => windowChecks (f.whole p) bound, variantChecks f, if f.contract = 2 then partitionChecks f else []]

/-- The first of a row of checks that fails (its corners, DEDUCED: log entry 84). -/
def firstCheck : List (List Fail) → Option Fail
  | [] => none
  | fs :: rest => match firstOf fs with
    | some x => some x
    | none => firstCheck rest

/-- The first failure of an image (R45, R46): `pair` the load's PAIR, `len` FLT_LOAD_LEN, `keys` the accepted keys.  None
for an image that passes every check. -/
def admitImage (pair len : Nat) (keys : List (List Byte)) (bs : List Byte) : Option Fail :=
  let header := headerChecks pair len bs
  let early := (([1, 2, 3].map fun k => header.filter fun f => f.check == k) ++ [boundsChecks bs])
  match firstCheck early with
  | some x => some x
  | none =>
    let f := parseFlight bs
    firstCheck ([digestChecks bs, signatureCheck keys bs, fieldChecks bs f] ++ timingChecks f)

/-- The first MU operation whose split does not fall at a 256-block boundary: program and clause index (R47, R170); of
several, in which order, DESIGN CHOICE: log entry 117. -/
def splitWarning (f : Flight) : Option (Nat × Nat) :=
  (f.progs.flatMap fun p => p.clauses.filterMap fun x =>
    match (p.descOf f.pool x.1 x.2.1 x.2.2.1 x.2.2.2).1 with
    | .mm d => if d.wfmt = 8 ∧ (d.kOff32.toNat % 8 ≠ 0 ∨ d.k32.toNat % 8 ≠ 0) then some (p.index, x.2.2.1) else none
    | _ => none).head?

end Sys2Proof.Machine
end

