-- ==== Sys2Proof/Machine/Zstd.lean ====
section
/-! DEFINITION. The decompression of one Zstandard frame (R304 step 3), as RFC 8878 gives it (PRESUMED: log entry 68): no dictionary, a window of at
most 8 MiB, the frame checksum checked where there is one.  Bytes are numbers here, so that bit streams read as numbers. -/

namespace Sys2Proof.Machine

/-- Byte `i` of a frame, as a number. -/
def zByte (a : Array Nat) (i : Nat) : Nat := a.getD i 0

/-- `n` bytes from byte `i` as a number, the lowest first. -/
def zLe (a : Array Nat) : (n i : Nat) → Nat
  | 0, _ => 0
  | n + 1, i => zByte a i + 256 * zLe a n (i + 1)

/-- `k` bits from bit `off` on, the lowest first. -/
def zBits (a : Array Nat) (off k : Nat) : Nat := zLe a ((off % 8 + k + 7) / 8) (off / 8) / 2 ^ (off % 8) % 2 ^ k

/-! ### Streams read backwards (RFC 8878, 4.1) -/

/-- A stream that is read from its end: its first bit, the bits left, and whether a read went past its start. -/
structure ZBack where
  first : Nat
  left : Nat
  past : Bool
  deriving DecidableEq, Repr

/-- The stream of `len` bytes from byte `start`; its last byte holds the mark of its end. -/
def zOpen (a : Array Nat) (start len : Nat) : Option ZBack :=
  let last := zByte a (start + len - 1)
  if len = 0 ∨ last = 0 then none else some ⟨8 * start, 8 * (len - 1) + Nat.log2 last, false⟩

/-- The next `k` bits of a stream; past its start they are zeros. -/
def ZBack.peek (s : ZBack) (a : Array Nat) (k : Nat) : Nat :=
  if k ≤ s.left then zBits a (s.first + s.left - k) k else zBits a s.first s.left * 2 ^ (k - s.left)

/-- A stream with `k` bits taken. -/
def ZBack.skip (s : ZBack) (k : Nat) : ZBack := if k ≤ s.left then { s with left := s.left - k } else { s with left := 0, past := true }

/-! ### FSE tables (RFC 8878, 4.1.1) -/

/-- A state of an FSE table: its symbol, the bits that the next state takes, and that state's base. -/
structure ZCell where
  sym : Nat
  bits : Nat
  base : Nat
  deriving DecidableEq, Repr

/-- An FSE table and its accuracy. -/
structure ZTable where
  log : Nat
  cells : Array ZCell
  deriving DecidableEq, Repr

/-- A state of a table. -/
def ZTable.at (t : ZTable) (i : Nat) : ZCell := t.cells.getD i ⟨0, 0, 0⟩

/-- The run of zeros after a probability of 0: flags of two bits, 3 while the run goes on. -/
def zZeros (a : Array Nat) : (fuel off n : Nat) → Nat × Nat
  | 0, off, n => (off, n)
  | fuel + 1, off, n =>
    let r := zBits a off 2
    if r = 3 then zZeros a fuel (off + 2) (n + 3) else (off + 2, n + r)

/-- The probabilities of a table description, -1 for "less than 1", newest first, from bit `off` with `rest` of the sum to come; and the
bit after them. -/
def zNorms (a : Array Nat) : (fuel off rest : Nat) → List Int → Option (List Int × Nat)
  | 0, _, _, _ => none
  | fuel + 1, off, rest, ps =>
    if rest = 0 then some (ps, off)
    else
      let bits := Nat.log2 (rest + 1) + 1
      let v := zBits a off bits
      let low := v % 2 ^ (bits - 1)
      let thr := 2 ^ bits - 1 - (rest + 1)
      let (x, used) := if low < thr then (low, bits - 1) else if 2 ^ (bits - 1) ≤ v then (v - thr, bits) else (v, bits)
      let p : Int := (x : Int) - 1
      if rest < p.natAbs then none
      else if p = 0 then
        let (off2, n) := zZeros a 256 (off + used) 0
        zNorms a fuel off2 rest (List.replicate n 0 ++ 0 :: ps)
      else zNorms a fuel (off + used) (rest - p.natAbs) (p :: ps)

/-- The next free place of the spread, below those that the symbols of probability -1 took. -/
def zNextPlace (size high : Nat) : (fuel pos : Nat) → Nat
  | 0, pos => pos
  | fuel + 1, pos =>
    let q := (pos + size / 2 + size / 8 + 3) % size
    if q < high then q else zNextPlace size high fuel q

/-- The symbols placed in a table. -/
structure ZSpread where
  syms : Array Nat
  pos : Nat
  deriving DecidableEq, Repr

/-- A table built from probabilities. -/
def zBuild (log : Nat) (ps : List Int) : ZTable :=
  let size := 2 ^ log
  let all := ps.zipIdx
  let rare := (all.filter fun (p : Int × Nat) => p.1 == -1).map (·.2)
  let high := size - rare.length
  let s0 := (rare.zipIdx).foldl (fun (t : Array Nat) (p : Nat × Nat) => t.setIfInBounds (size - 1 - p.2) p.1) (Array.replicate size 0)
  let put := fun (s : ZSpread) (x : Nat) => (⟨s.syms.setIfInBounds s.pos x, zNextPlace size high size s.pos⟩ : ZSpread)
  let s1 := all.foldl (fun (s : ZSpread) (p : Int × Nat) => if 0 < p.1 then (List.replicate p.1.toNat p.2).foldl put s else s) ⟨s0, 0⟩
  let next0 := (ps.map fun p => if p = -1 then 1 else p.toNat).toArray
  let cell := fun (acc : Array ZCell × Array Nat) (x : Nat) =>
    let n := acc.2.getD x 1
    let bits := log - Nat.log2 n
    (acc.1.push ⟨x, bits, n * 2 ^ bits - size⟩, acc.2.setIfInBounds x (n + 1))
  ⟨log, (s1.syms.foldl cell (#[], next0)).1⟩

/-- A table description from byte `i`: the table, and the byte after it. -/
def zReadTable (a : Array Nat) (i maxLog symbols : Nat) : Option (ZTable × Nat) :=
  let log := zBits a (8 * i) 4 + 5
  if maxLog < log then none
  else match zNorms a (symbols + 1) (8 * i + 4) (2 ^ log) [] with
    | some (ps, off) => if symbols < ps.length then none else some (zBuild log ps.reverse, (off + 7) / 8)
    | none => none

/-- A table of one symbol. -/
def zOneSymbol (x : Nat) : ZTable := ⟨0, #[⟨x, 0, 0⟩]⟩

/-! ### Huffman codes (RFC 8878, 4.2) -/

/-- A Huffman table: the longest code, and for each run of that many bits the symbol and its code's length. -/
structure ZHuf where
  log : Nat
  cells : Array (Nat × Nat)
  deriving DecidableEq, Repr

/-- Weights that two FSE states take in turn from a stream, until it ends; newest first. -/
def zWeights (a : Array Nat) (t : ZTable) : (fuel : Nat) → ZBack → Nat → Nat → List Nat → Option (List Nat)
  | 0, _, _, _, _ => none
  | fuel + 1, s, x, y, ws =>
    let c := t.at x
    let s1 := s.skip c.bits
    if s1.past then some ((t.at y).sym :: c.sym :: ws)
    else zWeights a t fuel s1 y (c.base + s.peek a c.bits) (c.sym :: ws)

/-- Weights coded by FSE in `len` bytes from byte `i`. -/
def zFseWeights (a : Array Nat) (i len : Nat) : Option (List Nat) :=
  (zReadTable a i 6 256).bind fun (t, j) =>
    if i + len ≤ j then none
    else (zOpen a j (i + len - j)).bind fun s =>
      let s1 := s.skip t.log
      (zWeights a t 256 (s1.skip t.log) (s.peek a t.log) (s1.peek a t.log) []).map List.reverse

/-- The table of a list of weights, its last weight left out. -/
def zHufBuild (ws : List Nat) : Option ZHuf :=
  let sum := (ws.map fun w => if w = 0 then 0 else 2 ^ (w - 1)).sum
  let log := Nat.log2 sum + 1
  let rest := 2 ^ log - sum
  if sum = 0 ∨ 11 < log ∨ 255 < ws.length ∨ 2 ^ Nat.log2 rest ≠ rest then none
  else
    let all := (ws ++ [Nat.log2 rest + 1]).zipIdx
    let cells := (List.range log).flatMap fun k =>
      (all.filter fun (p : Nat × Nat) => p.1 == k + 1).flatMap fun p => List.replicate (2 ^ k) (p.2, log - k)
    some ⟨log, cells.toArray⟩

/-- A Huffman tree description from byte `i`: the table, and the byte after it. -/
def zReadHuf (a : Array Nat) (i : Nat) : Option (ZHuf × Nat) :=
  let h := zByte a i
  if h < 128 then (zFseWeights a (i + 1) h).bind fun ws => (zHufBuild ws).map fun t => (t, i + 1 + h)
  else
    let n := h - 127
    let ws := (List.range n).map fun k => let b := zByte a (i + 1 + k / 2); if k % 2 = 0 then b / 16 else b % 16
    (zHufBuild ws).map fun t => (t, i + 1 + (n + 1) / 2)

/-- `n` literals of a Huffman stream, appended; the stream must end with them. -/
def zHufRun (a : Array Nat) (t : ZHuf) : (n : Nat) → ZBack → Array Nat → Option (Array Nat)
  | 0, s, out => if s.past ∨ s.left ≠ 0 then none else some out
  | n + 1, s, out =>
    let c := t.cells.getD (s.peek a t.log) (0, 1)
    zHufRun a t n (s.skip c.2) (out.push c.1)

/-- Literals of the streams (start, bytes, literals) in turn. -/
def zHufStreams (a : Array Nat) (t : ZHuf) : List (Nat × Nat × Nat) → Array Nat → Option (Array Nat)
  | [], out => some out
  | (start, len, n) :: rest, out => (zOpen a start len).bind fun s => (zHufRun a t n s out).bind fun o => zHufStreams a t rest o

/-! ### The literals of a block (RFC 8878, 3.1.1.3.1) -/

/-- What blocks of a frame hand on: the output, the Huffman table, the three FSE tables, the offsets that may repeat. -/
structure ZFrame where
  out : Array Nat
  huf : Option ZHuf
  ll : Option ZTable
  off : Option ZTable
  ml : Option ZTable
  reps : Nat × Nat × Nat
  deriving DecidableEq, Repr

/-- The literals section from byte `i` of a block that ends at `stop`: the literals, the byte after it, the Huffman table. -/
def zLiterals (a : Array Nat) (f : ZFrame) (i stop : Nat) : Option (Array Nat × Nat × Option ZHuf) :=
  let h := zByte a i
  let type := h % 4
  let form := h / 4 % 4
  if type < 2 then
    let head := if form % 2 = 0 then 1 else if form = 1 then 2 else 3
    let n := if form % 2 = 0 then h / 8 else zLe a head i / 16
    let len := if type = 0 then n else 1
    if 131072 < n ∨ stop < i + head + len then none
    else
      let bytes := (List.range n).map fun k => zByte a (i + head + if type = 0 then k else 0)
      some (bytes.toArray, i + head + len, f.huf)
  else
    let head := if form < 2 then 3 else form + 2
    let width := if form < 2 then 10 else if form = 2 then 14 else 18
    let v := zLe a head i / 16
    let n := v % 2 ^ width
    let len := v / 2 ^ width % 2 ^ width
    let start := i + head
    if 131072 < n ∨ stop < start + len then none
    else
      let table := if type = 2 then zReadHuf a start else f.huf.map fun t => (t, start)
      table.bind fun (t, j) =>
        if start + len < j then none
        else if form = 0 then (zHufStreams a t [(j, start + len - j, n)] #[]).map fun o => (o, start + len, some t)
        else
          let total := start + len - j
          let s1 := zLe a 2 j
          let s2 := zLe a 2 (j + 2)
          let s3 := zLe a 2 (j + 4)
          let q := (n + 3) / 4
          if total < 6 + s1 + s2 + s3 ∨ n < 3 * q then none
          else
            let b := j + 6
            (zHufStreams a t [(b, s1, q), (b + s1, s2, q), (b + s1 + s2, s3, q), (b + s1 + s2 + s3, total - 6 - s1 - s2 - s3, n - 3 * q)]
              #[]).map fun o => (o, start + len, some t)

/-! ### The sequences of a block (RFC 8878, 3.1.1.3.2) -/

/-- The base and the extra bits of a literals-length code. -/
def zLlCode (c : Nat) : Nat × Nat :=
  if c < 16 then (c, 0)
  else [(16, 1), (18, 1), (20, 1), (22, 1), (24, 2), (28, 2), (32, 3), (40, 3), (48, 4), (64, 6), (128, 7), (256, 8), (512, 9), (1024, 10),
    (2048, 11), (4096, 12), (8192, 13), (16384, 14), (32768, 15), (65536, 16)].getD (c - 16) (0, 0)

/-- The base and the extra bits of a match-length code. -/
def zMlCode (c : Nat) : Nat × Nat :=
  if c < 32 then (c + 3, 0)
  else [(35, 1), (37, 1), (39, 1), (41, 1), (43, 2), (47, 2), (51, 3), (59, 3), (67, 4), (83, 4), (99, 5), (131, 7), (259, 8), (515, 9),
    (1027, 10), (2051, 11), (4099, 12), (8195, 13), (16387, 14), (32771, 15), (65539, 16)].getD (c - 32) (0, 0)

/-- The predefined table of literals lengths. -/
def zLlDefault : ZTable :=
  zBuild 6 [4, 3, 2, 2, 2, 2, 2, 2, 2, 2, 2, 2, 2, 1, 1, 1, 2, 2, 2, 2, 2, 2, 2, 2, 2, 3, 2, 1, 1, 1, 1, 1, -1, -1, -1, -1]

/-- The predefined table of match lengths. -/
def zMlDefault : ZTable :=
  zBuild 6 ([1, 4, 3, 2, 2, 2, 2, 2, 2] ++ List.replicate 37 1 ++ [-1, -1, -1, -1, -1, -1, -1])

/-- The predefined table of offsets. -/
def zOffDefault : ZTable :=
  zBuild 5 ([1, 1, 1, 1, 1, 1, 2, 2, 2] ++ List.replicate 15 1 ++ [-1, -1, -1, -1, -1])

/-- The table of one kind of code that a mode names, from byte `i`: the table, and the byte after it. -/
def zModeTable (a : Array Nat) (mode i maxLog symbols : Nat) (deflt : ZTable) (last : Option ZTable) : Option (ZTable × Nat) :=
  if mode = 0 then some (deflt, i)
  else if mode = 1 then (if zByte a i < symbols then some (zOneSymbol (zByte a i), i + 1) else none)
  else if mode = 2 then zReadTable a i maxLog symbols
  else last.map fun t => (t, i)

/-- Bytes of the literals from `at_` on, appended. -/
def zCopyLits (lits : Array Nat) : (n at_ : Nat) → Array Nat → Array Nat
  | 0, _, out => out
  | n + 1, at_, out => zCopyLits lits n (at_ + 1) (out.push (lits.getD at_ 0))

/-- A match of `n` bytes at an offset back, appended. -/
def zCopyMatch (off : Nat) : (n : Nat) → Array Nat → Array Nat
  | 0, out => out
  | n + 1, out => zCopyMatch off n (out.push (out.getD (out.size - off) 0))

/-- The offset that an offset value means after `ll` literals, and the offsets that may repeat after it; none for an offset of 0. -/
def zOffset (v ll : Nat) (r : Nat × Nat × Nat) : Option (Nat × Nat × Nat × Nat) :=
  let k := if ll = 0 then v else v - 1
  if 3 < v then some (v - 3, v - 3, r.1, r.2.1)
  else if k = 0 then some (r.1, r)
  else if k = 1 then some (r.2.1, r.2.1, r.1, r.2.2)
  else
    let o := if k = 2 then r.2.2 else r.1 - 1
    if o = 0 then none else some (o, o, r.1, r.2.1)

/-- The three states of the sequences. -/
structure ZStates where
  ll : Nat
  off : Nat
  ml : Nat
  deriving DecidableEq, Repr

/-- `n` sequences run: the literals used, the output and the offsets after them. -/
def zSequences (a : Array Nat) (lits : Array Nat) (window : Nat) (tl to_ tm : ZTable) :
    (n : Nat) → ZBack → ZStates → Nat → Array Nat → Nat × Nat × Nat → Option (Nat × Array Nat × (Nat × Nat × Nat))
  | 0, s, _, used, out, reps => if s.past ∨ s.left ≠ 0 then none else some (used, out, reps)
  | n + 1, s, x, used, out, reps =>
    let co := (to_.at x.off).sym
    let cm := zMlCode (tm.at x.ml).sym
    let cl := zLlCode (tl.at x.ll).sym
    let s1 := s.skip co
    let s2 := s1.skip cm.2
    let s3 := s2.skip cl.2
    let ll := cl.1 + s2.peek a cl.2
    let ml := cm.1 + s1.peek a cm.2
    match zOffset (2 ^ co + s.peek a co) ll reps with
    | none => none
    | some (off, reps1) =>
      let have_ := out.size + ll
      if lits.size < used + ll ∨ have_ < off ∨ window < off then none
      else
        let out1 := zCopyMatch off ml (zCopyLits lits ll used out)
        if n = 0 then zSequences a lits window tl to_ tm 0 s3 x (used + ll) out1 reps1
        else
          let kl := tl.at x.ll
          let km := tm.at x.ml
          let ko := to_.at x.off
          let s4 := s3.skip kl.bits
          let s5 := s4.skip km.bits
          let y : ZStates := ⟨kl.base + s3.peek a kl.bits, ko.base + s5.peek a ko.bits, km.base + s4.peek a km.bits⟩
          zSequences a lits window tl to_ tm n (s5.skip ko.bits) y (used + ll) out1 reps1

/-- A compressed block of bytes [i, stop). -/
def zCompressed (a : Array Nat) (window i stop : Nat) (f : ZFrame) : Option ZFrame :=
  (zLiterals a f i stop).bind fun (lits, j, huf) =>
    let b := zByte a j
    let (n, k) := if b < 128 then (b, j + 1) else if b < 255 then ((b - 128) * 256 + zByte a (j + 1), j + 2) else (zLe a 2 (j + 1) + 0x7F00, j + 3)
    let g := { f with huf := huf }
    if stop < k then none
    else if n = 0 then (if k = stop then some { g with out := f.out ++ lits } else none)
    else
      let modes := zByte a k
      if modes % 4 ≠ 0 then none
      else
        (zModeTable a (modes / 64) (k + 1) 9 36 zLlDefault f.ll).bind fun (tl, k1) =>
        (zModeTable a (modes / 16 % 4) k1 8 32 zOffDefault f.off).bind fun (to_, k2) =>
        (zModeTable a (modes / 4 % 4) k2 9 53 zMlDefault f.ml).bind fun (tm, k3) =>
        if stop < k3 then none
        else (zOpen a k3 (stop - k3)).bind fun s =>
          let s1 := s.skip tl.log
          let s2 := s1.skip to_.log
          let x : ZStates := ⟨s.peek a tl.log, s1.peek a to_.log, s2.peek a tm.log⟩
          (zSequences a lits window tl to_ tm n (s2.skip tm.log) x 0 f.out f.reps).map fun (used, out, reps) =>
            { g with out := zCopyLits lits (lits.size - used) used out, ll := some tl, off := some to_, ml := some tm, reps := reps }

/-! ### Blocks and the frame (RFC 8878, 3.1.1) -/

/-- The blocks from byte `i` on: the content, and the byte after the last block. -/
def zBlocks (a : Array Nat) (window : Nat) : (fuel i : Nat) → ZFrame → Option (Array Nat × Nat)
  | 0, _, _ => none
  | fuel + 1, i, f =>
    let h := zLe a 3 i
    let size := h / 8
    let type := h / 2 % 4
    let most := Nat.min window 131072
    let stop := i + 3 + if type = 1 then 1 else size
    let next :=
      if a.size < stop ∨ most < size then none
      else if type = 0 then some { f with out := (List.range size).foldl (fun (o : Array Nat) k => o.push (zByte a (i + 3 + k))) f.out }
      else if type = 1 then some { f with out := f.out ++ Array.replicate size (zByte a (i + 3)) }
      else if type = 2 then zCompressed a window (i + 3) stop f
      else none
    match next with
    | none => none
    | some g => if most < g.out.size - f.out.size then none else if h % 2 = 1 then some (g.out, stop) else zBlocks a window fuel stop g

/-- A 64-bit word from byte `i`. -/
def xxWord (a : Array Nat) (i : Nat) : BitVec 64 := BitVec.ofNat 64 (zLe a 8 i)

/-- The five primes of XXH64. -/
def xxPrime (k : Nat) : BitVec 64 :=
  [0x9E3779B185EBCA87#64, 0xC2B2AE3D27D4EB4F#64, 0x165667B19E3779F9#64, 0x85EBCA77C2B2AE63#64, 0x27D4EB2F165667C5#64].getD k 0

/-- One round of XXH64. -/
def xxRound (acc x : BitVec 64) : BitVec 64 := (acc + x * xxPrime 1).rotateLeft 31 * xxPrime 0

/-- The four lanes after `n` stripes from byte `i`. -/
def xxStripes (a : Array Nat) : (n i : Nat) → BitVec 64 × BitVec 64 × BitVec 64 × BitVec 64 → BitVec 64 × BitVec 64 × BitVec 64 × BitVec 64
  | 0, _, v => v
  | n + 1, i, v => xxStripes a n (i + 32)
    (xxRound v.1 (xxWord a i), xxRound v.2.1 (xxWord a (i + 8)), xxRound v.2.2.1 (xxWord a (i + 16)), xxRound v.2.2.2 (xxWord a (i + 24)))

/-- A lane merged. -/
def xxMerge (acc v : BitVec 64) : BitVec 64 := (acc ^^^ xxRound 0 v) * xxPrime 0 + xxPrime 3

/-- The tail of fewer than 32 bytes: words of eight, one of four, bytes. -/
def xxTail (a : Array Nat) : (fuel i : Nat) → BitVec 64 → BitVec 64
  | 0, _, h => h
  | fuel + 1, i, h =>
    if i + 8 ≤ a.size then xxTail a fuel (i + 8) ((h ^^^ xxRound 0 (xxWord a i)).rotateLeft 27 * xxPrime 0 + xxPrime 3)
    else if i + 4 ≤ a.size then
      xxTail a fuel (i + 4) ((h ^^^ (BitVec.ofNat 64 (zLe a 4 i) * xxPrime 0)).rotateLeft 23 * xxPrime 1 + xxPrime 2)
    else if i < a.size then xxTail a fuel (i + 1) ((h ^^^ (BitVec.ofNat 64 (zByte a i) * xxPrime 4)).rotateLeft 11 * xxPrime 0)
    else h

/-- XXH64 of bytes, with seed 0. -/
def xxHash64 (a : Array Nat) : BitVec 64 :=
  let n := a.size / 32
  let v := xxStripes a n 0 (xxPrime 0 + xxPrime 1, xxPrime 1, 0, 0 - xxPrime 0)
  let h0 := if n = 0 then xxPrime 4
    else
      let h := v.1.rotateLeft 1 + v.2.1.rotateLeft 7 + v.2.2.1.rotateLeft 12 + v.2.2.2.rotateLeft 18
      xxMerge (xxMerge (xxMerge (xxMerge h v.1) v.2.1) v.2.2.1) v.2.2.2
  let h1 := xxTail a 32 (32 * n) (h0 + BitVec.ofNat 64 a.size)
  let h2 := (h1 ^^^ (h1 >>> 33)) * xxPrime 1
  let h3 := (h2 ^^^ (h2 >>> 29)) * xxPrime 2
  h3 ^^^ (h3 >>> 32)

/-- The window of a frame that is not a single segment, from its descriptor. -/
def zWindow (b : Nat) : Nat := 2 ^ (10 + b / 8) + 2 ^ (10 + b / 8) / 8 * (b % 8)

/-- The bytes that one Zstandard frame, which is all of its bytes, decompresses to; none where it is malformed, names a dictionary, has a window
above 8 MiB, or fails its checksum (R304). -/
def zstd (bs : List Byte) : Option (List Byte) :=
  let a := (bs.map (·.toNat)).toArray
  let d := zByte a 4
  let single := d / 32 % 2 == 1
  let dictLen := natAt [0, 1, 2, 4] (d % 4)
  let sizeLen := if d / 64 = 0 then b2n single else 2 ^ (d / 64)
  let p1 := if single then 5 else 6
  let p2 := p1 + dictLen
  let p3 := p2 + sizeLen
  let size := zLe a sizeLen p2 + if sizeLen = 2 then 256 else 0
  let window := if single then size else zWindow (zByte a 5)
  if zLe a 4 0 ≠ 0xFD2FB528 ∨ d / 8 % 2 ≠ 0 ∨ zLe a dictLen p1 ≠ 0 ∨ 0x800000 < window ∨ a.size < p3 then none
  else match zBlocks a window a.size p3 ⟨#[], none, none, none, none, (1, 4, 8)⟩ with
    | none => none
    | some (out, i) =>
      let check := d / 4 % 2
      let sum := zLe a 4 i
      if (sizeLen ≠ 0 ∧ out.size ≠ size) ∨ a.size ≠ i + 4 * check ∨ (check = 1 ∧ sum ≠ (xxHash64 out).toNat % 2 ^ 32) then none
      else some (out.toList.map byteOf)

end Sys2Proof.Machine
end

