-- ==== Sys2Proof/Machine/Tiers.lean ====
section
/-! DEFINITION. Where the bytes of shards and windows come from, and what the arrival engine makes of them (R19, R292, R295, R296, R303,
R304). -/

namespace Sys2Proof.Machine

/-- A stem slot. -/
def State.stemAt (s : State) (n : Nat) : StemSlot := s.ls.stems.getD n StemSlot.empty

/-- A stem slot set. -/
def State.setStem (s : State) (n : Nat) (t : StemSlot) : State :=
  { s with ls := { s.ls with stems := (List.range 2).map fun i => if i = n then t else s.stemAt i } }

/-- The gallery that holds a shard of an entry: its home, or for HOME 9 the gallery of the affix's slot, else of the
instance's window range, or its mirror's (DEDUCED: log entry 34). -/
def State.shardGal (s : State) (e : LexEntry) (x : Shard) : Option Nat :=
  if x.home < 8 then some x.home
  else if x.home = 9 then some (if e.slotted then slotGal e.slot else s.winGal e.inst)
  else none

/-- Two ranges share a byte. -/
def rangesMeet (a n b m : Nat) : Bool := decide (0 < n ∧ 0 < m ∧ a < b + m ∧ b < a + n)

/-! ### Where a shard comes from (R19, R303) -/

/-- A page of the manifest store can be read: the galleries of its two copies are not both fenced or parked (R19). -/
def State.manifestPageUp (s : State) (m : Nat) : Bool :=
  let down := fun g => s.galFenced g || s.galParked g
  !(down (1 + m % 3) && down (5 + m % 3))

/-- The page of a manifest that holds a shard's entry can be read; else what needs it waits (R19). -/
def State.manifestUp (s : State) (first : Nat) (m : Manifest) (shard : Nat) : Bool :=
  s.manifestPageUp (first + (32 + 64 * m.shards.findIdx fun x => x.shard == shard) / 4096)

/-- The galleries that hold the bytes of a shard, verified and resident: among the instance's own objects in serving form, or the stems; each with
the bytes and the digest recorded when they were verified (R303, R304, DEDUCED: log entry 59). -/
def State.copiesOf (s : State) (inst : Option Nat) (digest : List Word) : List (Nat × List Byte × List Word) :=
  match inst with
  | some n =>
    (s.ls.lex.filter fun (p : Nat × LexEntry) => p.2.inst == n && (p.2.state == 2 || p.2.state == 3) && p.2.form == 0).flatMap fun p =>
      ((p.2.man.map (·.shards)).getD []).filterMap fun y =>
        if y.digest ≠ digest then none
        else match s.shardGal p.2 y, p.2.shards.find? fun z => z.shard == y.shard && z.verified with
          | some h, some z =>
            let at_ := 64 * y.targetOff
            some (h, (if p.2.slotted then memRead s.mem.slot (slotKey p.2.slot 0 at_) y.bytes else memRead s.mem.obj (objKey p.1 h 0 at_) y.bytes), z.digest)
          | _, _ => none
  | none =>
    (List.range 2).flatMap fun k =>
      let t := s.stemAt k
      if t.state < 2 ∨ 5 < t.state then []
      else t.shards.filterMap fun q =>
        match ((t.projs[q.1]?).bind (·.man)).bind fun m => m.shards.find? fun y => y.shard == q.2.shard with
        | some y => if y.digest = digest ∧ q.2.verified then some (y.home, s.progRead y.home (s.stemBase k + 64 * y.targetOff) y.bytes, q.2.digest) else none
        | none => none

/-- The gallery that serves attempt 1 at a shard bound for a gallery: a side-link neighbour, else the lowest through the hall (R303). -/
def State.nearBytes (s : State) (inst : Option Nat) (g : Option Nat) (digest : List Word) : Option (List Byte × List Word) :=
  let cs := (s.copiesOf inst digest).filter fun c => some c.1 != g && !s.galFenced c.1 && !s.galParked c.1
  let from_ := fun (p : Nat → Bool) => ((List.range 8).filter p).findSome? fun h => (cs.find? fun c => c.1 == h).map (·.2)
  match from_ fun h => g.any fun x => sideAdjacent x h with
  | some c => some c
  | none => from_ fun _ => true

/-- The neighbour's bytes and digest for a shard of an entry. -/
def State.nearest (s : State) (e : LexEntry) (shard : Nat) : Option (List Byte × List Word) :=
  ((e.man.map (·.shards)).getD []).findSome? fun x =>
    if x.shard = shard then s.nearBytes (some e.inst) (s.shardGal e x) x.digest else none

/-- Bytes at a source of a manifest (Table 10-4); none where the drives that hold it are not all in use, or the host link is down (R292, R303). -/
def State.sourceRead (s : State) (src : Source) (n : Nat) : Option (List Byte) :=
  match src.type with
  | 0 => if s.linkOpen then some (memRead s.mem.host src.addr n) else none
  | 1 => if s.flashUp src.addr n then some (memRead s.mem.flash src.addr n) else none
  | _ => some (memRead s.mem.staging src.addr n)

/-- The source whose turn an attempt is: the shard's sources in order, cyclically, after the neighbour (R303). -/
def sourceOf (m : Manifest) (x : Shard) (st : ShardState) : Option Source := m.sources[x.srcFirst + (st.attempts - b2n st.near) % x.srcCount]?

/-! ### Arrival (R304) -/

/-- A record shard processed on arrival from a source: each page decrypted, its digest compared (R304 steps 1 and 2). -/
def State.arriveRecord (s : State) (id : Nat) (x : Shard) (data : List Byte) : Arrived :=
  let e := s.lexAt id
  let n := shardPages x.bytes
  if data.length ≠ 4096 * n + trailerBytes n then .bad 2
  else match decryptPages (s.keyAt e.keySlot) e.keySlot id (64 * x.targetOff / 4096) (data.take (4096 * n)) (data.drop (4096 * n)) n 0 with
    | .inr c => .bad c
    | .inl ps =>
      let pt := (ps.flatMap (·.1)).take x.bytes
      if sha256Words pt = x.digest then .good pt (ps.map (·.2)) 0 else .bad 2

/-- A neighbour's bytes, already processed, against the digest that the gallery recorded (R304). -/
def arriveNear (c : List Byte × List Word) : Arrived := if sha256Words c.1 = c.2 then .good c.1 [] 0 else .bad 2

/-- A stem shard through the arrival engine: digest, decompression, re-layout, quantiser (R304 steps 2 to 5), its scales and codebook read at their
offsets in the slot; padding columns of a tile, DESIGN CHOICE: log entry 119. -/
def arriveStem (read : Nat → Nat → List Byte) (p : StemProj) (x : Shard) (data : List Byte) : Arrived :=
  if data.length ≠ x.stored ∨ sha256Words data ≠ x.digest then .bad 2
  else match (if x.coding = 1 then zstd data else some data) with
    | none => .bad 3
    | some raw =>
      let e := if x.quant = 0 then 1 else 2
      let k := 32 * x.k32
      let elem := if x.quant = 0 then (if k * x.cols = 0 then 1 else raw.length / (k * x.cols)) else e
      let laid := if x.layout = 1 then tileOrder elem k x.cols raw else raw
      if x.quant = 0 then
        (if laid.length ≠ x.bytes then .bad 3
          else .good laid [] 0)
      else
        let scales := wordsOfBytes (read (64 * x.scaleOff) (4 * x.cols))
        let cb := if x.quant = 3 then wordsOfBytes (read (64 * x.cbOff) 64) else []
        let width := if x.layout = 1 then 128 else x.cols
        let rows := (List.range (laid.length / (2 * width))).map fun i => numsOf 2 width ((laid.drop (2 * width * i)).take (2 * width))
        -- in tile order row i belongs to column block i / K, whose columns have the scales from 128 (i / K) on
        let blocks := if x.layout = 1 then (List.range (ceilDiv x.cols 128)).map fun b =>
            quantise x.quant p.exp ((List.range 128).map fun c => if 128 * b + c < x.cols then wordAt scales (128 * b + c) else 0x3F800000#32) cb 128
              ((rows.drop (k * b)).take k)
          else [quantise x.quant p.exp scales cb width rows]
        if blocks.any (·.isNone) then .bad 4
        else
          let got := blocks.filterMap id
          let bs := got.flatMap (·.1)
          if bs.length = x.bytes then .good bs [] (got.map (·.2)).sum else .bad 3

/-! ### The tiers of a window (R295, R296) -/

/-- 64-byte pieces of a run, each from the first part (start, bytes) that holds it; none where a piece is in no part. -/
def pieces (parts : List (Nat × List Byte)) (off : Nat) : (n : Nat) → Option (List Byte)
  | 0 => some []
  | n + 1 => match parts.find? fun p => decide (p.1 ≤ off ∧ off + 64 ≤ p.1 + p.2.length) with
    | none => none
    | some p => (pieces parts (off + 64) n).map fun rest => (p.2.drop (off - p.1)).take 64 ++ rest

/-- The rows of a descriptor out of parts; none where they do not hold every byte. -/
def rowsOf (d : XferDesc) (parts : List (Nat × List Byte)) : Option (List Byte) :=
  (xRowOffs d).foldl (fun acc o => acc.bind fun bs => (pieces parts o (d.rowBytes.toNat / 64)).map fun r => bs ++ r) (some [])

/-- The record that an object-relative window names: the inflection's, or an affix's (Table 10-5). -/
def windowRecord (r : Request) (obj : Nat) : Option Nat := if obj = 0 then r.lexId else if 5 ≤ obj then r.affixes[obj - 5]? else none

/-- The rows of an object-relative window from the galleries that hold them: any gallery for a record, the receiving one for a reservation. -/
def State.galleryRows (s : State) (r : Request) (g : Nat) (d : XferDesc) : Option (List Byte) :=
  let gs := (if (windowRecord r d.obj.toNat).isSome then List.range 8 else [g]).filter fun h => !s.galFenced h && !s.galParked h
  (xRowOffs d).foldl (fun acc o => (List.range (d.rowBytes.toNat / 64)).foldl (fun acc k => acc.bind fun bs =>
    (gs.find? fun h => (s.objPlace r h d.obj.toNat (o + 64 * k)).isSome).map fun h => bs ++ s.objRead64 (some r) h d.obj.toNat (o + 64 * k)) acc) (some [])

/-- The shards of a record in serving form that its manifest's sources of a type hold, processed: (offset, bytes); those whose manifest page cannot be
read wait (R19). -/
def State.recordParts (s : State) (id type : Nat) : List (Nat × List Byte) :=
  let e := s.lexAt id
  if e.form = 1 ∨ e.converted then []
  else match e.man with
    | none => []
    | some m => (m.shards.filter fun x => s.manifestUp e.manifest m x.shard).filterMap fun x =>
        ((m.sources.drop x.srcFirst).take x.srcCount).findSome? fun y =>
          if y.type ≠ type then none
          else (s.sourceRead y x.stored).bind fun data => match s.arriveRecord id x data with
            | .good bs _ _ => some (64 * x.targetOff, bs)
            | .bad _ => none

/-- Bytes of a stem slot's region on a gallery. -/
def State.slotRead (s : State) (slot g off n : Nat) : List Byte := s.progRead g (s.stemBase slot + off) n

/-- A shard of a projection that windows bring: a TIERED one, or one whose home gallery is lost (R296, R425). -/
def State.windowed (s : State) (x : Shard) : Bool := x.tiered || s.galFenced x.home

/-- The stored bytes of a shard at its manifest's first source of a type that holds them. -/
def State.storedAt (s : State) (m : Manifest) (x : Shard) (type : Nat) : Option (List Byte) :=
  ((m.sources.drop x.srcFirst).take x.srcCount).findSome? fun y => if y.type ≠ type then none else s.sourceRead y x.stored

/-- The codebook of a C4 projection among the parts that hold it is admissible; parts that leave some of it out are judged in the slot (R116). -/
def partsCodebookOk (p : StemProj) (parts : List (Nat × List Byte)) : Bool :=
  p.code != 7 || match pieces parts (64 * p.cbOff) 1 with
    | some cb => codebookOk p.exp (wordsOfBytes cb)
    | none => true

/-- The shards of a projection that windows bring, processed: those that a neighbouring gallery holds (type 3), or that its manifest's sources of a type
hold; a shard whose codebook is not admissible is no source (R116), and one whose manifest page cannot be read waits (R19). -/
def State.tieredParts (s : State) (slot proj type : Nat) : List (Nat × List Byte) :=
  match (s.stemAt slot).projs[proj]? with
  | none => []
  | some p => match p.man with
    | none => []
    | some m =>
      let mine := m.shards.filter fun x => s.windowed x && s.manifestUp p.page m x.shard
      let take := fun (read : Nat → Nat → List Byte) (x : Shard) =>
        if type = 3 then (s.nearBytes none none x.digest).map fun c => (64 * x.targetOff, c.1)
        else (s.storedAt m x type).bind fun data => match arriveStem read p x data with
          | .good bs _ _ => some (64 * x.targetOff, bs)
          | .bad _ => none
      -- scales and codebooks that lie in shards of the same kind come with them
      let plain := (mine.filter fun x => x.quant == 0).filterMap (take fun _ _ => [])
      let read := fun (g off n : Nat) => if s.galFenced g then ((pieces plain off (ceilDiv n 64)).getD []).take n else s.slotRead slot g off n
      let parts := mine.filterMap fun x => take (read x.home) x
      if partsCodebookOk p parts then parts else parts.filter fun r => !rangesMeet r.1 r.2.length (64 * p.cbOff) 64

/-- The rows of a window from one tier: 3 a neighbouring gallery, 2 hall staging, 0 host memory, 1 the flash tier. -/
def State.tierRows (s : State) (f : Fill) (tier : Nat) : Option (List Byte) :=
  (s.reqAt f.handle).bind fun r =>
    if f.desc.hmode = 1 then rowsOf f.desc (s.tieredParts r.stem f.desc.stemProj.toNat tier)
    else if tier = 3 then s.galleryRows r f.gal f.desc
    else (windowRecord r f.desc.obj.toNat).bind fun id => rowsOf f.desc (s.recordParts id tier)

/-- The first tier among the window's SOURCES, in the order of R296, that holds its data. -/
def State.fillSource (s : State) (f : Fill) : Option (Nat × List Byte) :=
  ([(3, 8), (2, 4), (0, 1), (1, 2)] : List (Nat × Nat)).findSome? fun t =>
    if f.sources / t.2 % 2 = 0 then none else (s.tierRows f t.1).map fun bs => (t.1, bs)

/-- Bytes of a fill. -/
def Fill.bytes (f : Fill) : Nat := f.desc.rows.toNat * f.desc.rowBytes.toNat

end Sys2Proof.Machine
end

