-- ==== Sys2Proof/Machine/Residency.lean ====
section
/-! DEFINITION. Residency of lexicon objects: frames and quotas, pins, fetches, activation, eviction (R284 to R310), and
the ending of requests (R40, R51). -/

namespace Sys2Proof.Machine

/-! ### Requests that end -/

/-- A request is in progress: tracked and with no ending decided. -/
def Request.live (r : Request) : Bool := decide (r.state ≤ 2) && r.ending.isNone

/-- A request's ending decided: its record posts in phase B of the next landing; the first cause stands, and committed
output stays valid and flagged (R40, R51, R346). -/
def State.endReq (s : State) (h status : Nat) : State :=
  s.updReq h fun r => if r.live then
      { r with ending := some status, endTick := s.tk.count, flags := if r.committed > 0 then setFlag r.flags Flag.partialEnd else r.flags }
    else r

/-- A request that ends at the landing after the one that decides the command. -/
def State.endNext (s : State) (h status : Nat) : State :=
  (s.endReq h status).updReq h fun r => if r.ending.isSome ∧ r.endTick = s.tk.count then { r with endTick := s.tk.count + 1 } else r

/-- Every live request that a test picks ended with a status. -/
def State.endReqs (s : State) (status : Nat) (p : Request → Bool) : State :=
  (s.hs.reqs.filter fun r => r.live && p r).foldl (fun u r => u.endReq r.handle status) s

/-! ### Frames (R253, R285, R299) -/

/-- Frames of `n` bytes: 64 KiB each (R285). -/
def framesOf (n : Nat) : Nat := ceilDiv n 65536

/-- The affixes of a training object that its descriptors on the header page name. -/
def State.ownAffixes (s : State) (id : Nat) : List Nat :=
  let w := fun i => wordOf (natOfBytes (s.headRead id (4 * i) 4))
  (List.range (Nat.min ((w 15).field 31 24) ((4096 - (w 18).toNat) / 16))).map fun i => (w ((w 18).toNat / 4 + 4 * i)).field 31 8

/-- Frames an object needs on a gallery: its shards there, twice and with its gradient workspace in training form, and on a partner gallery both
planes of the whole object (R253, R279, R299). -/
def State.objFrames (s : State) (id g : Nat) : Nat :=
  let e := s.lexAt id
  match e.man with
  | none => 0
  | some m =>
    let n := ((m.shards.filter fun x => s.shardGal e x == some g).map (·.bytes)).sum
    let t := s.trainAt id
    let affixes := ((s.ls.slots.filter fun p => p.2.owner.isSome && (s.ownAffixes id).contains p.2.lexId).map fun p => (s.lexAt p.2.lexId).bytes).sum
    let mirror := if e.form = 1 ∧ t.mirrorGal = some g then 2 * framesOf (e.bytes + affixes) else 0
    if n = 0 then mirror
    else if e.form = 1 then 2 * framesOf n + framesOf t.gradBytes + mirror
    else framesOf n

/-- Frames an object needs on every gallery. -/
def State.objFrames8 (s : State) (id : Nat) : List Nat := (List.range 8).map (s.objFrames id)

/-- Frames that an instance's window range takes on a gallery, in each of its two copies (R330). -/
def State.winFrames (s : State) (n g : Nat) : Nat :=
  let h := s.fld (Reg.WIN_RANGE n) 4 2
  if g = h ∨ g = h ^^^ 4 then 1024 * s.fld (Reg.WIN_RANGE n) 18 5 else 0

/-- KV and activation frames of a request on a gallery. -/
def Request.framesOn (r : Request) (g : Nat) : Nat := natAt r.kv g + natAt r.act g

/-- Frames held by an instance's reservations on a gallery (RES_USED). -/
def State.instUsed (s : State) (n g : Nat) : Nat :=
  ((s.ls.lex.filter fun p => p.2.inst == n).map fun p => natAt p.2.frames g).sum
    + ((s.hs.reqs.filter fun r => r.inst == n && r.wait == 0).map fun r => r.framesOn g).sum + s.winFrames n g

/-- Frames an instance holds or has promised, victims on their way out left aside (R299). -/
def State.instPromised (s : State) (n g : Nat) : Nat :=
  ((s.ls.lex.filter fun p => p.2.inst == n && p.2.state != 4).map fun p =>
      if p.2.awaits then s.objFrames p.1 g else natAt p.2.frames g).sum
    + ((s.hs.reqs.filter fun r => r.inst == n).map fun r => r.framesOn g).sum + s.winFrames n g

/-- An instance's quota on a gallery. -/
def State.quota (s : State) (n g : Nat) : Nat := s.fld (Reg.RES_QUOTA n g) 20 0

/-- Objects of an instance that are resident or on their way (R299: RESIDENT_MAX). -/
def State.residentCount (s : State) (n : Nat) : Nat :=
  s.ls.lex.countP fun p => p.2.inst == n && decide (1 ≤ p.2.state ∧ p.2.state ≤ 3)

/-! ### Victims (R300) -/

/-- A training-form object that has committed steps since its last checkpoint of every group, or a record that LEX_CONVERT has changed since (R300, DESIGN CHOICE: log
entry 39). -/
def State.dirty (s : State) (id : Nat) : Bool := (s.trainAt id).dirty

/-- The victim order: least LAST_LANDING, then lowest id. -/
def victimBefore (a b : Nat × LexEntry) : Bool :=
  decide (a.2.lastLanding.toNat < b.2.lastLanding.toNat) || (a.2.lastLanding == b.2.lastLanding && decide (a.1 < b.1))

/-- The next victim of an instance: RESIDENT, not among `keepIds`, holding frames on the gallery asked for; a dirty object without
checkpoint copies is never one (R299, R300). -/
def State.nextVictim (s : State) (n : Nat) (keepIds : List Nat) (on : Option Nat) : Option Nat :=
  let cands := s.ls.lex.filter fun p => p.2.inst == n && p.2.state == 2 && !keepIds.contains p.1
    && on.all (fun g => natAt p.2.frames g != 0) && !(s.dirty p.1 && (s.trainAt p.1).ckptCopies.isEmpty)
  (cands.foldl (fun (b : Option (Nat × LexEntry)) p => match b with
    | none => some p
    | some q => if victimBefore p q then some p else some q) none).map (·.1)

/-- The checkpoints that hold a whole object: one a group; one for a record converted to serving form (DESIGN CHOICE: log entry 39). -/
def TrainObj.parts (t : TrainObj) : Nat := Nat.max t.groups.length (b2n !t.kept.isEmpty)

/-- A dirty object writes a checkpoint of every group before it leaves (R276, R300) (its corners, DEDUCED: log entry 107). -/
def State.queueCkpts (s : State) (id : Nat) : State :=
  let t := s.trainAt id
  s.setTrain id { t with ckptQueue := List.range t.parts }

/-- An object sent to EVICTING with its cause: 0 victim, 1 RES_EVICT, 2 forced; a clean one releases its frames in phase
C of the next landing (R297, R300). -/
def State.evict (s : State) (id cause : Nat) : State :=
  let e := s.lexAt id
  let due := if s.dirty id ∧ cause ≠ 2 then none else some (s.tk.count.toNat + 1)
  let s1 := s.setLex id { e with state := 4, evictDue := due, evictCause := cause }
  if due.isNone then s1.queueCkpts id else s1

/-- Where an instance lacks room for what it wants: a gallery over quota, or its limit on resident objects (R299, R300). -/
def State.lacking (s : State) (n : Nat) (more : List Nat) (objs : Nat) : Option (Option Nat) :=
  match (List.range 8).find? fun g => natAt more g != 0 && decide (s.quota n g < s.instPromised n g + natAt more g) with
  | some g => some (some g)
  | none => if objs != 0 && decide (s.fld (Reg.RES_LIMITS n) 14 0 < s.residentCount n + objs) then some none else none

/-- Victims taken until the wanted frames fit; none when no victim is left (R299). -/
def State.takeVictims (s : State) (n : Nat) (keepIds : List Nat) (more : List Nat) (objs : Nat) : (fuel : Nat) → Option State
  | 0 => none
  | fuel + 1 => match s.lacking n more objs with
    | none => some s
    | some on => match s.nextVictim n keepIds on with
      | none => none
      | some v => State.takeVictims (s.evict v 0) n keepIds more objs fuel

/-- Room made for a reservation, or none (R299) (its corners, DEDUCED: log entry 107). -/
def State.makeRoom (s : State) (n : Nat) (keepIds : List Nat) (more : List Nat) (objs : Nat) : Option State :=
  s.takeVictims n keepIds more objs (s.ls.lex.length + 1)

/-- Galleries on which a reservation of an instance still waits for frames. -/
def State.awaited (s : State) (n g : Nat) : Bool :=
  (s.ls.lex.any fun p => p.2.inst == n && p.2.awaits && s.objFrames p.1 g != 0)
    || s.hs.reqs.any fun r => r.inst == n && r.wait != 0 && r.framesOn g != 0

/-- Reservations of an instance whose victim was needed again take its next victims; where none exists they wait for the first object
that becomes RESIDENT (R301) (its corners, DEDUCED: log entry 107). -/
def State.chase (s : State) (n : Nat) : (fuel : Nat) → State
  | 0 => s
  | fuel + 1 =>
    let isOver := fun g => s.awaited n g && decide (s.quota n g < s.instPromised n g)
    match (List.range 8).findSome? fun g => if isOver g then s.nextVictim n [] (some g) else none with
    | some v => State.chase (s.evict v 0) n fuel
    | none =>
      if s.ls.lex.any (fun p => p.2.inst == n && p.2.awaits) && decide (s.fld (Reg.RES_LIMITS n) 14 0 < s.residentCount n) then
        match s.nextVictim n [] none with
        | some v => State.chase (s.evict v 0) n fuel
        | none => s
      else s

/-- The reservations of every instance that still wait. -/
def State.chaseVictims (s : State) : State := (List.range 64).foldl (fun u n => u.chase n (u.ls.lex.length + 1)) s

/-! ### Pins (R297) -/

/-- An object pinned by a request. -/
def State.pin (s : State) (id : Nat) : State :=
  let e := s.lexAt id
  s.setLex id { e with pins := e.pins + 1, state := if e.state = 2 then 3 else e.state, lastLanding := s.tk.count }

/-- A pin ended. -/
def State.unpin (s : State) (id : Nat) : State :=
  let e := s.lexAt id
  s.setLex id { e with pins := e.pins - 1, state := if e.state = 3 ∧ e.pins ≤ 1 then 2 else e.state, lastLanding := s.tk.count }

/-- EVICTING again needed before its frames are released (R301). -/
def State.cancelEviction (s : State) (id : Nat) : State :=
  let e := s.lexAt id
  let s1 := s.setLex id { e with state := if e.pins > 0 then 3 else 2, evictDue := none }
  (s1.countScoped Reg.RES_CANCELS (some e.inst) 1).raiseInst 0x3005 e.inst [wordOf id, wordOf s.tk.count.toNat]

/-- An object's frames zeroed (R409). -/
def State.zeroObject (s : State) (id : Nat) (e : LexEntry) : State :=
  let m1 := { s.mem with obj := memZero s.mem.obj (objKey id 0 0 0) (32 * 0x40000000) }
  { s with mem := if e.slotted then { m1 with slot := memZero m1.slot (slotKey e.slot 0 0) (4 * 0x40000000) } else m1 }

/-! ### Fetching (R297, R303) -/

/-- The progress of a fetch at its start; a shard that a conversion added has no source, and comes from the object's checkpoint (DESIGN CHOICE: log entry 39). -/
def freshShards (m : Manifest) : List ShardState := m.shards.map fun x => ⟨x.shard, 0, x.srcCount == 0, [], 0, true, 0, 0, 0, false⟩

/-- A manifest with the shards homed on galleries that are out taken by their stand-ins (R425, R427). -/
def Manifest.standIn (m : Manifest) (out : Nat → Bool) : Manifest :=
  { m with shards := m.shards.map fun x => if x.home < 8 ∧ out x.home then { x with home := x.home ^^^ 4 } else x }

/-- An ABSENT or FAILED object goes FETCHING; it starts when its frames can be held, and has a page of the header store from now on (R287, R299).  An
object of an instance that is frozen stays ABSENT until the thaw (R371). -/
def State.startFetch (s : State) (id : Nat) : State :=
  let e := s.lexAt id
  match e.man.map (·.standIn s.galFenced) with
  | none => s
  | some m =>
    if s.frozen e.inst then s.setLex id { e with state := 0 }
    else (s.hdrWrite (4096 * id) (e.first.takeD 4096 0)).setLex id { e with state := 1, awaits := true, frames := [], man := some m, shards := freshShards m }

/-- Frames given to the objects and requests that await them, in the order of the lexicon and of admission, while the
quota holds; a request that waited for nothing else is ADMITTED (R299, R301) (its corners, DEDUCED: log entry 73). -/
def State.grantFrames (s : State) : State :=
  let s1 := s.ls.lex.foldl (fun (u : State) p =>
    let e := u.lexAt p.1
    if !e.awaits then u
    else
      let need := u.objFrames8 p.1
      if (List.range 8).all fun g => decide (natAt need g = 0 ∨ u.instUsed e.inst g + natAt need g ≤ u.quota e.inst g) then
        u.setLex p.1 { e with awaits := false, frames := need, shards := e.shards.map fun x => { x with since := u.tk.now } }
      else u) s
  s1.hs.reqs.foldl (fun (u : State) r =>
    if r.wait = 0 then u
    else if (List.range 8).all fun g => decide (r.framesOn g = 0 ∨ u.instUsed r.inst g + r.framesOn g ≤ u.quota r.inst g) then
      u.updReq r.handle fun x =>
        if x.waits.isEmpty ∧ x.state = 0 then { x with wait := 0, state := 1, admitted := u.tk.count } else { x with wait := 0 }
    else u) s1

/-- DETAIL of the records of the live requests that need an object, where it has none yet: a check number of R239 or an attempt count (Table 12-8). -/
def State.noteDetail (s : State) (id n : Nat) : State :=
  let needs := fun (r : Request) => r.live && (r.waits.contains id || r.lexId == some id || r.affixes.contains id)
  { s with hs := { s.hs with reqs := s.hs.reqs.map fun r => if needs r && r.detail == 0 then { r with detail := n } else r } }

/-- An object fails: its waiting requests end, with ST_KEY_RETIRED where the attempts failed so (R303, R399) (its corners, DEDUCED: log entry 74). -/
def State.failObject (s00 : State) (id shard cause : Nat) : State :=
  let tries := (((s00.lexAt id).shards.find? fun x => x.shard == shard).map (·.attempts)).getD 0
  let s := s00.noteDetail id tries
  let e := s.lexAt id
  let open_ := e.shards.filter fun x => !x.verified
  let retired := !open_.isEmpty && open_.all fun x => x.cause == St.keyRetired
  let s0 := s.dropHead id
  let s1 := s0.setLex id { s0.lexAt id with state := 5, frames := [], awaits := false }
  let s2 := (s1.zeroObject id e).countScoped Reg.RES_FAILURES (some e.inst) 1
  let s3 := s2.raiseInst 0x3002 e.inst ([id, shard, cause].map wordOf)
  s3.endReqs (if retired then St.keyRetired else St.objectFailed) fun r => r.waits.contains id || r.lexId == some id || r.affixes.contains id

/-! ### Checkpoint copies at rest (R277, R300, R402) -/

/-- Flash bytes of an instance's range: base and end (RES_FLASH_RANGE). -/
def State.flashRange (s : State) (inst : Nat) : Nat × Nat :=
  let b := s.fld (Reg.RES_FLASH_RANGE inst) 31 16 * 0x400000000
  (b, b + s.fld (Reg.RES_FLASH_RANGE inst) 15 0 * 0x400000000)

/-- Bytes of a page of a checkpoint copy as they were put in host memory or in the flash tier, decrypted; none where it cannot be read or does not
authenticate. -/
def State.ckptRead (s : State) (id copy page : Nat) : Option (List Byte) :=
  let e := s.lexAt id
  let t := s.trainAt id
  let a := natAt t.ckptCopies copy + 4096 * page
  match t.ckptTrailers.lookup (0x100000 * copy + page) with
  | none => none
  | some p =>
    let ct := match p.host with
      | some h => if s.linkOpen then memRead s.mem.host h 4096 else []
      | none => if s.flashUp a 4096 then memRead s.mem.flash a 4096 else []
    ((s.keyAt e.keySlot).keyOf (wordOf p.epoch)).bind fun k =>
      gcmOpen (pageKey k e.keySlot p.epoch) (pageIv page p.ctr) (pageAad id e.keySlot p.epoch page) ct p.tag

/-- The last valid checkpoint copy of a group: the one that was not next, else the other (R277). -/
def TrainObj.ckptLast (t : TrainObj) (group : Nat) : Option Nat :=
  let next := natAt t.ckptNext group % 2
  ([1 - next, next].find? fun c => t.ckptValid.contains (group, c))

/-- The copies that a refetch of an object reads, the newest valid one of each group (R300). -/
def TrainObj.newest (t : TrainObj) : List Nat := ((List.range t.parts).filterMap t.ckptLast).dedup

/-- A shard of an object as the newest valid checkpoint copies hold it, in place of the manifest's sources; none where they leave a page of it out
(R300). -/
def State.ckptShard (s : State) (id : Nat) (x : Shard) : Option (List Byte) :=
  (pagesOf [(64 * x.targetOff, x.bytes)]).foldl (fun acc p => acc.bind fun bs =>
    ((s.trainAt id).newest.findSome? fun c => s.ckptRead id c p).map fun pt =>
      bs ++ (pt.drop (64 * x.targetOff - 4096 * p)).take (64 * x.targetOff + x.bytes - Nat.max (64 * x.targetOff) (4096 * p))) (some [])

/-! ### Budgets (R294) -/

/-- What the fetch engine moves for an instance under its budget. -/
inductive Work where
  | image (inst : Nat)
  | fill (gal window : Nat)
  | checkpoint (id : Nat)
  | shard (id shard : Nat)
  deriving DecidableEq, Repr

/-- Bytes of the host and flash tiers that an instance's budget covers in a tick. -/
def State.fetchBudget (s : State) (n : Nat) : Nat := s.fld (Reg.RES_INST_CFG n) 31 24 * 65536

/-- LOOKAHEAD: stages ahead of which an instance's fills are issued (R295) (its corners, DEDUCED: log entry 90). -/
def State.lookahead (s : State) (n : Nat) : Nat := s.fld (Reg.RES_INST_CFG n) 23 20

/-- The share of the fetch buffer that an instance owns, and what its fills hold of it (R286). -/
def State.bufferShare (s : State) (n : Nat) : Nat := s.fetchBudget n * (s.lookahead n + 1)
def State.bufferHeld (s : State) (n : Nat) : Nat := ((s.ls.fills.filter fun f => f.inst == n).map (·.data.length)).sum

/-- The place of an object among the fetches of an instance: that of the first request that waits for it; a prefetch comes after (R294). -/
def State.fetchTurn (s : State) (id : Nat) : Nat := s.hs.reqs.findIdx fun r => r.waits.contains id

/-- A fill's bytes come from the host or the flash tier (R294, R296). -/
def State.fillCharged (s : State) (f : Fill) : Bool := (s.fillSource f).any fun x => decide (x.1 ≤ 1)

/-- The bytes of the attempt in progress at a shard come from the host or the flash tier, and from neither a gallery nor hall staging (R294, R303). -/
def State.shardCharged (s : State) (e : LexEntry) (m : Manifest) (x : Shard) (st : ShardState) : Bool :=
  !(st.attempts == 0 && (s.nearest e x.shard).isSome) && (sourceOf m x st).any fun y => decide (y.type ≤ 1)

/-- The work of an instance in serving order, with the bytes left: fills by deadline, checkpoints, then residency fetches in admission order, those
left out whose manifest page cannot be read; a frozen instance has its image alone (R19, R294, R371, R377) (its corners, DEDUCED: log entry 101). -/
def State.workOf (s : State) (n : Nat) : List (Work × Nat) :=
  let fills := (s.ls.fills.filter fun f => f.inst == n && !f.present && s.fillCharged f).insertionSort fun a b => a.deadline ≤ b.deadline
  let cks := s.ls.train.filter fun p => p.2.ckptActive.isSome && (s.lexAt p.1).inst == n
  let objs := (s.ls.lex.filter fun p => p.2.inst == n && p.2.state == 1 && !p.2.awaits).insertionSort fun a b => s.fetchTurn a.1 ≤ s.fetchTurn b.1
  let image := if (s.instAt n).imgLeft = 0 then [] else [(Work.image n, (s.instAt n).imgLeft)]
  image ++ (fills.map fun f => (.fill f.gal f.window, f.bytes - f.got)) ++ (cks.map fun p => (.checkpoint p.1, p.2.ckptLeft))
    ++ objs.flatMap fun p => match p.2.man with
      | none => []
      | some m => (p.2.shards.filter fun st => !st.verified).filterMap fun st =>
          (m.shards.find? fun x => x.shard == st.shard).bind fun x =>
            if s.shardCharged p.2 m x st && s.manifestUp p.2.manifest m x.shard then some (.shard p.1 st.shard, x.stored - st.got) else none

/-- What each piece of work gets of a number of bytes, in order. -/
def serve : Nat → List (Work × Nat) → List (Work × Nat)
  | _, [] => []
  | b, (w, n) :: ws => (w, Nat.min b n) :: serve (b - Nat.min b n) ws

/-- The bytes that an instance's work gets of what is left of the tick's budget. -/
def State.shares (s : State) (n : Nat) : List (Work × Nat) := serve (s.fetchBudget n - smGet (fun _ => 0) s.ls.fetched n) (s.workOf n)

/-- A piece of work with `left` bytes ends in this tick: the budget covers them after what is served before it; fetches for the physical function's own
instance and for stems are charged to none (R294). -/
def State.covered (s : State) (n : Nat) (w : Work) (left : Nat) : Bool := n == 0 || decide (left ≤ ((s.shares n).lookup w).getD 0)

/-- Bytes charged to an instance's budget of the tick. -/
def State.charge (s : State) (n bytes : Nat) : State :=
  { s with ls := { s.ls with fetched := smModify (fun _ => 0) s.ls.fetched n (· + bytes) } }

/-- One piece of work the further by some bytes. -/
def State.progress (s : State) (x : Work × Nat) : State :=
  match x.1 with
  | .image n => s.updInst n fun i => { i with imgLeft := i.imgLeft - x.2 }
  | .fill g w => { s with ls := { s.ls with fills := s.ls.fills.map fun f => if f.gal = g ∧ f.window = w then { f with got := f.got + x.2 } else f } }
  | .checkpoint id => let t := s.trainAt id; s.setTrain id { t with ckptLeft := t.ckptLeft - x.2 }
  | .shard id k =>
    let e := s.lexAt id
    s.setLex id { e with shards := e.shards.map fun y => if y.shard = k then { y with got := y.got + x.2 } else y }

/-- The end of a tick: what was left of each budget has gone into the work in hand, and bytes it did not cover wait for the next tick; a RES_STORE that
went past the budget takes from those to come (R294) (its corners, DEDUCED: log entry 101). -/
def State.engineTick (s : State) : State :=
  let s1 := ((List.range 64).filter (· != 0)).foldl (fun (u : State) n => ((u.shares n).filter fun x => x.2 != 0).foldl State.progress u) s
  let over_ := (s.ls.fetched.map fun p => (p.1, p.2 - s.fetchBudget p.1)).filter fun p => p.2 != 0
  { s1 with ls := { s1.ls with fetched := over_ } }

/-- An attempt at `stored` bytes that began at `since` has run out of time: max(4 × expected, 1 ms); with no charge the budget is taken as 1 MiB, and
with a budget of 0 no time is expected (R303, DESIGN CHOICE: log entry 60). -/
def State.overdue (s : State) (n : Nat) (stored since : Nat) : Bool :=
  let b := if n = 0 then 0x100000 else s.fetchBudget n
  b != 0 && decide (since + Nat.max (4 * ceilDiv stored b * s.tickUnits) msUnits ≤ s.tk.now + s.tickUnits)

/-! ### Attempts (R303) -/

/-- An attempt at a shard fails: the next follows, and the fourth failure fails the object (R303). -/
def State.failAttempt (s : State) (id shard cause : Nat) : State :=
  let e := s.lexAt id
  match e.shards.find? fun x => x.shard == shard with
  | none => s
  | some x =>
    let n := x.attempts + 1
    let near := x.near || (x.attempts == 0 && (s.nearest e shard).isSome)
    let kept := if x.attempts = 0 ∨ x.cause = St.keyRetired then cause else x.cause
    let sh := e.shards.map fun y => if y.shard = shard then { y with attempts := n, cause := kept, since := s.tk.now, got := 0, near := near } else y
    let s1 := (s.setLex id { e with shards := sh }).countScoped Reg.RES_RETRIES (some e.inst) 1
    let s2 := s1.raiseInst 0x3003 e.inst ([id, shard, n, cause].map wordOf)
    if 4 ≤ n then s2.failObject id shard cause else s2

/-- A record or image format that the running firmware reads: from its REC_FMT_MIN to its REC_FMT (R239, R475, Table 17-2). -/
def State.acceptsFormat (s : State) (v : Nat) : Bool :=
  let w := wordAt s.boot.fw 5
  decide (w.field 7 0 ≤ v ∧ v ≤ w.field 15 8)

/-- The format in which an instance's records and images are written: its REC_FMT, 0 for the newest (R475, Table 17-4). -/
def State.recFmt (s : State) (n : Nat) : Nat :=
  let f := (wordAt s.boot.cfg (640 + 64 * n + 22)).field 7 0
  if f = 0 then (wordAt s.boot.fw 5).field 15 8 else f

/-- A word of the first page of a record (its corners, DEDUCED: log entry 79). -/
def State.headerWord (s : State) (id i : Nat) : Word := wordOf (natOfBytes (s.headRead id (4 * i) 4))

/-- The homed ranges of a record: (gallery, offset, bytes). -/
def State.recRanges (s : State) (id : Nat) : List (Nat × Nat × Nat) :=
  let e := s.lexAt id
  match e.man with
  | some m => m.shards.filterMap fun x => (s.shardGal e x).map fun g => (g, 64 * x.targetOff, x.bytes)
  | none => []

/-- Bytes [off, off + n) of a record from a plane of its frames or of its slot; a byte that no shard places is that of `init`. -/
def State.planeOver (s : State) (id plane off n : Nat) (init : List Byte) : List Byte :=
  let e := s.lexAt id
  if e.slotted then memRead s.mem.slot (slotKey e.slot plane off) n
  else (s.recRanges id).foldl (fun acc r =>
    let lo := Nat.max off r.2.1
    let hi := Nat.min (off + n) (r.2.1 + r.2.2)
    if hi ≤ lo then acc
    else acc.take (lo - off) ++ memRead s.mem.obj (objKey id r.1 plane lo) (hi - lo) ++ acc.drop (hi - off)) init

/-- Bytes of a plane; a byte that no shard places reads 0. -/
def State.planeRead (s : State) (id plane off n : Nat) : List Byte := s.planeOver id plane off n (List.replicate n 0)

/-- Bytes of the record of an object: its header page from the header store, the rest from plane 0. -/
def State.recordRead (s : State) (id off n : Nat) : List Byte :=
  if off + n ≤ 4096 then s.headRead id off n else s.planeRead id 0 off n

/-- The galleries that mirror a record: its own object's, or that of an inflection whose descriptors name the affix (R248, R279). -/
def State.mirrorGals (s : State) (id : Nat) : List Nat :=
  ((s.trainAt id).mirrorGal.toList ++ (s.ls.train.filter fun p => p.1 != id && (s.ownAffixes p.1).contains id).filterMap fun p => p.2.mirrorGal).dedup

/-- Record bytes written in both planes, in those of a mirror (R279) and, within the first page, in the header store. -/
def State.recordWrite (s : State) (id off : Nat) (bs : List Byte) : State :=
  let e := s.lexAt id
  let both := fun (m : Mem) (k : Nat → Nat) (b : List Byte) => memWrite (memWrite m (k 0) b) (k 1) b
  let s1 := if off + bs.length ≤ 4096 then s.hdrWrite (4096 * id + off) bs else s
  let mem := if e.slotted then { s1.mem with slot := both s1.mem.slot (fun p => slotKey e.slot p off) bs }
    else { s1.mem with obj := (s.recRanges id).foldl (fun m r =>
      let lo := Nat.max off r.2.1
      let hi := Nat.min (off + bs.length) (r.2.1 + r.2.2)
      if hi ≤ lo then m else both m (fun p => objKey id r.1 p lo) ((bs.drop (lo - off)).take (hi - lo))) s1.mem.obj }
  { s1 with mem := { mem with obj := (if e.form = 1 then s.mirrorGals id else []).foldl (fun m g => both m (fun p => objKey id g p off) bs) mem.obj } }

/-- The whole record of a held object, page by page. -/
def State.recordRead8 (s : State) (id : Nat) : List Byte := (List.range (s.lexAt id).pages).flatMap fun p => s.recordRead id (4096 * p) 4096

/-- A page of a record from a plane of its frames; what no shard places there, from the header store. -/
def State.planePage (s : State) (id plane page : Nat) : List Byte :=
  s.planeOver id plane (4096 * page) 4096 (if page = 0 then s.headRead id 0 4096 else List.replicate 4096 0)

/-- The digest of a record as the device has just written it: its current plane (R253, R395). -/
def State.digestRecord (s : State) (id : Nat) : State :=
  s.setLex id { s.lexAt id with
    recDigest := sha256Words ((List.range (s.lexAt id).pages).flatMap fun p => s.planePage id (s.trainAt id).cur p) }

/-- The words of entry `i` of a table of a record. -/
def State.recordWords (s : State) (id off words i : Nat) : List Word :=
  wordsOfBytes (s.recordRead id (off + 4 * words * i) (4 * words))

/-- The parameter groups of an inflection in training form (R261) (its corners, DEDUCED: log entry 71). -/
def State.recordGroups (s : State) (id : Nat) : List (List Word) :=
  let e := s.lexAt id
  if e.form = 0 then []
  else
    let n := (s.headerWord id (if e.kind = 1 then 15 else 14)).field 15 0
    let off := (s.headerWord id (if e.kind = 1 then 19 else 16)).toNat
    (List.range n).map (s.recordWords id off 16)

/-- The affixes an inflection's descriptors name, as far as the device holds the descriptors: the verified first page,
and the whole record once resident (R227, DEDUCED: log entry 36). -/
def State.recordAffixes (s : State) (id : Nat) : List Nat :=
  let off := (s.headerWord id 18).toNat
  let n := (s.headerWord id 15).field 31 24
  let seen := if (s.lexAt id).held then n else Nat.min n ((4096 - off) / 16)
  (List.range seen).map fun i => (wordAt (s.recordWords id off 4 i) 0).field 31 8

/-- Runs in ascending order, each after the one before it (R225: no two tables overlap). -/
def runsApart : List (Nat × Nat) → Bool
  | x :: y :: ys => decide (x.1 + x.2 ≤ y.1) && runsApart (y :: ys)
  | _ => true

/-- Bytes from `e` on that runs in ascending order leave out are 0 (R225). -/
def gapsZero (rec : List Byte) : Nat → List (Nat × Nat) → Bool
  | e, [] => (rec.drop e).all (· == 0)
  | e, x :: xs => ((rec.drop e).take (x.1 - e)).all (· == 0) && gapsZero rec (Nat.max e (x.1 + x.2)) xs

/-- The tables and data of a record as (offset, bytes): inside the record, apart from one another, and with 0 in every byte that none covers
(R225, R230). -/
def layoutOk (rec : List Byte) (runs : List (Nat × Nat)) : Bool :=
  let rs := sortRuns (runs.filter fun r => r.2 != 0)
  rs.all (fun r => decide (r.1 + r.2 ≤ rec.length)) && runsApart rs && gapsZero rec 0 rs

/-- Channel ranges of the projections of a layer are apart and inside its block, their PROJ strictly ascending (Table 8-5, R226). -/
def channelsOk (channels : Nat) (ps : List (List Word)) : Bool :=
  let rs := ps.map fun p => ((wordAt p 1).field 31 16, (wordAt p 1).field 15 0)
  let idx := ps.map fun p => (wordAt p 0).field 31 24
  rs.all (fun r => decide (r.1 + r.2 ≤ channels)) && runsApart (sortRuns (rs.filter fun r => r.2 != 0))
    && (List.range (idx.length - 1)).all fun i => decide (natAt idx i < natAt idx (i + 1))

/-- Check 7 in the tables of an inflection record that has arrived: layers, projections, affix descriptors, vector blocks, state records (R225 to
R228). -/
def State.inflTablesOk (s : State) (id groups : Nat) : Bool :=
  let e := s.lexAt id
  let w := s.headerWord id
  let layers := (List.range ((w 14).field 31 16)).map (s.recordWords id (w 16).toNat 4)
  let projs := (List.range ((w 14).field 15 0)).map (s.recordWords id (w 17).toNat 4)
  let affs := (List.range ((w 15).field 31 24)).map (s.recordWords id (w 18).toNat 4)
  let runs := [(0, 128), ((w 16).toNat, 16 * layers.length), ((w 17).toNat, 16 * projs.length), ((w 18).toNat, 16 * affs.length), ((w 19).toNat, 64 * groups)]
    ++ (layers.map fun x => ((wordAt x 2).toNat, 4 * (wordAt x 3).field 31 16))
    ++ (if e.form = 0 then [] else projs.flatMap fun p =>
      [((wordAt p 2).toNat, 8 * (wordAt p 1).field 15 0), ((wordAt p 3).toNat, 8 * (wordAt p 1).field 15 0)])
  layers.all (fun x => (wordAt x 1).field 15 0 == 0 && decide (1 ≤ (wordAt x 1).field 31 16 ∧ (wordAt x 1).field 31 16 ≤ 256)
      && (wordAt x 2).toNat % 64 == 0 && (wordAt x 3).field 15 0 == 0 && decide (1 ≤ (wordAt x 3).field 31 16)
      && decide ((wordAt x 0).field 15 0 + (wordAt x 1).field 31 16 ≤ projs.length)
      && channelsOk ((wordAt x 3).field 31 16) ((projs.drop ((wordAt x 0).field 15 0)).take ((wordAt x 1).field 31 16)))
    && (List.range (layers.length - 1)).all (fun i =>
      decide ((wordAt (layers.getD i []) 0).field 31 16 < (wordAt (layers.getD (i + 1) []) 0).field 31 16))
    && projs.all (fun x => (wordAt x 0).field 15 0 == 0 && (e.form == 1 || ((wordAt x 0).field 23 16 == 0 && wordAt x 2 == 0 && wordAt x 3 == 0))
      && (e.form == 0 || decide ((wordAt x 0).field 23 16 < groups)))
    && affs.all (fun x => (wordAt x 0).field 7 0 == 0 && (wordAt x 1).field 13 0 == 0 && decide ((wordAt x 1).field 15 14 ≤ 1)
      && wordAt x 3 == 0 && (if (wordAt x 1).field 15 14 = 0 then fvFinite (f32 (wordAt x 2)) else wordAt x 2 == 0))
    && layoutOk (s.recordRead8 id) runs

/-- The matrix entries of an affix record. -/
def State.matrices (s : State) (id : Nat) : List (List Word) :=
  (List.range ((s.headerWord id 14).field 31 24)).map (s.recordWords id (s.headerWord id 15).toNat 4)

/-- Check 7 in the tables of an affix record that has arrived (R230, Table 8-10). -/
def State.affixTablesOk (s : State) (id groups : Nat) : Bool :=
  let e := s.lexAt id
  let w := s.headerWord id
  let mats := s.matrices id
  let n := fun (x : List Word) => (wordAt x 0).field 31 16 * (wordAt x 0).field 15 0
  let runs := [(0, 128), ((w 15).toNat, 16 * mats.length), ((w 16).toNat, 64 * groups)]
    ++ (mats.map fun x => ((wordAt x 2).toNat, 2 * n x)) ++ (if e.form = 0 then [] else mats.map fun x => ((wordAt x 3).toNat, 8 * n x))
  mats.all (fun x =>
      decide (1 ≤ (wordAt x 0).field 31 16 ∧ 1 ≤ (wordAt x 0).field 15 0) && (wordAt x 1).field 19 0 == 0
        && (if e.form = 1 then (wordAt x 1).field 31 28 == 2 && decide ((wordAt x 1).field 27 20 < groups)
          else ((wordAt x 1).field 31 28 == 1 || (wordAt x 1).field 31 28 == 2) && (wordAt x 1).field 27 20 == 0 && wordAt x 3 == 0)
        && (wordAt x 2).toNat % 64 == 0)
    && layoutOk (s.recordRead8 id) runs

/-- Check 7 goes on into the tables of a record that has arrived (R225 to R230, R261). -/
def State.tablesCheck (s : State) (id : Nat) : Bool :=
  let groups := s.recordGroups id
  ((List.range groups.length).all fun i => groupOk (i == 0) (groups.getD i []))
    && (if (s.lexAt id).kind = 1 then s.inflTablesOk id groups.length else s.affixTablesOk id groups.length)

/-- The number of the check of R239 that a record which has arrived fails. -/
def State.recordCheck (s : State) (id : Nat) : Option Nat :=
  match headerCheck (s.lexAt id) id s.acceptsFormat (s.headerWord id) with
  | some n => some n
  | none => if s.tablesCheck id then none else some 7

/-- A record rejected by R239; the requests that need it say by which check. -/
def State.rejectRecord (s : State) (id check : Nat) : State :=
  (s.noteDetail id check).raiseInst 0x3044 (s.lexAt id).inst [wordOf id, wordOf check]

/-! ### Arrival (R304) -/

/-- A processed shard of an object put in its frames, in both planes of a training form (R253), and its header page in
the header store (R287). -/
def State.placeShard (s : State) (id : Nat) (x : Shard) (bs : List Byte) : State :=
  let e := s.lexAt id
  let off := 64 * x.targetOff
  let put := fun (m : Mem) (k : Nat → Nat) =>
    let m1 := memWrite m (k 0) bs
    if e.form = 1 then memWrite m1 (k 1) bs else m1
  let s1 := if off < 4096 then s.hdrWrite (4096 * id + off) (bs.take (4096 - off)) else s
  if x.home = 8 then s1
  else if e.slotted then { s1 with mem := { s1.mem with slot := put s1.mem.slot fun p => slotKey e.slot p off } }
  else match s.shardGal e x with
    | some g => { s1 with mem := { s1.mem with obj := put s1.mem.obj fun p => objKey id g p off } }
    | none => s1

/-- Pages tracked under their epochs: (page, epoch), the newest for a page first (R399). -/
def trackPages (old : List (Nat × Nat)) (first : Nat) (epochs : List Nat) : List (Nat × Nat) :=
  let fresh := (List.range epochs.length).map fun i => (first + i, natAt epochs i)
  fresh ++ old.filter fun p => !(fresh.any fun q => q.1 == p.1)

/-- What an attempt at a shard of an object brings: from the neighbour whose turn is first, else from the newest checkpoint copies that hold it, else from the
source whose turn it is (R300, R303, R304). -/
def State.attempt (s : State) (id : Nat) (m : Manifest) (x : Shard) (st : ShardState) : Arrived :=
  match (if st.attempts = 0 then s.nearest (s.lexAt id) x.shard else none) with
  | some c => arriveNear c
  | none => match s.ckptShard id x with
    | some bs => .good bs [] 0
    | none => match (sourceOf m x st).bind fun y => s.sourceRead y x.stored with
      | none => .bad 5
      | some data => s.arriveRecord id x data

/-- The bytes of an attempt charged and counted, unless a neighbour or hall staging brings them; none where the tick's budget does not cover them
(R294, Table 18-1). -/
def State.attemptCharge (s : State) (id : Nat) (m : Manifest) (x : Shard) (st : ShardState) : Option State :=
  let e := s.lexAt id
  if st.attempts = 0 ∧ (s.nearest e x.shard).isSome then some s
  else
    let left := x.stored - st.got
    let tier := s.shardCharged e m x st
    if tier && !s.covered e.inst (.shard id x.shard) left then none
    else some ((if tier && e.inst != 0 then s.charge e.inst left else s).tallySource (some e.inst) m x (st.attempts - b2n st.near) x.stored)

/-- An object's shard and the progress of its fetch, while a fetch of it is under way, its instance is not frozen and its manifest can be read (R19,
R303, R371). -/
def State.fetching (s : State) (id shard : Nat) : Option (Manifest × Shard × ShardState) :=
  let e := s.lexAt id
  match e.man with
  | none => none
  | some m =>
    match m.shards.find? (fun x => x.shard == shard), e.shards.find? (fun x => x.shard == shard) with
    | some x, some st => if e.state = 1 ∧ !e.awaits ∧ !st.verified ∧ !s.frozen e.inst ∧ s.manifestUp e.manifest m shard then some (m, x, st) else none
    | _, _ => none

/-- A shard of an object arrives. -/
def State.lexArrival (s : State) (id shard : Nat) : State :=
  match s.fetching id shard with
  | none => s
  | some (m, x, st) => match s.attemptCharge id m x st with
    | none => s
    | some s0 => match s.attempt id m x st with
      | .bad c => s0.failAttempt id shard c
      | .good bs epochs _ =>
        let s1 := s0.placeShard id x bs
        let e := s1.lexAt id
        s1.setLex id { e with
          shards := e.shards.map fun y => if y.shard = shard then { y with verified := true, digest := sha256Words bs } else y
          epochPages := trackPages e.epochPages (64 * x.targetOff / 4096) epochs }

/-! ### Activation (R298) -/

/-- A stem accepts a record's digest (R220). -/
def StemSlot.accepts (t : StemSlot) (d : List Word) : Bool := t.digest == d || t.compat.contains d

/-- Every projection an inflection names exists in the stem with its channels (R241) (its corners, DEDUCED: log entry 74). -/
def State.shapesMatch (s : State) (id : Nat) (t : StemSlot) : Bool :=
  let w := s.headerWord id
  (List.range ((w 14).field 31 16)).all fun i =>
    let l := s.recordWords id (w 16).toNat 4 i
    let layer := (wordAt l 0).field 31 16
    (List.range ((wordAt l 1).field 31 16)).all fun j =>
      let p := s.recordWords id (w 17).toNat 4 ((wordAt l 0).field 15 0 + j)
      t.projs.any fun x => x.layer == layer && x.proj == (wordAt p 0).field 31 24 && x.outCh == (wordAt p 1).field 15 0

/-- What a request finds when its inflection becomes resident: R240 on the affix descriptors that admission did not hold, then the shapes of R241 (its corners, DEDUCED: log entry 80). -/
def State.residentRefusal (s : State) (r : Request) (id : Nat) : Option Nat :=
  let t := s.stemAt r.stem
  let affs := s.recordAffixes id
  if affs.any fun a => !t.accepts (s.lexAt a).stemDigest then some St.stemMismatch
  else if affs.any fun a => (s.slotOf r.handle a).isNone then some St.noAffix
  else if affs.any fun a => (s.lexAt a).state == 5 then some St.objectFailed
  else if !s.shapesMatch id t then some St.stemMismatch
  else none

/-- A request takes the affixes that its inflection names and admission did not know: each is pinned and, while not resident, fetched and waited for
(R227, R240). -/
def State.addAffixes (s : State) (r : Request) (id : Nat) : State :=
  let new := ((s.recordAffixes id).filter fun a => !r.affixes.contains a).dedup
  (new.foldl (fun u a => (if (u.lexAt a).state = 0 then u.startFetch a else if (u.lexAt a).state = 4 then u.cancelEviction a else u).pin a) s).updReq r.handle fun x =>
    { x with affixes := s.recordAffixes id, waits := x.waits ++ new.filter fun a => !(s.lexAt a).held }

/-- Requests that waited for an object: eligible once nothing they wait for is left (its corners, DEDUCED: log entry 80). -/
def State.wakeWaiters (s : State) (id : Nat) : State :=
  (s.hs.reqs.map (·.handle)).foldl (fun (u : State) h =>
    match u.reqAt h with
    | none => u
    | some r =>
      if !(r.live && r.waits.contains id) then u
      else match (if r.lexId = some id then u.residentRefusal r id else none) with
        | some st => u.endReq h st
        | none =>
          (if r.lexId = some id then u.addAffixes r id else u).updReq h fun x =>
            let rest := x.waits.filter fun y => y != id
            if rest.isEmpty ∧ x.state = 0 ∧ x.wait = 0 then { x with waits := rest, state := 1, admitted := u.tk.count } else { x with waits := rest }) s

/-- Every shard of a FETCHING object is verified. -/
def LexEntry.complete (e : LexEntry) : Bool := e.state == 1 && !e.awaits && !e.shards.isEmpty && e.shards.all (·.verified)

/-- The homed ranges of an inflection: (gallery, offset, bytes). -/
def LexEntry.ranges (e : LexEntry) : List (Nat × Nat × Nat) :=
  match e.man with
  | some m => (m.shards.filter fun x => decide (x.home < 8)).map fun x => (x.home, 64 * x.targetOff, x.bytes)
  | none => []

/-- The slots that hold the affixes of a training object (R248) (its corners, DEDUCED: log entry 71). -/
def State.affixSlots (s : State) (id : Nat) : List Nat :=
  (s.ls.slots.filter fun p => p.2.owner.isSome && (s.recordAffixes id).contains p.2.lexId).map (·.1)

/-- What a mirror copies: the bytes of a plane with the place of its copy on the partner (R279): (read, key of the copy). -/
def State.mirrorRuns (s : State) (id p plane : Nat) : List (List Byte × Nat) :=
  ((s.lexAt id).ranges.map fun r => (memRead s.mem.obj (objKey id r.1 plane r.2.1) r.2.2, objKey id p plane r.2.1))
    ++ (s.affixSlots id).map fun n =>
      let a := (s.slotAt n).lexId
      (memRead s.mem.slot (slotKey n plane 0) (s.lexAt a).bytes, objKey a p plane 0)

/-- Both planes of an affix in a slot copied to the galleries that mirror it, once it is usable there (R232, R279). -/
def State.mirrorAffix (s : State) (a : Nat) : State :=
  let e := s.lexAt a
  if !e.slotted ∨ e.form = 0 then s
  else { s with mem := { s.mem with obj := (s.mirrorGals a).foldl (fun m g => (List.range 2).foldl (fun m p =>
    memWrite m (objKey a g p 0) (memRead s.mem.slot (slotKey e.slot p 0) e.bytes)) m) s.mem.obj } }

/-- Both planes of the whole object copied to the partner gallery when a mirrored object becomes resident (R279). -/
def State.mirrorInit (s : State) (id : Nat) : State :=
  match (s.trainAt id).mirrorGal with
  | none => s
  | some p => { s with mem := { s.mem with obj := (s.mirrorRuns id p 0 ++ s.mirrorRuns id p 1).foldl (fun m r => memWrite m r.2 r.1) s.mem.obj } }

/-! ### What a checkpoint of a group holds (R253, R276, R277) -/

/-- The parameter-group table of a record: its offset and its entries (Tables 8-3, 8-9). -/
def State.groupTable (s : State) (id : Nat) : Nat × Nat :=
  let w := s.headerWord id
  if (s.lexAt id).kind = 1 then ((w 19).toNat, (w 15).field 15 0) else ((w 16).toNat, (w 14).field 15 0)

/-- The ranges of a record that belong to a group: its state records and serving copies (R253, R276). -/
def State.groupRanges (s : State) (id group : Nat) : List (Nat × Nat) :=
  let w := s.headerWord id
  if (s.lexAt id).kind = 1 then
    ((List.range ((w 14).field 31 16)).map (s.recordWords id (w 16).toNat 4)).flatMap fun l =>
      (List.range ((wordAt l 1).field 31 16)).flatMap fun j =>
        let p := s.recordWords id (w 17).toNat 4 ((wordAt l 0).field 15 0 + j)
        let n := (wordAt p 1).field 15 0
        if (wordAt p 0).field 23 16 = group then
          [((wordAt p 2).toNat, 8 * n), ((wordAt p 3).toNat, 8 * n), ((wordAt l 2).toNat + 4 * (wordAt p 1).field 31 16, 4 * n)]
        else []
  else (s.matrices id).flatMap fun x =>
    let n := (wordAt x 0).field 31 16 * (wordAt x 0).field 15 0
    if (wordAt x 1).field 27 20 = group then [((wordAt x 2).toNat, 2 * n), ((wordAt x 3).toNat, 8 * n)] else []

/-- The ranges of a record that a checkpoint of a group holds: header, group table, the group's state records and serving copies (R276); of a record
that LEX_CONVERT has changed, all of it (DESIGN CHOICE: log entry 39). -/
def State.ckptRanges (s : State) (id group : Nat) : List (Nat × Nat) :=
  if (s.lexAt id).converted then [(0, (s.lexAt id).bytes)] else (0, 128) :: ((s.groupTable id).1, 64 * (s.groupTable id).2) :: s.groupRanges id group

/-- The records of a training object: the inflection's, and those of its affixes that slots hold (R248). -/
def State.objectRecords (s : State) (id : Nat) : List Nat := id :: (s.affixSlots id).map fun n => (s.slotAt n).lexId

/-- What a page of a checkpoint of a group restores: the bytes of the group's ranges that it holds, and the group's own entry of the group table, so
that the table states which step each group holds (R277). -/
def State.restorePage (s : State) (id group page : Nat) (bs : List Byte) : State :=
  (if (s.lexAt id).converted then [(0, (s.lexAt id).bytes)] else ((s.groupTable id).1 + 64 * group, 64) :: s.groupRanges id group).foldl (fun u r =>
    let lo := Nat.max (4096 * page) r.1
    let hi := Nat.min (4096 * page + 4096) (r.1 + r.2)
    if hi ≤ lo then u else u.recordWrite id lo ((bs.drop (lo - 4096 * page)).take (hi - lo))) s

/-- One record's part of a group's checkpoint taken back; none where a page cannot be read. -/
def State.ckptTake (s : State) (id group copy : Nat) : Option State :=
  (pagesOf (s.ckptRanges id group)).foldl (fun (a : Option State) p =>
    a.bind fun v => (v.ckptRead id copy p).map fun bs => v.restorePage id group p bs) (some s)

/-- A group's checkpoint taken back in every record of the object that has the group (R248, R277). -/
def State.ckptGroup (s : State) (id group copy : Nat) : Option State :=
  (s.objectRecords id).foldl (fun (a : Option State) r =>
    a.bind fun u => if group < (u.groupTable r).2 ∨ (r = id ∧ (u.lexAt id).converted) then u.ckptTake r group copy else some u) (some s)

/-- Each group restored from its last valid checkpoint; none where a group has none or a page fails (R422, R424). -/
def State.ckptRestore (s : State) (id : Nat) : Option State :=
  let t := s.trainAt id
  (List.range t.groups.length).foldl (fun (acc : Option State) gi =>
    match acc, t.ckptLast gi with
    | some u, some copy => u.ckptGroup id gi copy
    | _, _ => none) (some s)

/-- The groups that have a valid checkpoint read from it when the object is fetched again; none where a page fails (R300) (its corners, DEDUCED: log entry 72). -/
def State.ckptRefetch (s : State) (id : Nat) : Option State :=
  let t := s.trainAt id
  (List.range t.parts).foldl (fun (acc : Option State) gi =>
    match acc, t.ckptLast gi with
    | some u, some copy => u.ckptGroup id gi copy
    | a, _ => a) (some s)

/-- A training record's state when it becomes resident: groups and committed steps from the record (R248, R250). -/
def State.loadTrain (s : State) (id : Nat) : State :=
  let e := s.lexAt id
  if e.form = 0 then s
  else
    let i := if e.kind = 1 then 22 else 17
    let t := { s.trainAt id with
      step := (s.headerWord id i).toNat + 0x100000000 * (s.headerWord id (i + 1)).toNat
      groups := (s.recordGroups id).map parseGroup, cur := 0 }
    if e.kind = 1 then (s.setTrain id t).mirrorInit id else (s.setTrain id t).mirrorAffix id

/-- A record's frames as its form and its groups ask for them. -/
def State.fitFrames (s : State) (id : Nat) : State := s.setLex id { s.lexAt id with frames := s.objFrames8 id }

/-- A complete object activated as a whole, in phase C of the first landing at which every shard is verified; a record
that fails R239 is rejected and the object fails; an object that has been checkpointed takes the pages of each group from its newest
valid copy (R239, R297, R298, R300). -/
def State.activate (s : State) (id : Nat) : State :=
  let e := s.lexAt id
  if !e.complete then s
  else match s.ckptRefetch id with
  | none => s.failObject id 0 1
  | some s => match s.recordCheck id with
    | some n => (s.rejectRecord id n).failObject id 0 n
    | none =>
      let dig := (List.range 8).map fun i => s.headerWord id (4 + i)
      let e1 := { e with state := (if e.pins > 0 then 3 else 2), hdrOk := true, lastLanding := s.tk.count }
      let s1 := s.setLex id { e1 with place := wordOf id, stemDigest := dig, recDigest := sha256Words (s.recordRead8 id) }
      (((s1.loadTrain id).fitFrames id).raiseInst 0x3001 e.inst [wordOf id, wordOf s.tk.count.toNat]).wakeWaiters id

/-! ### Eviction (R297, R300) -/

/-- A record's current plane becomes plane 0, as that of a record is at rest (R253). -/
def State.onePlane (s : State) (id : Nat) : State :=
  let e := s.lexAt id
  if (s.trainAt id).cur = 0 then s
  else
    let mem := if e.slotted then { s.mem with slot := memCopy s.mem.slot (slotKey e.slot 1 0) (slotKey e.slot 0 0) 0x40000000 }
      else { s.mem with obj := (List.range 8).foldl (fun m g => memCopy m (objKey id g 1 0) (objKey id g 0 0) 0x40000000) s.mem.obj }
    { s with mem := mem }.setTrain id { s.trainAt id with cur := 0 }

/-- An affix's bytes moved between its slot and the frames of an unslotted affix. -/
def State.moveAffix (s : State) (id n g : Nat) (toSlot : Bool) : State :=
  let len := (s.lexAt id).bytes
  let m := (List.range 2).foldl (fun (m : Mems) p =>
    if toSlot then { m with slot := memWrite m.slot (slotKey n p 0) (memRead m.obj (objKey id g p 0) len) }
    else { m with obj := memWrite m.obj (objKey id g p 0) (memRead m.slot (slotKey n p 0) len) }) s.mem
  { s with mem := m }

/-- A slot returned to FREE; GEN advances, the claim's pin ends, and the affix keeps its frames without a slot, its current plane the one at rest (R235,
R253, DEDUCED: log entry 37). -/
def State.freeSlot (s : State) (n : Nat) : State :=
  let a := s.slotAt n
  if a.owner.isNone then s
  else
    let e := s.lexAt a.lexId
    let s0 := if e.held then (s.onePlane a.lexId).moveAffix a.lexId n (s.fld (Reg.WIN_RANGE e.inst) 4 2) false else s
    let s1 := s0.setSlot n { a with owner := none, gen := (a.gen + 1) % 65536, lexId := 0, releasing := false }
    let s2 := if e.slotted ∧ e.slot = n then (if e.frames.isEmpty then s1.setLex a.lexId { e with slotted := false } else (s1.setLex a.lexId { e with slotted := false }).fitFrames a.lexId).unpin a.lexId else s1
    { s2 with mem := { s2.mem with slot := memZero s2.mem.slot (slotKey n 0 0) (4 * 0x40000000) } }

/-- The slots that hold an affix returned to FREE. -/
def State.freeSlotsOf (s : State) (id : Nat) : State :=
  (s.ls.slots.filter fun p => p.2.owner.isSome && p.2.lexId == id).foldl (fun u p => u.freeSlot p.1) s

/-- The frames of an object have been released: the count and the event (R297, R310). -/
def State.evicted (s : State) (id inst cause : Nat) : State :=
  (s.countScoped Reg.RES_EVICTIONS (some inst) 1).raiseInst 0x3004 inst [wordOf id, wordOf cause]

/-- The current plane of the affixes that stay in their slots becomes plane 0, as that of a record is when it becomes resident again (R253). -/
def State.settlePlanes (s : State) (id : Nat) : State := ((s.affixSlots id).map fun n => (s.slotAt n).lexId).foldl (fun u a => u.onePlane a) s

/-- The frames of an EVICTING object released: ABSENT, the pages zeroed (R297, R409). -/
def State.evictDone (s : State) (id : Nat) : State :=
  let e := s.lexAt id
  match e.evictDue with
  | none => s
  | some d =>
    if e.state ≠ 4 ∨ s.tk.count.toNat < d then s
    else
      let s0 := (s.settlePlanes id).dropHead id
      let s1 := (s0.zeroObject id e).setLex id { s0.lexAt id with state := 0, frames := [], evictDue := none, shards := [], place := 0xFFFFFFFF#32 }
      (s1.setTrain id { s1.trainAt id with state := 0, gate := none, sums := [], cur := 0 }).evicted id e.inst e.evictCause

/-- Forced eviction of an object: its pinning requests end with ST_REVOKED, a fetch stops and its frames are released
(R297, R308, R400). -/
def State.forceEvict (s : State) (id : Nat) : State :=
  let e := s.lexAt id
  let s1 := s.endReqs St.revoked fun r => r.lexId == some id || r.affixes.contains id
  if e.state = 1 then
    s1.setLex id { s1.lexAt id with state := 4, evictDue := some s.tk.count.toNat, evictCause := 2, awaits := false, forced := true }
  else if e.state = 2 ∨ e.state = 3 ∨ e.state = 4 then
    s1.setLex id { s1.lexAt id with state := 4, evictDue := some (s.tk.count.toNat + 1), evictCause := 2, forced := true }
  else s1

/-- SHARD_ATTEMPT_TIMEOUT and OBJECT_ACTIVATE, EVICTION_COMPLETE on lexicon objects. -/
def execObjectActivate (id : BitVec 24) (s : State) : Host.Outcome State Fault Refusal := keep s (s.activate id.toNat)

/-- EVICTION_COMPLETE: the write-back is done and the frames are released (R297, R300, R409). -/
def execEvictionComplete (id : BitVec 24) (s : State) : Host.Outcome State Fault Refusal := keep s (s.evictDone id.toNat)

end Sys2Proof.Machine
end

