-- ==== Sys2Proof/Machine/Stem.lean ====
section
/-! DEFINITION. Stem images, stem slots and their replacement (R218 to R224, R242 to R247), and the arrival of shards of
every kind (R303, R304). -/

namespace Sys2Proof.Machine

/-! ### Stem images (R218, Tables 8-1 and 8-2) -/

/-- A projection entry, its manifest not yet attached. -/
def parseProj (ws : List Word) : StemProj :=
  let w := wordAt ws
  { layer := (w 0).field 31 16, proj := (w 0).field 15 8, expert := (w 1).field 31 16, gal := (w 1).field 15 13,
    outCh := (w 2).field 31 16, inCh32 := (w 2).field 15 0, code := (w 3).field 31 28, sgn := (w 3).bit 27,
    exp := (w 3).bit 26, codeOff := (w 4).toNat, scaleOff := (w 5).toNat, cbOff := (w 6).toNat,
    digest := (ws.drop 8).take 8, man := none, page := 0 }

/-- A projection entry obeys Table 8-2. -/
def projOk (layers : Nat) (ws : List Word) : Bool :=
  let w := wordAt ws
  let p := parseProj ws
  decide (p.layer < layers) && (w 0).field 7 0 == 0 && (w 1).field 12 0 == 0 && decide (1 ≤ p.outCh)
    && (p.code == 6 || p.code == 7) && (p.code != 7 || !p.sgn) && (w 3).field 25 0 == 0
    && (p.code == 7 || w 6 == 0xFFFFFFFF#32) && w 7 == 0

/-- The bytes of a manifest that stands at the front of a run of bytes. -/
def manifestLen (bs : List Byte) : Nat := 32 + 64 * (byteWord bs 1).field 15 0 + 16 * (byteWord bs 3).field 31 16

/-- The manifests of projections, one after the other, each with the digest its entry carries. -/
def attachManifests : List StemProj → List Byte → Option (List StemProj)
  | [], _ => some []
  | p :: ps, bs =>
    let n := manifestLen bs
    match parseManifest 3 (bs.take n) with
    | none => none
    | some m =>
      if sha256Words (bs.take n) ≠ p.digest then none
      else (attachManifests ps (bs.drop n)).map fun rest => { p with man := some m } :: rest

/-- A stem image as a slot's stem; none where it breaks R218. -/
def parseStem (bs : List Byte) : Option StemSlot :=
  let w := byteWord bs
  let nc := (w 1).field 15 0
  let np := (w 3).field 15 0
  let hb := (w 2).toNat
  if w 0 = 0x5453464B#32 ∧ (w 1).field 31 16 = 1 ∧ nc ≤ 16 ∧ hb % 64 = 0 ∧ hb ≤ bs.length
      ∧ 1 ≤ (w 3).field 31 16 ∧ (w 3).field 31 16 ≤ 4096 ∧ 1 ≤ np ∧ 1 ≤ (w 4).field 31 16 ∧ (w 4).field 15 0 ≤ 4096
      ∧ (w 5).toNat % 64 = 0 ∧ (w 6).toNat % 64 = 0 ∧ (nc = 0 → w 6 = 0)
      ∧ (w 5).toNat + 64 * np ≤ hb ∧ (w 6).toNat + 32 * nc ≤ hb ∧ (List.range 8).all (fun i => w (8 + i) == 0) then
    let ents := (List.range np).map fun i => wordsOfBytes ((bs.drop ((w 5).toNat + 64 * i)).take 64)
    if ents.all (projOk ((w 3).field 31 16)) then
      (attachManifests (ents.map parseProj) (bs.drop hb)).map fun ps =>
        { StemSlot.empty with
          digest := sha256Words (bs.take hb), stemId := w 7, words34 := [w 3, w 4], projs := ps
          compat := (List.range nc).map fun i => wordsOfBytes ((bs.drop ((w 6).toNat + 32 * i)).take 32) }
    else none
  else none

/-- The entries of a stem without what R224 leaves out of layout identity. -/
def stemLayout (t : StemSlot) : List Word × List StemProj := (t.words34, t.projs.map fun p => { p with digest := [], man := none, page := 0 })

/-- The shards of a stem that are copied into its slot: (projection index, its shard), TIERED ones left out (R296); their attempts begin at `now`. -/
def stemShards (now : Nat) (t : StemSlot) : List (Nat × ShardState) :=
  (List.range t.projs.length).flatMap fun i =>
    match (t.projs[i]?).bind (·.man) with
    | some m => (m.shards.filter fun x => !x.tiered).map fun x => (i, ⟨x.shard, 0, false, [], 0, true, 0, now, 0, false⟩)
    | none => []

/-- The largest end offset of the stem on any gallery (R221). -/
def stemExtent (t : StemSlot) : Nat :=
  (t.projs.flatMap fun p =>
    [64 * p.codeOff + p.outCh * p.inCh32 * 16, 64 * p.scaleOff + 4 * p.outCh] ++ (if p.code = 7 then [64 * p.cbOff + 64] else [])
      ++ (match p.man with
        | some m => (m.shards.filter fun x => !x.tiered).map fun x => 64 * x.targetOff + x.bytes
        | none => [])).foldl Nat.max 0

/-! ### Who a stem event reaches (R246) -/

/-- The slot an instance selects (LEX_STEM_SEL). -/
def State.stemSel (s : State) (n : Nat) : Nat := b2n ((s.reg (Reg.LEX_STEM_SEL (n / 32))).bit (n % 32))

/-- The requests in flight that are bound to a slot: a request that is DONE or FAILED, or whose ending is decided, is not. -/
def State.boundTo (s : State) (slot : Nat) : Bool := s.hs.reqs.any fun r => r.live && r.stem == slot

/-- The instances that select a slot or have a request bound to it. -/
def State.stemDests (s : State) (slot : Nat) : List Nat :=
  (List.range 64).filter fun n => s.stemSel n == slot || s.hs.reqs.any fun r => r.live && r.inst == n && r.stem == slot

/-- A stem event. -/
def State.raiseStem (s : State) (code slot : Nat) (payload : List Nat) : State :=
  s.raiseTo code none (payload.map wordOf) (s.stemDests slot)

/-! ### Slot states (Table 8-13) -/

/-- The mark in a request's waits for a slot that is DRAINING or LOADING in place (R244). -/
def stemWait (slot : Nat) : Nat := 0x1000000 + slot

/-- Requests parked on a slot become eligible (R244). -/
def State.wakeStem (s : State) (slot : Nat) : State :=
  { s with hs := { s.hs with reqs := s.hs.reqs.map fun r =>
      if r.live && r.waits.contains (stemWait slot) then
        let rest := r.waits.filter fun y => y != stemWait slot
        if rest.isEmpty ∧ r.state = 0 ∧ r.wait = 0 then { r with waits := rest, state := 1, admitted := s.tk.count } else { r with waits := rest }
      else r } }

/-- A slot FAILED: parked and bound requests end with ST_OBJECT_FAILED (R244, Table 15-2). -/
def State.stemFail (s : State) (slot proj : Nat) : State :=
  let s1 := s.setStem slot { s.stemAt slot with state := 6, switching := false }
  (s1.raiseStem 0x3043 slot [slot, proj, s.tk.count.toNat]).endReqs St.objectFailed fun r => r.stem == slot

/-- LAST_ST of LEX_STEM_CTRL. -/
def State.stemStatus (s : State) (st : Nat) : State := s.setFld Reg.LEX_STEM_CTRL 7 0 st

/-- A SWITCH or a ROLLING is in progress (R242). -/
def State.stemBusy (s : State) : Bool :=
  s.ls.stems.any fun t => t.switching || t.state == 5 || (t.state == 1 && t.inPlace)

/-- The stem image the source registers name (LEX_STEM_SRC, LEX_STEM_LEN). -/
def State.stemImage (s : State) : List Byte :=
  memRead s.mem.win (s.reg64 Reg.LEX_STEM_SRC_LO Reg.LEX_STEM_SRC_HI / 4096 * 4096) (s.reg Reg.LEX_STEM_LEN).toNat

/-- The HBM regions that an image claims on a gallery, in every program: (base, bytes) (R221, Table 2-10). -/
def flightRegions (f : Flight) (g : Nat) : List (Nat × Nat) :=
  f.progs.flatMap fun p => (p.claims.filter fun c => c.kind == 8 && c.where_ == g).map fun c => (c.base, c.amount)

/-- The images in force, of the version 3 slots and of the pairs. -/
def State.activeFlights (s : State) : List Flight :=
  (s.flights.v3 :: s.flights.pairs).filterMap (·.active)

/-! ### Frames of the pool (R52, R285) -/

/-- What runs in ascending order hold from `e` on, each element once. -/
def coverFrom : Nat → List (Nat × Nat) → Nat
  | _, [] => 0
  | e, x :: xs => (x.1 + x.2 - Nat.max e x.1) + coverFrom (Nat.max e (x.1 + x.2)) xs

/-- What runs hold together, each element once (R52). -/
def unionBytes (l : List (Nat × Nat)) : Nat := coverFrom 0 (sortRuns l)

/-- What runs in ascending order leave free from `e` on, below `top`, the highest first. -/
def freeGaps (top : Nat) : (e : Nat) → List (Nat × Nat) → List (Nat × Nat)
  | e, [] => [(e, top - e)]
  | e, x :: xs => freeGaps top (Nat.max e (x.1 + x.2)) xs ++ [(e, x.1 - e)]

/-- `n` elements out of runs, from the end of each in turn. -/
def takeEnds : Nat → List (Nat × Nat) → List (Nat × Nat)
  | _, [] => []
  | n, x :: xs =>
    let k := Nat.min n x.2
    (if k = 0 then [] else [(x.1 + x.2 - k, k)]) ++ takeEnds (n - k) xs

/-- The 64 KiB frames that a range of bytes touches, as a run. -/
def framesOver (r : Nat × Nat) : Nat × Nat := if r.2 = 0 then (0, 0) else (r.1 / 65536, (r.1 + r.2 - 1) / 65536 + 1 - r.1 / 65536)

/-- The region of a stem slot in bytes, the same on every gallery (R221); none while the slot is EMPTY. -/
def State.stemRegion (s : State) (k : Nat) : Nat × Nat :=
  if (s.stemAt k).state = 0 then (0, 0) else (s.stemBase k, s.fld (Reg.LEX_STEM_SIZE k) 16 0 * 0x100000)

/-- The frames of a gallery that the images' regions, the stem slots and the frames withheld keep out of the pool. -/
def State.busyFrames (s : State) (g : Nat) (flights : List Flight) : List (Nat × Nat) :=
  ((flights.flatMap fun f => flightRegions f g) ++ [s.stemRegion 0, s.stemRegion 1]).map framesOver
    ++ (s.faults.withheld.filter fun x => x.1 == g).map fun x => (x.2, 1)

/-- The frames of a gallery's residency pool; a fenced gallery's stacks are out of use (R285, R413, R422). -/
def State.poolFrames (s : State) (g : Nat) (flights : List Flight) : Nat :=
  if s.galFenced g then 0 else progSize / 65536 - unionBytes (s.busyFrames g flights)

/-- Frames of a gallery that reservations hold. -/
def State.framesHeld (s : State) (g : Nat) : Nat := ((List.range 64).map fun n => s.instUsed n g).sum

/-- The reservations that hold frames on a gallery: kind, id and number. -/
def State.holders (s : State) (g : Nat) : List (Nat × Nat × Nat) :=
  ((s.ls.lex.map fun (p : Nat × LexEntry) => (0, p.1, natAt p.2.frames g))
    ++ ((s.hs.reqs.filter fun (r : Request) => r.wait == 0).map fun (r : Request) => (1, r.handle, r.framesOn g))
    ++ (List.range 64).map fun n => (2, n, s.winFrames n g)).filter fun h => h.2.2 != 0

/-- The frames of a gallery given to its reservations: one that holds as many as before keeps them, but for a frame withheld since; any other
takes the highest frames that are free (R285, R422, DESIGN CHOICE: log entry 50). -/
def State.placeGal (s : State) (g : Nat) : State :=
  let hs := s.holders g
  let others := s.ls.placed.filter fun p => p.gal != g
  let bad := fun (p : Placed) => s.faults.withheld.any fun x => x.1 == g && decide (p.first ≤ x.2 ∧ x.2 < p.first + p.count)
  let of_ := fun (h : Nat × Nat × Nat) => s.ls.placed.filter fun p => p.gal == g && p.kind == h.1 && p.id == h.2.1
  let stays := fun (h : Nat × Nat × Nat) => ((of_ h).map (·.count)).sum == h.2.2 && !(of_ h).any bad
  let kept := (hs.filter stays).flatMap of_
  let busy := s.busyFrames g s.activeFlights
  let now := (hs.filter fun h => !stays h).foldl (fun acc h =>
    let free := takeEnds h.2.2 (freeGaps (progSize / 65536) 0 (sortRuns (busy ++ acc.map fun p => (p.first, p.count))))
    acc ++ free.map fun r => ⟨g, h.1, h.2.1, r.1, r.2⟩) kept
  { s with ls := { s.ls with placed := others ++ now } }

/-- The frames of every gallery given to the reservations. -/
def State.placeFrames (s : State) : State := (List.range 8).foldl (fun u g => u.placeGal g) s

/-- A reservation holds a byte of a range of a gallery's program space. -/
def State.heldIn (s : State) (g : Nat) (r : Nat × Nat) : Bool :=
  s.ls.placed.any fun p => p.gal == g && rangesMeet (65536 * p.first) (65536 * p.count) r.1 r.2

/-- Manifest pages held by the lexicon and the stems (R19). -/
def manifestPages (m : Manifest) : Nat := ceilDiv (32 + 64 * m.shards.length + 16 * m.sources.length) 4096

/-- The pages of the manifest store in use, as runs; the stem slot that a load replaces is left aside. -/
def State.manifestRuns (s : State) (over_ : Option Nat) : List (Nat × Nat) :=
  (s.ls.lex.filterMap fun (p : Nat × LexEntry) => p.2.man.map fun m => (p.2.manifest, manifestPages m))
    ++ ((List.range 2).filter fun k => over_ != some k).flatMap fun k => (s.stemAt k).projs.filterMap fun p => p.man.map fun m => (p.page, manifestPages m)

/-- The lowest run of `n` elements from `e` on, below `top`, that runs in ascending order leave free. -/
def firstRun (top : Nat) : (e n : Nat) → List (Nat × Nat) → Option Nat
  | e, n, [] => if e + n ≤ top then some e else none
  | e, n, x :: xs => if e + n ≤ x.1 then some e else firstRun top (Nat.max e (x.1 + x.2)) n xs

/-- The lowest run of free pages of the manifest store, 3 GiB a copy, for a manifest beside the runs in use; none when the store has no room (R19,
DESIGN CHOICE: log entry 61). -/
def manifestPlace (runs : List (Nat × Nat)) (m : Manifest) : Option Nat := firstRun 786432 0 (manifestPages m) (sortRuns runs)

/-- The manifests of projections placed in the store, one after the other. -/
def placeProjs : List (Nat × Nat) → List StemProj → Option (List StemProj)
  | _, [] => some []
  | runs, p :: ps => match p.man with
    | none => (placeProjs runs ps).map (p :: ·)
    | some m => match manifestPlace runs m with
      | none => none
      | some k => (placeProjs ((k, manifestPages m) :: runs) ps).map ({ p with page := k } :: ·)

/-- A stem with its manifests placed in the store, those of a slot that it replaces left aside; none where they do not fit. -/
def State.placeStem (s : State) (over_ : Option Nat) (t : StemSlot) : Option StemSlot :=
  (placeProjs (s.manifestRuns over_) t.projs).map fun ps => { t with projs := ps }

/-- Whether a stem fits a slot: within its size, clear of the active flights and the other slot, in frames that no
reservation holds and none withheld (R221, R285, R422). -/
def State.stemFits (s : State) (slot : Nat) (t : StemSlot) : Bool :=
  let base := s.stemBase slot
  let size := s.fld (Reg.LEX_STEM_SIZE slot) 16 0 * 0x100000
  let other := 1 - slot
  let fls := s.activeFlights
  decide (stemExtent t ≤ size)
    && ((s.stemAt other).state == 0 || !rangesMeet base size (s.stemBase other) (s.fld (Reg.LEX_STEM_SIZE other) 16 0 * 0x100000))
    && ((List.range 8).all fun g => fls.all fun f => (flightRegions f g).all fun r => !rangesMeet base size r.1 r.2)
    && ((List.range 8).all fun g => !s.placeFrames.heldIn g (base, size))
    && !s.faults.withheld.any fun x => rangesMeet base size (65536 * x.2) 65536

/-- STEM_LOAD: LEX_STEM_CTRL LOAD starts loading the image into an EMPTY slot (R242) (its corners, DEDUCED: log entry 73). -/
def execStemLoad (slot : BitVec 1) (s : State) : Host.Outcome State Fault Refusal :=
  let k := slot.toNat
  keep s (if (s.stemAt k).state ≠ 0 then s.stemStatus St.busy
    else match parseStem s.stemImage with
      | none => ((s.setStem k { StemSlot.empty with state := 1 }).stemFail k 0).stemStatus St.ok
      | some t =>
        match s.placeStem none t with
        | none => s.stemStatus St.noCapacity
        | some t =>
          if !s.stemFits k t then s.stemStatus St.noCapacity
          else (s.setStem k { t with state := 1, shards := stemShards s.tk.now t }).stemStatus St.ok)

/-- STEM_SWITCH: the command names the ACTIVE slot; the other, which is READY, becomes ACTIVE in its place at the next landing, when the two
stems are layout-identical (R224, R242, R243). -/
def execStemSwitch (slot : BitVec 1) (s : State) : Host.Outcome State Fault Refusal :=
  let k := slot.toNat
  let a := s.stemAt k
  let b := s.stemAt (1 - k)
  keep s (if !(a.state == 3 && b.state == 2) || s.stemBusy then s.stemStatus St.busy
    else if stemLayout a ≠ stemLayout b then s.stemStatus St.stemLayout
    else (s.setStem (1 - k) { b with switching := true }).stemStatus St.ok)

/-- STEM_ROLLING: an ACTIVE slot drains for replacement in place by a layout-identical image (R224, R242, R244). -/
def execStemRolling (slot : BitVec 1) (s : State) : Host.Outcome State Fault Refusal :=
  let k := slot.toNat
  let a := s.stemAt k
  keep s (if a.state ≠ 3 ∨ s.stemBusy then s.stemStatus St.busy
    else match parseStem s.stemImage with
      | none => s.stemStatus St.stemLayout
      | some t =>
        if stemLayout t ≠ stemLayout a then s.stemStatus St.stemLayout
        else if (s.placeStem (some k) t).isNone then s.stemStatus St.noCapacity
        else (s.setStem k { a with state := 5, next := some s.stemImage }).stemStatus St.ok)

/-- STEM_UNLOAD: a READY or FAILED slot, or an ACTIVE one that nothing selects or uses, becomes EMPTY (R242). -/
def execStemUnload (slot : BitVec 1) (s : State) : Host.Outcome State Fault Refusal :=
  let k := slot.toNat
  let a := s.stemAt k
  let idle := !s.boundTo k && (List.range 64).all fun n => s.stemSel n != k
  keep s (if ((a.state == 2 && !a.switching) || a.state == 6) || (a.state == 3 && idle && !(s.stemAt (1 - k)).switching) then
      (s.setStem k StemSlot.empty).stemStatus St.ok
    else s.stemStatus St.busy)

/-- Every shard of a loading slot is verified: READY, or, loaded in place and at a landing, ACTIVE (R242, R244). -/
def State.stemReadyStep (s : State) (k : Nat) (landing : Bool) : State :=
  let a := s.stemAt k
  if a.state ≠ 1 ∨ !(a.shards.all fun p => p.2.verified) ∨ (a.inPlace ∧ !landing) then s
  else
    let s1 := s.setReg Reg.RES_QUANT_SAT (wordOf (Nat.min a.quantSat 0xFFFFFFFF))
    if a.inPlace then
      ((s1.setStem k { a with state := 3, inPlace := false }).raiseStem 0x3041 k [k, 0xFF, s.tk.count.toNat]).wakeStem k
    else ((s1.setStem k { a with state := 2 }).raiseStem 0x3040 k [k, a.stemId.toNat]).wakeStem k

/-- A DRAINING slot with no bound request in flight: its shards are fetched in place (R244). -/
def State.stemDrainStep (s : State) (k : Nat) : State :=
  let a := s.stemAt k
  if a.state ≠ 5 ∨ s.hs.reqs.any fun r => r.live && r.stem == k && !r.waits.contains (stemWait k) then s
  else match (a.next.bind parseStem).bind (s.placeStem (some k)) with
    | none => s.stemFail k 0
    | some t => s.setStem k { t with state := 1, inPlace := true, shards := stemShards s.tk.now t }

/-- A RETIRING slot with no request bound: EMPTY (R242). -/
def State.stemRetireStep (s : State) (k : Nat) : State :=
  if (s.stemAt k).state ≠ 4 ∨ s.boundTo k then s
  else (s.setStem k StemSlot.empty).raiseStem 0x3042 k [k, s.tk.count.toNat]

/-- With no slot ACTIVE, and none on its way from or to ACTIVE, a READY slot becomes ACTIVE at a landing: Table 8-13 has no row by which the first
stem does (DESIGN CHOICE: log entry 35). -/
def State.stemFirstStep (s : State) : State :=
  let used := (List.range 2).any fun k => let a := s.stemAt k; a.state == 3 || a.state == 4 || a.state == 5 || (a.state == 1 && a.inPlace)
  match (List.range 2).find? fun k => (s.stemAt k).state == 2 with
  | some k => if used then s else s.setStem k { s.stemAt k with state := 3 }
  | none => s

/-- A SWITCH applied: instances that selected the old slot select the new one (R243). -/
def State.stemSwitchStep (s : State) : State :=
  match (List.range 2).find? fun k => (s.stemAt k).switching with
  | none => s
  | some k =>
    let old := 1 - k
    if (s.stemAt old).state ≠ 3 then s.setStem k { s.stemAt k with switching := false }
    else
      let s1 := (s.setStem k { s.stemAt k with state := 3, switching := false }).setStem old { s.stemAt old with state := 4 }
      let sel := fun (u : State) (w : Nat) =>
        u.setReg (Reg.LEX_STEM_SEL w) (if k = 1 then 0xFFFFFFFF#32 else 0)
      let s2 := sel (sel s1 0) 1
      s2.raiseTo 0x3041 none ([k, old, s.tk.count.toNat].map wordOf) ((s.stemDests old ++ s.stemDests k).dedup)

/-- STEM_READY. -/
def execStemReady (slot : BitVec 1) (s : State) : Host.Outcome State Fault Refusal := keep s (s.stemReadyStep slot.toNat false)

/-- STEM_DRAINED. -/
def execStemDrained (slot : BitVec 1) (s : State) : Host.Outcome State Fault Refusal := keep s (s.stemDrainStep slot.toNat)

/-- STEM_RETIRED. -/
def execStemRetired (slot : BitVec 1) (s : State) : Host.Outcome State Fault Refusal := keep s (s.stemRetireStep slot.toNat)

/-! ### Shards (R303, R304) -/

/-- The neighbour that serves attempt 1 at a stem shard (R303). -/
def State.stemNear (s : State) (x : Shard) (st : ShardState) : Option (List Byte × List Word) :=
  if st.attempts = 0 then s.nearBytes none (some x.home) x.digest else none

/-- A stem's shard and the progress of its fetch, while it is still to arrive, as the slot loads or its page is repaired, and the manifest can be read
(R19, R303, R422). -/
def State.stemFetching (s : State) (slot proj shard : Nat) : Option (StemProj × Manifest × Shard × ShardState) :=
  let a := s.stemAt slot
  match a.shards.find? (fun q => q.1 == proj && q.2.shard == shard), a.projs[proj]? with
  | some st, some p => p.man.bind fun m => (m.shards.find? fun x => x.shard == shard).bind fun x =>
      if a.state ≠ 0 ∧ a.state ≠ 6 ∧ !st.2.verified ∧ s.manifestUp p.page m shard then some (p, m, x, st.2) else none
  | _, _ => none

/-- The progress of a stem shard changed. -/
def State.updStemShard (s : State) (slot proj shard : Nat) (f : ShardState → ShardState) : State :=
  let a := s.stemAt slot
  s.setStem slot { a with shards := a.shards.map fun q => if q.1 = proj ∧ q.2.shard = shard then (q.1, f q.2) else q }

/-- An attempt at a stem shard fails; the fourth fails the slot (R242, R303) (its corners, DEDUCED: log entry 74). -/
def State.stemFailAttempt (s : State) (slot proj shard cause : Nat) : State :=
  match s.stemFetching slot proj shard with
  | none => s
  | some (_, _, x, st) =>
    let n := st.attempts + 1
    let near := st.near || (s.stemNear x st).isSome
    let s1 := (s.updStemShard slot proj shard fun y => { y with attempts := n, cause := cause, since := s.tk.now, near := near }).countScoped
      Reg.RES_RETRIES none 1
    let s2 := s1.raisePf 0x3003 ([0xFFFFFFFF, shard, n, cause].map wordOf)
    if 4 ≤ n then s2.stemFail slot proj else s2

/-- The codebook of a projection, once every shard that holds bytes of it has arrived, is admissible (R116). -/
def State.stemCodebookOk (s : State) (slot : Nat) (proj : Nat) (p : StemProj) (m : Manifest) : Bool :=
  let meets := m.shards.filter fun x => rangesMeet (64 * x.targetOff) x.bytes (64 * p.cbOff) 64
  let here := fun (x : Shard) => (s.stemAt slot).shards.any fun q => q.1 == proj && q.2.shard == x.shard && q.2.verified
  p.code != 7 || meets.isEmpty || !(meets.all here) || codebookOk p.exp (wordsOfBytes (s.progRead p.gal (s.stemBase slot + 64 * p.cbOff) 64))

/-- What an attempt at a stem shard brings (R303, R304). -/
def State.stemAttempt (s : State) (slot : Nat) (p : StemProj) (m : Manifest) (x : Shard) (st : ShardState) : Arrived :=
  match s.stemNear x st with
  | some c => arriveNear c
  | none => match (sourceOf m x st).bind fun y => s.sourceRead y x.stored with
    | none => .bad 5
    | some data => arriveStem (s.slotRead slot x.home) p x data

/-- A shard of a stem arrives; its fetch is charged to no instance (R294). -/
def State.stemArrival (s : State) (slot proj shard : Nat) : State :=
  match s.stemFetching slot proj shard with
  | none => s
  | some (p, m, x, st) =>
    let s0 := if (s.stemNear x st).isSome then s else s.tallySource none m x (st.attempts - b2n st.near) x.stored
    match s.stemAttempt slot p m x st with
    | .bad c => s0.stemFailAttempt slot proj shard c
    | .good bs _ n =>
      let s1 := (s0.progWrite x.home (s.stemBase slot + 64 * x.targetOff) bs).updStemShard slot proj shard fun y =>
        { y with verified := true, digest := sha256Words bs }
      if s1.stemCodebookOk slot proj p m then s1.setStem slot { s1.stemAt slot with quantSat := (s1.stemAt slot).quantSat + n }
      else s0.stemFailAttempt slot proj shard 4

/-- The bytes, as stored, that the attempt in progress at a shard brings: the neighbour's or the source's; none where they cannot be read. -/
def State.brought (s : State) (obj : ObjRef) (shard : Nat) : List Byte :=
  match obj with
  | .lex id => ((s.fetching id.toNat shard).bind fun q =>
      match (if q.2.2.attempts = 0 then s.nearest (s.lexAt id.toNat) shard else none) with
      | some c => some c.1
      | none => match s.ckptShard id.toNat q.2.1 with
        | some bs => some bs
        | none => (sourceOf q.1 q.2.1 q.2.2).bind fun y => s.sourceRead y q.2.1.stored).getD []
  | .stem k p => ((s.stemFetching k.toNat p.toNat shard).bind fun q =>
      match s.stemNear q.2.2.1 q.2.2.2 with
      | some c => some c.1
      | none => (sourceOf q.2.1 q.2.2.1 q.2.2.2).bind fun y => s.sourceRead y q.2.2.1.stored).getD []

/-- The attempt in progress at a shard brings other bytes than were sent: a flit of a landing slot was dropped, or they were damaged on their way, and the
attempt fails by its digest without a replay (R303, R322). -/
def State.lostArrival (s : State) (obj : ObjRef) (shard : Nat) : State :=
  match obj with
  | .lex id => if (s.fetching id.toNat shard).isSome then s.failAttempt id.toNat shard 2 else s
  | .stem k p => s.stemFailAttempt k.toNat p.toNat shard 2

/-- SHARD_ARRIVAL: the data of the attempt in progress at a shard arrives, from the neighbour or source whose turn it is, and is processed and
placed, or the attempt fails; bytes that the tick's budget does not cover wait (R294, R303, R304) (its corners, DESIGN CHOICE: log entry 109). -/
def execShardArrival (obj : ObjRef) (shard : BitVec 12) (data : List Byte) (s : State) : Host.Outcome State Fault Refusal :=
  keep s (if s.brought obj shard.toNat ≠ data then s.lostArrival obj shard.toNat
    else match obj with
    | .lex id => s.lexArrival id.toNat shard.toNat
    | .stem k p => s.stemArrival k.toNat p.toNat shard.toNat)

/-- SHARD_ATTEMPT_TIMEOUT: the attempt at a shard that has not arrived in time fails (R303). -/
def execShardAttemptTimeout (obj : ObjRef) (shard : BitVec 12) (s : State) : Host.Outcome State Fault Refusal :=
  keep s (match obj with
    | .lex id => match s.fetching id.toNat shard.toNat with
      | some (_, x, st) => if s.overdue (s.lexAt id.toNat).inst x.stored st.since then s.failAttempt id.toNat shard.toNat 0 else s
      | none => s
    | .stem k p => match s.stemFetching k.toNat p.toNat shard.toNat with
      | some (_, _, x, st) => if s.overdue 0 x.stored st.since then s.stemFailAttempt k.toNat p.toNat shard.toNat 0 else s
      | none => s)

end Sys2Proof.Machine
end

