-- ==== Sys2Proof/Machine/Train.lean ====
section
/-! DEFINITION. Training objects: step states, the commit gate, the step report, checkpoints and mirrors (R248 to R255,
R266, R269 to R281). -/

namespace Sys2Proof.Machine

/-! ### Step states (Table 9-1) -/

/-- The tracked TRAIN_STEP of an object. -/
def State.stepReq (s : State) (id : Nat) : Option Request :=
  s.hs.reqs.find? fun r => r.opcode == Op.trainStep && r.lexId == some id && r.live

/-- The write plane is free: no serving request bound to it is in flight and no checkpoint of it is being written
(R254, R278). -/
def State.planeFree (s : State) (id : Nat) : Bool :=
  let t := s.trainAt id
  !(s.hs.reqs.any fun r => r.live && r.opcode == Op.admitReq && r.lexId == some id && r.plane == 1 - t.cur)
    && (match t.ckptActive with
      | some c => c.2 == t.cur
      | none => true)

/-- Every batch admitted before the object's TRAIN_STEP has ended (Table 9-1). -/
def State.batchesDone (s : State) (id : Nat) : Bool :=
  !((s.hs.reqs.takeWhile fun r => !(r.live && r.opcode == Op.trainStep && r.lexId == some id)).any fun r =>
    r.live && r.opcode == Op.trainBatch && r.lexId == some id)

/-- The write plane of an object given the bits of the current one, on every gallery, in every slot of its affixes and in its mirror: what the step
does not change then holds the same bits in the plane that becomes current (R255, R262) (its corners, DEDUCED: log entry 72). -/
def State.copyPlane (s : State) (id cur : Nat) : State :=
  let s1 := (List.range 8).foldl (fun (u : State) g =>
    { u with mem := { u.mem with obj := memCopy u.mem.obj (objKey id g cur 0) (objKey id g (1 - cur) 0) 0x40000000 } }) s
  (s.affixSlots id).foldl (fun u n =>
    let m := { u.mem with slot := memCopy u.mem.slot (slotKey n cur 0) (slotKey n (1 - cur) 0) 0x40000000 }
    let a := (s.slotAt n).lexId
    { u with mem := match (s.trainAt id).mirrorGal with
      | some p => { m with obj := memCopy m.obj (objKey a p cur 0) (objKey a p (1 - cur) 0) 0x40000000 }
      | none => m }) s1

/-- A CLOSED step whose batches are done and whose write plane is free becomes APPLYING; a tick spent waiting for the
plane is counted when `wait` (R250, R254). -/
def State.stepStart (s : State) (id : Nat) (wait : Bool) : State :=
  let t := s.trainAt id
  if t.state ≠ 1 ∨ !s.batchesDone id then s
  else if s.planeFree id then (s.setTrain id { t with state := 2, sums := [], flags := 0 }).copyPlane id t.cur
  else if wait then s.countScoped Reg.LEX_TRN_WAITS (some (s.lexAt id).inst) 1
  else s

/-- The gradient workspace of an object and of its affixes cleared (R252). -/
def State.clearGrad (s : State) (id : Nat) : State :=
  let clear := fun (u : State) (g : Nat) =>
    { u with mem := { u.mem with obj := memZero u.mem.obj (objKey id g 2 0) 0x40000000 } }
  let s1 := (List.range 8).foldl clear s
  (s.affixSlots id).foldl (fun u n => { u with mem := { u.mem with slot := memZero u.mem.slot (slotKey n 2 0) 0x40000000 } }) s1

/-- The step number in progress: STEP + 1 (R250). -/
def TrainObj.number (t : TrainObj) : Nat := t.step + 1

/-- A step abandoned: OPEN again, nothing exchanged; its TRAIN_STEP ends with a status (Table 9-1, Table 9-7); one that ends with
ST_POISONED counts in ERR_POISON_HITS. -/
def State.abandonStep (s : State) (id status : Nat) : State :=
  let t := s.trainAt id
  if t.state = 0 then s
  else
    let s1 := s.setTrain id { t with state := 0, gate := none, sums := [], flags := 0 }
    let mine := fun (r : Request) => r.opcode == Op.trainStep && r.lexId == some id
    let lost := if status = St.poisoned then s1.hs.reqs.countP fun r => mine r && r.ending.isNone && r.state != 3 && r.state != 4 else 0
    (s1.endReqs status mine).countScoped Reg.ERR_POISON_HITS (some (s.lexAt id).inst) lost

/-- A step whose TRAIN_STEP has ended without its gate, by a revocation, a deletion or its instance's stop, is abandoned (Table 9-1, R280). -/
def State.abandonOrphans (s : State) : State :=
  ((s.ls.train.filter fun p => p.2.state != 0 && (s.stepReq p.1).isNone).map (·.1)).foldl (fun u i => u.abandonStep i St.revoked) s

/-! ### The gate (R269 to R273) -/

/-- Images of an area summed exactly (R185, R270). -/
def sumImages (as : List (List Word)) : XAcc := (as.map xOfImage).foldl xJoin xEmpty

/-- The exact sum as FP32 (R185). -/
def gate32 (a : XAcc) : Word := toF32 true (xValue a)

/-- The step summaries of a pass for a group: the exact G2 and the two counts (R270). -/
def groupSums (sums : List AreaSum) (i : Nat) : XAcc × Nat × Nat :=
  let mine := (sums.filter fun a => !a.norm && a.index == i).map (·.words)
  (sumImages (mine.map (·.take 12)), (mine.map fun w => (wordAt w 12).toNat).sum, (mine.map fun w => (wordAt w 13).toNat).sum)

/-- The clipping factor of a group, when it needs one: κ = CLIP / sqrt(G2) (R270). -/
def clipFactor (clip g2 : Word) : Option Word :=
  if clip = 0 then none
  else
    let n := rne32 (fvSqrt (f32 g2))
    if fvLt (f32 clip) n then some (toF32 true (fvDiv (f32 clip) n)) else none

/-- The sums of every group after a pass; G2 is that of the first pass (R271). -/
def passSums (t : TrainObj) (sums : List AreaSum) : List GroupSum :=
  (List.range t.groups.length).map fun i =>
    let (a, nf, up) := groupSums sums i
    let old := t.sums[i]?
    let g2 := if t.state = 3 then ((old.map (·.g2)).getD (gate32 a)) else gate32 a
    ⟨g2, (old.map (·.kappa)).getD 0x3F800000#32, nf, up⟩

/-- The step report of Table 9-5. -/
def stepReport (t : TrainObj) (outcome : Nat) (areas : List AreaSum) : List Word :=
  let norms := areas.filter (·.norm)
  let layers := (norms.map fun a => a.index + 1).foldl Nat.max 0
  let head := wordOf (outcome * 0x1000000 + t.flags * 0x10000 + layers) :: words64 t.number
    ++ [wordOf (t.groups.length * 0x10000), 0, 0, 0, 0]
  let grp := t.sums.flatMap fun g => [g.g2, g.kappa, wordOf (Nat.min g.nonfin 0xFFFFFFFF), wordOf (Nat.min g.updated 0xFFFFFFFF)]
  let ent := (List.range layers).flatMap fun j =>
    let mine := (norms.filter fun a => a.index == j).map (·.words)
    [gate32 (sumImages (mine.map (·.take 12))), gate32 (sumImages (mine.map fun w => (w.drop 12).take 12)),
      gate32 (sumImages (mine.map fun w => (w.drop 24).take 12))]
  head ++ grp ++ ent

/-- Bytes of a request's output, written where its record's posting takes them from (R334). -/
def State.outWrite (s : State) (r : Request) (bs : List Byte) : State :=
  { s with mem := { s.mem with req := memWrite s.mem.req (reqKey r.handle (s.winGal r.inst) 1 outPages) (bs.take r.outBytes) } }

/-- The TRAIN_STEP ends at this landing with its report on its output path (R252, R271). -/
def State.finishStep (s : State) (id outcome status : Nat) : State :=
  match s.stepReq id with
  | none => s
  | some r =>
    let bs := (stepReport (s.trainAt id) outcome r.sums).flatMap Word.bytes
    (s.outWrite r bs).updReq r.handle fun x =>
      { x with ending := some status, endTick := s.tk.count, dataVisible := true, flags := setFlag x.flags Flag.stepReport, committed := Nat.min bs.length r.outBytes }

/-- A step SKIPPED: nothing exchanged, the workspace cleared, STEP unchanged (R252). -/
def State.stepSkip (s : State) (id outcome : Nat) : State :=
  let t := s.trainAt id
  let inst := (s.lexAt id).inst
  let first := ((List.range t.sums.length).find? fun i => match t.sums[i]? with
    | some g => decide (0 < g.nonfin)
    | none => false).getD 0xFFFFFFFF
  let s1 := (s.finishStep id outcome St.stepSkipped).countScoped Reg.LEX_TRN_SKIPS (some inst) 1
  let s2 := if outcome = 3 then s1.raiseInst 0x2013 inst (wordOf id :: [wordOf t.number, wordOf s.tk.count.toNat])
    else s1.raiseInst 0x2011 inst [wordOf id, wordOf t.number, wordOf outcome, wordOf first]
  (s2.setTrain id { t with state := 0, gate := none }).clearGrad id

/-- The mirror compared at a commit: the owner's write plane against the partner's copy (R279). -/
def State.mirrorEqual (s : State) (id p plane : Nat) : Bool :=
  (s.mirrorRuns id p plane).all fun r => decide (memRead s.mem.obj r.2 r.1.length = r.1)

/-- A step COMMITTED: the planes exchange roles for the whole object, STEP advances, checkpoints that are due queue
(R252, R253, R255, R276, R279) (its corners, DEDUCED: log entry 72). -/
def State.stepCommit (s : State) (id : Nat) : State :=
  let t := s.trainAt id
  let e := s.lexAt id
  let s1 := (s.finishStep id 0 St.ok).countScoped Reg.LEX_TRN_COMMITS (some e.inst) 1
  let due := (List.range t.groups.length).filter fun i => match t.groups[i]? with
    | some g => g.ckptSteps != 0 && t.number % g.ckptSteps == 0
    | none => false
  let stale := match t.mirrorGal with
    | some p => !s.mirrorEqual id p (1 - t.cur)
    | none => false
  let s2 := if stale then s1.raiseInst 0x3061 e.inst ([id, (t.mirrorGal).getD 0, t.number].map wordOf) else s1
  let s3 := (s2.setTrain id { t with
    state := 0, gate := none, step := t.number, cur := 1 - t.cur, mirrorStale := stale, dirty := true
    ckptQueue := t.ckptQueue ++ due.filter fun i => !t.ckptQueue.contains i }).clearGrad id
  -- the records' own counts of committed steps advance with it (Tables 8-3, 8-9)
  ((s3.affixSlots id).map fun n => (s3.slotAt n).lexId).foldl (fun u a =>
    let step := (u.headerWord a 17).toNat + 0x100000000 * (u.headerWord a 18).toNat + 1
    ((u.setTrain a { u.trainAt a with cur := 1 - t.cur, step := step, dirty := true }).recordWrite a 68 (bytesOfNat 8 step)).digestRecord a)
    ((s3.recordWrite id 88 (bytesOfNat 8 t.number)).digestRecord id)

/-- The gate at the landing at which a pass's last stage commits: the strictest policy governs (R270, R272, R273). -/
def State.gateDecide (s : State) (id : Nat) : State :=
  match s.stepReq id with
  | none => s
  | some r =>
    let t0 := s.trainAt id
    let sums := passSums t0 r.sums
    let t := { t0 with sums := sums }
    let at_ := fun (p : Group → GroupSum → Bool) => (List.range t.groups.length).any fun i =>
      match t.groups[i]?, sums[i]? with
      | some g, some x => p g x
      | _, _ => false
    let inst := (s.lexAt id).inst
    if at_ fun g x => g.policy == 0 && decide (0 < x.nonfin) then (s.setTrain id t).stepSkip id 1
    else
      let kappas := (List.range t.groups.length).map fun i =>
        match t.groups[i]?, sums[i]? with
        | some g, some x => if x.nonfin = 0 then clipFactor g.clip x.g2 else none
        | _, _ => none
      if t.state = 2 ∧ kappas.any (·.isSome) then
        let withK := (List.range sums.length).map fun i => match sums[i]? with
          | some x => { x with kappa := ((kappas[i]?).join).getD 0x3F800000#32 }
          | none => ⟨0, 0, 0, 0⟩
        let s1 := s.setTrain id { t with state := 3, sums := withK, flags := t.flags ||| 2 }
        (s1.updReq r.handle fun x => { x with stage := 0, state := 1, pass := 1, sums := [] }).countScoped
          Reg.LEX_TRN_REAPPLIES (some inst) 1
      else
        let zeroed := at_ fun g x => g.policy == 1 && decide (0 < x.nonfin)
        let nf := (sums.map (·.nonfin)).sum
        let t1 := { t with flags := if zeroed then t.flags ||| 1 else t.flags }
        let s1 := if zeroed then s.raiseInst 0x2012 inst ([id, t.number, nf].map wordOf) else s
        if at_ fun g _ => g.policy == 2 then
          let hold := ((t.groups.filter fun g => g.policy == 2).map (·.holdTicks)).foldl Nat.min 65535
          let total := gate32 (((List.range t.groups.length).map fun i => (groupSums r.sums i).1).foldl xJoin xEmpty)
          let s2 := s1.raiseInst 0x2010 inst ([id, t.number, t.groups.length, Nat.min nf 0xFFFFFFFF].map wordOf ++ [total])
          s2.setTrain id { t1 with state := 4, flags := t1.flags ||| 4, holdLeft := hold, gate := none }
        else (s1.setTrain id t1).stepCommit id

/-- An id lies in an instance's range (R237). -/
def State.lexInRange (s : State) (inst id : Nat) : Bool :=
  let lo := s.fld (Reg.LEX_RANGE_BASE inst) 23 0
  decide (lo ≤ id ∧ id < lo + s.fld (Reg.LEX_RANGE_COUNT inst) 24 0)

/-- A gate command on a held step of an object in the instance's own range: its status, and the command kept for the landing; SKIP governs when both
come (R275, R327) (its corners, DEDUCED: log entry 72). -/
def State.gateCommand (s : State) (inst : Nat) (id stepLo action : Nat) : State × Nat :=
  if (s.lexAt id).kind = 0 ∨ !s.lexInRange inst id then (s, St.notFound)
  else
    let t := s.trainAt id
    if t.state ≠ 4 ∨ t.number % 0x100000000 ≠ stepLo then (s, St.badField)
    else (s.setTrain id { t with gate := some (if t.gate = some 2 then 2 else action) }, St.ok)

/-- A function's own copy of a register holds its gate command; instance 0 is the physical function's (R275). -/
def State.lexGate (s : State) (fn action : Nat) : State :=
  let (s1, st) := s.gateCommand fn ((s.regC (fn + 1) Reg.LEX_GATE_ID).field 23 0)
    (s.regC (fn + 1) Reg.LEX_GATE_STEP).toNat action
  s1.setFldC (fn + 1) Reg.LEX_GATE_CMD 7 0 st

/-- LEX_GATE_GO: LEX_GATE_CMD with ACTION 1 (R275). -/
def execLexGateGo (fn : BitVec 6) (s : State) : Host.Outcome State Fault Refusal := keep s (s.lexGate fn.toNat 1)

/-- LEX_GATE_SKIP: LEX_GATE_CMD with ACTION 2 (R275). -/
def execLexGateSkip (fn : BitVec 6) (s : State) : Host.Outcome State Fault Refusal := keep s (s.lexGate fn.toNat 2)

/-- STEP_APPLY_START: a CLOSED step that may start becomes APPLYING (R250, R254). -/
def execStepApplyStart (id : BitVec 24) (s : State) : Host.Outcome State Fault Refusal := keep s (s.stepStart id.toNat false)

/-- A held step whose hold has run out is skipped (R274). -/
def State.gateExpire (s : State) (id : Nat) : State :=
  let t := s.trainAt id
  if t.state = 4 ∧ t.holdLeft = 0 then s.stepSkip id 3 else s

/-- GATE_TIMEOUT (R274). -/
def execGateTimeout (id : BitVec 24) (s : State) : Host.Outcome State Fault Refusal := keep s (s.gateExpire id.toNat)

/-! ### Checkpoints (R276 to R278, R402, R403) -/

/-- CKPT_STEP written into the group table's bytes of a page (R276). -/
def patchCkptStep (page groupOff group step : Nat) (bs : List Byte) : List Byte :=
  let at_ := groupOff + 64 * group + 32
  if at_ / 4096 = page then bs.take (at_ % 4096) ++ bytesOfNat 8 step ++ bs.drop (at_ % 4096 + 8) else bs

/-- Bytes written to the flash tier; a stripe whose drive has failed takes none (R292).  Counted by the fetch engine and the root port (Table 18-1) (its corners, DEDUCED: log entry 100). -/
def State.flashWrite (s : State) (inst : Option Nat) (a : Nat) (bs : List Byte) : State :=
  let flash := (List.range ((a % 0x100000 + bs.length + 0xFFFFF) / 0x100000)).foldl (fun m i =>
    let lo := Nat.max a (a / 0x100000 * 0x100000 + 0x100000 * i)
    let hi := Nat.min (a + bs.length) (a / 0x100000 * 0x100000 + 0x100000 * (i + 1))
    if s.flashUp lo (hi - lo) then memWrite m lo ((bs.drop (lo - a)).take (hi - lo)) else m) s.mem.flash
  let s1 := { s with mem := { s.mem with flash := flash } }
  let p := s.drivePort a
  ((s1.tally ⟨0x101, 2, 7, inst, none, 0xFF, none, bs.length⟩).tally ⟨0x104 + p, 2, 7, inst, none, 0xFF, none, bs.length⟩).tallyPort
    (31 + p) bs.length 0

/-! ### What the device writes for an instance in host memory (R373) -/

/-- Host memory written for an instance through CXL.cache. -/
def State.hostPut (s : State) (n a : Nat) (bs : List Byte) : State :=
  ({ s with mem := { s.mem with host := memWrite s.mem.host a bs } }.logPages n a bs.length false).tallyCache n bs.length 0

/-! ### Checkpoints -/

/-- Where an instance's checkpoint copies lie in host memory with CKHOST = 1: an address, and the flash offset that stands there (R375). -/
def State.ckptHost (s : State) (inst : Nat) : Option (Nat × Nat) :=
  if (s.reg (Reg.DEV_MIG_LO inst)).bit 0 then
    some (s.reg64 (Reg.DEV_MIG_LO inst) (Reg.DEV_MIG_HI inst) / 4096 * 4096, (s.flashRange inst).1)
  else none

/-- A page of a copy with what other groups' valid checkpoints in that copy hold of it kept, so that each group's last valid checkpoint stays its own
(R277). -/
def State.keepOthers (s : State) (id copy page : Nat) (others : List Nat) (bs : List Byte) : List Byte :=
  match (if others.isEmpty then none else s.ckptRead id copy page) with
  | none => bs
  | some old => (others.flatMap fun g => ((s.groupTable id).1 + 64 * g, 64) :: s.groupRanges id g).foldl (fun b r =>
    let lo := Nat.max (4096 * page) r.1 - 4096 * page
    let hi := Nat.min (4096 * page + 4096) (r.1 + r.2) - 4096 * page
    if hi ≤ lo then b else b.take lo ++ (old.drop lo).take (hi - lo) ++ b.drop hi) bs

/-- One page of a record's part of a checkpoint encrypted under the current epoch and written; the epoch's write counter rises (R399, R402,
R403).  `others` are the groups whose checkpoints in the copy are valid, `place` the copies' place in host memory, if they are there. -/
def State.ckptPage (s : State) (id plane copy group step page : Nat) (others : List Nat) (place : Option (Nat × Nat)) : State :=
  let e := s.lexAt id
  let k := s.keyAt e.keySlot
  let t := s.trainAt id
  let base := natAt t.ckptCopies copy
  let ctr := k.ctrCur.toNat + 0x8000000000000000
  let table := s.groupTable id
  let bs := s.planePage id plane page
  let pt := s.keepOthers id copy page others (if group < table.2 then patchCkptStep page table.1 group step bs else bs)
  let (ct, tag) := gcmSeal (pageKey k.keyCur e.keySlot k.cur.toNat) (pageIv page ctr) (pageAad id e.keySlot k.cur.toNat page) pt
  let s1 := s.setKey e.keySlot { k with ctrCur := k.ctrCur + 1 }
  let host := place.map fun x => x.1 + (base + 4096 * page) - x.2
  let s2 := s1.setTrain id { t with ckptTrailers := smInsert t.ckptTrailers (0x100000 * copy + page) ⟨k.cur.toNat, ctr, tag, host⟩ }
  match host with
  | some a => s2.hostPut e.inst a (ct.take 4096)
  | none => s2.flashWrite (some e.inst) (base + 4096 * page) (ct.take 4096)

/-- The pages of a checkpoint of a group: (record, page), of every record of the object that has the group (R248, R276) (its corners, DEDUCED: log entry 72). -/
def State.ckptPages (s : State) (id group : Nat) : List (Nat × Nat) :=
  ((s.objectRecords id).filter fun r => decide (group < (s.groupTable r).2) || (r == id && (s.lexAt id).converted)).flatMap fun r =>
    (pagesOf (s.ckptRanges r group)).map fun p => (r, p)

/-- A queued checkpoint of a group started, from the plane that is current now, into the copy whose turn it is for the
group (R276 to R278, R375). -/
def State.ckptStart (s : State) (id group : Nat) : State :=
  let t := s.trainAt id
  if t.ckptActive.isSome ∨ !t.ckptQueue.contains group ∨ t.ckptCopies.isEmpty then s
  else
    let copy := natAt t.ckptNext group % 2
    let pages := s.ckptPages id group
    let t1 := { t with
      ckptActive := some (group, t.cur), ckptFrom := t.step, ckptLeft := 4096 * pages.length, ckptWrote := 0, ckptTo := s.ckptHost (s.lexAt id).inst,
      ckptQueue := t.ckptQueue.filter (· != group) }
    let drop := fun (x : TrainObj) => { x with ckptValid := x.ckptValid.filter fun v => v != (group, copy) }
    ((s.objectRecords id).drop 1).foldl (fun (u : State) r => u.setTrain r (drop (u.trainAt r))) (s.setTrain id (drop t1))

/-- The checkpoint under way written up to page `n` of its pages (R277). -/
def State.ckptWriteTo (s : State) (id n : Nat) : State :=
  let t := s.trainAt id
  match t.ckptActive with
  | none => s
  | some (group, plane) =>
    let copy := natAt t.ckptNext group % 2
    let others := t.ckptValid.filterMap fun v => if v.2 = copy then some v.1 else none
    let due := ((s.ckptPages id group).take n).drop t.ckptWrote
    let s1 := due.foldl (fun u p => u.ckptPage p.1 plane copy group t.ckptFrom p.2 others t.ckptTo) s
    s1.setTrain id { s1.trainAt id with ckptWrote := Nat.max t.ckptWrote n }

/-- The end of a tick: each checkpoint has written the pages that the tick's budget covered, under the epochs of that tick (R294, R399, R410). -/
def State.ckptAdvance (s : State) : State :=
  s.ls.train.foldl (fun u p =>
    let t := u.trainAt p.1
    match t.ckptActive with
    | none => u
    | some (group, _) =>
      let got := ((u.shares (u.lexAt p.1).inst).lookup (.checkpoint p.1)).getD 0
      u.ckptWriteTo p.1 ((u.ckptPages p.1 group).length - ceilDiv (t.ckptLeft - got) 4096)) s

/-- CHECKPOINT_START (R276, R278). -/
def execCheckpointStart (id : BitVec 24) (group : BitVec 8) (s : State) : Host.Outcome State Fault Refusal :=
  keep s (s.ckptStart id.toNat group.toNat)

/-- Every page of the checkpoint under way has been written: its drives are in use, or its host pages can be reached, and no page of the object
is poisoned (R277, R292, R421). -/
def State.ckptWritten (s : State) (id group copy : Nat) : Bool :=
  ((s.ckptPages id group).all fun p =>
    match (s.trainAt p.1).ckptTrailers.lookup (0x100000 * copy + p.2) with
    | some x => if x.host.isSome then s.linkOpen else s.flashUp (natAt (s.trainAt p.1).ckptCopies copy + 4096 * p.2) 4096
    | none => false)
  && !s.faults.poison.any fun p => match p.kind with
    | .trainingObject i => i.toNat == id
    | _ => false

/-- A checkpoint ends, once the budget has covered its bytes: valid, or failed with the other copy still valid.  An object that waits to leave
releases its frames once nothing is queued; a group whose write failed is queued again for it (R277, R278, R294, R300, DESIGN CHOICE: log entry 62). -/
def State.ckptDone (s0 : State) (id : Nat) (ok : Bool) : State :=
  match (s0.trainAt id).ckptActive with
  | none => s0
  | some (group, _) =>
    if ok && !s0.covered (s0.lexAt id).inst (.checkpoint id) (s0.trainAt id).ckptLeft then s0
    else
      let s := if ok then s0.ckptWriteTo id (s0.ckptPages id group).length else s0
      let t := s.trainAt id
      let e := s.lexAt id
      let copy := natAt t.ckptNext group % 2
      let good := ok && s.ckptWritten id group copy
      let groups := (List.range t.groups.length).filterMap fun i => (t.groups[i]?).map fun g =>
        if i = group ∧ good then { g with ckptStep := t.ckptFrom } else g
      let clean := good && groups.all fun g => g.ckptStep == t.step
      let next := (List.range t.parts).map fun i => if i = group ∧ good then copy + 1 else natAt t.ckptNext i
      let queue := if !good && e.state == 4 then t.ckptQueue ++ [group] else t.ckptQueue
      let t1 := { t with ckptActive := none, ckptLeft := 0, ckptWrote := 0, ckptTo := none, groups := groups, dirty := t.dirty && !clean, ckptNext := next, ckptQueue := queue }
      let paid := if e.inst = 0 then s else s.charge e.inst t.ckptLeft
      let s1 := paid.setTrain id { t1 with ckptValid := if good then (group, copy) :: t.ckptValid else t.ckptValid }
      -- the affixes' own records keep which of their copies hold the group, for a refetch of the affix
      let affixes := (s.objectRecords id).drop 1
      let s2 := if good then
          let told := affixes.foldl (fun (u : State) r => u.setTrain r { u.trainAt r with
            ckptValid := (group, copy) :: (u.trainAt r).ckptValid, ckptNext := next, dirty := (u.trainAt r).dirty && !clean }) s1
          ((s1.objectRecords id).filter fun r => group < (s1.groupTable r).2).foldl (fun u r =>
            (u.recordWrite r ((u.groupTable r).1 + 64 * group + 32) (bytesOfNat 8 t.ckptFrom)).digestRecord r) told
        else s1.raiseInst 0x3060 e.inst ([id, group, t.ckptFrom].map wordOf)
      if e.state = 4 ∧ e.evictDue.isNone ∧ queue.isEmpty then s2.setLex id { s2.lexAt id with evictDue := some s.tk.count.toNat } else s2

/-- CHECKPOINT_COMPLETE (R277, R278, R281). -/
def execCheckpointComplete (id : BitVec 24) (ok : Bool) (s : State) : Host.Outcome State Fault Refusal :=
  keep s (s.ckptDone id.toNat ok)

/-! ### Binding data (R266) -/

/-- 1 − β as the device computes it: exact for β ≥ 0.5, otherwise rounded once (R263). -/
def omega (beta : Word) : Word := toF32 true (fvSub (fvOfInt 1) (f32 beta))

/-- The step blocks of an object's groups (Table 9-4). -/
def stepBlocks (t : TrainObj) : List Word :=
  (List.range t.groups.length).flatMap fun i => match t.groups[i]? with
    | some g =>
      let kappa := if t.state = 3 then ((t.sums[i]?).map (·.kappa)).getD 0x3F800000#32 else 0x3F800000#32
      [g.eta, g.lambda, g.beta1, g.beta2, omega g.beta1, omega g.beta2, kappa, wordOf t.number]
    | none => []

/-- The step blocks written at the start of a request's current half on a gallery (R266). -/
def State.writeStepBlocks (s : State) (r : Request) (g : Nat) : State :=
  match r.lexId with
  | some id =>
    { s with mem := { s.mem with ctx := memWrite s.mem.ctx (ctxKey r.handle g r.half 0) ((stepBlocks (s.trainAt id)).flatMap Word.bytes) } }
  | none => s

end Sys2Proof.Machine
end

