-- ==== Sys2Proof/Machine/Lex.lean ====
section
/-! DEFINITION. What the lexicon and residency commands of the rings do when they take effect (R231 to R240, R293, R297,
R300, R301, Table 8-12). -/

namespace Sys2Proof.Machine

/-! ### Ids in scope (R237, R394) -/

/-- An entry a caller may name: in its range, or any for the physical function, and not free (R237, R238). -/
def State.lexVisible (s : State) (inst : Nat) (pf : Bool) (id : Nat) : Bool :=
  (s.lexAt id).kind != 0 && !(s.lexAt id).deleting && (pf || s.lexInRange inst id)

/-- A key slot lies in an instance's range (SEC_KEYRANGE). -/
def State.keyInRange (s : State) (inst slot : Nat) : Bool :=
  let lo := 16 * s.fld (Reg.SEC_KEYRANGE inst) 31 20
  decide (lo ≤ slot ∧ slot < lo + s.fld (Reg.SEC_KEYRANGE inst) 16 0)

/-- An affix slot lies in an instance's range (LEX_SLOTS). -/
def State.slotInRange (s : State) (inst n : Nat) : Bool :=
  let lo := s.fld (Reg.LEX_SLOTS inst) 27 16
  decide (lo ≤ n ∧ n < lo + s.fld (Reg.LEX_SLOTS inst) 12 0)

/-- Operand word k of an entry, k from 4 to 15 (Table 12-6). -/
def entryOp (e : Entry) (k : Nat) : Word := wordAt e.ops (k - 4)

/-- A 64-bit operand of an entry, low word at k. -/
def entryOp64 (e : Entry) (k : Nat) : Nat := (entryOp e k).toNat + 0x100000000 * (entryOp e (k + 1)).toNat

/-! ### LEX_CREATE (R237 to R239, R293) -/

/-- The lowest free id of an instance's range. -/
def State.freeId (s : State) (inst : Nat) : Option Nat :=
  let lo := s.fld (Reg.LEX_RANGE_BASE inst) 23 0
  let n := s.fld (Reg.LEX_RANGE_COUNT inst) 24 0
  let used := (s.ls.lex.filter fun p => p.2.kind != 0).map (·.1)
  -- the listed keys rise, so the first gap is found in one pass
  let k := used.foldl (fun a id => if id = lo + a then a + 1 else a) 0
  if k < n then some (lo + k) else none

/-- Record page `page`, fetched from the first source of the shard that holds it and decrypted (R238, R402). -/
def State.sourcePage (s : State) (id page : Nat) (e : LexEntry) : Option (List Byte × Nat) :=
  e.man.bind fun m =>
    (m.shards.find? fun x => decide (64 * x.targetOff ≤ 4096 * page ∧ 4096 * page < 64 * x.targetOff + x.bytes) && x.targetOff % 64 == 0).bind fun x =>
      (m.sources[x.srcFirst]?).bind fun src =>
        let n := shardPages x.bytes
        let i := page - x.targetOff / 64
        (s.sourceRead src (4096 * n + trailerBytes n)).bind fun data =>
          match decryptPages (s.keyAt e.keySlot) e.keySlot id page ((data.drop (4096 * i)).take 4096) ((data.drop (4096 * n)).drop (32 * i)) 1 0 with
          | .inl [p] => some p
          | _ => none

/-- The parameter groups of a record that LEX_CREATE takes in training form, whose workspace its reservation counts: from the pages that hold the group
table (R253, R299, DEDUCED: log entry 63). -/
def State.sourceGroups (s : State) (id : Nat) (e : LexEntry) : List Group :=
  let (off, n) := s.groupTable id
  let first := off / 4096
  let bs := (List.range ((off % 4096 + 64 * n + 4095) / 4096)).flatMap fun i => ((s.sourcePage id (first + i) e).map (·.1)).getD (List.replicate 4096 0)
  (List.range n).map fun i => parseGroup (wordsOfBytes ((bs.drop (off % 4096 + 64 * i)).take 64))

/-- Checkpoint copies of an instance's objects but for one: (base, bytes). -/
def State.ckptRegions (s : State) (but inst : Nat) : List (Nat × Nat) :=
  s.ls.train.flatMap fun p => if (s.lexAt p.1).inst = inst ∧ p.1 ≠ but then p.2.ckptCopies.map fun c => (c, (s.lexAt p.1).bytes) else []

/-- The highest run of `bytes` bytes of a flash range that runs in use leave free. -/
def highestRun (lo hi bytes : Nat) (used : List (Nat × Nat)) : Option Nat :=
  ((freeGaps hi lo (sortRuns used)).find? fun r => decide (bytes ≤ r.2)).map fun r => r.1 + r.2 - bytes

/-- Two checkpoint copies of a record, downward from the top of the instance's flash range, each in the highest room that the copies of other objects
leave (R293). -/
def State.allocCkpt (s : State) (id inst bytes : Nat) : Option (List Nat) :=
  let (lo, hi) := s.flashRange inst
  let used := s.ckptRegions id inst
  (highestRun lo hi bytes used).bind fun a => (highestRun lo hi bytes ((a, bytes) :: used)).map fun b => [a, b]

/-- LEX_CREATE takes effect: an id and GEN, the manifest copied, the first page fetched and verified (R237 to R239). -/
def State.applyLexCreate (s : State) (inst : Nat) (e : Entry) : State × Decision :=
  let kind := (entryOp e 4).field 31 28
  let form := (entryOp e 4).field 27 27
  let slot := (entryOp e 4).field 15 0
  let pages := (entryOp e 5).field 16 0
  let addr := entryOp64 e 6
  let len := (entryOp e 8).toNat
  let bytes := if (entryOp e 9).bit 31 then memRead s.mem.host addr len else s.winRead inst (s.winAbs inst addr) len
  if !s.keyInRange inst slot || (s.keyAt slot).state == 0 then (s, .no St.notFound)
  else match s.freeId inst, parseManifest kind bytes with
    | none, _ => (s, .no St.noCapacity)
    | _, none => (s, .bad 6 0)
    | some id, some m =>
      let ck := if form = 1 then s.allocCkpt id inst (4096 * pages) else some []
      match manifestPlace (s.manifestRuns none) m, ck with
        | none, _ | _, none => (s, .no St.noCapacity)
        | some at_, some copies =>
          let old := s.lexAt id
          let ent := { LexEntry.free with
            kind := kind, inst := inst, form := form, gen := old.gen, keySlot := slot, pages := pages, man := some m, manifest := at_ }
          let s1 := s.setLex id ent
          let s2 := if form = 1 then s1.setTrain id { TrainObj.blank with ckptCopies := copies } else s1
          let give := [wordOf id, wordOf old.gen]
          match s2.sourcePage id 0 ent with
          | none => (s2.setLex id { ent with state := 5 }, ⟨St.objectFailed, 0, 0, give⟩)
          | some (pt, epoch) =>
            let ent := { ent with first := pt.take 4096 }
            let s3 := s2.setLex id ent
            match headerCheck ent id s3.acceptsFormat (s3.headerWord id) with
            | some n => ((s3.setLex id { ent with state := 5 }).rejectRecord id n, ⟨St.objectFailed, 0, n, give⟩)
            | none =>
              let dig := (List.range 8).map fun i => s3.headerWord id (4 + i)
              let i := if kind = 1 then 22 else 17
              let step := (s3.headerWord id i).toNat + 0x100000000 * (s3.headerWord id (i + 1)).toNat
              let s4 := if form = 1 then s3.setTrain id { s3.trainAt id with groups := s3.sourceGroups id ent, step := step } else s3
              (s4.setLex id { ent with hdrOk := true, stemDigest := dig, epochPages := [(0, epoch)] }, .give give)

/-! ### LEX_QUERY, LEX_DELETE, LEX_CONVERT -/

/-- LEX_QUERY: half of the entry's words (Table 12-6). -/
def State.applyLexQuery (s : State) (inst : Nat) (pf : Bool) (e : Entry) : State × Decision :=
  let id := (entryOp e 4).field 23 0
  if !s.lexVisible inst pf id then (s, .no St.notFound)
  else
    let ws := s.lexRead id
    (s, .give (if (entryOp e 5).bit 0 then ws.drop 8 else ws.take 8))

/-- LEX_DELETE: the entry is freed at the next landing (R238); a GEN that differs names no entry (DEDUCED: log entry 38). -/
def State.applyLexDelete (s : State) (inst : Nat) (pf : Bool) (e : Entry) : State × Decision :=
  let id := (entryOp e 4).field 23 0
  let ent := s.lexAt id
  if !s.lexVisible inst pf id ∨ ent.gen ≠ (entryOp e 5).field 15 0 then (s, .no St.notFound)
  else (s.setLex id { ent with deleting := true }, .ok)

/-- An entry freed: its pages, slots and header leave, GEN advances (R235, R238). -/
def State.freeEntry (s : State) (id : Nat) : State :=
  let e := s.lexAt id
  let s1 := (s.freeSlotsOf id).zeroObject id e
  let s2 := s1.hdrWrite (4096 * id) (List.replicate 4096 0)
  (s2.setTrain id TrainObj.blank).setLex id { LexEntry.free with gen := (e.gen + 1) % 65536 }

/-- LEX_DELETE ends the requests that pin its entry (Table 8-12). -/
def State.endDeleted (s : State) : State :=
  (s.ls.lex.filter fun p => p.2.deleting).foldl (fun u p =>
    u.endReqs St.revoked fun r => r.lexId == some p.1 || r.affixes.contains p.1) s

/-- The entries that LEX_DELETE or a shrink names freed; no request names them any more.  An object that was resident or on its way leaves by a
forced eviction (Table 10-2). -/
def State.deleteStep (s : State) : State :=
  s.endDeleted.ls.lex.foldl (fun (u : State) p =>
    if !p.2.deleting then u else
    let u0 := if p.2.held || p.2.state == 1 then u.evicted p.1 p.2.inst 2 else u
    let u1 := u0.freeEntry p.1
    let reqs := u1.hs.reqs.map fun r =>
      { r with lexId := if r.lexId = some p.1 then none else r.lexId, affixes := r.affixes.filter (· != p.1), waits := r.waits.filter (· != p.1) }
    { u1 with hs := { u1.hs with reqs := reqs } }) s.endDeleted

/-- SERVE of a serving copy: MASTER, its exact FP32 value, rounded to FP16 under SAT (R229). -/
def serveOf (serve : Nat) : Nat := (fpRound fp16 false (fpDecode fp16 serve)).enc

/-- The state record of a serving copy: MASTER its exact FP32 value, MOMENT +0, SERVE (R229). -/
def freshRecord (serve : Nat) : List Byte :=
  bytesOfNat 4 (fpRound fp32 true (fpDecode fp16 serve)).enc ++ bytesOfNat 2 0 ++ bytesOfNat 2 (serveOf serve)

/-- A parameter group's entry (Table 9-2). -/
def groupBytes (g : Group) : List Byte :=
  ([wordOf (g.policy * 0x40000000 + b2n g.mirror * 0x20000000 + g.partner * 0x4000000), g.eta, g.lambda, g.beta1, g.beta2, g.clip,
    wordOf (g.holdTicks * 65536), wordOf g.ckptSteps] ++ words64 g.ckptStep ++ [wordOf g.params, wordOf g.gradKib, 0, 0, 0, 0]).flatMap Word.bytes

/-- A parameter group whose values the manual leaves open: the first one of a record that has had none (DESIGN CHOICE: log entry 39). -/
def freeGroup (f : Nat) : Group :=
  let w := fun i => wordOf (Config.partConst f i)
  ⟨(w 0).toNat % 3, false, 0, w 1, w 2, w 3, w 4, w 5, (w 6).toNat % 65536, (w 7).toNat, 0, (w 8).toNat, (w 9).toNat⟩

/-- Inflected vectors of a record by projection entry: (entry, first byte, channels). -/
def State.projBlocks (s : State) (id : Nat) : List (Nat × Nat × Nat) :=
  let w := s.headerWord id
  (List.range ((w 14).field 31 16)).flatMap fun i =>
    let l := s.recordWords id (w 16).toNat 4 i
    (List.range ((wordAt l 1).field 31 16)).map fun j =>
      let k := (wordAt l 0).field 15 0 + j
      let p := s.recordWords id (w 17).toNat 4 k
      (k, (wordAt l 2).toNat + 4 * (wordAt p 1).field 31 16, (wordAt p 1).field 15 0)

/-- Pages appended to a record, in a shard of their own on the gallery that holds the byte at `near`, or where the affix lies (DESIGN CHOICE: log entry 39). -/
def State.appendPages (s : State) (id near len : Nat) : State :=
  let e := s.lexAt id
  let shards := (e.man.map (·.shards)).getD []
  let home := if e.kind = 2 then 9 else ((List.range 8).find? fun g => e.homes g near).getD 0
  let n := ceilDiv len 4096
  let x : Shard := ⟨(shards.map (·.shard + 1)).foldl Nat.max 0, home, 0, false, 0, 0, 0, 64 * e.pages, 4096 * n, 0, 0, 0, 0, 0, 0, []⟩
  s.setLex id { e with
    pages := e.pages + n, man := e.man.map fun m => { m with shards := m.shards ++ [x] }
    shards := e.shards ++ [⟨x.shard, 0, true, [], 0, false, 0, 0, 0, false⟩] }

/-- The parameter-group table of a record converted to training form: the groups it had before it was converted to serving form, else one with
free values (R262, DESIGN CHOICE: log entry 39). -/
def State.groupsFor (s : State) (id : Nat) : List Group × State :=
  let t := s.trainAt id
  if t.kept.isEmpty then (let (f, s1) := s.free; ([freeGroup f], s1)) else (t.kept, s)

/-- State records of serving copies, made for each of a run of FP16 values (R229). -/
def freshRecords (serves : List Nat) : List Byte := serves.flatMap freshRecord

/-- An inflection from serving to training form (R228, R229): the group table after the record, then the state records of each projection's scales and
offsets, whose vectors become the SERVE fields. -/
def State.inflToTraining (s : State) (id : Nat) (groups : List Group) (member : List Nat) : State :=
  let gOff := (s.lexAt id).bytes
  let s1 := (s.appendPages id 4096 (64 * groups.length)).recordWrite id gOff (groups.flatMap groupBytes)
  let s2 := (s1.projBlocks id).foldl (fun (u : State) p =>
    let at_ := (u.lexAt id).bytes
    let n := 8 * p.2.2
    let ws := wordsOfBytes (u.recordRead id p.2.1 (4 * p.2.2))
    let pOff := (u.headerWord id 17).toNat + 16 * p.1
    let vecs := ws.flatMap fun w => bytesOfNat 2 (serveOf (w.field 15 0)) ++ bytesOfNat 2 (serveOf (w.field 31 16))
    (((u.appendPages id p.2.1 (2 * n)).recordWrite id at_ (freshRecords (ws.map (·.field 15 0)) ++ freshRecords (ws.map (·.field 31 16)))).recordWrite id p.2.1 vecs).recordWrite id (pOff + 2)
      ([byteOf (natAt member p.1)] ) |>.recordWrite id (pOff + 8) (bytesOfNat 4 at_ ++ bytesOfNat 4 (at_ + n))) s1
  ((s2.recordWrite id 60 (bytesOfNat 2 groups.length)).recordWrite id 76 (bytesOfNat 4 gOff)).recordWrite id 84 (bytesOfNat 4 (gOff + 4096 * ceilDiv (64 * groups.length) 4096))

/-- An affix from serving to training form (R228 to R230): the group table, then the state records of each matrix, whose weights become FP16. -/
def State.affixToTraining (s : State) (id : Nat) (groups : List Group) (member : List Nat) : State :=
  let gOff := (s.lexAt id).bytes
  let s1 := (s.appendPages id 0 (64 * groups.length)).recordWrite id gOff (groups.flatMap groupBytes)
  let mOff := (s1.headerWord id 15).toNat
  let s2 := (List.range (s1.matrices id).length).foldl (fun (u : State) i =>
    let x := u.recordWords id mOff 4 i
    let at_ := (u.lexAt id).bytes
    let n := (wordAt x 0).field 31 16 * (wordAt x 0).field 15 0
    let vals := (numsOf 2 n (u.recordRead id (wordAt x 2).toNat (2 * n))).map fun v => fpDecode (if (wordAt x 1).field 31 28 = 1 then bf16 else fp16) v
    let recs := vals.map fun v => ((fpRound fp32 true v).enc, (fpRound fp16 false v).enc)
    let u1 := (u.appendPages id 0 (8 * n)).recordWrite id at_ (recs.flatMap fun r => bytesOfNat 4 r.1 ++ bytesOfNat 2 0 ++ bytesOfNat 2 r.2)
    let w1 := ((wordAt x 1).setField 31 28 2).setField 27 20 (natAt member i)
    (u1.recordWrite id (wordAt x 2).toNat (recs.flatMap fun r => bytesOfNat 2 r.2)).recordWrite id (mOff + 16 * i + 4) (w1.bytes ++ bytesOfNat 4 (wordAt x 2).toNat ++ bytesOfNat 4 at_)) s1
  (s2.recordWrite id 56 (bytesOfNat 2 groups.length)).recordWrite id 64 (bytesOfNat 4 gOff)

/-- A record in its new form: the header's FORMAT (the instance's REC_FMT), FORM and RECORD_BYTES, the entry's FORM, digest and frames (R395, R475, Tables 8-3, 8-9) (DEDUCED: log entry 112).  The form at the manifest's
sources is the old one, so the object is dirty (DESIGN CHOICE: log entry 39). -/
def State.reformed (s : State) (id form : Nat) : State :=
  let s1 := (s.recordWrite id 4 (wordOf (s.recFmt (s.lexAt id).inst * 65536 + form)).bytes).recordWrite id 8 (bytesOfNat 4 (s.lexAt id).bytes)
  let s2 := (s1.setLex id { s1.lexAt id with form := form, converted := true, convert := none }).loadTrain id
  ((s2.setTrain id { s2.trainAt id with dirty := true }).fitFrames id).digestRecord id

/-- Serving form to training form (R229). -/
def State.toTraining (s : State) (id : Nat) : State :=
  let (gs, s1) := s.groupsFor id
  let mem := (s1.trainAt id).member
  let s2 := if (s1.lexAt id).kind = 1 then s1.inflToTraining id gs mem else s1.affixToTraining id gs mem
  (s2.setTrain id { s2.trainAt id with kept := [] }).reformed id 1

/-- The write plane and the gradient workspace of a record in serving form zeroed, as their frames are given back (R253, R409). -/
def State.dropPlanes (s : State) (id : Nat) : State :=
  let e := s.lexAt id
  { s with mem := if e.slotted then { s.mem with slot := memZero s.mem.slot (slotKey e.slot 1 0) (3 * 0x40000000) }
    else { s.mem with obj := (List.range 8).foldl (fun m g => memZero m (objKey id g 1 0) (3 * 0x40000000)) s.mem.obj } }

/-- Training form to serving form (R229): the serving copies stay; the groups and the state go, and what held them is 0.  The groups' values are kept for a
conversion back (R262). -/
def State.toServing (s : State) (id : Nat) : State :=
  let infl := (s.lexAt id).kind = 1
  let s0 := s.onePlane id
  let t := s0.trainAt id
  let zeros := fun (u : State) (off n : Nat) => u.recordWrite id off (List.replicate n 0)
  let table := s0.groupTable id
  let ents := if infl then ((s0.projBlocks id).map (·.1)).map fun k => (s0.headerWord id 17).toNat + 16 * k
    else (List.range (s0.matrices id).length).map fun i => (s0.headerWord id 15).toNat + 16 * i
  let words := fun (off : Nat) => wordsOfBytes (s0.recordRead id off 16)
  let member := ents.map fun o => if infl then (wordAt (words o) 0).field 23 16 else (wordAt (words o) 1).field 27 20
  let s1 := ents.foldl (fun (u : State) o =>
    let x := words o
    if infl then
      let n := 8 * (wordAt x 1).field 15 0
      ((zeros (zeros u (wordAt x 2).toNat n) (wordAt x 3).toNat n).recordWrite id (o + 8) (List.replicate 8 0)).recordWrite id (o + 2) [0]
    else
      let n := 8 * ((wordAt x 0).field 31 16 * (wordAt x 0).field 15 0)
      ((zeros u (wordAt x 3).toNat n).recordWrite id (o + 12) (List.replicate 4 0)).recordWrite id (o + 4) ((wordAt x 1).setField 27 20 0).bytes) s0
  let s2 := zeros s1 table.1 (64 * table.2)
  let s3 := if infl then zeros (zeros (zeros s2 60 2) 76 4) 84 12 else zeros (zeros s2 56 2) 64 12
  (s3.setTrain id { TrainObj.blank with
    ckptCopies := t.ckptCopies, ckptNext := t.ckptNext, ckptTrailers := t.ckptTrailers, kept := t.groups, member := member }).reformed id 0 |>.dropPlanes id

/-- LEX_CONVERT by the entry's owner: the form changes at the next landing; refused for a pinned object or one that is not RESIDENT, and where the
record in its new form is longer than R225 allows, or its frames or its checkpoint copies do not fit (R225, R229, R238, R293, Table 8-12, DEDUCED: log entry
39). -/
def State.applyLexConvert (s : State) (inst : Nat) (e : Entry) : State × Decision :=
  let id := (entryOp e 4).field 23 0
  let ent := s.lexAt id
  let form := (entryOp e 5).field 0 0
  if !s.lexVisible inst false id then (s, .no St.notFound)
  else if ent.pins > 0 ∨ ent.state ≠ 2 then (s, .no St.busy)
  else if ent.form = form then (s, .ok)
  else if form = 0 then (s.setLex id { ent with convert := some form }, .ok)
  else
    let (gs, s1) := s.groupsFor id
    let s2 := s1.setTrain id { s1.trainAt id with kept := gs }
    let after := s2.toTraining id
    let bytes := (after.lexAt id).bytes
    let more := (List.range 8).map fun g => natAt (after.objFrames8 id) g - natAt ent.frames g
    match s.allocCkpt id ent.inst bytes with
    | none => (s, .no St.noCapacity)
    | some copies =>
      if decide (bytes ≤ 67108864) && (s.lacking ent.inst more 0).isNone then
        ((s2.setTrain id { s2.trainAt id with ckptCopies := copies }).setLex id { ent with convert := some form }, .ok)
      else (s, .no St.noCapacity)

/-- A conversion that is due takes effect (R229, R238). -/
def State.convertStep (s : State) (id : Nat) : State :=
  match (s.lexAt id).convert with
  | none => s
  | some form =>
    if (s.lexAt id).state ≠ 2 then s.setLex id { s.lexAt id with convert := none }
    else if form = 1 then s.toTraining id
    else s.toServing id

/-! ### AFFIX_CLAIM and AFFIX_RELEASE (R231 to R235) -/

/-- AFFIX_CLAIM: the slot OWNED by the handle, the affix's pages reserved and pinned (R232, R233) (its corners, DEDUCED: log entry 77). -/
def State.applyAffixClaim (s : State) (inst handle : Nat) (e : Entry) : State × Decision :=
  let n := (entryOp e 4).field 11 0
  let id := (entryOp e 5).field 23 0
  let a := s.slotAt n
  let ent := s.lexAt id
  if !s.slotInRange inst n then (s, .no St.notFound)
  else if !s.lexVisible inst false id || ent.kind != 2 then (s, .no St.notFound)
  else if s.galFenced (slotGal n) then (s, .no St.noCapacity)
  else if a.owner = some handle ∧ a.lexId = id then (s, .give [wordOf a.gen])
  else if a.owner.isSome then (s, .no St.slotOwned)
  else if ent.slotted then (s, .bad 5 0)
  else if ent.state = 5 then (s, .no St.objectFailed)
  else
    let s1 := (s.setLex id { ent with slotted := true, slot := n }).setSlot n { a with owner := some handle, lexId := id }
    let done := (Decision.give [wordOf a.gen])
    let need := s1.objFrames8 id
    if ent.state = 0 then
      match s1.makeRoom inst [id] need 1 with
      | none => (s, .no St.noCapacity)
      | some s2 => ((s2.startFetch id).pin id, done)
    else
      -- the affix's pages are reserved on the slot's stack in place of the frames that it held
      let more := (List.range 8).map fun g => natAt need g - natAt ent.frames g
      match s1.makeRoom inst [id] more 0 with
      | none => (s, .no St.noCapacity)
      | some s2 =>
        let s3 := if ent.state = 4 then (s2.cancelEviction id).chaseVictims else s2
        let s4 := if ent.held || ent.state == 1 then (s3.moveAffix id n (s.fld (Reg.WIN_RANGE ent.inst) 4 2) true).mirrorAffix id else s3
        ((if ent.awaits then s4 else s4.fitFrames id).pin id, done)

/-- AFFIX_RELEASE: checked in the order of R235; with a request of the owner seated, that request ends with ST_REVOKED at the next landing and the slot
returns to FREE in phase C of it; otherwise the slot is FREE at once (its corners, DEDUCED: log entry 77). -/
def State.applyAffixRelease (s : State) (inst handle : Nat) (e : Entry) : State × Decision :=
  let n := (entryOp e 4).field 11 0
  let a := s.slotAt n
  if !s.slotInRange inst n then (s, .no St.notFound)
  else if a.owner ≠ some handle then (s, .no St.denied)
  else if a.gen ≠ (entryOp e 5).field 15 0 then (s, .bad 5 0)
  else if s.hs.reqs.any fun r => r.handle == handle && r.live && r.state == 2 then
    (((s.setSlot n { a with releasing := true }).endNext handle St.revoked), .ok)
  else (s.freeSlot n, .ok)

/-! ### RES_STORE, RES_PREFETCH, RES_EVICT, RES_RETRY (R293, R297, R301) -/

/-- RES_STORE: host memory copied to the instance's flash range, clear of its checkpoint copies, the bytes read and written charged to its budget (R293,
R294) (its corners, DEDUCED: log entry 78). -/
def State.applyResStore (s : State) (inst : Nat) (e : Entry) : State × Decision :=
  let a := entryOp64 e 4
  let n := (entryOp e 8).toNat
  let (lo, hi) := s.flashRange inst
  if a < lo ∨ hi < a + n ∨ (s.ckptRegions 0x1000000 inst).any fun r => rangesMeet a n r.1 r.2 then (s, .bad 4 0)
  else if !s.flashUp a n then (s, .no St.objectFailed)
  else ((if inst = 0 then s else s.charge inst (2 * n)).flashWrite (some inst) a (memRead s.mem.host (entryOp64 e 6) n), .ok)

/-- RES_PREFETCH: an ABSENT object is fetched, an eviction is cancelled (R297, R301) (its corners, DEDUCED: log entry 78). -/
def State.applyResPrefetch (s : State) (inst : Nat) (e : Entry) : State × Decision :=
  let id := (entryOp e 4).field 23 0
  let ent := s.lexAt id
  if !s.lexVisible inst false id then (s, .no St.notFound)
  else match ent.state with
    | 0 => match s.makeRoom inst [id] (s.objFrames8 id) 1 with
      | none => (s, .no St.noCapacity)
      | some s1 => (s1.startFetch id, .ok)
    | 4 => if ent.forced then (s, .no St.busy) else ((s.cancelEviction id).chaseVictims, .ok)
    | 5 => (s, .no St.objectFailed)
    | _ => (s, .ok)

/-- RES_EVICT: a RESIDENT object leaves (R297) (its corners, DEDUCED: log entry 78). -/
def State.applyResEvict (s : State) (inst : Nat) (e : Entry) : State × Decision :=
  let id := (entryOp e 4).field 23 0
  if !s.lexVisible inst false id then (s, .no St.notFound)
  else match (s.lexAt id).state with
    | 2 => if s.dirty id && (s.trainAt id).ckptCopies.isEmpty then (s, .no St.busy) else (s.evict id 1, .ok)
    | 0 | 4 => (s, .ok)
    | _ => (s, .no St.busy)

/-- RES_RETRY: a FAILED object is fetched again with frames reserved (R297) (its corners, DEDUCED: log entry 78). -/
def State.applyResRetry (s : State) (inst : Nat) (e : Entry) : State × Decision :=
  let id := (entryOp e 4).field 23 0
  if !s.lexVisible inst false id then (s, .no St.notFound)
  else if (s.lexAt id).state ≠ 5 then (s, .no St.busy)
  else match s.makeRoom inst [id] (s.objFrames8 id) 1 with
    | none => (s, .no St.noCapacity)
    | some s1 => (s1.startFetch id, .ok)

end Sys2Proof.Machine
end

