-- ==== Sys2Proof/Machine/Running.lean ====
section
/-! DEFINITION. The flights that run: the version 3 flight, or the version 2 images of the gallery pairs (R35, R43, R55,
R70, R71). -/

namespace Sys2Proof.Machine

/-- The running flight that carries an instance's route: in partition mode one of its own partitions' (R71). -/
def State.runOf (s : State) (inst route : Nat) : Option (Running × Route) :=
  s.runs.findSome? fun r =>
    if r.pair ≠ 0 ∧ !(r.f.partitions.any fun p => p.inst == inst) then none
    else (r.f.routeIn route).map fun x => (r, x)

/-- The templates of a route. -/
def Running.onRoute (r : Running) (route : Nat) : List Template := r.templates.filter fun t => t.route == route

/-- The cost of a template (R366). -/
def Running.cost (r : Running) (t : Template) : Nat := r.f.seatCost r.parent r.mask t

/-! ### Time slices (R71) -/

/-- Two partitions share a gallery. -/
def sharesDie (a b : Partition) : Bool := a.dies &&& b.dies != 0

/-- The partitions that take turns, in table order (DESIGN CHOICE: log entry 42). -/
def Flight.turns (f : Flight) : List Partition := f.partitions.filter fun p => f.partitions.any fun q => q.id != p.id && sharesDie p q

/-- A partition that takes turns lies on both galleries of the pair, so that the turns of the two galleries are one. -/
def Flight.oneTurn (f : Flight) : Bool := f.turns.any fun p => p.dies == 3

/-- The partitions that take the first and the second turn: the two galleries' own, or all in the first. -/
def Flight.turn0 (f : Flight) : List Partition := if f.oneTurn then f.turns else f.turns.filter fun p => p.dies == 1

def Flight.turn1 (f : Flight) : List Partition := if f.oneTurn then [] else f.turns.filter fun p => p.dies == 2

/-- The partitions that run in the current tick: those that share no gallery, and those whose turn it is (R71). -/
def FlightSlots.live (x : FlightSlots) : List Partition :=
  match x.active with
  | none => []
  | some f =>
    (f.partitions.filter fun p => !(f.partitions.any fun q => q.id != p.id && sharesDie p q))
      ++ (f.turn0[x.turn0.part]?).toList ++ (f.turn1[x.turn1.part]?).toList

/-- A gallery's partition in the current tick. -/
def State.partOf (s : State) (g : Nat) : Option Partition :=
  (s.pairSlots (g / 2)).live.find? fun p => p.dies / 2 ^ (g % 2) % 2 == 1

end Sys2Proof.Machine
end

