-- ==== Sys2Proof/Machine/Window.lean ====
section
/-! DEFINITION. The host window and what the device writes for an instance in the window and in host memory (R329 to R333,
R373, R374). -/

namespace Sys2Proof.Machine

/-- An instance's heartbeat timer restarted: since when no write has come, in units of `Ticks.now`; while the instance is frozen, which suspends the
timer, how long none had come when it froze (R355, R371). -/
def State.restartBeat (s : State) (n : Nat) : State := s.updInst n fun i => { i with beat := if s.frozen n then 0 else s.tk.now }

/-- The word of a handle: generation and index (Table 12-4). -/
def handleWord (gen index : Nat) : Word := wordOf (gen % 65536 * 0x10000 + index % 65536)

/-! ### Device writes (R373) -/

/-- The window written for an instance, both copies (R330). -/
def State.winPut (s : State) (n off : Nat) (bs : List Byte) : State := (s.winWrite off bs).logPages n off bs.length true

/-- Bytes written at a place of a ring: host memory or the window. -/
def State.placePut (s : State) (n : Nat) (host : Bool) (a : Nat) (bs : List Byte) : State :=
  if host then s.hostPut n a bs else s.winPut n a bs

/-- Bytes at a place of a ring. -/
def State.placeRead (s : State) (n : Nat) (host : Bool) (a len : Nat) : List Byte :=
  if host then memRead s.mem.host a len else s.winRead n a len

/-! ### Host writes (R330, R333) -/

/-- The instance whose range holds a window offset. -/
def State.winOwner (s : State) (off : Nat) : Option Nat :=
  (List.range 64).find? fun n => decide (s.winBase n ≤ off ∧ off < s.winBase n + s.winSize n)

/-- The requests whose immutable input pages hold a window offset (R39, R333). -/
def State.immutableBy (s : State) (off : Nat) : List Request :=
  (s.hs.immutable.filter fun x => decide (x.2.1 / 4096 * 4096 ≤ off ∧ off < ceilDiv (x.2.1 + x.2.2) 4096 * 4096)).filterMap fun x => s.reqAt x.1

/-- A discarded write noted for a request whose input it met (R333). -/
def State.noteInput (s : State) (off : Nat) (r : Request) : State :=
  (s.updReq r.handle fun x => { x with flags := setFlag x.flags Flag.inputWrite }).raiseInst 0x4005 r.inst [handleWord r.gen r.handle, wordOf (off / 4096)]

/-- A host write to one line: discarded and counted outside every range the function reaches, discarded on an
immutable line and noted for every request whose input it holds, else written to both copies. -/
def State.hostLine (s : State) (fn off : Nat) (bs : List Byte) : State :=
  let reach := match s.winOwner off with
    | some n => fn == 0 || n == fn
    | none => false
  if !reach then s.countScoped Reg.WIN_OOB (some fn) 1
  else match s.immutableBy off with
    | [] => s.winWrite off bs
    | r :: rs => (r :: rs).foldl (fun u x => u.noteInput off x) (s.countScoped Reg.WIN_IMMUT_WRITES (some r.inst) 1)

/-- A run of bytes cut at 64-byte lines: (offset, bytes). -/
def lineCuts : (fuel off : Nat) → List Byte → List (Nat × List Byte)
  | 0, _, _ => []
  | fuel + 1, off, bs =>
    if bs.isEmpty then [] else
    let n := 64 - off % 64
    (off, bs.take n) :: lineCuts fuel (off + n) (bs.drop n)

/-- What a host read of the window answers byte by byte: 0 outside every range, poison in a poisoned page (R330, Table 12-1, Table 15-2). -/
def State.windowView (s : State) (off n : Nat) : List (Option Byte) :=
  (List.range n).map fun i =>
    match s.winOwner (off + i) with
    | none => some 0
    | some k => if s.windowPoisoned k (off + i) then none else some ((s.winRead k (off + i) 1).headD 0)

/-- Bytes of a host write counted at the host link: event 1 through CXL.mem, 2 through BAR2 (Table 18-1). -/
def State.tallyHostWrite (s : State) (fn off n event : Nat) : State :=
  ((pageSplit (n / 4096 + 2) off n).foldl (fun u p =>
    u.tally ⟨0x102, event, 7, some fn, none, fn, some p.1, p.2⟩) s).tallyPort 30 0 n

/-- A host write at a function's own window offset, line by line. -/
def State.hostWrite (s : State) (fn off event : Nat) (bs : List Byte) : State :=
  ((lineCuts (bs.length / 64 + 2) (s.winAbs fn off) bs).foldl (fun u x => u.hostLine fn x.1 x.2) s).tallyHostWrite fn
    (s.winAbs fn off) bs.length event

/-- WINDOW_WRITE: a host write through CXL.mem or BAR2 (R326, R329 to R331). -/
def execWindowWrite (fn : BitVec 6) (off : BitVec 40) (cxlMem : Bool) (data : List Byte) (s : State) : Host.Outcome State Fault Refusal :=
  keep s (if s.barServed then s.hostWrite fn.toNat off.toNat (if cxlMem then 1 else 2) data else s)

/-- INPUT_WRITE: a host write that meets immutable lines; each is discarded at the line (R333). -/
def execInputWrite (fn : BitVec 6) (off : BitVec 40) (cxlMem : Bool) (data : List Byte) (s : State) : Host.Outcome State Fault Refusal :=
  keep s (if s.barServed then s.hostWrite fn.toNat off.toNat (if cxlMem then 1 else 2) data else s)

end Sys2Proof.Machine
end

