-- ==== Sys2Proof/Machine/Rings.lean ====
section
/-! DEFINITION. Rings: doorbells, the reading of entries, the posting of records and events (R335 to R342, R345 to R351,
R356). -/

namespace Sys2Proof.Machine

/-- A ring. -/
def State.ringAt (s : State) (k : Nat) : Ring := smGet (fun _ => Ring.free) s.hs.rings k

/-- A ring set. -/
def State.setRing (s : State) (k : Nat) (r : Ring) : State :=
  { s with hs := { s.hs with rings := smSet (fun _ => Ring.free) s.hs.rings k r } }

/-- A ring changed. -/
def State.updRing (s : State) (k : Nat) (f : Ring → Ring) : State := s.setRing k (f (s.ringAt k))

/-- Entries of a ring, and records of its CQ. -/
def Ring.depth (r : Ring) : Nat := 2 ^ r.depthLog2

/-- First ring and rings of an instance (WIN_RINGS). -/
def State.ringFirst (s : State) (n : Nat) : Nat := s.fld (Reg.WIN_RINGS n) 31 18
def State.ringCount (s : State) (n : Nat) : Nat := s.fld (Reg.WIN_RINGS n) 17 3

/-- The ring of a doorbell page (R335). -/
def State.pageRing (s : State) (fn page : Nat) : Option Nat :=
  if fn = 0 then some page
  else if page < Nat.min (s.ringCount fn) 1024 then some (s.ringFirst fn + page)
  else none

/-- Attachment state of an instance (Table 12-14): 0 UNATTACHED, 1 ATTACHED, 2 DETACHED. -/
def State.attachState (s : State) (n : Nat) : Nat := (s.regC (n + 1) Reg.WIN_ATTACH_STATE).field 31 30

/-! ### Entries (Table 12-4) -/

/-- The sixteen words of an entry. -/
def entryWords (op : Nat) (e : Entry) : List Word :=
  wordOf (op % 256 * 0x1000000 + e.rsv0.toNat * 0x10000 + e.seq.toNat) :: e.handle :: e.tag :: e.w3 :: ((List.range 12).map fun i => wordAt e.ops i)

/-- The opcode and entry that sixteen words spell. -/
def parseEntry (ws : List Word) : Nat × Entry :=
  let w := wordAt ws
  ((w 0).field 31 24, ⟨BitVec.ofNat 16 ((w 0).field 15 0), BitVec.ofNat 8 ((w 0).field 23 16), w 1, w 2, w 3, (ws.drop 4).take 12⟩)

/-- The words at the ring's next position; none where the read gets no answer. -/
def State.nextWords (s : State) (r : Ring) : Option (List Word) :=
  if r.sqHost && !s.linkOpen then none
  else some (wordsOfBytes (s.placeRead r.inst r.sqHost (r.sqAddr + 64 * (r.sqPos % r.depth)) 64))

/-- Entries an instance may read in a tick (R342). -/
def State.entryQuota (s : State) (n : Nat) : Nat := 16 * s.fld (Reg.WIN_INST_CFG n) 23 16

/-- Entries an instance has read in the tick. -/
def State.entriesRead (s : State) (n : Nat) : Nat := smGet (fun _ => 0) s.hs.readCount n

/-- The rings of an instance are read: it runs or is stopped, not pausing, paused or frozen (R371, R375), and is not detached, when only entries
already read take effect (R356, R357, DEDUCED: log entry 64). -/
def State.ringsRead (s : State) (n : Nat) : Bool := (s.instState n == 0 || s.instState n == 6) && s.attachState n != 2

/-- A ring has an entry that the device may read: an ACTIVE command ring without held records, its doorbell ahead (R340,
R348, R351). -/
def Ring.ahead (r : Ring) : Bool := r.state == 1 && r.kind == 0 && r.held.isEmpty && r.sqPos % r.depth != r.tail

/-- The next entry read when its SEQ matches; it takes effect in phase D (R337, R340, R342). -/
def State.takeEntry (s : State) (k : Nat) : Option State :=
  let r := s.ringAt k
  match s.nextWords r with
  | none => none
  | some ws =>
    let (op, e) := parseEntry ws
    if e.seq.toNat ≠ r.sqPos % 65536 then none
    else
      let s1 := s.setRing k { r with sqPos := r.sqPos + 1, mismatch := none }
      let h := s1.hs
      let h1 := { h with entries := h.entries ++ [(k, op, e)], readCount := smModify (fun _ => 0) h.readCount r.inst (· + 1) }
      let s2 := { s1 with hs := { h1 with lastRing := smSet (fun _ => 0) h.lastRing r.inst (k + 1) } }
      let s3 := s2.tally ⟨0x103, 1, 7, some r.inst, none, 0xFF, none, 1⟩
      some (if r.sqHost then s3.tallyCache r.inst 0 64 else s3)

/-- Entries of a ring read up to TAIL, the instance's quota, or a mismatch, at which reading stops (R340 to R342). -/
def State.readRing (s : State) (k : Nat) : (fuel : Nat) → State
  | 0 => s
  | fuel + 1 =>
    let r := s.ringAt k
    if !r.ahead || r.mismatch.isSome || !s.ringsRead r.inst || decide (s.entryQuota r.inst ≤ s.entriesRead r.inst) then s
    else match s.takeEntry k with
      | some s1 => State.readRing s1 k fuel
      | none => s.setRing k { r with mismatch := some 0 }

/-- The rings of an instance in ascending order, from the one after the ring served last (R342). -/
def State.ringOrder (s : State) (n : Nat) : List Nat :=
  let mine := (s.hs.rings.filter fun p => p.2.inst == n && p.2.state != 0).map (·.1)
  let last := smGet (fun _ => 0) s.hs.lastRing n
  (mine.filter fun k => decide (last ≤ k)) ++ mine.filter fun k => decide (k < last)

/-- The ring engine reads an instance's rings, while ticks run. -/
def State.readRings (s : State) (n : Nat) : State :=
  if !s.tk.running then s else (s.ringOrder n).foldl (fun u k => u.readRing k (u.entryQuota n)) s

/-- An entry the host submits: it stands in its slot, and the ring's TAIL covers it while the host may ring a doorbell
(R332, R337, R340, R356; DESIGN CHOICE: log entry 43). -/
def State.submit (s : State) (k op : Nat) (e : Entry) : State :=
  let r := s.ringAt k
  if r.state = 0 ∨ r.kind ≠ 0 then s
  else
    let d := r.depth
    let bs := (entryWords op e).flatMap Word.bytes
    let a := r.sqAddr + 64 * (e.seq.toNat % d)
    let s1 := if r.sqHost then { s with mem := { s.mem with host := memWrite s.mem.host a bs } } else s.winWrite a bs
    let ahead := (e.seq.toNat + 65536 - r.sqPos % 65536) % 65536
    let out := (r.tail + d - r.sqPos % d) % d
    let s2 := if s.attachState r.inst ≠ 2 ∧ out ≤ ahead ∧ ahead + 1 < d then s1.setRing k { r with tail := (r.sqPos + ahead + 1) % d } else s1
    s2.readRings r.inst

/-! ### Doorbells (R339, R340) -/

/-- DOORBELL: TAIL moves when it fits SEQ_LAST, and entries are read; a doorbell that does not fit is ignored with its
event, and none is accepted while the instance is detached (R340, R356) (its corners, DEDUCED: log entry 93). -/
def execDoorbell (fn : BitVec 6) (page : BitVec 14) (tail : BitVec 16) (seqLast : BitVec 16) (s : State) :
    Host.Outcome State Fault Refusal :=
  keep s (match (if s.barServed then s.pageRing fn.toNat page.toNat else none) with
    | none => s
    | some k =>
      let r := s.ringAt k
      if r.state = 0 ∨ s.attachState r.inst = 2 then s
      else if tail.toNat < r.depth ∧ (seqLast.toNat + 1) % r.depth = tail.toNat then
        ((s.setRing k { r with tail := tail.toNat }).tally ⟨0x102, 4, 7, some r.inst, none, fn.toNat, none, 1⟩).readRings r.inst
      else s.raiseInst 0x4002 r.inst ([k, tail.toNat, seqLast.toNat].map wordOf))

/-- HOST_READ_TIMEOUT: a read of host memory that takes more than 1 ms counts as a mismatch: of the next entry, or of its
re-read once reading has stopped there (R341). -/
def execHostReadTimeout (ring : BitVec 14) (s : State) : Host.Outcome State Fault Refusal :=
  let k := ring.toNat
  let r := s.ringAt k
  keep s (if !(r.ahead && r.sqHost) then s
    else if r.mismatch.isNone then s.setRing k { r with mismatch := some 0 }
    else s.setRing k { r with readTimeout := true })

/-- A ring halted at a mismatch that has lasted DB_TIMEOUT re-reads (R341). -/
def State.ringHalt (s : State) (k : Nat) : State :=
  let r := s.ringAt k
  match r.mismatch with
  | some n =>
    if r.state = 1 ∧ s.fld (Reg.WIN_INST_CFG r.inst) 29 24 ≤ n then
      let seen := match s.nextWords r with
        | some ws => (wordAt ws 0).field 15 0
        | none => 0
      (s.setRing k { r with state := 2, mismatch := none }).raiseInst 0x4001 r.inst ([k, r.sqPos, r.sqPos % 65536, seen].map wordOf)
    else s
  | none => s

/-- DB_TIMEOUT_EXPIRE (R336, R341). -/
def execDbTimeoutExpire (ring : BitVec 14) (s : State) : Host.Outcome State Fault Refusal := keep s (s.ringHalt ring.toNat)

/-- The re-read of phase C: the entry at which a ring's reading stopped, in this tick or before; it halts at the last
re-read that does not match (R341). -/
def State.reRead (s : State) (k : Nat) : State :=
  let r := s.ringAt k
  if !r.ahead || !s.ringsRead r.inst then s
  else if r.mismatch.isNone && decide (s.entryQuota r.inst ≤ s.entriesRead r.inst) then s
  else match (if r.readTimeout then none else s.takeEntry k) with
    | some s1 => s1
    | none => (s.setRing k { r with mismatch := some ((r.mismatch.getD 0) + 1), readTimeout := false }).ringHalt k

/-- SEQ_REREAD of every ring. -/
def State.reReadAll (s : State) : State := (s.hs.rings.map (·.1)).foldl (fun u k => u.reRead k) s

/-! ### Completion records (R345 to R349) -/

/-- The sixteen words of a record with its PHASE (Table 12-8). -/
def complWords (x : Record) (phase : Nat) : List Word :=
  [wordOf (x.status % 256 * 0x1000000 + x.opcode % 256 * 0x10000 + x.seq % 65536), x.handle, x.tag,
    wordOf (phase * 0x80000000 + x.path % 4 * 0x20000000 + x.flags % 65536)] ++ words64 x.tick.toNat
    ++ [wordOf (x.field % 512 * 0x800000 + x.detail % 65536), wordOf x.outBytes] ++ ((List.range 8).map fun i => wordAt x.result i)

/-- PHASE of a CQ's next record: 1 on the first pass, then alternating. -/
def Ring.phase (r : Ring) : Nat := 1 - r.cqPos / r.depth % 2

/-- The CQ has room for a record (R348). -/
def Ring.room (r : Ring) : Bool := decide (r.cqPos - r.cqHead < r.depth)

/-- Sixteen words written at a CQ's next place. -/
def State.cqPut (s : State) (k : Nat) (ws : List Word) : State :=
  let r := s.ringAt k
  let s1 := s.placePut r.inst r.cqHost (r.cqAddr + 64 * (r.cqPos % r.depth)) (ws.flatMap Word.bytes)
  (s1.setRing k { r with cqPos := r.cqPos + 1, posted := true }).tally ⟨0x103, 2, 7, some r.inst, none, 0xFF, none, 1⟩

/-- The CQ may be written: the instance is not frozen, and a ring in host memory has its link and host (R356, R371). -/
def State.cqOpen (s : State) (r : Ring) : Bool :=
  !s.frozen r.inst && (!r.cqHost || (s.linkOpen && s.attachState r.inst != 2))

/-- The request of a posted record leaves tracking; its handle becomes BOUND (Tables 12-12 and 12-13). -/
def State.untrack (s : State) (h : Nat) : State :=
  let h0 := { s.hs with reqs := s.hs.reqs.filter fun r => r.handle != h }
  let s1 := { s with hs := { h0 with immutable := h0.immutable.filter fun x => x.1 != h } }
  let hd := smGet (fun _ => Handle.free) s1.hs.handles h
  { s1 with hs := { s1.hs with handles := smSet (fun _ => Handle.free) s1.hs.handles h { hd with state := if hd.state = 3 then 2 else hd.state } } }

/-- Opcodes whose record is a request's. -/
def isRequestOp (op : Nat) : Bool := op == Op.admitReq || op == Op.trainBatch || op == Op.trainStep

/-- A record is that of the tracked request of its handle: the request has ended and this is its record. -/
def State.recordOf (s : State) (x : Record) : Option Request :=
  if isRequestOp x.opcode then
    (s.reqAt (x.handle.field 15 0)).bind fun r => if r.record == some x then some r else none
  else none

/-- The oldest held record of a ring posted, if the CQ has room. -/
def State.postOne (s : State) (k : Nat) : Option State :=
  let r := s.ringAt k
  match r.held with
  | [] => none
  | x :: rest =>
    if r.state = 0 || !r.room || !s.cqOpen r then none
    else
      let s1 := (s.setRing k { r with held := rest }).cqPut k (complWords x r.phase)
      some (match s1.recordOf x with
        | some q => s1.untrack q.handle
        | none => s1)

/-- Held records of a ring posted in order of completion while there is room (R348). -/
def State.postHeld (s : State) (k : Nat) : (fuel : Nat) → State
  | 0 => s
  | fuel + 1 => match s.postOne k with
    | some s1 => State.postHeld s1 k fuel
    | none => s

/-- A record completed: it joins the records held for its ring and posts if it can; a record of a FREE ring is not posted
and its request leaves tracking (R336, R348) (its corners, DEDUCED: log entry 94). -/
def State.complete (s : State) (k : Nat) (x : Record) : State :=
  let r := s.ringAt k
  if r.state = 0 then (match s.recordOf x with
    | some q => s.untrack q.handle
    | none => s)
  else (s.setRing k { r with held := r.held ++ [x] }).postHeld k (r.held.length + 1)

/-- MSI-X at the end of phase B: one message per ring that posted and has a vector (R349) (its corners, DEDUCED: log entry 94). -/
def State.ringMsix (s : State) : State :=
  s.hs.rings.foldl (fun u p =>
    let r := u.ringAt p.1
    if !r.posted || r.kind != 0 then u
    else
      let u1 := u.setRing p.1 { r with posted := false }
      if r.vector = 0x7FF then u1 else { u1 with out := u1.out ++ [.msix r.inst r.vector] }) s

/-- CQ_HEAD_WRITE: the records the host has consumed; held records post as room comes, with no message of their own
(R339, R348, R349).  An index past the
depth, or past the records posted, moves nothing (its corners, DEDUCED: log entry 93). -/
def execCqHeadWrite (fn : BitVec 6) (page : BitVec 14) (head : BitVec 16) (s : State) : Host.Outcome State Fault Refusal :=
  keep s (match (if s.barServed then s.pageRing fn.toNat page.toNat else none) with
    | none => s
    | some k =>
      let r := s.ringAt k
      let d := r.depth
      let h := head.toNat
      if r.state = 0 ∨ d ≤ h then s
      else
        let step := (h + d - r.cqHead % d) % d
        let step1 := if step = 0 ∧ r.cqPos - r.cqHead = d then d else step
        if r.cqHead + step1 ≤ r.cqPos then
          let s1 := (s.setRing k { r with cqHead := r.cqHead + step1 }).postHeld k r.held.length
          (s1.updRing k fun x => { x with posted := r.posted }).readRings r.inst
        else s)

/-! ### Events (R351) -/

/-- The event ring of a function. -/
def State.eventRing (s : State) (fn : Nat) : Option Nat :=
  (s.hs.rings.find? fun p => p.2.state != 0 && p.2.kind == 1 && p.2.inst == fn).map (·.1)

/-- An event record (Table 12-10). -/
def eventWords (e : Event) (count : Nat) (phase : Nat) (lost : Bool) (tick : Nat) : List Word :=
  [wordOf (0xFF0000 + e.code % 65536), (match e.inst with | some n => wordOf n | none => 0xFFFFFFFF#32), wordOf count,
    wordOf (phase * 0x80000000 + b2n lost)] ++ words64 tick ++ ((List.range 10).map fun i => wordAt e.payload i)

/-- Event records held for a ring posted, unless it lies in host memory whose link is closed or whose instance is detached (R351, R356). -/
def State.postEvents (s : State) (k : Nat) : State :=
  let r := s.ringAt k
  if r.cqHost && !(s.linkOpen && s.attachState r.inst != 2) then s
  else r.heldEv.foldl (fun u ws => u.cqPut k ws) (s.setRing k { r with heldEv := [] })

/-- An event published to a function: its record posted, or held while the ring cannot be written; lost and counted where the CQ is full (R351, R356). -/
def State.publishTo (s : State) (fn : Nat) (e : Event) : State :=
  let s1 := { s with evCount := smModify (fun _ => 0) s.evCount fn (fun c => (c + 1) % 0x100000000) }
  let n := smGet (fun _ => 0) s1.evCount fn
  let lose := (fun (u : State) => (let v := u.countScoped Reg.WIN_EV_LOST (some fn) 1
    { v with hs := { v.hs with evLost := if v.hs.evLost.contains fn then v.hs.evLost else v.hs.evLost ++ [fn] } }))
  match s1.eventRing fn with
  | none => lose s1
  | some k =>
    let r := s1.ringAt k
    let pos := r.cqPos + r.heldEv.length
    if r.depth ≤ pos - r.cqHead then lose s1
    else
      let ws := eventWords e n (1 - pos / r.depth % 2) (s1.hs.evLost.contains fn) s1.tk.count.toNat
      let s2 := (s1.setRing k { r with heldEv := r.heldEv ++ [ws] }).postEvents k
      { s2 with hs := { s2.hs with evLost := s2.hs.evLost.filter fun x => x != fn } }

/-- The events raised so far published in the order raised, each to its functions; then the event rings' messages (R14,
R349, R351) (its corners, DEDUCED: log entry 94). -/
def State.publish (s : State) : State :=
  let s1 := s.events.foldl (fun u e => (0 :: e.dests.filter fun d => d != 0).foldl (fun v fn => v.publishTo fn e) u) s
  let s2 := s1.hs.rings.foldl (fun u p =>
    let r := u.ringAt p.1
    if !r.posted || r.kind != 1 then u
    else
      let u1 := u.setRing p.1 { r with posted := false }
      if r.vector = 0x7FF then u1 else { u1 with out := u1.out ++ [.msix r.inst r.vector] }) s1
  { s2 with events := [] }

end Sys2Proof.Machine
end

