-- ==== Sys2Proof/Machine/Requests.lean ====
section
/-! DEFINITION. Submission entries: their range checks, handles, the admission of requests, and what each entry does when it
takes effect in phase D (R240, R249 to R251, R299 to R301, R342 to R346, R352 to R354). -/

namespace Sys2Proof.Machine

/-! ### Range checks (R354) -/

/-- A reserved field is 0; with its number. -/
def entryRz (e : Entry) (k hi lo : Nat) : Bool × Nat := ((entryOp e k).field hi lo == 0, 32 * k + lo)

/-- Whole reserved words. -/
def entryRzs (e : Entry) (ks : List Nat) : List (Bool × Nat) := ks.map fun k => entryRz e k 31 0

/-- Words `from` to 15 are reserved. -/
def entryRest (e : Entry) (first : Nat) : List (Bool × Nat) := entryRzs e ((List.range 16).drop first)

/-- The operand fields of ADMIT, TRAIN_BATCH and, with no input, TRAIN_STEP. -/
def State.requestFields (s : State) (n : Nat) (e : Entry) (input : Bool) : List (Bool × Nat) :=
  let path := (entryOp e 12).field 31 30
  let inOff := entryOp64 e 4
  let inLen := (entryOp e 6).toNat
  let outLen := (entryOp e 11).toNat
  let tokens := (entryOp e 12).field 22 0
  [(if input then inOff % 4096 == 0 && s.winHas n inOff inLen else inOff == 0, 128),
    (if input then decide (1 ≤ inLen ∧ inLen ≤ 0x40000000) else inLen == 0, 192),
    (entryOp64 e 7 % 4096 == 0 && (path % 2 == 0 || s.winHas n (entryOp64 e 7) outLen), 224), (entryOp64 e 9 % 64 == 0, 288),
    (decide (1 ≤ outLen ∧ outLen ≤ 0x40000000), 352), (decide (1 ≤ tokens ∧ tokens ≤ 4194304), 384), entryRz e 12 29 23,
    (path != 0, 414)] ++ entryRest e 13

/-- The operand fields of an opcode, in ascending order of word and bit (Table 12-6). -/
def State.operandFields (s : State) (n op : Nat) (e : Entry) : List (Bool × Nat) :=
  let w := entryOp e
  let idOnly := entryRz e 4 31 24 :: entryRest e 5
  let bit0 := [entryRz e 4 31 24, entryRz e 5 31 1] ++ entryRest e 6
  match op with
  | 0x02 => [entryRz e 4 31 24, entryRz e 5 23 1] ++ entryRest e 6
  | 0x03 | 0x05 => s.requestFields n e true
  | 0x06 => s.requestFields n e false
  | 0x07 => [entryRz e 4 31 24, entryRz e 6 29 0, (decide (1 ≤ (w 6).field 31 30 ∧ (w 6).field 31 30 ≤ 2), 222)] ++ entryRest e 7
  | 0x10 =>
    let at_ := entryOp64 e 6
    let len := (w 8).toNat
    [entryRz e 4 26 16, (decide (1 ≤ (w 4).field 31 28 ∧ (w 4).field 31 28 ≤ 2), 156),
      (decide (1 ≤ (w 5).field 16 0 ∧ (w 5).field 16 0 ≤ 16384), 160), entryRz e 5 31 17,
      (at_ % 64 == 0 && ((w 9).bit 31 || s.winHas n at_ len), 192), (decide (1 ≤ len ∧ len ≤ 0x100000), 256), entryRz e 9 30 0]
      ++ entryRest e 10
  | 0x11 => [entryRz e 4 31 24, entryRz e 5 31 16] ++ entryRest e 6
  | 0x12 | 0x13 => bit0
  | 0x14 => [entryRz e 4 31 12, entryRz e 5 31 24] ++ entryRest e 6
  | 0x15 => [entryRz e 4 31 12, entryRz e 5 31 16] ++ entryRest e 6
  | 0x20 =>
    let at_ := entryOp64 e 4
    let len := (w 8).toNat
    let (lo, hi) := s.flashRange n
    [(at_ % 4096 == 0 && decide (lo ≤ at_ ∧ at_ + len ≤ hi), 128), (entryOp64 e 6 % 4096 == 0, 192),
      (decide (4096 ≤ len ∧ len ≤ 0x4000000) && len % 4096 == 0, 256)] ++ entryRest e 9
  | 0x21 | 0x22 | 0x23 => idOnly
  | _ => entryRest e 4

/-- Opcodes of Table 12-6. -/
def knownOp (op : Nat) : Bool :=
  [0x01, 0x02, 0x03, 0x04, 0x05, 0x06, 0x07, 0x10, 0x11, 0x12, 0x13, 0x14, 0x15, 0x20, 0x21, 0x22, 0x23, 0x30].contains op

/-- Opcodes that name a handle in word 1 (R344). -/
def namesHandle (op : Nat) : Bool := [0x02, 0x03, 0x04, 0x05, 0x06, 0x14, 0x15].contains op

/-- The first field of an entry that fails its check (R354). -/
def State.badField (s : State) (n op : Nat) (e : Entry) : Option Nat :=
  if e.rsv0 ≠ 0 then some 16
  else if !knownOp op then some 24
  else
    let checks : List (Bool × Nat) := [(namesHandle op || e.handle == 0, 32), (e.w3 == 0, 96)] ++ s.operandFields n op e
    (checks.find? fun x => !x.1).map (·.2)

/-! ### Handles (Table 12-12) -/

/-- A handle. -/
def State.handleAt (s : State) (h : Nat) : Handle := smGet (fun _ => Handle.free) s.hs.handles h

/-- A handle set. -/
def State.setHandle (s : State) (h : Nat) (x : Handle) : State :=
  { s with hs := { s.hs with handles := smSet (fun _ => Handle.free) s.hs.handles h x } }

/-- First handle index and handles of an instance (WIN_HANDLES). -/
def State.handleFirst (s : State) (n : Nat) : Nat := s.fld (Reg.WIN_HANDLES n) 31 16
def State.handleCount (s : State) (n : Nat) : Nat := 16 * s.fld (Reg.WIN_HANDLES n) 15 3

/-- The handle index a word names, when its generation and its range are right (R352). -/
def State.handleOf (s : State) (n : Nat) (w : Word) : Option Nat :=
  let h := w.field 15 0
  let x := s.handleAt h
  if s.handleFirst n ≤ h ∧ h < s.handleFirst n + s.handleCount n ∧ x.state ≠ 0 ∧ (!x.freeing ∨ x.state = 3) ∧ x.gen = w.field 31 16 then some h else none

/-- CREATE: the lowest free index of the instance's range becomes CREATED, its account at 0 (R352, R369). -/
def State.applyCreate (s : State) (n : Nat) : State × Decision :=
  match ((List.range (s.handleCount n)).map (· + s.handleFirst n)).find? fun h => (s.handleAt h).state == 0 with
  | none => (s, .no St.noCapacity)
  | some h =>
    let x := s.handleAt h
    (s.setHandle h { Handle.free with state := 1, gen := x.gen }, .give [handleWord x.gen h])

/-- BIND: the handle takes a route and an inflection, or the identity (R344, R352) (its corners, DEDUCED: log entry 93). -/
def State.applyBind (s : State) (n h : Nat) (e : Entry) : State × Decision :=
  let x := s.handleAt h
  let id := (entryOp e 4).field 23 0
  let noInfl := (entryOp e 5).bit 0
  if x.state = 3 then (s, .no St.busy)
  else if !noInfl && !(s.lexVisible n false id && (s.lexAt id).kind == 1) then (s, .no St.notFound)
  else (s.setHandle h { x with state := 2, route := (entryOp e 5).field 31 24, lexId := id, noInfl := noInfl }, .ok)

/-- DESTROY: the handle is freed at the next landing, and a request in flight ends with ST_REVOKED (R352). -/
def State.applyDestroy (s : State) (h : Nat) : State × Decision :=
  ((s.setHandle h { s.handleAt h with freeing := true }).endNext h St.revoked, .ok)

/-- A handle that DESTROY named and no request holds becomes FREE: its generation advances and its slots are released
(R235, R352). -/
def State.freeHandle (s : State) (h : Nat) : State :=
  let x := s.handleAt h
  let s1 := (s.ls.slots.filter fun p => p.2.owner == some h).foldl (fun u p => u.freeSlot p.1) s
  s1.setHandle h { Handle.free with gen := (x.gen + 1) % 65536 }

/-! ### Fetch windows a request reads (R295, R510) -/

/-- The windows that a template's seat reads: those of clauses that concern its slot, or every window of its instance
where no clause names seats. -/
def Running.seatWindows (run : Running) (t : Template) (inst : Nat) : List (Nat × Nat) :=
  match run.f.blockIn run.parent run.mask t.program t.gal with
  | none => []
  | some (p, b) =>
    (b.lists.flatMap fun l => (indexedClauses l.2).filterMap fun x =>
      let c := x.2
      if c.window = 0xFFFF then none
      else
        let op := (p.descOf run.f.pool t.gal l.1 x.1 c).1
        let mine := match opSeats c op with
          | some ss => ss.contains t.slot
          | none => p.fetch.any fun w => w.window == c.window && w.gal == t.gal && w.inst == inst
        let staged := match op with
          | .xfer 4 d => d.hmode == 0
          | _ => false
        if mine && !staged then some (t.gal, c.window) else none).dedup
where
  /-- Clauses with their index. -/
  indexedClauses (cs : List Clause) : List (Nat × Clause) := (List.range cs.length).filterMap fun i => cs[i]?.map fun c => (i, c)

/-- The WINDOW_FILL descriptor of a window of a template's gallery, and its entry in the fetch window table (R295, Table 2-7). -/
def Running.windowFill (run : Running) (t : Template) (window : Nat) : Option (XferDesc × FetchWin) :=
  (run.f.blockIn run.parent run.mask t.program t.gal).bind fun (p, b) =>
    (p.fetch.find? fun w => w.window == window && w.gal == t.gal).bind fun w =>
      b.lists.findSome? fun l => (seatWindows.indexedClauses l.2).findSome? fun x =>
        if x.2.window ≠ window then none
        else match (p.descOf run.f.pool t.gal l.1 x.1 x.2).1 with
          | .xfer 4 d => some (d, w)
          | _ => none

/-- Fills issued for a request and the stages [first, first + n) of its route: each window not already on its way (R295) (its corners, DEDUCED: log entry 101). -/
def State.issueFills (s : State) (run : Running) (route inst handle first n : Nat) : State :=
  ((run.onRoute route).filter fun t => decide (first ≤ t.stage ∧ t.stage < first + n)).foldl (fun u t =>
    (run.seatWindows t inst).foldl (fun v w =>
      if v.ls.fills.any fun f => f.gal == w.1 && f.window == w.2 then v
      else match run.windowFill t w.2 with
        | some (d, y) => { v with ls := { v.ls with fills := v.ls.fills ++ [⟨w.1, w.2, inst, handle, d, y.sources, y.deadline, 0, [], false⟩] } }
        | none => v) u) s

/-! ### Admission (R240, R249 to R251, R299 to R301) -/

/-- The objects a request needs: its inflection and the affixes that it names. -/
def State.neededBy (s : State) (x : Handle) : List Nat := if x.noInfl then [] else (x.lexId :: s.recordAffixes x.lexId).dedup

/-- The refusals of R240 in their order, then R251's (its corners, DEDUCED: log entry 93). -/
def State.admitRefusal (s : State) (n h op : Nat) (x : Handle) : Option Nat :=
  let t := s.stemAt (s.stemSel n)
  let need := s.neededBy x
  let digest := fun id => (s.lexAt id).stemDigest
  if t.state = 0 ∨ t.state = 6 then some St.objectFailed
  else if need.any fun id => !t.accepts (digest id) then some St.stemMismatch
  else if (need.drop 1).any fun a => (s.slotOf h a).isNone then some St.noAffix
  else if op = Op.trainStep ∧ (s.trainAt x.lexId).state ≠ 0 then some St.busy
  else if 65536 ≤ s.hs.reqs.length then some St.noCapacity
  else none

/-- Frames of KV and of activations that a request reserves on each gallery (R299). -/
def State.requestFrames (s : State) (run : Running) (route tokens : Nat) : List Nat × List Nat :=
  let on := fun g => (run.onRoute route).any fun t => t.gal == g
  let k := s.fld (Reg.RES_ROUTE_KV route) 31 16
  ((List.range 8).map fun g => if on g then framesOf (tokens * k * 64) else 0,
    (List.range 8).map fun g => if on g then s.fld (Reg.RES_ROUTE_KV route) 15 0 else 0)

/-- Frames that the needed objects which hold none will take, by gallery; and those of one that is EVICTING, which stays (R299, R301). -/
def State.wantFrames (s : State) (need : List Nat) : List Nat :=
  let absent := need.filter fun id => (s.lexAt id).state == 0 || (s.lexAt id).state == 4
  (List.range 8).map fun g => (absent.map fun id => s.objFrames id g).sum

/-- Every needed object pinned: an eviction under way is cancelled, an ABSENT object goes FETCHING (R299, R301). -/
def State.pinNeeded (s : State) (need : List Nat) : State :=
  need.foldl (fun u id =>
    let e := u.lexAt id
    let u1 := if e.state = 4 then u.cancelEviction id else if e.state = 0 then u.startFetch id else u
    u1.pin id) s

/-- The request of an entry, before what admission adds. -/
def newRequest (h n k op : Nat) (x : Handle) (e : Entry) : Request :=
  { handle := h, gen := x.gen, inst := n, ring := k, seq := e.seq.toNat, opcode := op, tag := e.tag, state := 1, status := 0
    route := x.route, cls := 0, stages := 1, stage := 0, deadline := 0, admitted := 0, told := none, lexId := (if x.noInfl then none else some x.lexId)
    affixes := [], plane := 0, stem := 0, tokens := (entryOp e 12).field 22 0, inOff := entryOp64 e 4, inBytes := (entryOp e 6).toNat
    outWin := entryOp64 e 7, outHost := entryOp64 e 9, outBytes := (entryOp e 11).toNat, path := (entryOp e 12).field 31 30
    flags := 0, half := 0, committed := 0, deferredLast := false, mark := false, kv := [], act := [], sums := [], waits := []
    frozen := false, ending := none, endTick := 0, dataVisible := false, step := 0, pass := 0, wait := 0, record := none }

/-- The reservation's frames and context as a request first sees them: zeros (R409). -/
def State.zeroRequest (s : State) (h : Nat) : State :=
  let m := { s.mem with ctx := memZero s.mem.ctx (ctxKey h 0 0 0) (16 * areaSpan) }
  { s with mem := { m with req := memZero m.req (reqKey h 0 0 0) (16 * 0x10000000000) } }

/-- A request that R240 and R299 let in: objects pinned, frames reserved, ADMITTED, or PARKED while an object that it needs is not held (R299, R353). -/
def State.enterRequest (s : State) (run : Running) (rt : Route) (need : List Nat) (r : Request) : State :=
  let (kv, act) := s.requestFrames run rt.route r.tokens
  let slot := s.stemSel r.inst
  let st := (s.stemAt slot).state
  let s1 := (s.pinNeeded need).zeroRequest r.handle
  let late := need.filter fun id => !(s1.lexAt id).held
  let waits := late ++ (if st = 1 ∨ st = 5 then [stemWait slot] else [])
  let room := (List.range 8).all fun g => decide (natAt kv g + natAt act g = 0 ∨ s1.instUsed r.inst g + natAt kv g + natAt act g ≤ s1.quota r.inst g)
  let parked := !waits.isEmpty
  let obj := s1.trainAt (r.lexId.getD 0x1000000)
  let q := { r with cls := rt.cls, stages := rt.stages, deadline := rt.deadline, kv := kv, act := act, stem := slot, waits := waits }
  let q1 := { q with state := (if parked then 0 else 1), admitted := s.tk.count, wait := b2n (!room), plane := obj.cur }
  let q2 := { q1 with affixes := (r.lexId.map s1.recordAffixes).getD [], step := obj.number, inOff := s.winAbs r.inst r.inOff, outWin := s.winAbs r.inst r.outWin }
  let s2 := { s1 with hs := { s1.hs with reqs := s1.hs.reqs ++ [q2] } }
  let s3 := s2.setHandle r.handle { s2.handleAt r.handle with state := 3 }
  let s4 := if r.opcode = Op.trainStep then s3.setTrain (r.lexId.getD 0) { obj with state := 1 } else s3
  let s5 := s4.issueFills run rt.route r.inst r.handle 0 (s4.lookahead r.inst)
  -- R241 for an inflection that is resident already
  match r.lexId with
  | some id => if (s5.lexAt id).held && !s5.shapesMatch id (s5.stemAt slot) then s5.endReq r.handle St.stemMismatch else s5
  | none => s5

/-- ADMIT, TRAIN_BATCH and TRAIN_STEP: every refusal in its order, else the request enters; none when it is accepted, and
its record comes when it ends (R240, R251, R299, R344, R352) (its corners, DEDUCED: log entry 93). -/
def State.applyRequest (s : State) (k n h op : Nat) (e : Entry) : State × Option Decision :=
  let x := s.handleAt h
  let no := fun (st : Nat) => (s, some (Decision.no st))
  if x.state = 3 then no St.busy
  else if x.state ≠ 2 then no St.notFound
  else if s.instState n = 6 then no St.degraded
  else match s.runOf n x.route with
    | none => no St.notFound
    | some (run, rt) =>
      let train := op ≠ Op.admitReq
      let need := s.neededBy x
      if train ≠ (rt.cls = 2) then no St.notFound
      else if !x.noInfl && !(s.lexVisible n false x.lexId && (s.lexAt x.lexId).kind == 1) then no St.notFound
      else if train && (x.noInfl || need.any fun id => (s.lexAt id).form != 1) then no St.notFound
      else match s.admitRefusal n h op x with
        | some st => no st
        | none =>
          let tokens := (entryOp e 12).field 22 0
          if (run.onRoute x.route).any fun t => decide (2 ^ t.seqLog2 < tokens) then (s, some (Decision.bad 12 0))
          else if need.any fun id => (s.lexAt id).state == 5 then no St.objectFailed
          else if need.any fun id => (s.lexAt id).state == 4 && (s.lexAt id).forced then no St.busy
          else
            let (kv, act) := s.requestFrames run x.route tokens
            let want := s.wantFrames need
            let more := (List.range 8).map fun g => natAt kv g + natAt act g + natAt want g
            match s.makeRoom n need more (need.countP fun id => (s.lexAt id).state == 0 || (s.lexAt id).state == 4) with
            | none => no St.noCapacity
            | some s1 => ((s1.enterRequest run rt need (newRequest h n k op x e)).chaseVictims, none)

/-! ### Entries in phase D (R342, R346) -/

/-- A command's record: posted in phase B of the landing after the one that decides it (R346). -/
def State.answer (s : State) (k op : Nat) (e : Entry) (d : Decision) : State :=
  let x : Record := ⟨d.status, op, e.seq.toNat, e.handle, e.tag, 0, 0, s.tk.count, d.field, d.detail, 0, d.result ++ List.replicate (8 - d.result.length) 0⟩
  { s with hs := { s.hs with cmdRecords := s.hs.cmdRecords ++ [(k, s.tk.count, x)] } }

/-- What an opcode does for an instance, its handle found. -/
def State.applyOp (s : State) (k n h op : Nat) (e : Entry) : State × Option Decision :=
  let pf := n == 0
  let cmd := fun (x : State × Decision) => (x.1, some x.2)
  match op with
  | 0x01 => cmd (s.applyCreate n)
  | 0x02 => cmd (s.applyBind n h e)
  | 0x03 | 0x05 | 0x06 => s.applyRequest k n h op e
  | 0x04 => cmd (s.applyDestroy h)
  | 0x07 =>
    let (s1, st) := s.gateCommand n ((entryOp e 4).field 23 0) (entryOp e 5).toNat ((entryOp e 6).field 31 30)
    cmd (s1, if st = St.badField then Decision.bad 5 0 else Decision.no st)
  | 0x10 => cmd (s.applyLexCreate n e)
  | 0x11 => cmd (s.applyLexDelete n pf e)
  | 0x12 => cmd (s.applyLexQuery n pf e)
  | 0x13 => cmd (s.applyLexConvert n e)
  | 0x14 => cmd (s.applyAffixClaim n h e)
  | 0x15 => cmd (s.applyAffixRelease n h e)
  | 0x20 => cmd (s.applyResStore n e)
  | 0x21 => cmd (s.applyResPrefetch n e)
  | 0x22 => cmd (s.applyResEvict n e)
  | 0x23 => cmd (s.applyResRetry n e)
  | _ => cmd (s, .ok)

/-- An entry takes effect: its fields checked, its handle found, its effect, its record (R344, R346, R352, R354). -/
def State.takeEffect (s : State) (k op : Nat) (e : Entry) : State :=
  let r := s.ringAt k
  if r.state = 0 then s
  else match s.badField r.inst op e with
    | some f => s.answer k op e ⟨St.badField, f, 0, []⟩
    | none =>
      if namesHandle op && (s.handleOf r.inst e.handle).isNone then s.answer k op e (.no St.badHandle)
      else match s.applyOp k r.inst (e.handle.field 15 0) op e with
        | (s1, some d) => s1.answer k op e d
        | (s1, none) => s1

/-- The entries read in the tick and at its re-reads take effect, in the order read; LEX_CONVERTs after the rest, so that a pin of the same landing
comes first (R342, Table 8-15) (its corners, DEDUCED: log entry 106). -/
def State.takeEntries (s : State) : State :=
  let conv := fun (x : Nat × Nat × Entry) => x.2.1 == 0x13
  let s1 := ((s.hs.entries.filter fun x => !conv x) ++ s.hs.entries.filter conv).foldl (fun u x => u.takeEffect x.1 x.2.1 x.2.2) s
  { s1 with hs := { s1.hs with entries := [] } }

/-! ### The submission rows: each submits its entry; the entry takes effect in phase D of the landing (R342) -/

/-- CREATE. -/
def execCreate (ring : BitVec 14) (e : Entry) (s : State) : Host.Outcome State Fault Refusal := keep s (s.submit ring.toNat 0x01 e)

/-- BIND. -/
def execBind (ring : BitVec 14) (e : Entry) (s : State) : Host.Outcome State Fault Refusal := keep s (s.submit ring.toNat 0x02 e)

/-- ADMIT. -/
def execAdmit (ring : BitVec 14) (e : Entry) (s : State) : Host.Outcome State Fault Refusal := keep s (s.submit ring.toNat 0x03 e)

/-- DESTROY. -/
def execDestroy (ring : BitVec 14) (e : Entry) (s : State) : Host.Outcome State Fault Refusal := keep s (s.submit ring.toNat 0x04 e)

/-- TRAIN_BATCH. -/
def execTrainBatch (ring : BitVec 14) (e : Entry) (s : State) : Host.Outcome State Fault Refusal := keep s (s.submit ring.toNat 0x05 e)

/-- TRAIN_STEP. -/
def execTrainStep (ring : BitVec 14) (e : Entry) (s : State) : Host.Outcome State Fault Refusal := keep s (s.submit ring.toNat 0x06 e)

/-- TRAIN_GATE. -/
def execTrainGate (ring : BitVec 14) (e : Entry) (s : State) : Host.Outcome State Fault Refusal := keep s (s.submit ring.toNat 0x07 e)

/-- LEX_CREATE. -/
def execLexCreate (ring : BitVec 14) (e : Entry) (s : State) : Host.Outcome State Fault Refusal := keep s (s.submit ring.toNat 0x10 e)

/-- LEX_DELETE. -/
def execLexDelete (ring : BitVec 14) (e : Entry) (s : State) : Host.Outcome State Fault Refusal := keep s (s.submit ring.toNat 0x11 e)

/-- LEX_QUERY. -/
def execLexQuery (ring : BitVec 14) (e : Entry) (s : State) : Host.Outcome State Fault Refusal := keep s (s.submit ring.toNat 0x12 e)

/-- LEX_CONVERT. -/
def execLexConvert (ring : BitVec 14) (e : Entry) (s : State) : Host.Outcome State Fault Refusal := keep s (s.submit ring.toNat 0x13 e)

/-- AFFIX_CLAIM. -/
def execAffixClaim (ring : BitVec 14) (e : Entry) (s : State) : Host.Outcome State Fault Refusal := keep s (s.submit ring.toNat 0x14 e)

/-- AFFIX_RELEASE. -/
def execAffixRelease (ring : BitVec 14) (e : Entry) (s : State) : Host.Outcome State Fault Refusal := keep s (s.submit ring.toNat 0x15 e)

/-- RES_STORE. -/
def execResStore (ring : BitVec 14) (e : Entry) (s : State) : Host.Outcome State Fault Refusal := keep s (s.submit ring.toNat 0x20 e)

/-- RES_PREFETCH. -/
def execResPrefetch (ring : BitVec 14) (e : Entry) (s : State) : Host.Outcome State Fault Refusal := keep s (s.submit ring.toNat 0x21 e)

/-- RES_EVICT. -/
def execResEvict (ring : BitVec 14) (e : Entry) (s : State) : Host.Outcome State Fault Refusal := keep s (s.submit ring.toNat 0x22 e)

/-- RES_RETRY. -/
def execResRetry (ring : BitVec 14) (e : Entry) (s : State) : Host.Outcome State Fault Refusal := keep s (s.submit ring.toNat 0x23 e)

/-- NOP. -/
def execNop (ring : BitVec 14) (e : Entry) (s : State) : Host.Outcome State Fault Refusal := keep s (s.submit ring.toNat 0x30 e)

/-! ### Host paths (R347, R350) -/

/-- The landing that ended a request has its record; the request that waits for its host data now completes. -/
def State.postRequest (s : State) (h : Nat) : State :=
  match s.reqAt h with
  | some r => match r.record with
    | some x => if r.dataVisible && !(s.ringAt r.ring).held.contains x then s.complete r.ring x else s
    | none => s
  | none => s

/-- GLOBAL_OBSERVATION: the host writes of a request's output are globally observed; its record, if it waits for them,
posts (R331, R347). -/
def execGlobalObservation (handle : BitVec 16) (s : State) : Host.Outcome State Fault Refusal :=
  let h := handle.toNat
  keep s (match s.reqAt h with
    | some r => match r.record with
      | some _ => if r.dataVisible then s else (s.updReq h fun x => { x with dataVisible := true }).postRequest h
      | none => s
    | none => s)

/-- HOST_WRITE_TIMEOUT: a host-path write refused or not acknowledged within 1 ms: the record's STATUS is ST_HOST_FAULT
and its PATH leaves the host out (R350). -/
def execHostWriteTimeout (handle : BitVec 16) (code : BitVec 32) (s : State) : Host.Outcome State Fault Refusal :=
  let h := handle.toNat
  keep s (match s.reqAt h with
    | some r => match r.record with
      | some x =>
        if r.dataVisible then s
        else
          let y := { x with status := St.hostFault, path := x.path % 2, outBytes := if x.path % 2 = 1 then x.outBytes else 0 }
          ((s.updReq h fun q => { q with dataVisible := true, record := some y }).raiseInst 0x4006 r.inst
            [handleWord r.gen h, code]).postRequest h
      | none => s
    | none => s)

end Sys2Proof.Machine
end

