-- ==== Sys2Proof/Machine/Mgq.lean ====
section
/-! DEFINITION. The management queue, attachment and the host link (R327, R336, R354 to R357, R360, R361). -/

namespace Sys2Proof.Machine

/-! ### Attachment (R355) -/

/-- Records held for an instance (WIN_ATTACH_STATE.HELD). -/
def State.heldFor (s : State) (n : Nat) : Nat :=
  ((s.hs.rings.filter fun p => p.2.inst == n && p.2.state != 0).map fun p => p.2.held.length + p.2.heldEv.length).sum

/-- An instance attached, its heartbeat timer restarted, its records held posted (R355, R356). -/
def State.attachNow (s : State) (n : Nat) (token : BitVec 64) : State :=
  let s1 := ((s.setFldC (n + 1) Reg.WIN_ATTACH_STATE 31 30 1).updInst n fun i => { i with token := some token }).restartBeat n
  let s2 := s1.raiseInst 0x4004 n [wordOf (s.heldFor n)]
  (s2.hs.rings.filter fun p => p.2.inst == n).foldl (fun u p => (u.postHeld p.1 p.2.held.length).postEvents p.1) s2

/-- An ATTACHED instance detached with its cause: 0 heartbeat, 1 link reset, 2 DETACH. -/
def State.detachNow (s : State) (n cause : Nat) : State :=
  if s.attachState n ≠ 1 then s
  else ((s.setFldC (n + 1) Reg.WIN_ATTACH_STATE 31 30 2).setFldC (n + 1) Reg.WIN_ATTACH_STATE 29 28 cause).raiseInst 0x4003 n [wordOf cause]

/-- ATTACH decided: the token recorded, or compared with the recorded one (Table 12-14); ST_DENIED while IDE is required and not
secure (R405) (its corners, DEDUCED: log entry 93). -/
def State.mgqAttach (s : State) (n : Nat) (token : BitVec 64) : State × Decision :=
  if s.ideBlocks then (s, .no St.denied)
  else match s.attachState n with
  | 0 => (s.attachNow n token, .ok)
  | 1 => (s, if (s.instAt n).token = some token then .ok else .no St.denied)
  | _ => if (s.instAt n).token = some token then (s.attachNow n token, .ok) else (s, .no St.denied)

/-- DETACH decided (its corners, DEDUCED: log entry 93). -/
def State.mgqDetach (s : State) (n : Nat) : State × Decision :=
  if s.attachState n = 1 then (s.detachNow n 2, .ok) else (s, .no St.busy)

/-! ### Rings created, destroyed, resumed (R336, R341, R361) -/

/-- The argument fields of RING_CREATE, in ascending order, counting ARG0 as word 0. -/
def State.ringCreateField (s : State) (n : Nat) (a : List Word) : Option Nat :=
  let w := wordAt a
  let d := (w 1).field 20 16
  let sq := (w 2).toNat + 0x100000000 * (w 3).toNat
  let cq := (w 4).toNat + 0x100000000 * (w 5).toNat
  let bytes := 64 * 2 ^ d
  let event := (w 1).field 31 28 == 1
  let place := fun (host : Bool) (at_ : Nat) => at_ % 4096 == 0 && (host || s.winHas n at_ bytes)
  let checks : List (Bool × Nat) := [(decide ((w 0).field 13 0 < s.ringCount n), 0), ((w 0).field 31 14 == 0, 14),
    (decide ((w 1).field 10 0 ≤ 31) || (w 1).field 10 0 == 0x7FF, 32), ((w 1).field 15 11 == 0, 43), (decide (6 ≤ d ∧ d ≤ 16), 48),
    ((w 1).field 25 21 == 0, 53), (decide ((w 1).field 31 28 ≤ 1), 60), (place (event || (w 1).bit 27) sq, 64), (place ((w 1).bit 26) cq, 128)]
  (checks.find? fun x => !x.1).map (·.2)

/-- RING_CREATE decided: a FREE ring becomes ACTIVE with both positions 0 (Table 12-3) (its corners, DEDUCED: log entry 93). -/
def State.mgqRingCreate (s : State) (n : Nat) (a : List Word) : State × Decision :=
  let w := wordAt a
  match s.ringCreateField n a with
  | some f => (s, ⟨St.badField, f, 0, []⟩)
  | none =>
    let k := s.ringFirst n + (w 0).field 13 0
    let kind := (w 1).field 31 28
    let sqHost := (w 1).bit 27
    let cqHost := (w 1).bit 26
    let sq := (w 2).toNat + 0x100000000 * (w 3).toNat
    let cq := (w 4).toNat + 0x100000000 * (w 5).toNat
    if (s.ringAt k).state ≠ 0 then (s, .no St.busy)
    else if kind = 1 ∧ (s.eventRing n).isSome then (s, .no St.busy)
    else
      let r := { Ring.free with state := 1, kind := kind, inst := n, sqHost := sqHost, cqHost := cqHost, depthLog2 := (w 1).field 20 16 }
      (s.setRing k { r with
        vector := (w 1).field 10 0, sqAddr := (if sqHost then sq else s.winAbs n sq), cqAddr := (if cqHost then cq else s.winAbs n cq) }, .ok)

/-- The ring of a request whose ring has been destroyed: none. -/
def noRing : Nat := 0x4000

/-- A ring made FREE: its requests that have their record leave tracking, and those that still run are not posted to it (R336). -/
def State.freeRing (s : State) (k : Nat) : State :=
  let s1 := (s.hs.reqs.filter fun r => r.ring == k && r.record.isSome).foldl (fun u q => u.untrack q.handle) s
  let s2 := { s1 with hs := { s1.hs with reqs := s1.hs.reqs.map fun (r : Request) => if r.ring = k then { r with ring := noRing } else r } }.setRing k Ring.free
  { s2 with hs := { s2.hs with cmdRecords := s2.hs.cmdRecords.filter fun x => x.1 != k } }

/-- RING_DESTROY decided: refused with ST_BUSY while a request of the ring is in flight, unless FORCE (R336) (its corners, DEDUCED: log entry 93). -/
def State.mgqRingDestroy (s : State) (n : Nat) (a : List Word) : State × Decision :=
  let w := wordAt a
  let k := s.ringFirst n + (w 0).field 13 0
  let checks : List (Bool × Nat) := [(decide ((w 0).field 13 0 < s.ringCount n), 0), ((w 0).field 31 14 == 0, 14), ((w 1).field 31 1 == 0, 33)]
  match checks.find? fun x => !x.1 with
  | some x => (s, ⟨St.badField, x.2, 0, []⟩)
  | none =>
    if (s.ringAt k).state = 0 then (s, .no St.notFound)
    else if !(w 1).bit 0 && s.hs.reqs.any fun r => r.ring == k then (s, .no St.busy)
    else ((s.endReqs St.revoked fun r => r.ring == k).freeRing k, .ok)

/-- RING_RESUME decided: reading restarts at the entry that did not match (R341) (its corners, DEDUCED: log entry 93). -/
def State.mgqRingResume (s : State) (n : Nat) (a : List Word) : State × Decision :=
  let w := wordAt a
  let k := s.ringFirst n + (w 0).field 13 0
  let checks : List (Bool × Nat) := [(decide ((w 0).field 13 0 < s.ringCount n), 0), ((w 0).field 31 14 == 0, 14)]
  match checks.find? fun x => !x.1 with
  | some x => (s, ⟨St.badField, x.2, 0, []⟩)
  | none => match (s.ringAt k).state with
    | 0 => (s, .no St.notFound)
    | 2 => (s.updRing k fun r => { r with state := 1, mismatch := none }, .ok)
    | _ => (s, .no St.busy)

/-! ### The queue (R360) -/

/-- A GO: the arguments are taken and the queue is BUSY until the next landing; ignored while BUSY (its corners, DEDUCED: log entry 93). -/
def State.mgqGo (s : State) (fn op : Nat) : State :=
  if (s.regC (fn + 1) Reg.MGQ_STATUS).field 31 30 = 1 then s
  else
    let args := (List.range 6).map fun i => s.regC (fn + 1) (Reg.MGQ_ARG i)
    let s1 := s.setFldC (fn + 1) Reg.MGQ_STATUS 31 30 1
    { s1 with hs := { s1.hs with mgq := s1.hs.mgq ++ [⟨fn, op, args⟩] } }

/-- A queued command decided at the landing: its status and field show with DONE. -/
def State.mgqStep (s : State) (m : Mgq) : State :=
  let (s1, d) := match m.op with
    | 1 => s.mgqRingCreate m.fn m.args
    | 2 => s.mgqRingDestroy m.fn m.args
    | 3 => s.mgqRingResume m.fn m.args
    | 4 => s.mgqAttach m.fn (BitVec.ofNat 64 ((wordAt m.args 0).toNat + 0x100000000 * (wordAt m.args 1).toNat))
    | 5 => s.mgqDetach m.fn
    | _ => (s, ⟨St.badField, 28, 0, []⟩)
  s1.setRegC (m.fn + 1) Reg.MGQ_STATUS (wordOf (2 * 0x40000000 + d.status % 256 * 0x10000 + d.field % 512 * 128))

/-- Every queued command decided, in order. -/
def State.mgqAll (s : State) : State :=
  let s1 := s.hs.mgq.foldl (fun u m => u.mgqStep m) s
  { s1 with hs := { s1.hs with mgq := [] } }

/-- RING_CREATE, decided at the next landing (R360). -/
def execRingCreate (fn : BitVec 6) (s : State) : Host.Outcome State Fault Refusal := keep s (s.mgqGo fn.toNat 1)

/-- RING_DESTROY. -/
def execRingDestroy (fn : BitVec 6) (s : State) : Host.Outcome State Fault Refusal := keep s (s.mgqGo fn.toNat 2)

/-- RING_RESUME. -/
def execRingResume (fn : BitVec 6) (s : State) : Host.Outcome State Fault Refusal := keep s (s.mgqGo fn.toNat 3)

/-- ATTACH. -/
def execAttach (fn : BitVec 6) (s : State) : Host.Outcome State Fault Refusal := keep s (s.mgqGo fn.toNat 4)

/-- DETACH. -/
def execDetach (fn : BitVec 6) (s : State) : Host.Outcome State Fault Refusal := keep s (s.mgqGo fn.toNat 5)

/-! ### The heartbeat and the link -/

/-- HEARTBEAT_WRITE: the timer restarts (R355). -/
def execHeartbeatWrite (fn : BitVec 6) (beat : Word) (s : State) : Host.Outcome State Fault Refusal :=
  keep s ((s.setRegC (fn.toNat + 1) Reg.WIN_HEARTBEAT beat).restartBeat fn.toNat)

/-- No write of WIN_HEARTBEAT for HB_MS ms at the end of the tick; while no tick runs nothing measures the time, and the command says that it has
passed. HB_MS 0 and a frozen instance have no timeout (R355, R371) (its corners, DEDUCED: log entry 106). -/
def State.beatDue (s : State) (n : Nat) : Bool :=
  let ms := s.fld (Reg.WIN_INST_CFG n) 15 0
  ms != 0 && !s.frozen n && (!s.tk.running || decide ((s.instAt n).beat + ms * msUnits ≤ s.tk.now + s.tickUnits))

/-- HEARTBEAT_TIMEOUT: no write for HB_MS ms detaches an ATTACHED instance (R355). -/
def execHeartbeatTimeout (fn : BitVec 6) (s : State) : Host.Outcome State Fault Refusal :=
  let n := fn.toNat
  keep s (if s.beatDue n then s.detachNow n 0 else s)

/-- IDE streams of the host link: 0 the PCIe link stream, 1 to 4 the selective streams, 5 CXL IDE (R405) (its corners, DEDUCED: log entry 85). -/
def ideCount : Nat := 6

/-- The streams that must be secure: PCIe's, and CXL IDE where the link has trained for CXL (R405) (its corners, DEDUCED: log entry 85). -/
def State.ideNeeded (s : State) : Nat := if (s.reg Reg.WIN_LINK).bit 22 then 6 else 5

/-- The IDE streams set, with what follows from SEC_STATUS.IDE_SECURE: its event names the stream that changed, and where the
policy asks for IDE and the streams are not all secure, every instance detaches (R405) (its corners, DEDUCED: log entry 85). -/
def State.setIde (s : State) (streams : List (Nat × Bool)) (changed : Nat) : State :=
  let secure := (List.range s.ideNeeded).all fun n => streams.contains (n, true)
  let old := (s.reg Reg.SEC_STATUS).bit 28
  let s1 := { s with trust := { s.trust with ideStreams := streams } }
  let s2 := s1.setFld Reg.SEC_STATUS 28 28 (b2n secure)
  let s3 := if secure = old then s2 else s2.raisePf 0x6007 [wordOf (b2n secure), wordOf changed]
  if s3.ideBlocks then (List.range 64).foldl (fun u n => u.detachNow n 1) s3 else s3

/-- A host-link reset: the link and every function's configuration space, IDE streams included, return to reset; every
instance detaches; nothing else is reset (R327, R355, R405). -/
def State.linkReset (s : State) : State :=
  let s1 := (s.setReg Reg.WIN_LINK ((s.reg Reg.WIN_LINK).setField 31 22 0)).count Reg.WIN_LINK 15 0 1
  let s2 := { s1 with hs := { s1.hs with linkUp := false } }
  (List.range 64).foldl (fun u n => u.detachNow n 1) (s2.setIde [] 0)

/-- HOST_LINK_RESET, by PERST_N, a hot reset, link loss or the loss of HOST_REFCLK: which of them it is is free, and the last is shown in CLK_STATUS
and told by EV_CLOCK_LOST (R327, R453, Table 16-11) (its corners, DESIGN CHOICE: log entry 110). -/
def execHostLinkReset (s : State) : Host.Outcome State Fault Refusal :=
  let (f, s1) := s.free
  keep s (if f % 2 = 1 then ((s1.setFld Reg.CLK_STATUS 30 30 0).raisePf 0x8009 [1]).linkReset else s1.linkReset)

end Sys2Proof.Machine
end

