-- ==== Sys2Proof/Machine/Trust.lean ====
section
/-! DEFINITION. Keys: the slots of tenant keys, tenant requests, retirement, revocation, zeroisation, the migration key
(R385 to R404, R408, R410). -/

namespace Sys2Proof.Machine

/-! ### Sessions and nonces (R391, R393) -/

/-- An established session of a port. -/
def State.sessionAt (s : State) (port : SpdmPort) (id : Nat) : Option Session :=
  s.trust.sessions.find? fun x => x.port == port && x.id == id && x.established

/-- 60 s in units of `tk.now` (R393). -/
def nonceLife : Nat := 60 * 1000 * msUnits

/-- A nonce that may still be used (its corners, DEDUCED: log entry 86). -/
def State.nonceLive (s : State) (n : Nonce) : Bool := decide (s.tk.now ≤ n.issued + nonceLife)

/-- A nonce used up. -/
def State.dropNonce (s : State) (port : SpdmPort) (session : Nat) (v : BitVec 256) : State :=
  { s with trust := { s.trust with nonces := s.trust.nonces.filter fun n => !(n.port == port && n.session == session && n.value == v) } }

/-- A fresh nonce bound to a port's session, the oldest of the port's four discarded for a fifth (R393) (its corners, DEDUCED: log entry 86). -/
def State.freshNonce (s : State) (port : SpdmPort) (session : Nat) : BitVec 256 × State :=
  let (f, s1) := s.free
  let v := BitVec.ofNat 256 f
  let own := (s1.trust.nonces.filter fun n => n.port == port)
  let oldest := if own.length < 4 then none else own.head?
  let rest := match oldest with
    | some o => s1.trust.nonces.erase o
    | none => s1.trust.nonces
  (v, { s1 with trust := { s1.trust with nonces := rest ++ [⟨port, session, v, s1.tk.now⟩] } })

/-- A message sent on an SPDM port; the port keeps its last answer for CHUNK_GET. -/
def State.spdmSend (s : State) (port : SpdmPort) (code : Nat) (body : List Byte) : State :=
  let rest := s.trust.answers.filter fun a => a.1 != port
  { s with out := s.out ++ [.spdm port code body], trust := { s.trust with answers := (port, body) :: rest } }

/-- The answer of a tenant request: its code and its status first (Table 14-5).  0x7E is VENDOR_DEFINED_RESPONSE. -/
def State.tenantAnswer (s : State) (fn req status : Nat) (body : List Byte) : State :=
  s.spdmSend (.doe (BitVec.ofNat 6 fn)) 0x7E ([byteOf req, byteOf status] ++ body)

/-! ### Key slots (R394 to R400) -/

/-- The instance whose range holds a slot (R394). -/
def State.slotInst (s : State) (slot : Nat) : Option Nat := (List.range 64).find? fun n => s.keyInRange n slot

/-- A slot's event, to the instance that holds it and to the physical function (R411). -/
def State.raiseSlot (s : State) (holder : Option Nat) (code : Nat) (payload : List Nat) : State :=
  match holder with
  | some n => s.raiseInst code n (payload.map wordOf)
  | none => s.raisePf code (payload.map wordOf)

/-- Lexicon entries under a key slot, in ascending id. -/
def State.slotEntries (s : State) (slot : Nat) : SMap LexEntry := s.ls.lex.filter fun p => p.2.kind != 0 && p.2.keySlot == slot

/-- Pages tracked under an epoch of a slot (R399). -/
def State.pagesUnder (s : State) (slot : Nat) (epoch : Word) : Nat :=
  ((s.slotEntries slot).map fun p => (p.2.epochPages.countP fun q => q.2 == epoch.toNat)
    + (s.trainAt p.1).ckptTrailers.countP fun q => q.2.epoch == epoch.toNat).sum

/-- A shard of an entry may hold pages under an epoch: one that is tracked under it, or one whose trailer was never verified (its corners, DEDUCED: log entry 87). -/
def LexEntry.underEpoch (e : LexEntry) (shard : Nat) (epoch : Word) : Bool :=
  match e.man.bind fun m => m.shards.find? fun x => x.shard == shard with
  | none => false
  | some x => (List.range (shardPages x.bytes)).any fun i => match e.epochPages.lookup (64 * x.targetOff / 4096 + i) with
    | some n => n == epoch.toNat
    | none => true

/-- Attempts in flight that read pages of an epoch of a slot; an attempt at a page never verified may read under any (R399) (its corners, DEDUCED: log entry 87). -/
def State.readsUnder (s : State) (slot : Nat) (epoch : Word) : Nat :=
  ((s.slotEntries slot).map fun p =>
    if p.2.state == 1 && !p.2.awaits then p.2.shards.countP fun x => !x.verified && p.2.underEpoch x.shard epoch else 0).sum

/-- The report key of an epoch key: info "report", the slot and the epoch (R397). -/
def reportKey (k : BitVec 256) (slot : Nat) (epoch : Word) : List Byte :=
  hkdf (bytesOfNat 32 k.toNat) ([0x72#8, 0x65#8, 0x70#8, 0x6F#8, 0x72#8, 0x74#8] ++ keyInfo slot epoch.toNat)

/-- What the MAC of a tenant request covers: opcode, slot, epoch and nonce (R395). -/
def tenantMessage (op slot : Nat) (epoch : Word) (nonce : BitVec 256) : List Byte :=
  [byteOf op] ++ bytesOfNat 2 slot ++ epoch.bytes ++ bytesOfNat 32 nonce.toNat

/-- The MAC of a tenant request under the slot's current epoch verifies (its corners, DEDUCED: log entry 86). -/
def macOk (k : KeySlot) (op slot : Nat) (epoch : Word) (nonce : BitVec 256) (mac : List Byte) : Bool :=
  hmac (reportKey k.keyCur slot k.cur) (tenantMessage op slot epoch nonce) == mac

/-- The slot that a queued change concerns. -/
def KeyOp.slot : KeyOp → Nat
  | .provision n _ _ _ _ => n
  | .revoke n _ _ _ => n
  | .forceRetire n => n

/-- A slot after a queued change (Table 14-6). -/
def KeyOp.on (k : KeySlot) : KeyOp → KeySlot
  | .provision _ e key _ _ =>
    if k.state = 0 then { KeySlot.empty with state := 1, cur := e, keyCur := key }
    else { k with state := 2, prev := k.cur, keyPrev := k.keyCur, ctrPrev := k.ctrCur, cur := e, keyCur := key, ctrCur := 0 }
  | .revoke _ _ _ _ => KeySlot.empty
  | .forceRetire _ =>
    if k.state = 2 then
      { k with state := 1, prev := 0, keyPrev := 0, ctrPrev := 0, condemned := (k.prev, k.keyPrev) :: k.condemned }
    else k

/-- A slot as the changes already queued leave it (R410). -/
def State.keyAhead (s : State) (slot : Nat) : KeySlot :=
  s.trust.keyOps.foldl (fun k o => if o.slot = slot then o.on k else k) (s.keyAt slot)

/-- A change of a slot queued for the next landing (step 4 of R27). -/
def State.queueKey (s : State) (o : KeyOp) : State := { s with trust := { s.trust with keyOps := s.trust.keyOps ++ [o] } }

/-- Revocation of a slot asked for: requests that pin its objects end with ST_REVOKED at the next landing (R400). -/
def State.revokeReqs (s : State) (slot : Nat) : State :=
  let ids := (s.slotEntries slot).map (·.1)
  s.endReqs St.revoked fun r => (match r.lexId with
    | some i => ids.contains i
    | none => false) || r.affixes.any ids.contains

/-- A slot cleared: EMPTY, its objects evicted by force (R400).  `cause` 0 tenant, 1 owner, 2 shrink; `holder` is the instance that
holds it, or held it before the shrink. -/
def State.clearKey (s : State) (holder : Option Nat) (slot cause : Nat) : State :=
  if (s.keyAt slot).state = 0 then s
  else
    let s1 := (s.slotEntries slot).foldl (fun u p => u.forceEvict p.1) (s.setKey slot KeySlot.empty)
    s1.raiseSlot holder 0x6003 [slot, cause, s.tk.count.toNat]

/-- The label of RSA-OAEP for a tenant key: "KTA8160-KEY", nonce, slot, epoch (R396). -/
def keyLabel (nonce : BitVec 256) (slot : Nat) (epoch : Word) : List Byte :=
  [0x4B#8, 0x54#8, 0x41#8, 0x38#8, 0x31#8, 0x36#8, 0x30#8, 0x2D#8, 0x4B#8, 0x45#8, 0x59#8] ++ bytesOfNat 32 nonce.toNat
    ++ bytesOfNat 2 slot ++ epoch.bytes

/-- The label of RSA-OAEP for a migration key: "KTA8160-MIG", nonce (R404). -/
def migLabel (nonce : List Byte) : List Byte :=
  [0x4B#8, 0x54#8, 0x41#8, 0x38#8, 0x31#8, 0x36#8, 0x30#8, 0x2D#8, 0x4D#8, 0x49#8, 0x47#8] ++ nonce

/-- A wrapped key of 384 bytes unwrapped with the DEK under a label; it must give 32 bytes (R396, R404). -/
def unwrapKey (wrapped label : List Byte) : Option (BitVec 256) :=
  match oaepOpen Config.dekModulus Config.dekExponent label wrapped with
  | some bs => if bs.length = 32 then some (BitVec.ofNat 256 (natOfBytes bs)) else none
  | none => none

/-- Keys may be used: PUF OK and debug locked (R387, R407). -/
def State.keysOpen (s : State) : Bool := !(s.reg Reg.SEC_STATUS).bit 31 && !(s.reg Reg.SEC_STATUS).bit 30

/-- The checks of KEY_PROVISION, in the order of R396, from step 3 on; the unwrapped key where all pass. -/
def State.provisionChecks (s : State) (port : SpdmPort) (session slot : Nat) (epoch : Word) (nonce : BitVec 256)
    (wrapped mac : List Byte) : Nat ⊕ BitVec 256 :=
  let k := s.keyAhead slot
  if !s.trust.nonces.any (fun n => n.port == port && n.session == session && n.value == nonce && s.nonceLive n) then .inl St.auth
  else if k.state ≠ 0 ∧ !macOk k 1 slot epoch nonce mac then .inl St.auth
  else if k.state = 2 then .inl St.busy
  else if epoch = 0 ∨ epoch.toNat ≤ k.cur.toNat then .inl St.badField
  else match unwrapKey wrapped (keyLabel nonce slot epoch) with
    | none => .inl St.auth
    | some v => .inr v

/-- KEY_PROVISION: the key applies at the next landing, and its answer follows it (R395, R396). -/
def execKeyProvision (fn : BitVec 6) (session : BitVec 8) (slot : BitVec 16) (epoch : Word) (nonce : BitVec 256)
    (wrapped mac : List Byte) (s : State) : Host.Outcome State Fault Refusal :=
  let port := SpdmPort.doe fn
  keep s (if (s.sessionAt port session.toNat).isNone ∨ !s.keysOpen then s.tenantAnswer fn.toNat 1 St.denied []
    else if !s.keyInRange fn.toNat slot.toNat then s.tenantAnswer fn.toNat 1 St.notFound []
    else
      let s1 := s.dropNonce port session.toNat nonce
      match s.provisionChecks port session.toNat slot.toNat epoch nonce wrapped mac with
      | .inl st => s1.tenantAnswer fn.toNat 1 st []
      | .inr key => s1.queueKey (.provision slot.toNat epoch key fn.toNat session.toNat))

/-- KEY_REVOKE (R394, R395, R400). -/
def execKeyRevoke (fn : BitVec 6) (session : BitVec 8) (slot : BitVec 16) (nonce : BitVec 256) (mac : List Byte) (s : State) :
    Host.Outcome State Fault Refusal :=
  let k := s.keyAhead slot.toNat
  keep s (if (s.sessionAt (.doe fn) session.toNat).isNone then s.tenantAnswer fn.toNat 2 St.denied []
    else if !s.keyInRange fn.toNat slot.toNat ∨ k.state = 0 then s.tenantAnswer fn.toNat 2 St.notFound []
    else if !macOk k 2 slot.toNat k.cur nonce mac then s.tenantAnswer fn.toNat 2 St.auth []
    else (s.revokeReqs slot.toNat).queueKey (.revoke slot.toNat 0 fn.toNat session.toNat))

/-- FORCE_RETIRE of the slot SEC_SLOT_SEL names, queued for the next landing (R398). -/
def execForceRetire (s : State) : Host.Outcome State Fault Refusal :=
  keep s (s.queueKey (.forceRetire (s.fld Reg.SEC_SLOT_SEL 15 0)))

/-- CLEAR of the slot SEC_SLOT_SEL names, queued for the next landing (R400). -/
def execClear (s : State) : Host.Outcome State Fault Refusal :=
  let slot := s.fld Reg.SEC_SLOT_SEL 15 0
  keep s ((s.revokeReqs slot).queueKey (.revoke slot 1 0 0))

/-- One queued change applied, with its event and its answer (Table 14-6). -/
def State.keyStep (s : State) (o : KeyOp) : State :=
  let n := o.slot
  let k := s.keyAt n
  match o with
  | .provision _ e _ fn _ =>
    ((s.setKey n (o.on k)).raiseSlot (s.slotInst n) 0x6001 [n, e.toNat, s.tk.count.toNat]).tenantAnswer fn 1 St.ok []
  | .revoke _ cause fn _ =>
    let s1 := s.clearKey (s.slotInst n) n cause
    if cause = 0 then s1.tenantAnswer fn 2 St.ok [] else s1.setFld Reg.SEC_SLOT_CTRL 7 0 St.ok
  | .forceRetire _ =>
    if k.state = 2 then (s.setKey n (o.on k)).setFld Reg.SEC_SLOT_CTRL 7 0 St.ok else s.setFld Reg.SEC_SLOT_CTRL 7 0 St.busy

/-- The sequence number of a sealed copy. -/
def sealSeq : Option SealedCopy → Nat
  | some c => c.seq
  | none => 0

/-- The sealed table that counts: the copy with the highest sequence number (R460). -/
def State.sealedNow (s : State) : Option SealedCopy :=
  if sealSeq s.trust.copy0 < sealSeq s.trust.copy1 then s.trust.copy1 else s.trust.copy0

/-- The key table may be sealed: the PUF and an owner's block give a storage key (R387, R389, R401). -/
def State.sealOpen (s : State) : Bool := !s.trust.owner.isEmpty && !(s.reg Reg.SEC_STATUS).bit 31

/-- The key table as it is now, sealed to the owner in force, over the copy with the lower sequence number (R401, R460) (its corners, DESIGN CHOICE: log
entry 89). -/
def State.seal (s : State) : State :=
  let t := s.trust
  let c : SealedCopy := ⟨Nat.max (sealSeq t.copy0) (sealSeq t.copy1) + 1, t.owner, t.nextOwner, t.keys⟩
  if !s.sealOpen then s
  else if sealSeq t.copy0 ≤ sealSeq t.copy1 then { s with trust := { t with copy0 := some c } }
  else { s with trust := { t with copy1 := some c } }

/-- Step 4 of R27: the queued changes of key epochs, in the order received. -/
def State.keyOpsStep (s : State) : State :=
  let s1 := s.trust.keyOps.foldl (fun u o => u.keyStep o) s
  let s2 := { s1 with trust := { s1.trust with keyOps := [] } }
  if s2.trust.keys = s.trust.keys then s2 else s2.seal

/-- The previous epoch of a ROTATING slot retired, once no page is tracked and no read is in flight under it; with a FORCE_RETIRE queued for the landing
the retirement is that one (R398, R410). -/
def State.retireEpoch (s : State) (slot : Nat) : State :=
  let k := s.keyAt slot
  if k.state = 2 ∧ KeyOp.forceRetire slot ∉ s.trust.keyOps ∧ s.pagesUnder slot k.prev = 0 ∧ s.readsUnder slot k.prev = 0 then
    ((s.setKey slot { k with state := 1, prev := 0, keyPrev := 0, ctrPrev := 0 }).raiseSlot (s.slotInst slot) 0x6002
      [slot, k.prev.toNat, 0, s.tk.count.toNat]).seal
  else s

/-- Keys held after a forced retirement destroyed, once no read under them is in flight (R398). -/
def State.destroyEpochs (s : State) (slot : Nat) : State :=
  let k := s.keyAt slot
  let gone := k.condemned.filter fun c => s.readsUnder slot c.1 == 0
  if gone.isEmpty then s
  else
    let s1 := s.setKey slot { k with condemned := k.condemned.filter fun c => !gone.contains c, destroyed := k.destroyed ++ gone.map (·.1) }
    (gone.foldl (fun u c => u.raiseSlot (s.slotInst slot) 0x6002 [slot, c.1.toNat, 1, s.tk.count.toNat]) s1).seal

/-- EPOCH_RETIRED. -/
def execEpochRetired (slot : BitVec 16) (s : State) : Host.Outcome State Fault Refusal := keep s (s.retireEpoch slot.toNat)

/-- EPOCH_KEY_DESTROY. -/
def execEpochKeyDestroy (slot : BitVec 16) (s : State) : Host.Outcome State Fault Refusal := keep s (s.destroyEpochs slot.toNat)

/-- Retirements that are due in any slot. -/
def State.retireAll (s : State) : State := (s.trust.keys.map (·.1)).foldl (fun u n => (u.retireEpoch n).destroyEpochs n) s

/-! ### Zeroisation (R408) -/

/-- The device zeroised: every key slot and migration key cleared, the sealed table overwritten, a save in progress invalid,
objects that need a cleared key evicted by force (R29, R400, R408).  Key changes that wait for a landing are discarded, with no answer (DESIGN CHOICE: log
entry 123). -/
def State.zeroise (s : State) (trigger : Nat) : State :=
  let held := (s.trust.keys.filter fun p => p.2.state != 0).map (·.1)
  let gone := (s.ls.lex.filter fun p => p.2.kind != 0 && held.contains p.2.keySlot).map (·.1)
  let s1 := { s with trust := { s.trust with keys := [], keyOps := [], copy0 := none, copy1 := none } }
  let s2 := gone.foldl (fun u i => u.forceEvict i) s1
  let s3 := (s2.insts.map (·.1)).foldl (fun u n =>
    let t := u.updInst n fun i => { i with migKey := none, stopped := i.stopped || u.instState n == 4 }
    t) s2
  s3.raisePf 0x6004 [wordOf trigger]

/-- ZEROISE: at once on the key 0x5A45524F; any other value is ignored. -/
def execZeroise (key : Word) (s : State) : Host.Outcome State Fault Refusal :=
  keep s (if key = 0x5A45524F#32 then s.zeroise 0 else s)

/-! ### The migration key (R404) -/

/-- Bytes of a register aperture of `n` words. -/
def State.aperture (s : State) (at_ : Nat → Nat) (n : Nat) : List Byte := (List.range n).flatMap fun w => (s.reg (at_ w)).bytes

/-- SEC_MIG_CTRL.LAST_ST. -/
def State.migStatus (s : State) (st : Nat) : State := s.setFld Reg.SEC_MIG_CTRL 7 0 st

/-- SET_TARGET: the statement checked, a random key drawn and wrapped to the target's DEK (R404 steps 2 and 3). -/
def execSetTarget (inst : BitVec 6) (s : State) : Host.Outcome State Fault Refusal :=
  keep s (match Config.targetStatement (s.aperture Reg.SEC_MIG_TARGET 2048) with
    | none => s.migStatus St.auth
    | some (svn, block6, nonce, dek) =>
      if block6.bit 31 ∨ block6.bit 30 ∨ svn < s.fld Reg.SEC_STATUS 23 16 then s.migStatus St.auth
      else
        let (f, s1) := s.free
        let key := BitVec.ofNat 256 f
        let (seed, s1) := s1.free
        let ws := wordsOfBytes (oaepSeal dek (migLabel nonce) (bytesOfNat 32 seed) (bytesOfNat 32 key.toNat))
        let s2 := (List.range 96).foldl (fun u w => u.setReg (Reg.SEC_MIG_WRAPPED w) (wordAt ws w)) s1
        (s2.updInst inst.toNat fun i => { i with migKey := some key, migOut := true }).migStatus St.ok)

/-- The first nonce a wrapped key unwraps under, with the key. -/
def unwrapUnder (wrapped : List Byte) : List Nonce → Option (Nonce × BitVec 256)
  | [] => none
  | n :: ns => match unwrapKey wrapped (migLabel (bytesOfNat 32 n.value.toNat)) with
    | some k => some (n, k)
    | none => unwrapUnder wrapped ns

/-- IMPORT: the wrapped key in SEC_MIG_WRAPPED unwrapped under a nonce that this device issued (R404 step 5). -/
def execImport (inst : BitVec 6) (s : State) : Host.Outcome State Fault Refusal :=
  keep s (match unwrapUnder (s.aperture Reg.SEC_MIG_WRAPPED 96) (s.trust.nonces.filter s.nonceLive) with
    | none => s.migStatus St.auth
    | some (n, k) =>
      let s1 := s.dropNonce n.port n.session n.value
      (s1.updInst inst.toNat fun i => { i with migKey := some k, migOut := false }).migStatus St.ok)

/-! ### Unsealing (R401) -/

/-- An unsealed slot: its write counters resume at the sealed value plus 2^32 (R401). -/
def KeySlot.resumed (k : KeySlot) : KeySlot := { k with ctrCur := k.ctrCur + 0x100000000#64, ctrPrev := k.ctrPrev + 0x100000000#64, condemned := [] }

/-- Every slot of a sealed table resumed. -/
def resumeAll (m : SMap KeySlot) : SMap KeySlot := m.map fun (p : Nat × KeySlot) => (p.1, p.2.resumed)

/-- The key table under an owner and the NEXT_OWNER that it names: unsealed where that owner sealed it, or where the owner that sealed it named this one,
and sealed again, over both copies at a handover, so that a later start resumes past the counters used since; zeroised for any other owner (R389, R401,
R403, R408, R460) (its corners, DESIGN CHOICE: log entry 89). -/
def State.unsealFor (s : State) (owner named : List Word) : State :=
  let held := { s with trust := { s.trust with owner := owner, nextOwner := named } }
  match s.sealedNow with
  | none => held
  | some c =>
    let open_ := { held with trust := { held.trust with keys := resumeAll c.keys } }
    if c.owner = owner then open_.seal
    else if c.next = owner then open_.seal.seal
    else held.zeroise 2

end Sys2Proof.Machine
end

