-- ==== Sys2Proof/Machine/Loss.lean ====
section
/-! DEFINITION. Fences, degraded variants, lost galleries and poisoned pages (R32, R44, R55, R56, R72, R413, R418 to R428). -/

namespace Sys2Proof.Machine

/-! ### Units in service (R32, R44) -/

/-- Status registers of a gallery's units: MUs, VUs, ISUs, link ports. -/
def galUnits (g : Nat) : List Nat :=
  (List.range 16).map (Reg.GAL_MU_STATUS g) ++ (List.range 4).map (Reg.GAL_VU_STATUS g) ++ (List.range 2).map (Reg.GAL_ISU_STATUS g)
    ++ ((List.range 3).filter (hasPort g)).map (Reg.GAL_FAB_STATUS g)

/-- A unit reads STATE 2, unless it failed its self-test (R32). -/
def State.fenceUnit (s : State) (off : Nat) : State := if s.fld off 31 30 = 3 then s else s.setFld off 31 30 2

/-- A bit set per true entry. -/
def maskOf (n : Nat) (p : Nat → Bool) : Nat := ((List.range n).map fun i => if p i then 2 ^ i else 0).sum

/-- MUs of a gallery in service, in ascending order. -/
def State.liveMus (s : State) (g : Nat) : List Nat := (List.range 16).filter (s.muUp g)

/-- DEV_CAPACITY and DEV_MU_LIVE show the units in service (R32). -/
def State.showCapacity (s : State) : State :=
  let gals := maskOf 8 fun g => !s.galFenced g
  let mus := ((List.range 8).map fun g => (s.liveMus g).length).sum
  let vus := ((List.range 8).map fun g => ((List.range 4).filter (s.vuUp g)).length).sum
  let s1 := s.setReg Reg.DEV_CAPACITY (wordOf (gals * 0x10000 + mus * 0x100 + vus))
  (List.range 4).foldl (fun u k => u.setReg (Reg.DEV_MU_LIVE k) (wordOf (maskOf 32 fun b => s.muUp (2 * k + b / 16) (b % 16)))) s1

/-- LOGICAL of every MU under the running variant (R44). -/
def State.showLogical (s : State) : State :=
  let mask := s.fld Reg.FLT_VARIANT 7 0
  (List.range 8).foldl (fun u g =>
    let live := s.liveMus g
    (List.range 16).foldl (fun v m =>
      let l := if !live.contains m then 0x1F else if mask / 2 ^ g % 2 = 1 then live.idxOf m else m
      v.setFld (Reg.GAL_MU_STATUS g m) 20 16 l) u) s

/-- MUs of a gallery fenced or failed. -/
def State.shortOf (s : State) (g : Nat) : Nat := (List.range 16).countP fun m => decide (2 ≤ s.fld (Reg.GAL_MU_STATUS g m) 31 30)

/-- A VU of a gallery fenced or failed. -/
def State.vuShort (s : State) (g : Nat) : Bool := (List.range 4).any fun v => decide (2 ≤ s.fld (Reg.GAL_VU_STATUS g v) 31 30)

/-! ### The variant (R55, R56, R449) -/

/-- The procedure of R55 from a set of galleries out: the parent, the MU_SHORT mask, and the galleries left uncovered. -/
def chooseVariant (f : Flight) (short : Nat → Nat) : (fuel : Nat) → List Nat → Nat × Nat × List Nat
  | 0, out => (0, 0, out)
  | fuel + 1, out =>
    let parent := match out with
      | [g] => (f.galOut g).getD 0
      | _ => 0
    let ones := (List.range 8).filter fun g => !out.contains g && short g == 1
    match ones.find? fun g => (f.muShort g parent).isNone with
    | some g => chooseVariant f short fuel (out ++ [g])
    | none => (parent, maskOf 8 ones.contains, if parent ≠ 0 then [] else out)

/-- The galleries out at the start of the procedure: fenced, parked, two MUs short, or a VU fenced. -/
def State.outSet (s : State) : List Nat :=
  (List.range 8).filter fun g => s.galFenced g || s.galParked g || decide (2 ≤ s.shortOf g) || s.vuShort g

/-- An instance has work on a gallery in a flight under a parent and its variants (R56). -/
def State.hasWork (s : State) (f : Flight) (parent mask n g : Nat) : Bool :=
  (s.hs.reqs.any fun r => r.inst == n && (f.templatesIn parent mask).any fun t => t.route == r.route && t.gal == g)
    || f.progs.any fun p => p.variant == parent && p.fetch.any fun w => w.inst == n && w.gal == g

/-- EV_INSTANCE_STATE with the state that an instance takes. -/
def State.toInstState (s : State) (n st status : Nat) : State :=
  (s.setFld (Reg.DEV_INST_STATE n) 31 28 st).raiseInst 0x5003 n ([n, st, status, s.tk.count.toNat].map wordOf)

/-- An instance stops with ST_DEGRADED: its requests end, a save stops with its image invalid (R56, R370, R383). -/
def State.stopInst (s : State) (n : Nat) : State :=
  if s.instState n = 6 then s
  else
    let s1 := (s.endReqs St.degraded fun r => r.inst == n).updInst n fun i => { i with stopped := true }
    s1.toInstState n 6 St.degraded

/-- Step 2 of R27: the variant for the units in service; instances with work on an uncovered gallery stop (R55, R56).  In
partition mode every instance with a partition on a pair with a unit out stops (R72). -/
def State.variantStep (s : State) (announce : Bool) : State :=
  match s.flights.v3.active with
  | some f =>
    let (parent, mask, uncovered) := chooseVariant f s.shortOf 9 s.outSet
    let s1 := (s.setReg Reg.FLT_VARIANT (wordOf (parent * 0x10000 + mask))).showLogical
    let s2 := if announce then s1.raisePf 0x1005 ([parent, mask, s.tk.count.toNat].map wordOf) else s1
    ((List.range 64).filter fun n => uncovered.any fun g => s.hasWork f parent mask n g).foldl (fun u n => u.stopInst n) s2
  | none =>
    let s1 := (s.setReg Reg.FLT_VARIANT 0).showLogical
    let hurt := fun p => [2 * p, 2 * p + 1].any fun g => (galUnits g).any fun o => decide (2 ≤ s.fld o 31 30)
    let ns := (List.range 4).flatMap fun p => match (s.pairSlots p).active with
      | some f => if hurt p then f.partitions.map (·.inst) else []
      | none => []
    ns.dedup.foldl (fun u n => u.stopInst n) s1

/-! ### Objects that lose their bytes (Tables 15-2, 15-3) -/

/-- ERR_POISON_HITS advances for an instance. -/
def State.poisonHit (s : State) (n : Nat) : State := s.countScoped Reg.ERR_POISON_HITS (some n) 1

/-- An object whose shards must be fetched again: FETCHING with its pins; shards of a lost home move to the stand-in gallery, within
the instance's quota there (R422, R427). -/
def State.refetch (s : State) (id : Nat) (again : Shard → Bool) (lost : Option Nat) : State :=
  let e := s.lexAt id
  match e.man with
  | none => s
  | some m =>
    let back := (m.shards.filter again).map (·.shard)
    let move := fun (x : Shard) => if lost = some x.home then { x with home := x.home ^^^ 4 } else x
    let shards := m.shards.map fun x =>
      if back.contains x.shard then ⟨x.shard, 0, x.srcCount == 0, [], 0, true, 0, s.tk.now, 0, false⟩
      else (e.shards.find? fun y => y.shard == x.shard).getD ⟨x.shard, 0, true, x.digest, 0, false, 0, 0, 0, false⟩
    let s1 := s.setLex id { e with state := 1, shards := shards, man := some { m with shards := m.shards.map move } }
    let need := s1.objFrames8 id
    let s2 := s1.setLex id { s1.lexAt id with frames := need }
    if (List.range 8).all fun g => decide (natAt need g ≤ natAt e.frames g ∨ s2.instUsed e.inst g ≤ s2.quota e.inst g) then s2
    else s2.failObject id 0 St.noCapacity

/-- A training-form object repaired: from a valid mirror, else each group from its last valid checkpoint, which is a rollback;
the step in progress is abandoned with ST_POISONED (R422, R424, R428). -/
def State.restoreTrain (s : State) (id : Nat) : State :=
  let e := s.lexAt id
  let t := s.trainAt id
  let s0 := s.abandonStep id St.poisoned
  let fromMirror := match t.mirrorGal with
    | some p => if t.mirrorStale ∨ s.galFenced p then none else some p
    | none => none
  match fromMirror with
  | some p =>
    let put := fun (m : Mem) (r : Nat × Nat × Nat) (pl : Nat) => memWrite m (objKey id r.1 pl r.2.1) (memRead m (objKey id p pl r.2.1) r.2.2)
    let s1 := e.ranges.foldl (fun u r => { u with mem := { u.mem with obj := put (put u.mem.obj r 0) r 1 } }) s0
    (s1.raiseInst 0x7012 e.inst ([id, t.step, 0].map wordOf)).poisonHit e.inst
  | none =>
    match s0.ckptRestore id with
    | none => ((s0.raiseInst 0x7011 e.inst ([id, 3].map wordOf)).failObject id 0 St.objectFailed).poisonHit e.inst
    | some s1 =>
      let groups := (s1.recordGroups id).map parseGroup
      let step := (groups.map (·.ckptStep)).foldl Nat.max 0
      let s2 := (s1.setTrain id { s1.trainAt id with groups := groups, step := step, state := 0 }).clearGrad id
      let s3 := (s2.recordWrite id (if e.kind = 2 then 68 else 88) (bytesOfNat 8 step)).digestRecord id
      (s3.raiseInst 0x7012 e.inst ([id, step, 1].map wordOf)).poisonHit e.inst

/-! ### Loss of a gallery (R427) -/

/-- The affix slots of a gallery return to FREE, their affixes are fetched again without a slot, and requests that pin them
end with ST_DEGRADED. -/
def State.loseSlots (s : State) (g : Nat) : State :=
  let mine := s.ls.slots.filter fun p => slotGal p.1 == g && p.2.owner.isSome
  mine.foldl (fun u p =>
    let id := p.2.lexId
    let u1 := (u.endReqs St.degraded fun r => some r.handle == p.2.owner && r.affixes.contains id).freeSlot p.1
    if (u1.lexAt id).held then u1.refetch id (fun _ => true) none else u1) s

/-- State on the stacks and the scratchpad of a gallery that is fenced, with the gallery covered (Table 15-3). -/
def State.loseGal (s : State) (g : Nat) : State :=
  let s1 := s.loseSlots g
  let s2 := s1.ls.lex.foldl (fun (u : State) p =>
    let e := u.lexAt p.1
    let lies := fun (x : Shard) => x.home == g || (x.home == 9 && !e.slotted && u.fld (Reg.WIN_RANGE e.inst) 4 2 == g)
    let mine := match e.man with
      | some m => m.shards.any lies
      | none => false
    if !(e.held || e.state == 1) ∨ e.state = 4 ∨ !mine then u
    else if e.form = 1 ∧ e.held then
      let m := e.man.map fun m => { m with shards := m.shards.map fun x => if x.home = g then { x with home := g ^^^ 4 } else x }
      let u1 := u.setLex p.1 { e with man := m }
      (u1.setLex p.1 { u1.lexAt p.1 with frames := u1.objFrames8 p.1 }).restoreTrain p.1
    else u.refetch p.1 lies (some g)) s1
  s2.endReqs St.degraded fun r => decide (0 < r.framesOn g)
    || s2.runs.any fun run => run.templates.any fun t => t.route == r.route && t.gal == g

/-- A gallery fenced as a whole, with its cause (R32, R418). -/
def State.fenceGal (s : State) (g cause : Nat) : State :=
  if s.galFenced g then s
  else
    let s1 := ((galUnits g).foldl State.fenceUnit s).setFld Reg.ERR_GAL_FENCE (4 * g + 3) (4 * g) cause
    s1.showCapacity.raiseAll 0x7003 ([g, cause, s.tk.count.toNat].map wordOf)

/-- ERR_GAL_FENCE's cause for a fence of a domain. -/
def fenceCause (domain : Nat) : Nat := natAt [1, 2, 3, 4, 5, 5, 6, 6, 7] domain

/-- One fence applied: a unit, and the gallery where its domain leads to it (Table 15-1, R55). -/
def State.applyFence (s : State) (f : Fence) : State :=
  let off := match f.domain with
    | 0 => some (Reg.GAL_MU_STATUS f.gal f.unit)
    | 1 => some (Reg.GAL_VU_STATUS f.gal f.unit)
    | 2 => some (Reg.GAL_ISU_STATUS f.gal f.unit)
    | 6 | 7 => some (Reg.GAL_FAB_STATUS f.gal (portOf f.domain f.unit))
    | _ => none
  if s.galFenced f.gal then s
  else
    let s1 := match off with
      | some o => (s.fenceUnit o).showCapacity
      | none => s
    let s2 := s1.raiseAll 0x7002 ([f.domain, f.gal, f.unit, s1.fld Reg.DEV_CAPACITY 15 8, s1.fld Reg.DEV_CAPACITY 7 0,
      s.tk.count.toNat].map wordOf)
    if f.domain ≠ 0 then s2.fenceGal f.gal (fenceCause f.domain)
    else if 2 ≤ s2.shortOf f.gal then s2.fenceGal f.gal 1 else s2

/-- The galleries that the running variant leaves uncovered; in partition mode those of a pair with a unit out (R55, R56, R72). -/
def State.uncovered (s : State) : List Nat :=
  match s.flights.v3.active with
  | some f => (chooseVariant f s.shortOf 9 s.outSet).2.2
  | none => (List.range 8).filter fun g => (s.pairSlots (g / 2)).active.isSome
      && [g / 2 * 2, g / 2 * 2 + 1].any fun h => (galUnits h).any fun o => decide (2 ≤ s.fld o 31 30)

/-- Steps 1 and 2 of R27: the fences queued before the landing, then the variant; then what lay on a gallery now fenced that the variant covers (R25, R55,
R427, R428). -/
def State.fenceStep (s : State) : State :=
  let now := s.faults.fences.filter fun f => !f.late
  let later := (s.faults.fences.filter (·.late)).map fun f => { f with late := false }
  let s1 := { s with faults := { s.faults with fences := later } }
  if now.isEmpty then s1
  else
    let s2 := (now.foldl (fun u f => u.applyFence f) s1).variantStep true
    ((List.range 8).filter fun g => s2.galFenced g && !s1.galFenced g && !s2.uncovered.contains g).foldl (fun u g => u.loseGal g) s2

/-! ### Poisoned pages (R421 to R424, R428) -/

/-- The row of Table 15-2 that a page kind is. -/
def pageRow : PageKind → Nat
  | .stemShard _ _ => 0
  | .servingObject _ => 1
  | .trainingObject _ => 2
  | .kvOrActivation _ => 3
  | .windowPage _ => 4
  | .lexiconCopy => 5
  | .ringMirror => 5
  | .flightImage => 6
  | .freeFrame => 7

/-- The shards that a projection of a stem holds on a gallery fetched again (Table 15-2). -/
def State.refetchStem (s : State) (slot proj g : Nat) : State :=
  let a := s.stemAt slot
  let there := (((a.projs[proj]?).bind (·.man)).map fun m => (m.shards.filter fun x => x.home == g).map (·.shard)).getD []
  s.setStem slot { a with shards := a.shards.map fun q =>
    if q.1 = proj ∧ there.contains q.2.shard then (proj, ⟨q.2.shard, 0, false, [], 0, true, 0, s.tk.now, 0, false⟩) else q }

/-- A stem's shards of a projection have all arrived. -/
def State.stemWhole (s : State) (slot proj : Nat) : Bool := (s.stemAt slot).shards.all fun q => q.1 != proj || q.2.verified

/-- The device's part at a page's poisoning: the event, and what waits or ends until the repair (Table 15-2) (its corners, DEDUCED: log entry 73). -/
def State.poisonPage (s : State) (p : Poison) : State :=
  let s1 := { s with faults := { s.faults with poison := s.faults.poison ++ [p] } }
  let s2 := s1.raisePf 0x7010 ([p.stack, 4096 * p.page, 4096 * p.page / 0x100000000, pageRow p.kind, s.tk.count.toNat].map wordOf)
  match p.kind with
  | .stemShard slot proj => s2.refetchStem slot.toNat proj.toNat (p.stack / 2)
  | .servingObject id =>
    let e := s2.lexAt id.toNat
    if e.state = 2 ∨ e.state = 3 then
      (s2.raiseInst 0x7011 e.inst ([id.toNat, 0].map wordOf)).refetch id.toNat (fun x => s2.shardGal e x == some (p.stack / 2)) none
    else s2
  | .trainingObject id =>
    let e := s2.lexAt id.toNat
    if e.state = 2 ∨ e.state = 3 then
      (s2.raiseInst 0x7011 e.inst ([id.toNat, 1].map wordOf)).abandonStep id.toNat St.poisoned
    else s2
  | .kvOrActivation h =>
    match s2.hs.reqs.find? fun r => r.handle == h.toNat with
    | some r => ((s2.endReq h.toNat St.poisoned).raiseInst 0x7011 r.inst ([h.toNat, 2].map wordOf)).poisonHit r.inst
    | none => s2
  | _ => s2

/-- Phase C: pages of the tick poisoned; one found late waits for the next landing (R414, R421). -/
def State.poisonStep (s : State) : State :=
  let now := (s.faults.toPoison.filter fun p => !p.2).map (·.1)
  let later := (s.faults.toPoison.filter (·.2)).map fun p => (p.1, false)
  now.foldl (fun u p => u.poisonPage p) { s with faults := { s.faults with toPoison := later } }

/-- The object of a repaired page: shards fetched again count with their arrival; a training object is restored now, but for one that is EVICTING
(R428). -/
def State.repaired (s : State) (k : PageKind) : State :=
  match k with
  | .servingObject id => s.poisonHit (s.lexAt id.toNat).inst
  | .trainingObject id => if (s.lexAt id.toNat).held ∧ (s.lexAt id.toNat).state ≠ 4 then s.restoreTrain id.toNat else s
  | _ => s

/-- The last column of Table 15-2; the eviction of an EVICTING object completes (R428). -/
def State.repairFails (s : State) (k : PageKind) : State :=
  match k with
  | .stemShard slot proj => s.stemFail slot.toNat proj.toNat
  | .servingObject id | .trainingObject id =>
    let e := s.lexAt id.toNat
    if e.state = 4 then s else ((s.raiseInst 0x7011 e.inst ([id.toNat, 3].map wordOf)).failObject id.toNat 0 St.poisoned).poisonHit e.inst
  | _ => s

/-- With a frame just withheld, the pool of a gallery still has one for what it held (R285, R422). -/
def State.poolFree (s : State) (g : Nat) : Bool := decide (s.framesHeld g ≤ s.poolFrames g s.activeFlights)

/-- Whether a page kind lies in frames of the pool, so that a free frame can take its place. -/
def inPool : PageKind → Bool
  | .servingObject _ => true
  | .trainingObject _ => true
  | _ => false

end Sys2Proof.Machine
end

