-- ==== Sys2Proof/Machine/Flightctl.lean ====
section
/-! DEFINITION. Loading, admitting and switching flights (R46 to R54, R70, R319, R509). -/

namespace Sys2Proof.Machine

/-! ### Loading (R48, R49, R54) -/

/-- FLT_ADMIT_STATUS.STATE. -/
def State.admitState (s : State) : Nat := s.fld Reg.FLT_ADMIT_STATUS 31 28

/-- The slots of a PAIR field: 0 the version 3 slots, p + 1 pair p's. -/
def State.slotsOf (s : State) (pair : Nat) : FlightSlots := if pair = 0 then s.flights.v3 else s.pairSlots (pair - 1)

/-- The slots of a PAIR field set; the version 3 slots and the pairs' are kept side by side, though they lie in the same flight areas (R19, DESIGN
CHOICE: log entry 120). -/
def State.setSlots (s : State) (pair : Nat) (x : FlightSlots) : State :=
  let fl := s.flights
  if pair = 0 then { s with flights := { fl with v3 := x } }
  else { s with flights := { fl with pairs := (List.range 4).map fun p => if p + 1 = pair then x else s.pairSlots p } }

/-- The switch of a PAIR field that is pending. -/
def State.switchOf (s : State) (pair : Nat) : Option Switch := s.flights.switches.find? fun w => w.pair == pair

/-- The load in progress changed. -/
def State.setLoad (s : State) (l : Option Load) : State := { s with flights := { s.flights with load := l } }

/-- FLIGHT_LOAD: the copy starts from the address and with the length that the registers hold (DESIGN CHOICE: log entry 47), and the earlier staged image is
lost; during a load, or a pending switch of the same slots, the write is ignored and BUSY_DROP is set (R48, R49, R54, R70).  A PAIR above 4
names no slot and starts nothing (DESIGN CHOICE: log entry 47); a pending switch of other slots stops no load (DESIGN CHOICE: log entry
121). -/
def execFlightLoad (pair : BitVec 3) (s : State) : Host.Outcome State Fault Refusal :=
  let p := pair.toNat
  keepQueue s (if (s.switchOf p).isSome ∨ s.admitState = 1 ∨ s.admitState = 2 then s.setFld Reg.FLT_ADMIT_STATUS 1 1 1
    else if 4 < p then s
    else
      let s1 := (s.setReg Reg.FLT_LOAD_CTRL (wordOf p)).setReg Reg.FLT_ADMIT_STATUS ((s.reg Reg.FLT_ADMIT_STATUS).setField 31 2 0x4000000)
      let s2 := (s1.setFld Reg.FLT_ADMIT_STATUS 0 0 0).setSlots p { s1.slotsOf p with staged := none }
      let a := s2.reg64 Reg.FLT_LOAD_ADDR_LO Reg.FLT_LOAD_ADDR_HI / 4096 * 4096
      s2.setLoad (some ⟨p, a, (s2.reg Reg.FLT_LOAD_LEN).toNat, [], false, false⟩))

/-- The image bytes of a load in the BAR2 window (R48, R330). -/
def State.loadBytes (s : State) (l : Load) : List Byte :=
  match s.winOwner l.addr with
  | some i => s.winRead i l.addr l.len
  | none => memRead s.mem.win l.addr l.len

/-- FLIGHT_COPY_COMPLETE: the image's bytes are taken; phase E of the next landing shows CHECKING (R48). -/
def execFlightCopyComplete (s : State) : Host.Outcome State Fault Refusal :=
  keepQueue s (match s.flights.load with
    | none => s
    | some l => if s.admitState ≠ 1 ∨ l.copied then s else s.setLoad (some { l with bytes := s.loadBytes l, copied := true }))

/-- The report of a refused image (R46, R509). -/
def State.reportRefusal (s : State) (f : Fail) : State :=
  let s1 := (s.setFld Reg.FLT_ADMIT_STATUS 31 28 4).setFld Reg.FLT_ADMIT_STATUS 15 8 f.check
  let s2 := s1.setReg Reg.FLT_ADMIT_WHERE (wordOf (f.variant % 256 * 0x1000000 + f.program % 4096 * 16 + f.gal % 8))
  let s3 := s2.setReg Reg.FLT_ADMIT_ENTRY (wordOf (f.table % 16 * 0x10000000 + f.entry % 65536))
  let s4 := (s3.setReg Reg.FLT_ADMIT_NEED (wordOf f.need)).setReg Reg.FLT_ADMIT_LIMIT (wordOf f.limit)
  s4.raisePf 0x1002 ([f.check, f.variant, f.program, f.gal, f.entry].map wordOf)

/-- An admitted image put in the STAGED slot of its load (R45, R47). -/
def State.stage (s : State) (pair : Nat) (f : Flight) : State :=
  let s1 := (s.setFld Reg.FLT_ADMIT_STATUS 31 28 3).setFld Reg.FLT_ADMIT_STATUS 15 8 0
  let s2 := match splitWarning f with
    | some (p, c) => (s1.setFld Reg.FLT_ADMIT_STATUS 0 0 1).raisePf 0x1003 [wordOf p, wordOf c]
    | none => s1.setFld Reg.FLT_ADMIT_STATUS 0 0 0
  (s2.setSlots pair { s2.slotsOf pair with staged := some f }).raisePf 0x1001 [f.flightId]

/-- FLIGHT_ADMISSION_COMPLETE: the checks have ended; phase E of the next landing shows their outcome (R48). -/
def execFlightAdmissionComplete (s : State) : Host.Outcome State Fault Refusal :=
  keepQueue s (match s.flights.load with
    | none => s
    | some l => if s.admitState ≠ 2 ∨ l.checked then s else s.setLoad (some { l with checked := true }))

/-- Phase E: a copy that has ended shows CHECKING; checks that have ended show ADMITTED, every check of Table 2-12 passed, or the first failure
(R45 to R48). -/
def State.loadStep (s : State) : State :=
  match s.flights.load with
  | none => s
  | some l =>
    if s.admitState = 1 ∧ l.copied then s.setFld Reg.FLT_ADMIT_STATUS 31 28 2
    else if s.admitState = 2 ∧ l.checked then
      let s1 := s.setLoad none
      match admitImage l.pair l.len s.trust.flightKeys l.bytes with
      | some f => s1.keepFlights (s1.reportRefusal f)
      | none => s1.stage l.pair (parseFlight l.bytes)
    else s

/-! ### Switching (R50 to R54, R70) -/

/-- What runs, as the FLT_ registers show it. -/
def State.showFlight (s : State) : State :=
  let drain := s.flights.switches.any fun w => !w.immediate
  let pairs := (List.range 4).map fun p => (s.pairSlots p).active
  let ids := fun p => match s.flights.v3.active, (s.pairSlots p).active with
    | none, some f => f.flightId
    | _, _ => 0
  let (st, f, pos) := match s.flights.v3.active with
    | some f => (1, some f, s.flights.v3.pos)
    | none => if pairs.any (·.isSome) then (3, (s.pairSlots 0).active, (s.pairSlots 0).pos) else (0, none, 0)
  let (contract, programs, id) := match f with
    | some f => (f.contract, f.programs, f.flightId)
    | none => (if st = 3 then 2 else 0, 0, 0)
  let word := (if drain then 2 else st) * 0x10000000 + contract % 16 * 0x1000000 + programs % 8192
  let s1 := ((s.setReg Reg.FLT_ACTIVE_ID id).setReg Reg.FLT_ACTIVE (wordOf word)).setReg Reg.FLT_POS (wordOf (pos % 4096))
  (List.range 4).foldl (fun u p => u.setReg (Reg.FLT_PAIR_ID p) (ids p)) s1

/-- A switch changes the contract version of what runs (R70). -/
def State.changesContract (s : State) (pair : Nat) : Bool :=
  if pair = 0 then s.partitionMode else s.flights.v3.active.isSome

/-- FLT_SWITCH.GO: ignored unless STATE is ADMITTED and the slot holds a staged image, while a switch of the same slots is pending, and for an
IMMEDIATE switch between contract versions (R54, R70). -/
def State.requestSwitch (s : State) (pair : Nat) (immediate : Bool) (drain : Nat) : State :=
  if (s.switchOf pair).isSome ∨ s.admitState ≠ 3 ∨ (s.slotsOf pair).staged.isNone ∨ (immediate ∧ s.changesContract pair) then s
  else
    let s1 := { s with flights := { s.flights with switches := s.flights.switches ++ [(⟨pair, immediate, drain, 0, false⟩ : Switch)] } }
    s1.keepFlights s1.showFlight

/-- FLIGHT_SWITCH_DRAIN. -/
def execFlightSwitchDrain (pair : BitVec 3) (drainTicks : BitVec 16) (s : State) : Host.Outcome State Fault Refusal :=
  keepQueue s (s.requestSwitch pair.toNat false drainTicks.toNat)

/-- FLIGHT_SWITCH_IMMEDIATE. -/
def execFlightSwitchImmediate (pair : BitVec 3) (s : State) : Host.Outcome State Fault Refusal :=
  keepQueue s (s.requestSwitch pair.toNat true 0)

/-- The galleries of a PAIR field. -/
def pairGals (pair : Nat) : List Nat := if pair = 0 then List.range 8 else [2 * (pair - 1), 2 * (pair - 1) + 1]

/-- A request is seated on the flight that a switch replaces: any flight for a switch between contract versions (R50). -/
def State.seatedOn (s : State) (pair : Nat) (r : Request) : Bool :=
  r.state == 2 && (s.changesContract pair || pair == 0 || s.tk.seats.any fun x => x.handle == r.handle && (pairGals pair).contains x.gal)

/-- The images that run once a switch has applied. -/
def State.flightsAfter (s : State) (pair : Nat) (f : Flight) : List Flight :=
  if pair = 0 ∨ s.changesContract pair then [f]
  else f :: ((List.range 4).filter fun p => p + 1 != pair).filterMap fun p => (s.pairSlots p).active

/-- Bytes of staging that the regions of the images hold, each once (R52, Table 2-10). -/
def stagingBytes (fs : List Flight) : Nat :=
  unionBytes (fs.flatMap fun f => f.progs.flatMap fun p => (p.claims.filter fun c => c.kind == 7).map fun c => (c.base, c.amount))

/-- The regions of the images leave the stem slots and the pool's reservations alone, and 16 MiB of staging to the fetch buffer
(R52, R285, R286). -/
def State.switchFits (s : State) (fs : List Flight) : Bool :=
  ((List.range 8).all fun g => fs.all fun f => (flightRegions f g).all fun r =>
      !s.heldIn g r && (List.range 2).all fun k => !rangesMeet (s.stemRegion k).1 (s.stemRegion k).2 r.1 r.2)
    && decide (stagingBytes fs + 0x1000000 ≤ 0x10000000)

/-- The active image of a slot pair moved to STAGED. -/
def FlightSlots.retire (x : FlightSlots) : FlightSlots :=
  match x.active with
  | some _ => { FlightSlots.empty with staged := x.active }
  | none => { x with active := none }

/-- The staged image of a slot pair becomes the active one, its position 0, its period that of the ticks from the next (R27, R35, R52 to R54,
R70); in partition mode the period is that of the image switched in last, and the old FLIGHT_ID of a switch between contract versions is what
FLT_ACTIVE_ID showed (DESIGN CHOICE: log entry 48).  FLT_ADMIT_STATUS keeps what it shows of another pair's load that is in progress (R70,
DEDUCED: log entry 122). -/
def State.activateStaged (s : State) (pair : Nat) (f : Flight) : State :=
  let x := s.slotsOf pair
  let old := if s.changesContract pair then s.reg Reg.FLT_ACTIVE_ID else match x.active with
    | some o => o.flightId
    | none => 0
  let had := x.active.isSome
  let cross := s.changesContract pair
  let s1 := s.setSlots pair { FlightSlots.empty with active := some f, staged := x.active }
  let s2 := if !cross then s1
    else if pair = 0 then { s1 with flights := { s1.flights with pairs := s1.flights.pairs.map FlightSlots.retire } }
    else { s1 with flights := { s1.flights with v3 := s1.flights.v3.retire } }
  let s3 := { s2 with flights := { s2.flights with switches := s2.flights.switches.filter fun w => w.pair != pair } }
  s3.keepFlights (
  let s4 := if s3.flights.load.isSome then s3
    else s3.setReg Reg.FLT_ADMIT_STATUS ((s3.reg Reg.FLT_ADMIT_STATUS).setField 31 2 (if had || cross then 0xC000000 else 0))
  let s5 := { s4 with tk := { s4.tk with period := some f.periodQ } }.freshJobs pair
  s5.showFlight.raisePf 0x1004 [old, f.flightId, wordOf s.tk.count.toNat])

/-- A pending switch no longer pending; nothing tells of a refusal (DESIGN CHOICE: log entry 48). -/
def State.dropSwitch (s : State) (pair : Nat) : State :=
  let s1 := { s with flights := { s.flights with switches := s.flights.switches.filter fun w => w.pair != pair } }
  s1.keepFlights s1.showFlight

/-- A pending switch applied or refused: every request still seated ends with ST_FLIGHT_SWITCHED, and the new flight runs its variant, which no
event tells of (R50 to R53, DESIGN CHOICE: log entry 48). -/
def State.applySwitch (s : State) (pair : Nat) : State :=
  match (s.slotsOf pair).staged with
  | none => s.dropSwitch pair
  | some f =>
    if !s.switchFits (s.flightsAfter pair f) then s.dropSwitch pair
    else
      let s1 := s.keepFlights (s.endReqs St.flightSwitched fun r => s.seatedOn pair r)
      let s2 := s1.activateStaged pair f
      s2.keepFlights (s2.variantStep false)

/-- A pending switch may apply at a landing that commits: IMMEDIATE at once, DRAIN once no request is seated (R50, R51). -/
def State.switchDue (s : State) (w : Switch) : Bool := w.immediate || !s.hs.reqs.any fun r => r.live && s.seatedOn w.pair r

/-- DRAIN_TICKS landings have passed without the switch applying (R50). -/
def Switch.drainOver (w : Switch) : Bool := !w.immediate && decide (0 < w.drainTicks ∧ w.drainTicks ≤ w.counted)

/-- One pending switch at a landing: applied when due or when its drain is over, at a landing that commits; otherwise the landing counts
(R26, R50). -/
def State.switchOne (s : State) (commits : Bool) (w : Switch) : State :=
  if commits && (w.now || s.switchDue w || w.drainOver) then s.applySwitch w.pair
  else
    let ws := s.flights.switches.map fun x => if x.pair = w.pair then { x with counted := x.counted + 1 } else x
    { s with flights := { s.flights with switches := ws } }

/-- The pending switches at a landing, in the order in which they were requested (R27). -/
def State.switchLanding (s : State) (commits : Bool) : State := s.flights.switches.foldl (fun u w => u.switchOne commits w) s

/-- The switches of which a condition holds marked for the next landing that commits. -/
def State.markSwitches (s : State) (p : Switch → Bool) : State :=
  let ws := s.flights.switches.map fun w => if p w then { w with now := true } else w
  { s with flights := { s.flights with switches := ws } }

/-- FLIGHT_SWITCH_APPLY: a switch whose condition holds applies at the landing that closes the tick, if that landing commits (R24, R26, R50 to
R52). -/
def execFlightSwitchApply (s : State) : Host.Outcome State Fault Refusal := keepQueue s (s.markSwitches s.switchDue)

/-- DRAIN_TICKS_EXPIRE: a switch whose drain is over applies at the landing that closes the tick, if that landing commits (R24, R26, R50). -/
def execDrainTicksExpire (s : State) : Host.Outcome State Fault Refusal := keepQueue s (s.markSwitches Switch.drainOver)

end Sys2Proof.Machine
end

