-- ==== Sys2Proof/Machine/Instances.lean ====
section
/-! DEFINITION. Instances: resizes, states, freezing, saving and restoring, logging, instance reset (R247, R310, R362 to R365, R370 to
R378, R381, R383). -/

namespace Sys2Proof.Machine

/-! ### What a request holds, released -/

/-- The pins, frames and context of a request released; the frames are zeroed (R297, R409). -/
def State.releaseReq (s : State) (r : Request) : State :=
  let s1 := (r.lexId.toList ++ r.affixes).dedup.foldl (fun u i => u.unpin i) s
  (s1.zeroRequest r.handle).updReq r.handle fun x => { x with kv := [], act := [] }

/-- A request dropped without a record (R381). -/
def State.dropReq (s : State) (r : Request) : State := (s.releaseReq r).untrack r.handle

/-! ### Resizes (R364) -/

/-- VF_BAR2, in bytes (R329, Table 17-4). -/
def State.vfBar2 (s : State) : Nat := 2 ^ (wordAt s.boot.cfg 42).field 4 0

/-- The resource registers of an instance, in the order of Table 13-1. -/
def resourceRegs (n : Nat) : List Nat :=
  [Reg.WIN_RANGE n, Reg.WIN_RINGS n, Reg.WIN_HANDLES n, Reg.WIN_INST_CFG n] ++ (List.range 8).map (Reg.RES_QUOTA n)
    ++ [Reg.RES_LIMITS n, Reg.RES_INST_CFG n, Reg.RES_CACHE_WAYS n, Reg.RES_FLASH_RANGE n, Reg.LEX_RANGE_BASE n, Reg.LEX_RANGE_COUNT n,
      Reg.LEX_SLOTS n, Reg.DEV_SHARE n, Reg.DEV_SEATS n, Reg.SEC_KEYRANGE n, Reg.DEV_MIG_LO n, Reg.DEV_MIG_HI n]

/-- The ranges of two instances share an element. -/
def othersMeet (range : Nat → Nat × Nat) (n : Nat) : Bool :=
  (List.range 64).any fun m => m != n && rangesMeet (range n).1 (range n).2 (range m).1 (range m).2

/-- The ranges of instance n: window in 64 MiB, rings, handles, flash in 16 GiB, lexicon ids, affix slots, seats, key slots. -/
def State.winR (s : State) (n : Nat) : Nat × Nat := (s.fld (Reg.WIN_RANGE n) 31 19, s.fld (Reg.WIN_RANGE n) 18 5)
def State.ringR (s : State) (n : Nat) : Nat × Nat := (s.ringFirst n, s.ringCount n)
def State.handleR (s : State) (n : Nat) : Nat × Nat := (s.handleFirst n, s.handleCount n)
def State.flashR (s : State) (n : Nat) : Nat × Nat := (s.fld (Reg.RES_FLASH_RANGE n) 31 16, s.fld (Reg.RES_FLASH_RANGE n) 15 0)
def State.lexR (s : State) (n : Nat) : Nat × Nat := ((s.reg (Reg.LEX_RANGE_BASE n)).field 23 0, s.fld (Reg.LEX_RANGE_COUNT n) 24 0)
def State.slotR (s : State) (n : Nat) : Nat × Nat := (s.fld (Reg.LEX_SLOTS n) 27 16, s.fld (Reg.LEX_SLOTS n) 12 0)
def State.seatR (s : State) (n : Nat) : Nat × Nat := (s.fld (Reg.DEV_SEATS n) 31 23, s.fld (Reg.DEV_SEATS n) 22 13)
def State.keyR (s : State) (n : Nat) : Nat × Nat := (16 * s.fld (Reg.SEC_KEYRANGE n) 31 20, s.fld (Reg.SEC_KEYRANGE n) 16 0)

/-- The range lies within `top` and meets no other instance's. -/
def State.rangeOk (range : Nat → Nat × Nat) (n top : Nat) : Bool :=
  decide ((range n).1 + (range n).2 ≤ top ∨ (range n).2 = 0) && !othersMeet range n

/-- BASE or HOME of the window range may move: it holds no ring and no page of a tracked request (R364). -/
def State.windowIdle (s : State) (n : Nat) : Bool :=
  !(s.hs.rings.any fun p => p.2.inst == n && p.2.state != 0 && !(p.2.sqHost && p.2.cqHost))
    && !s.hs.reqs.any fun r => r.inst == n && (r.inBytes != 0 || r.path % 2 == 1)

/-- The fetch buffer: the staging that no active flight claims (R286). -/
def State.fetchBuffer (s : State) : Nat := 0x10000000 - stagingBytes s.activeFlights

/-- A sum over the instances. -/
def sum64 (f : Nat → Nat) : Nat := ((List.range 64).map f).sum

/-- The checks of a resize of instance n from `s` to the registers of `u`: whether each holds, its status, its register (R28,
R310, R362, R364, R365, R394) (its corners, DEDUCED: log entry 90). -/
def State.resizeChecks (s u : State) (n : Nat) : List (Bool × Nat × Nat) :=
  let moved := (u.winR n).1 ≠ (s.winR n).1 ∨ (u.reg (Reg.WIN_RANGE n)).field 4 2 ≠ (s.reg (Reg.WIN_RANGE n)).field 4 2
  let w := Reg.WIN_RANGE n
  let cfg := u.reg (Reg.WIN_INST_CFG n)
  let rc := u.reg (Reg.RES_INST_CFG n)
  let sh := u.reg (Reg.DEV_SHARE n)
  [(State.rangeOk u.winR n 8192 && (n == 0 || decide ((u.winR n).2 * 0x4000000 ≤ s.vfBar2)), St.badField, w),
    (!decide moved || s.windowIdle n, St.busy, w),
    (State.rangeOk u.ringR n 16384 && (n == 0 || decide ((u.ringR n).2 ≤ 1024)), St.badField, Reg.WIN_RINGS n),
    ((u.handleR n).1 % 16 == 0 && State.rangeOk u.handleR n 65536, St.badField, Reg.WIN_HANDLES n),
    (decide (1 ≤ cfg.field 29 24 ∧ 1 ≤ cfg.field 23 16), St.badField, Reg.WIN_INST_CFG n)]
  ++ (List.range 8).map (fun g =>
    (decide ((u.quota n g ≤ s.quota n g ∨ sum64 (fun m => u.quota m g) ≤ s.poolFrames g s.activeFlights) ∧ s.instUsed n g ≤ u.quota n g),
      St.noCapacity, Reg.RES_QUOTA n g))
  ++ [(decide (sum64 (fun m => u.fld (Reg.RES_LIMITS m) 14 0) ≤ 16384 ∧ s.residentCount n ≤ u.fld (Reg.RES_LIMITS n) 14 0), St.noCapacity, Reg.RES_LIMITS n),
    (decide (rc.field 23 20 ≤ 8 ∧ (1 ≤ rc.field 23 20 ∨ rc.field 31 24 = 0)) && decide (sum64 (fun m => u.fld (Reg.RES_INST_CFG m) 19 13) ≤ 64),
      St.badField, Reg.RES_INST_CFG n),
    (decide (sum64 (fun m => u.fld (Reg.RES_INST_CFG m) 31 24 * 65536 * (u.fld (Reg.RES_INST_CFG m) 23 20 + 1)) ≤ s.fetchBuffer),
      St.noCapacity, Reg.RES_INST_CFG n),
    (n == 0 || decide (s.bufferHeld n ≤ u.bufferShare n), St.noCapacity, Reg.RES_INST_CFG n),
    ((List.range 64).all (fun m => m == n || u.reg (Reg.RES_CACHE_WAYS m) &&& u.reg (Reg.RES_CACHE_WAYS n) == 0), St.badField, Reg.RES_CACHE_WAYS n),
    (!othersMeet u.flashR n, St.badField, Reg.RES_FLASH_RANGE n),
    ((s.ckptRegions 0x1000000 n).all (fun r => decide ((u.flashRange n).1 ≤ r.1 ∧ r.1 + r.2 ≤ (u.flashRange n).2)), St.noCapacity, Reg.RES_FLASH_RANGE n),
    (State.rangeOk u.lexR n 16777216, St.badField, Reg.LEX_RANGE_BASE n),
    (State.rangeOk u.slotR n 4096, St.badField, Reg.LEX_SLOTS n),
    (decide (1 ≤ sh.field 15 10 ∨ sh.field 31 16 = 0), St.badField, Reg.DEV_SHARE n),
    (State.rangeOk u.seatR n 512, St.badField, Reg.DEV_SEATS n),
    (State.rangeOk u.keyR n 65536, St.badField, Reg.SEC_KEYRANGE n)]

/-- The elements of the old range that the new one leaves out. -/
def leftOut (old new : Nat × Nat) (k : Nat) : Bool :=
  decide (old.1 ≤ k ∧ k < old.1 + old.2) && !decide (new.1 ≤ k ∧ k < new.1 + new.2)

/-- What lies outside the new sizes released: handles, rings, lexicon entries, affix slots, key slots; window bytes that come into
the range read 0 (R235, R247, R364, R394, R409) (its corners, DEDUCED: log entry 90). -/
def State.shrink (s u : State) (n : Nat) : State :=
  let s1 := (u.hs.reqs.filter fun r => r.inst == n && (leftOut (s.handleR n) (u.handleR n) r.handle || leftOut (s.ringR n) (u.ringR n) r.ring)).foldl
    (fun v r => v.endReq r.handle St.revoked) u
  let s2 := (u.hs.handles.filter fun p => leftOut (s.handleR n) (u.handleR n) p.1 && p.2.state != 0).foldl (fun v p =>
    if (v.reqAt p.1).isSome then v.setHandle p.1 { v.handleAt p.1 with freeing := true } else v.freeHandle p.1) s1
  let s3 := (u.hs.rings.filter fun p => leftOut (s.ringR n) (u.ringR n) p.1 && p.2.state != 0).foldl (fun v p => v.freeRing p.1) s2
  let s4 := (u.ls.lex.filter fun p => leftOut (s.lexR n) (u.lexR n) p.1 && p.2.kind != 0).foldl (fun v p =>
    v.setLex p.1 { v.lexAt p.1 with deleting := true }) s3
  let s5 := (u.ls.slots.filter fun p => leftOut (s.slotR n) (u.slotR n) p.1 && p.2.owner.isSome).foldl (fun v p => v.freeSlot p.1) s4
  let s6 := (u.trust.keys.filter fun p => leftOut (s.keyR n) (u.keyR n) p.1).foldl (fun v p => v.clearKey (some n) p.1 2) s5
  let gone := (List.range (u.winR n).2).filter fun i =>
    !decide ((s.winR n).1 ≤ (u.winR n).1 + i ∧ (u.winR n).1 + i < (s.winR n).1 + (s.winR n).2)
  gone.foldl (fun v i =>
    let a := ((u.winR n).1 + i) * 0x4000000
    { v with mem := { v.mem with win := memZero v.mem.win a 0x4000000, winM := memZero v.mem.winM a 0x4000000 } }) s6

/-- DEV_INST_STATE.SPAN (R372). -/
def State.showSpan (s : State) (n : Nat) : State :=
  s.setFld (Reg.DEV_INST_STATE n) 25 18 (maskOf 8 fun g => decide (0 < s.quota n g))

/-- The lines of ways that pass from one instance to another leave every gallery's cache: a line is looked up only by the instance that filled it
(R288). -/
def State.dropWays (s : State) (moved : Word) : State :=
  { s with ls := { s.ls with cache := s.ls.cache.filter fun p => !moved.bit (p.1 / 0x100000 % 32) } }

/-- A resource register's value in the resize of instance n: of LEX_STEM_SEL only the instance's own bit; DEV_MIG does not change while the instance is
SAVING or RESTORING (R364, R377). -/
def State.applyResource (s : State) (n : Nat) (w : Nat × Word) : State :=
  if w.1 = Reg.LEX_STEM_SEL (n / 32) then s.setFld w.1 (n % 32) (n % 32) (b2n (w.2.bit (n % 32)))
  else if (s.instState n = 4 ∨ s.instState n = 5) ∧ (w.1 = Reg.DEV_MIG_LO n ∨ w.1 = Reg.DEV_MIG_HI n) then s
  else s.setReg w.1 w.2

/-- A resize applied in full or refused (R364) (its corners, DEDUCED: log entry 90). -/
def State.resizeStep (s : State) (n : Nat) : State :=
  let ws := (s.instAt n).resize
  if ws.isEmpty then s
  else
    let s0 := s.updInst n fun i => { i with resize := [] }
    let u := ws.foldl (fun v w => v.applyResource n w) s0
    match (State.resizeChecks s0 u n).find? fun c => !c.1 with
    | some c => (s0.setFld (Reg.DEV_INST_STATE n) 7 0 c.2.1).raiseInst 0x5002 n ([n, c.2.1, c.2.2].map wordOf)
    | none =>
      let t := ((State.shrink s0 u n).showSpan n).dropWays (s0.reg (Reg.RES_CACHE_WAYS n) ^^^ u.reg (Reg.RES_CACHE_WAYS n))
      let t1 := if t.trust.keys = s0.trust.keys then t else t.seal
      (t1.setFld (Reg.DEV_INST_STATE n) 7 0 St.ok).raiseInst 0x5001 n ([n, s.tk.count.toNat].map wordOf)

/-- Step 3 of R27: the resizes, in the order in which they were queued. -/
def State.resizeAll (s : State) : State :=
  s.hs.resizeQ.foldl (fun u n => u.resizeStep n) { s with hs := { s.hs with resizeQ := [] } }

/-! ### Operations of DEV_INST_CTRL (R370) -/

/-- DEV_INST_CTRL: an operation queued for the next landing. -/
def State.queueInstOp (s : State) (n op : Nat) : State := { s with hs := { s.hs with instOps := s.hs.instOps ++ [(n, op)] } }

/-- DEV_INST_CTRL.LAST_ST. -/
def State.instStatus (s : State) (st : Nat) : State := s.setFld Reg.DEV_INST_CTRL 7 0 st

/-- An instance freezes: its seats end, its fetches stop, and a FETCHING object returns to ABSENT keeping its frames (R371, R383). -/
def State.freezeNow (s0 : State) (n : Nat) : State :=
  let seatless := { s0 with tk := { s0.tk with seats := s0.tk.seats.filter fun x => x.inst != n } }
  let s := { seatless with hs := { seatless.hs with reqs := s0.hs.reqs.map fun (r : Request) => if r.inst = n ∧ r.state = 2 then { r with state := 1 } else r } }
  let s1 := (s.ls.lex.filter fun p => p.2.inst == n && p.2.state == 1).foldl (fun u p =>
    u.setLex p.1 { u.lexAt p.1 with state := 0, shards := [] }) s
  ((s1.updInst n fun i => { i with frozenAt := s.tk.count, beat := s.tk.now - i.beat }).setFld (Reg.DEV_INST_STATE n) 27 27 0).toInstState n 3 St.ok

/-- An instance runs again: deadlines that count move on by the ticks from the freezing landing, the heartbeat timer goes on, objects that were on
their way are fetched again, records that were held post (R371, R372). -/
def State.thawNow (s : State) (n : Nat) : State :=
  let moved := s.tk.count.toNat - (s.instAt n).frozenAt.toNat
  let was := s.frozen n
  let reqs := s.hs.reqs.map fun r => if r.inst = n ∧ r.cls = 0 ∧ r.state ≠ 0 then { r with deadline := r.deadline + moved } else r
  let s1 := if was then ({ s with hs := { s.hs with reqs := reqs } }).updInst n fun i => { i with beat := s.tk.now - i.beat } else s
  let s2 := (s1.ls.lex.filter fun p => was && p.2.inst == n && p.2.state == 0 && decide (0 < p.2.pins)).foldl (fun u p =>
    let fr := (u.lexAt p.1).frames
    let u1 := u.startFetch p.1
    u1.setLex p.1 { u1.lexAt p.1 with frames := fr, awaits := fr.isEmpty }) (s1.toInstState n 0 St.ok)
  (s2.hs.rings.filter fun p => p.2.inst == n).foldl (fun u p => u.postHeld p.1 p.2.held.length) s2

/-- The instance holds no handle, ring or lexicon entry (Table 13-2). -/
def State.instEmpty (s : State) (n : Nat) : Bool :=
  !(s.hs.handles.any fun p => p.2.state != 0 && decide ((s.handleR n).1 ≤ p.1 ∧ p.1 < (s.handleR n).1 + (s.handleR n).2))
    && !(s.hs.rings.any fun p => p.2.inst == n && p.2.state != 0) && !s.ls.lex.any fun p => p.2.inst == n && p.2.kind != 0

/-- The galleries an instance spans. -/
def State.spanOf (s : State) (n : Nat) : Nat := ((List.range 8).filter fun g => decide (0 < s.quota n g)).length

/-- CKHOST and DEV_MIG of an instance. -/
def State.ckHostOn (s : State) (n : Nat) : Bool := (s.reg (Reg.DEV_MIG_LO n)).bit 0
def State.devMig (s : State) (n : Nat) : Nat := s.reg64 (Reg.DEV_MIG_LO n) (Reg.DEV_MIG_HI n) / 4096 * 4096

/-- Where the instance's image lies: DEV_MIG in host memory, or that offset of its flash range (R376) (its corners, DESIGN CHOICE: log entry 91). -/
def State.migPlace (s : State) (n : Nat) : Nat := if s.ckHostOn n then s.devMig n + 1 else (s.flashRange n).1 + s.devMig n

/-- The bytes of an image: its header for Q requests, H handles and L entries, and the frames the instance holds (R376). -/
def saveBytesOf (q h l frames : Nat) : Nat := (1 + ceilDiv (64 * q + 16 * h + 64 * l) 65536 + frames) * 65536

/-- The image that lies at an instance's place. -/
def State.imageAt (s : State) (n : Nat) : Option Image := (s.images.find? fun p => p.1 == s.migPlace n).map (·.2)

/-- The bytes of an image that has been written. -/
def Image.bytes (i : Image) : Nat := saveBytesOf i.reqs.length i.handles.length i.lex.length i.frames

/-- The frames that an instance holds. -/
def State.framesOf (s : State) (n : Nat) : Nat := ((List.range 8).map fun g => s.instUsed n g).sum

/-- The bytes of the image that a save of the instance writes. -/
def State.saveBytes (s : State) (n : Nat) : Nat :=
  saveBytesOf (s.hs.reqs.countP fun (r : Request) => r.inst == n)
    (s.hs.handles.countP fun p => decide ((s.handleR n).1 ≤ p.1 ∧ p.1 < (s.handleR n).1 + (s.handleR n).2)) (s.ls.lex.countP fun p => p.2.inst == n) (s.framesOf n)

/-! ### Pausing (R375) -/

/-- The dirty training objects of an instance. -/
def State.dirtyOf (s : State) (n : Nat) : List Nat := (s.ls.lex.filter fun p => p.2.inst == n && s.dirty p.1).map (·.1)

/-- A PAUSING instance with no request tracked writes a checkpoint of every group of every dirty object; once none is left it is
PAUSED (R370, R375). -/
def State.pausedStep (s : State) (n : Nat) : State :=
  if s.instState n ≠ 1 ∨ s.hs.reqs.any (fun r => r.inst == n) then s
  else
    let ds := s.dirtyOf n
    if ds.isEmpty then s.toInstState n 2 St.ok
    else ds.foldl (fun u i =>
      let t := u.trainAt i
      if t.ckptQueue.isEmpty ∧ t.ckptActive.isNone then u.queueCkpts i else u) s

/-- INSTANCE_PAUSED. -/
def execInstancePaused (inst : BitVec 6) (s : State) : Host.Outcome State Fault Refusal := keep s (s.pausedStep inst.toNat)

/-! ### The save image (R376 to R378) -/

/-- The cells of a memory whose key, divided by `unit`, a test picks. -/
def imgPick (m : Mem) (unit : Nat) (p : Nat → Bool) : Mem := m.filter fun c => p (c.1 / unit)

/-- A memory with the picked cells replaced by an image's. -/
def imgPut (m img : Mem) (unit : Nat) (p : Nat → Bool) : Mem :=
  img.foldl (fun a c => memPut a c.1 c.2) (m.filter fun c => !p (c.1 / unit))

/-- A number lies in a range given by its first element and its count. -/
def inRange (r : Nat × Nat) (k : Nat) : Bool := decide (r.1 ≤ k ∧ k < r.1 + r.2)

/-- Whose bytes lie at a unit of a memory: objects and slots of the instance's entries, requests of its handles, its window. -/
structure Owned where
  obj : Nat → Bool
  req : Nat → Bool
  ctx : Nat → Bool
  slot : Nat → Bool
  hdr : Nat → Bool
  win : Nat → Bool

/-- What an instance owns in the memories, by its ranges of ids, handles, slots and window bytes. -/
def State.ownedBy (s : State) (n : Nat) : Owned :=
  { obj := fun k => inRange (s.lexR n) (k / 32), req := fun k => inRange (s.handleR n) (k / 16), ctx := fun k => inRange (s.handleR n) (k / 16)
    slot := fun k => inRange (s.slotR n) (k / 4), hdr := inRange (s.lexR n), win := inRange (s.winR n) }

/-- The memories of an instance's image. -/
def State.imageMem (s : State) (n : Nat) : Mems :=
  let o := s.ownedBy n
  { Mems.empty with
    obj := imgPick s.mem.obj 0x40000000 o.obj, req := imgPick s.mem.req 0x10000000000 o.req, ctx := imgPick s.mem.ctx 0x100000000 o.ctx
    slot := imgPick s.mem.slot 0x40000000 o.slot, hdr := imgPick (if s.galFenced 0 then s.mem.hdrM else s.mem.hdr) 4096 o.hdr, win := imgPick s.mem.win 0x4000000 o.win }

/-- The memories with an image's bytes in the instance's places. -/
def State.withImageMem (s : State) (n : Nat) (i : Mems) : Mems :=
  let o := s.ownedBy n
  let m := { s.mem with obj := imgPut s.mem.obj i.obj 0x40000000 o.obj, req := imgPut s.mem.req i.req 0x10000000000 o.req }
  let m1 := { m with ctx := imgPut m.ctx i.ctx 0x100000000 o.ctx, slot := imgPut m.slot i.slot 0x40000000 o.slot }
  { m1 with hdr := imgPut m1.hdr i.hdr 4096 o.hdr, hdrM := imgPut m1.hdrM i.hdr 4096 o.hdr, win := imgPut m1.win i.win 0x4000000 o.win, winM := imgPut m1.winM i.win 0x4000000 o.win }

/-- The resources of an instance as an image holds them: its registers and its stem selection (Table 13-1, R376). -/
def State.resourceWords (s : State) (n : Nat) : List Word := (resourceRegs n).map s.reg ++ [wordOf (s.stemSel n)]

/-- The save image of a FROZEN instance (R376) (its corners, DESIGN CHOICE: log entry 91). -/
def State.saveImage (s : State) (n : Nat) : Image :=
  let left := (s.hs.reqs.filter fun r => r.inst == n && r.cls == 0 && r.state != 0).map fun r =>
    (r.handle, (r.admitted.toNat + r.deadline : Int) - (s.instAt n).frozenAt.toNat)
  let train := s.ls.train.filter fun p => (s.lexAt p.1).inst == n && (s.lexAt p.1).kind != 0
  { inst := n, flightId := s.reg Reg.FLT_ACTIVE_ID, stemDigest := (s.stemAt (s.stemSel n)).digest, resources := s.resourceWords n
    handles := s.hs.handles.filter fun p => decide ((s.handleR n).1 ≤ p.1 ∧ p.1 < (s.handleR n).1 + (s.handleR n).2)
    reqs := s.hs.reqs.filter fun r => r.inst == n, rings := s.hs.rings.filter fun p => p.2.inst == n
    lex := s.ls.lex.filter fun p => p.2.inst == n
    slots := s.ls.slots.filter fun p => decide ((s.slotR n).1 ≤ p.1 ∧ p.1 < (s.slotR n).1 + (s.slotR n).2)
    immutable := s.hs.immutable.filter fun x => (s.reqAt x.1).any fun r => r.inst == n
    train := train, credit := (s.instAt n).credit, eng := (s.instAt n).eng, remaining := left, frames := s.framesOf n, format := s.recFmt n, key := (s.instAt n).migKey.getD 0
    mem := s.imageMem n, valid := true }

/-- A save reads a poisoned page of the instance (R421, R428). -/
def State.savePoisoned (s : State) (n : Nat) : Bool :=
  s.faults.poison.any fun p => match p.kind with
    | .servingObject i | .trainingObject i => (s.lexAt i.toNat).inst == n
    | .kvOrActivation h => (s.reqAt h.toNat).any fun r => r.inst == n
    | .windowPage page => inRange (s.winR n) (page.toNat / 16384) && s.windowPoisoned n (4096 * page.toNat)
    | _ => false

/-- SAVE_COMPLETE: once the instance's budget has moved the bytes, the image is written and the instance is FROZEN with SAVED set; a save that read a
poisoned page or was stopped leaves no valid image (R370, R373, R377, R383, R428) (its corners, DESIGN CHOICE: log entry 91). -/
def execSaveComplete (inst : BitVec 6) (s : State) : Host.Outcome State Fault Refusal :=
  let n := inst.toNat
  keep s (if s.instState n ≠ 4 ∨ !s.covered n (.image n) (s.instAt n).imgLeft then s
    else
      let left := (s.instAt n).imgLeft
      let ok := !s.savePoisoned n && !(s.instAt n).stopped && (s.instAt n).migKey.isSome
      let img := { s.saveImage n with valid := ok }
      let s1 := { s with images := (s.migPlace n, img) :: s.images.filter fun p => p.1 != s.migPlace n }
      let s2 := (if n = 0 then s1 else s1.charge n left).updInst n fun i => { i with imgLeft := 0 }
      let s3 := if s.ckHostOn n then s2.logPages n (s.devMig n) (s.saveBytes n) false else s2
      (s3.setFld (Reg.DEV_INST_STATE n) 27 27 (b2n ok)).toInstState n 3 St.ok)

/-- The resources of the image match the registers, but for larger quotas (R378) (its corners, DESIGN CHOICE: log entry 91). -/
def State.resourcesMatch (s : State) (n : Nat) (img : Image) : Bool :=
  let now := s.resourceWords n
  (List.range now.length).all fun i =>
    let old := wordAt img.resources i
    if 4 ≤ i ∧ i < 12 then decide (old.toNat ≤ (wordAt now i).toNat) else old == wordAt now i

/-- The status of a loaded image, 0 when accepted (R378) (its corners, DESIGN CHOICE: log entry 91). -/
def State.imageStatus (s : State) (n : Nat) (img : Image) : Nat :=
  if !img.valid ∨ (s.instAt n).migKey ≠ some img.key then St.auth
  else if !s.acceptsFormat img.format ∨ img.flightId ≠ s.reg Reg.FLT_ACTIVE_ID then St.version
  else if img.stemDigest ≠ (s.stemAt (s.stemSel n)).digest then St.stemMismatch
  else if !s.resourcesMatch n img then St.noCapacity
  else St.ok

/-- An accepted image restored to the same galleries and offsets; remaining deadlines count from the thawing landing, and the window
pages written are logged (R372, R373, R378) (its corners, DESIGN CHOICE: log entry 91). -/
def State.restoreImage (s : State) (n : Nat) (img : Image) : State :=
  let add := fun {β : Type} (m : SMap β) (x : SMap β) => x.foldl (fun a p => smInsert a p.1 p.2) m
  let reqs := img.reqs.map fun r =>
    let left := ((img.remaining.find? fun p => p.1 == r.handle).map (·.2)).getD r.deadline
    { r with inst := n, admitted := s.tk.count - BitVec.ofNat 64 (-left).toNat, told := (if r.state = 0 then none else some (r.told.getD r.admitted)), deadline := left.toNat }
  let hs := { s.hs with handles := add s.hs.handles img.handles, rings := add s.hs.rings img.rings, reqs := s.hs.reqs ++ reqs
                        immutable := s.hs.immutable ++ img.immutable }
  let ls := { s.ls with slots := add s.ls.slots img.slots, train := add s.ls.train img.train }
  let at_ := fun (u : State) (e : LexEntry) => (e.man.bind (manifestPlace (u.manifestRuns none))).getD e.manifest
  let s1 := img.lex.foldl (fun u p => u.setLex p.1 { p.2 with manifest := at_ u p.2 }) { s with hs := hs, ls := ls, mem := s.withImageMem n img.mem }
  let s2 := ((img.mem.win.map fun c => c.1 / 4096).dedup).foldl (fun u p => u.logPages n (4096 * p) 1 true) s1
  s2.updInst n fun i => { i with credit := img.credit, eng := img.eng, frozenAt := s.tk.count }

/-- RESTORE_COMPLETE: once the instance's budget has moved the bytes, the image is read; it is checked and restored at the next landing, in the order of
the operations queued (R24, R27, R370, R377). -/
def execRestoreComplete (inst : BitVec 6) (s : State) : Host.Outcome State Fault Refusal :=
  let n := inst.toNat
  keep s (if s.instState n ≠ 5 ∨ (s.instAt n).restored ∨ !s.covered n (.image n) (s.instAt n).imgLeft then s
    else
      let s1 := if n = 0 then s else s.charge n (s.instAt n).imgLeft
      (s1.updInst n fun i => { i with restored := true, imgLeft := 0 }).queueInstOp n 8)

/-- An image that has been read restored at a landing; a refused one changes nothing (R24, R378). -/
def State.restoreStep (s0 : State) (n : Nat) : State :=
  if s0.instState n ≠ 5 ∨ !(s0.instAt n).restored then s0
    else
      let s := s0.updInst n fun i => { i with restored := false }
      let img := s.imageAt n
      let st := match img with
        | some i => if (s.instAt n).stopped then St.auth else s.imageStatus n i
        | none => St.auth
      let s1 := match img with
        | some i => if st = St.ok then s.restoreImage n i else s
        | none => s
      (s1.instStatus st).toInstState n 3 st

/-! ### The operations applied (R27, R370) -/

/-- One operation decided at a landing; 8 is an image that has been read (R370, R373, R378, R404).  A save needs the key that SET_TARGET drew, and writes
over whatever image lay at its place. -/
def State.instOpStep (s : State) (n op : Nat) : State :=
  let st := s.instState n
  if op = 8 then s.restoreStep n
  else if s.partitionMode ∧ op ≠ 3 then s.instStatus St.busy
  else if op = 1 then (if st = 0 then (s.toInstState n 1 St.ok).instStatus St.ok else s.instStatus St.busy)
  else if op = 2 then (if st ≤ 2 then (s.freezeNow n).instStatus St.ok else s.instStatus St.busy)
  else if op = 3 then (if st = 2 ∨ st = 3 then (s.thawNow n).instStatus St.ok else s.instStatus St.busy)
  else if op = 4 then
    (if st ≠ 3 then s.instStatus St.busy
    else if (s.instAt n).migKey.isNone ∨ !(s.instAt n).migOut then s.instStatus St.auth
    else
      let s1 := { s with images := s.images.filter fun p => p.1 != s.migPlace n }
      ((s1.updInst n fun i => { i with stopped := false, imgLeft := s.saveBytes n }).setFld (Reg.DEV_INST_STATE n) 31 28 4).instStatus St.ok)
  else if op = 5 then
    (if st = 3 ∧ s.instEmpty n then
      ((s.updInst n fun i => { i with restored := false, imgLeft := ((s.imageAt n).map (·.bytes)).getD 0 }).setFld (Reg.DEV_INST_STATE n) 31 28 5).instStatus St.ok
    else s.instStatus St.busy)
  else if op = 6 then
    (if 2 < s.spanOf n then s.instStatus St.badField
    else
      let s1 := ((s.setFld (Reg.DEV_INST_STATE n) 26 26 1).setReg (Reg.WIN_LOG_HEAD n) 0).setReg (Reg.WIN_LOG_TAIL n) 0
      (s1.updInst n fun i => { i with logPages := [], logSeq := 0 }).instStatus St.ok)
  else if op = 7 then (s.setFld (Reg.DEV_INST_STATE n) 26 26 0).instStatus St.ok
  else s.instStatus St.busy

/-- Step 5 of R27: the operations, in the order in which they were queued. -/
def State.instOps (s : State) : State :=
  s.hs.instOps.foldl (fun u x => u.instOpStep x.1 x.2) { s with hs := { s.hs with instOps := [] } }

/-- PAUSE. -/
def execPause (inst : BitVec 6) (s : State) : Host.Outcome State Fault Refusal := keep s (s.queueInstOp inst.toNat 1)

/-- FREEZE. -/
def execFreeze (inst : BitVec 6) (s : State) : Host.Outcome State Fault Refusal := keep s (s.queueInstOp inst.toNat 2)

/-- THAW. -/
def execThaw (inst : BitVec 6) (s : State) : Host.Outcome State Fault Refusal := keep s (s.queueInstOp inst.toNat 3)

/-- SAVE. -/
def execSave (inst : BitVec 6) (s : State) : Host.Outcome State Fault Refusal := keep s (s.queueInstOp inst.toNat 4)

/-- RESTORE. -/
def execRestore (inst : BitVec 6) (s : State) : Host.Outcome State Fault Refusal := keep s (s.queueInstOp inst.toNat 5)

/-- LOG_START. -/
def execLogStart (inst : BitVec 6) (s : State) : Host.Outcome State Fault Refusal := keep s (s.queueInstOp inst.toNat 6)

/-- LOG_STOP. -/
def execLogStop (inst : BitVec 6) (s : State) : Host.Outcome State Fault Refusal := keep s (s.queueInstOp inst.toNat 7)

/-! ### Instance reset (R381) -/

/-- INSTANCE_RESET: the function's FLR applies at the next landing (its corners, DEDUCED: log entry 92). -/
def execInstanceReset (inst : BitVec 6) (s : State) : Host.Outcome State Fault Refusal :=
  keep s ((s.endReqs St.revoked fun r => r.inst == inst.toNat).updInst inst.toNat fun i => { i with reset := true })

/-- The counts that a virtual function reads of its own instance (TCK_DEFERRALS and those scoped as it). -/
def scopedCounts : List Nat :=
  [Reg.TCK_DEFERRALS, Reg.TCK_LC_LATE, Reg.ERR_POISON_HITS, Reg.RES_RETRIES, Reg.RES_FAILURES, Reg.RES_EVICTIONS, Reg.RES_CANCELS, Reg.RES_OOB,
    Reg.LEX_TRN_COMMITS, Reg.LEX_TRN_SKIPS, Reg.LEX_TRN_REAPPLIES, Reg.LEX_TRN_WAITS, Reg.WIN_IMMUT_WRITES, Reg.WIN_EV_LOST, Reg.WIN_OOB]

/-- An instance's own counts back at 0; the package's stay (R381). -/
def State.clearCounts (s : State) (n : Nat) : State := (scopedCounts.foldl (fun u o => u.setRegC (n + 1) o 0) s).clearCounters n

/-- An instance reset applied: requests, handles, rings and attachment go, a step in progress is abandoned, saving and logging
stop, the window and the request frames read 0; entries, objects and resources stay (R381) (its corners, DEDUCED: log entry 92). -/
def State.resetInst (s : State) (n : Nat) : State :=
  let s1 := (s.hs.reqs.filter fun r => r.inst == n).foldl (fun u r => u.dropReq r) s
  let s2 := (s1.ls.lex.filter fun p => p.2.inst == n && p.2.form == 1).foldl (fun u p => u.abandonStep p.1 St.revoked) s1
  let hr := s2.handleR n
  let s3 := (s2.hs.handles.filter fun p => p.2.state != 0 && decide (hr.1 ≤ p.1 ∧ p.1 < hr.1 + hr.2)).foldl (fun u p => u.freeHandle p.1) s2
  let s4 := (s3.hs.rings.filter fun p => p.2.inst == n).foldl (fun u p => u.freeRing p.1) s3
  let h := s4.hs
  let h1 := { h with entries := h.entries.filter fun x => (s3.ringAt x.1).inst != n }
  let h2 := { h1 with cmdRecords := h1.cmdRecords.filter fun x => (s3.ringAt x.1).inst != n, evLost := h1.evLost.filter (· != n) }
  let s5 := { s4 with hs := h2 }
  let a := (s5.winR n).1 * 0x4000000
  let len := (s5.winR n).2 * 0x4000000
  let s6 := { s5 with mem := { s5.mem with win := memZero s5.mem.win a len, winM := memZero s5.mem.winM a len } }
  let s7 := ((s6.clearCounts n).setRegC (n + 1) Reg.WIN_ATTACH_STATE 0).updInst n fun i => { Inst.fresh with resize := i.resize, migKey := i.migKey }
  let s8 := (if n = 0 then s7.setIde [] 0 else s7).setFld (Reg.DEV_INST_STATE n) 27 26 0
  s8.toInstState n 0 St.ok

end Sys2Proof.Machine
end

