-- ==== Sys2Proof/Machine/Commit.lean ====
section
/-! DEFINITION. Phases A and B of a landing: the verdict, what commits, what a replay counts, the records that post (R37, R40,
R61 to R63, R131, R166, R210, R211, R269, R274, R275, R345 to R349, R369, R414 to R416). -/

namespace Sys2Proof.Machine

/-! ### Deferral (R63, R421, R422) -/

/-- The running flight and the template in force of a seat of the closing tick. -/
def State.seatTemplate (s : State) (x : Seat) : Option (Running × Template) :=
  s.runs.findSome? fun r =>
    if !(pairGals r.pair).contains x.gal then none
    else (r.templates.find? fun t => t.gal == x.gal && t.slot == x.slot && t.program == r.pos).map fun t => (r, t)

/-- The windows that a seat reads. -/
def State.windowsOf (s : State) (x : Seat) : List (Nat × Nat) :=
  match s.seatTemplate x with
  | some (r, t) => r.seatWindows t x.inst
  | none => []

/-- The data of a window has not arrived by its deadline. -/
def State.windowLate (s : State) (w : Nat × Nat) : Bool :=
  s.tk.lateWindows.contains w || match s.fillOf w.1 w.2 with
    | some f => !f.present
    | none => true

/-- Whether a window that a seat reads may draw on the host or the flash tier, so that it can be late (R63, Table 2-7). -/
def State.windowSlow (s : State) (x : Seat) (w : Nat × Nat) : Bool :=
  match s.seatTemplate x with
  | some (r, t) => (r.f.blockIn r.parent r.mask t.program t.gal).any fun b =>
      b.1.fetch.any fun y => y.gal == w.1 && y.window == w.2 && y.sources % 4 != 0
  | none => false

/-- The windows of a seat that are late. -/
def State.lateOf (s : State) (x : Seat) : List (Nat × Nat) := (s.windowsOf x).filter fun w => s.windowSlow x w && s.windowLate w

/-- A poisoned page of a stem slot on a gallery. -/
def State.stemPoisoned (s : State) (g slot : Nat) : Bool :=
  s.faults.poison.any fun p => p.stack / 2 == g && match p.kind with
    | .stemShard k _ => k.toNat == slot
    | _ => false

/-- A training object has a page that awaits repair. -/
def State.trainPoisoned (s : State) (id : Nat) : Bool :=
  s.faults.poison.any fun p => match p.kind with
    | .trainingObject i => i.toNat == id
    | _ => false

/-- Every object that a request pins is held, and no page of one awaits repair. -/
def State.objectsHeld (s : State) (r : Request) : Bool := (r.lexId.toList ++ r.affixes).all fun i => (s.lexAt i).held && !s.trainPoisoned i

/-- A seat is deferred: a window it reads from the host or the flash tier is late, an object of its request waits for a repair, or its stem slot is poisoned; a
request that has ended is not (R63, R66, R422). -/
def State.seatDeferred (s : State) (x : Seat) : Bool :=
  match s.reqAt x.handle with
  | none => false
  | some r => r.ending.isNone && (!(s.lateOf x).isEmpty || !s.objectsHeld r || s.stemPoisoned x.gal r.stem)

/-- The window fills that are late, each counted once for its instance (R63, Table 18-1). -/
def State.tallyLate (s : State) : State :=
  let late := (s.tk.seats.flatMap fun x => (s.lateOf x).map fun w => (w, x.inst)).dedup
  late.foldl (fun u x => u.tally ⟨0x101, 3, 7, some x.2, none, 0xFF, none, 1⟩) s

/-- Phase A of a tick that commits: its deferred seats, each counted once (R63). -/
def State.verdict (s : State) : State :=
  let seats := s.tk.seats.map fun x => { x with deferred := s.seatDeferred x }
  (seats.filter (·.deferred)).foldl (fun u x =>
    ((u.countScoped Reg.TCK_DEFERRALS (some x.inst) 1).updReq x.handle fun r =>
      { r with flags := setFlag r.flags Flag.deferred, deferredLast := true }).tally
        ⟨0x20 * x.gal + 24, 2, 7, some x.inst, some (x.stream, x.cls), 0xFF, none, 1⟩) { s.tallyLate with tk := { s.tk with seats := seats } }

/-! ### Commit (R37, R40, R61) -/

/-- A seat commits: it is not deferred, and its request has not been ended (R40). -/
def State.commits (s : State) (x : Seat) : Bool :=
  !x.deferred && match s.reqAt x.handle with
    | some r => r.ending.isNone && r.state == 2
    | none => false

/-- The halves exchanged and the stage advanced (R37, R210). -/
def State.exchange (s : State) (x : Seat) : State :=
  s.updReq x.handle fun r =>
    let r1 := { r with half := 1 - r.half, stage := r.stage + 1, committed := r.committed + 1, deferredLast := false }
    { r1 with mark := if x.overflow then false else r.mark }

/-- A calibration slot's configuration counts an element of an instance: enabled, and the owner's or the physical function's
(R131, R134). -/
def State.calCounts (s : State) (g slot : Nat) (inst : Option Nat) : Bool :=
  let w := s.reg (Reg.GAL_CAL_CFG g slot)
  let owner := w.field 30 24
  w.bit 31 && s.fld (Reg.GAL_CAL_WINDOW g) 15 0 != 0 && (owner == 0x7F || (decide (owner < 64) && inst == some owner))

/-- A row group's saturations of one request, for its event: gallery, MU and the number in all (R166) (its corners, DEDUCED: log entry 95). -/
def satOf (ps : List Pend) (h : Nat) : Option (Nat × Nat × Nat) :=
  let mine := ps.filterMap fun p => match p with
    | .sat g m h' n => if h' = h then some (g, m, n) else none
    | _ => none
  mine.head?.map fun x => (x.1, x.2.1, (mine.map (·.2.2)).sum)

/-- What a clause of a committed seat counts (R131, R166, R210, R211, R269) (its corners, DEDUCED: log entry 95). -/
def State.pendCommit (s : State) (p : Pend) : State :=
  match p with
  | .sat g m h n => (s.count (Reg.GAL_MU_SAT g m) 31 0 n).updReq h fun r => { r with flags := setFlag r.flags Flag.accSat }
  | .rpl g m _ n => s.count (Reg.GAL_MU_RPL g m) 31 0 n
  | .cal g slot h sat elem =>
    if s.calCounts g slot ((h.bind s.reqAt).map (·.inst)) then
      let counts := smModify (fun _ => CalCount.fresh) s.cal.counts (256 * g + slot) fun c => ⟨c.sat + sat, c.elem + elem⟩
      { s with cal := { s.cal with counts := counts } }
    else s
  | .spill g v h sp dr wrote =>
    ((s.count (Reg.GAL_VU_SPILL g v) 31 0 sp).count (Reg.GAL_VU_DROP g v) 31 0 dr).updReq h fun r =>
      { r with mark := r.mark || wrote, flags := if dr > 0 then setFlag r.flags Flag.expertDrop else r.flags }
  | .solve g v _ singular damped => (s.count (Reg.GAL_VU_SOLVE g v) 31 16 (b2n singular)).count (Reg.GAL_VU_SOLVE g v) 15 0 (b2n damped)
  | .area a => s.updReq a.handle fun r =>
    { r with sums := (r.sums.filter fun b => !(b.gal == a.gal && b.off == a.off)) ++ [a] }

/-- The request whose seat's commit a pending count waits for; none when it counts with its tick. -/
def Pend.handle : Pend → Option Nat
  | .sat _ _ h _ => some h
  | .rpl _ _ h _ => some h
  | .cal _ _ h _ _ => h
  | .spill _ _ h _ _ _ => some h
  | .solve _ _ h _ _ => h
  | .area a => some a.handle

/-- A request whose last stage has committed: a TRAIN_STEP meets its gate, any other is DONE, late or not (R61, R271). -/
def State.lastStage (s : State) (h : Nat) : State :=
  match s.reqAt h with
  | none => s
  | some r =>
    if r.stage < r.stages then s
    else if r.opcode = Op.trainStep then s.gateDecide (r.lexId.getD 0)
    else
      let s1 := s.updReq h fun q => { q with state := 3 }
      let late := s.tk.count.toNat - (r.admitted.toNat + r.deadline)
      if r.cls = 0 ∧ 0 < late then
        let s2 := (s1.updReq h fun q => { q with flags := setFlag q.flags Flag.late }).countScoped Reg.TCK_LC_LATE (some r.inst) 1
        s2.raiseInst 0x1013 r.inst [handleWord r.gen h, wordOf late]
      else s1

/-- Engine time of the closing tick: every bound seat's template cost to its instance and handle; in partition mode the OCCUPANCY
of each clause to its partition's instance (R369). -/
def State.chargeEngine (s : State) : State :=
  let s1 := s.tk.seats.foldl (fun u x =>
    if s.partitionMode then u
    else
      let hd := u.handleAt x.handle
      (u.updInst x.inst fun i => { i with eng := i.eng + x.cost }).setHandle x.handle { hd with eng := hd.eng + x.cost }) s
  if !s.partitionMode then s1
  else s.runs.foldl (fun u run =>
    if run.pair = 0 then u
    else ((s.pairSlots (run.pair - 1)).live).foldl (fun v q =>
      let cost := ((List.range 2).map fun b =>
        if q.dies / 2 ^ b % 2 = 0 then 0
        else match run.f.blockIn 0 0 run.pos (2 * (run.pair - 1) + b) with
          | some (_, k) => ((k.f ++ k.b ++ k.u).map (·.occ)).sum
          | none => 0).sum
      v.updInst q.inst fun i => { i with eng := i.eng + cost }) u) s1

/-- A held step's command applied, or its hold counted down to its timeout (R274, R275) (its corners, DEDUCED: log entry 72). -/
def State.holdStep (s : State) (id : Nat) : State :=
  let t := s.trainAt id
  if t.state ≠ 4 then s
  else match t.gate with
    | some 1 => s.stepCommit id
    | some _ => s.stepSkip id 2
    | none => (s.setTrain id { t with holdLeft := t.holdLeft - 1 }).gateExpire id

/-- The steps that are held: those with a command, and of the rest those whose instance is not frozen, which suspends their counts (R275, R371). -/
def State.holdsCounted (s : State) : List Nat :=
  (s.ls.train.filter fun p => p.2.state == 4 && (p.2.gate.isSome || !s.frozen (s.lexAt p.1).inst)).map (·.1)

/-- Fetch-buffer data kept until every seat that reads it has committed (R416). -/
def State.dropFills (s : State) (done later : List Seat) : State :=
  let ws := done.flatMap s.windowsOf
  let keepW := later.flatMap s.windowsOf
  { s with ls := { s.ls with fills := s.ls.fills.filter fun f => !(f.present && ws.contains (f.gal, f.window) && !keepW.contains (f.gal, f.window)) } }

/-- The seats of a tick that is not replayed commit or are discarded. -/
def State.commitSeats (s : State) : State :=
  let done := s.tk.seats.filter s.commits
  let hs := done.map (·.handle)
  let pend := s.tk.pend.filter fun p => match p.handle with
    | some h => hs.contains h
    | none => true
  let s1 := (s.chargeEngine).dropFills done (s.tk.seats.filter (·.deferred))
  let s2 := done.foldl (fun u x => u.exchange x) s1
  let s3 := pend.foldl (fun u p => u.pendCommit p) s2
  let s4 := hs.dedup.foldl (fun u h => match satOf pend h, u.reqAt h with
    | some (g, m, n), some r => u.raiseInst 0x2002 r.inst [handleWord r.gen h, wordOf g, wordOf m, wordOf n, wordOf s.tk.count.toNat]
    | _, _ => u) s3
  s4.holdsCounted.foldl (fun u i => u.holdStep i) (hs.dedup.foldl (fun u h => u.lastStage h) s4)

/-! ### Records (R345 to R347) -/

/-- The result words of a request's record (Table 12-6) (its corners, DEDUCED: log entry 94). -/
def Request.result (r : Request) : List Word := words64 (if r.opcode = Op.trainStep then r.step else (r.told.getD r.admitted).toNat)

/-- A request's record: DONE, or FAILED with its status (R345, R346). -/
def State.requestRecord (s : State) (r : Request) : Record :=
  let out := if setFlag r.flags Flag.stepReport = r.flags then r.committed
    else if r.ending.isNone ∨ 0 < r.committed then r.outBytes else 0
  { status := r.ending.getD 0, opcode := r.opcode, seq := r.seq, handle := handleWord r.gen r.handle, tag := r.tag
    path := if out = 0 then 0 else r.path
    flags := r.flags, tick := if r.ending.isSome then r.endTick else s.tk.count, field := 0, detail := r.detail, outBytes := out
    result := r.result ++ List.replicate 6 0 }

/-- The rest of the last line of a run of bytes that the device writes with whole lines: its values are open (R331, DESIGN CHOICE: log entry 124). -/
def State.wholeLines (s : State) (bs : List Byte) : State × List Byte :=
  let n := (64 - bs.length % 64) % 64
  if n = 0 then (s, bs)
  else
    let (f, s1) := s.free
    (s1, bs ++ (List.range n).map fun i => BitVec.ofNat 8 (Config.partConst f i))

/-- The output of a record copied to the paths that it names; host memory is written in whole lines (R331, R334, R347). -/
def State.copyOut (s : State) (r : Request) (x : Record) : State :=
  let bs := memRead s.mem.req (reqKey r.handle (s.winGal r.inst) 1 outPages) x.outBytes
  let s1 := if x.path % 2 = 1 then s.winPut r.inst r.outWin bs else s
  if x.path / 2 = 1 then (let y := s1.wholeLines bs; y.1.hostPut r.inst r.outHost y.2) else s1

/-- The input pages of a request that is DONE or FAILED are the host's again (R39). -/
def State.thawInput (s : State) (h : Nat) : State := { s with hs := { s.hs with immutable := s.hs.immutable.filter fun x => x.1 != h } }

/-- A request that ended gets its record; it posts once its data is visible on every path named (R346, R347).  A TRAIN_STEP whose step is skipped is
DONE (R252). -/
def State.endRecord (s : State) (h : Nat) : State :=
  match s.reqAt h with
  | none => s
  | some r =>
    let x := s.requestRecord r
    let s1 := ((s.copyOut r x).releaseReq r).thawInput h
    let s2 := s1.updReq h fun q =>
      { q with state := (if r.ending.getD 0 = 0 ∨ r.ending = some St.stepSkipped then 3 else 4), status := x.status, record := some x, dataVisible := decide (x.path < 2) }
    s2.postRequest h

/-- A request has ended and has no record yet. -/
def Request.ended (r : Request) : Bool := r.record.isNone && (r.state == 3 || r.ending.isSome)

/-- The records of phase B: commands decided at earlier landings, then requests that ended, but for those of an instance that is being
reset; then their messages (R346, R349, R381). -/
def State.postRecords (s : State) : State :=
  let due := s.hs.cmdRecords.filter fun c => decide (c.2.1 < s.tk.count)
  let s1 := { s with hs := { s.hs with cmdRecords := s.hs.cmdRecords.filter fun c => !decide (c.2.1 < s.tk.count) } }
  let s2 := due.foldl (fun u c => u.complete c.1 c.2.2) s1
  let s3 := ((s2.hs.reqs.filter fun r => r.ended && !(s2.instAt r.inst).reset).map (·.handle)).foldl (fun u h => u.endRecord h) s2
  s3.ringMsix

/-! ### Replay (R61, R62, R415, R416) -/

/-- What a replayed tick counts; the deadlines of a frozen instance move on by R372 alone. -/
def State.countReplay (s : State) : State :=
  let run := satAdd 8 (s.fld Reg.ERR_REPLAY 31 24) 1
  let s1 := (s.count Reg.TCK_REPLAYS 31 0 1).raisePf 0x1010 [wordOf s.tk.count.toNat]
  let s2 := (s1.setFld Reg.ERR_REPLAY 31 24 run).setFld Reg.ERR_REPLAY 23 16 (Nat.max run (s1.fld Reg.ERR_REPLAY 23 16))
  let seated := s.tk.seats.map (·.handle)
  let reqs := s2.hs.reqs.map fun r =>
    let r1 := if seated.contains r.handle then { r with flags := setFlag r.flags Flag.replayed } else r
    if r.cls = 0 ∧ (r.state = 1 ∨ r.state = 2) ∧ !s.frozen r.inst then { r1 with deadline := r.deadline + 1 } else r1
  let s3 := { s2 with hs := { s2.hs with reqs := reqs } }
  -- a gate command is no seat's commit: it applies, and the hold counts, at every landing (R274, R275, R280)
  s3.holdsCounted.foldl (fun u i => u.holdStep i) s3

/-- What waited for the commit of the tick is dropped. -/
def State.endTick (s : State) : State := { s with tk := { s.tk with pend := [], lateWindows := [] } }

/-- The ring engine's state, the tracking entries and the records held written to their copies in reserved space, but for a copy whose gallery is fenced
(R426). -/
def State.mirrorRings (s : State) : State :=
  let now : HostCopy := ⟨s.hs.rings, s.hs.reqs, s.hs.cmdRecords⟩
  let put := fun c => if s.galFenced (copyGal c) then s.hs.mirror.getD c ⟨[], [], []⟩ else now
  { s with hs := { s.hs with mirror := (List.range 2).map put } }

/-- The copy of the ring engine's state that the device reads: G0's, or G4's while G0 is fenced or its page awaits repair (R426, Table 15-2). -/
def State.ringCopy (s : State) : HostCopy :=
  let lost := s.galFenced 0 || s.faults.poison.any fun p => p.kind == .ringMirror && p.stack == 0
  s.hs.mirror.getD (if lost then 1 else 0) ⟨[], [], []⟩

/-- A training request that its instance's detachment ends: not seated, RUNON 0, its step not begun (R356) (its corners, DEDUCED: log entry 64). -/
def State.detachEnds (s : State) (r : Request) : Bool :=
  s.attachState r.inst == 2 && !(s.reg (Reg.WIN_INST_CFG r.inst)).bit 31 && r.state != 2
    && (r.opcode == Op.trainBatch || (r.opcode == Op.trainStep && decide ((s.trainAt (r.lexId.getD 0)).state ≤ 1)))

/-- Phases A and B: the tick commits, or is marked for replay and commits and posts nothing; a step whose TRAIN_STEP has ended is abandoned first (R36, R40, R62,
R280, R426). -/
def State.phaseAB (s0 : State) : State :=
  let s := (s0.endReqs St.detached s0.detachEnds).abandonOrphans
  if s.tk.replay then s.countReplay.endTick
  else (s.verdict.commitSeats.setFld Reg.ERR_REPLAY 31 24 0).postRecords.endTick.mirrorRings

end Sys2Proof.Machine
end

