-- ==== Sys2Proof/Machine/Reset.lean ====
section
/-! DEFINITION. The package reset and the ordered stop (R415, R431, R433, R442, R451, R454, R455). -/

namespace Sys2Proof.Machine

/-! ### What a package reset keeps (Table 16-8) -/

/-- A register that a package reset keeps: one of the package's in the power-on domain. -/
def keptByPackage (k : Nat) : Bool :=
  decide (k < regSpan) && match regLookup k with
    | some r => r.dom == .powerOn
    | none => false

/-- Registers after a package reset: the power-on domain and SEC_STATUS.DEBUG (R407, R455). -/
def State.keptRegs (s : State) : SMap Word :=
  let m := s.regs.filter fun p => keptByPackage p.1
  smSet regDefault m Reg.SEC_STATUS ((regDefault Reg.SEC_STATUS).setField 30 30 (s.fld Reg.SEC_STATUS 30 30))

/-- The state that the standby domain, the boot memory, the black box, the drives and the host keep; everything else is as after a
power-on reset, with fresh job keys (R319, Table 16-8). -/
def State.clearPackage (s : State) : State :=
  let z := State.reset
  let mem := { Mems.empty with host := s.mem.host, flash := s.mem.flash, boot := s.mem.boot, mram := s.mem.mram }
  let t := s.trust
  let trust := { z.trust with copy0 := t.copy0, copy1 := t.copy1 }
  let pw := { z.pw with switchA := s.pw.switchA, switchB := s.pw.switchB, lossTimer := s.pw.lossTimer, v18 := s.pw.v18 }
  let svc := { z.svc with dynAddr := s.svc.dynAddr, eid := s.svc.eid, tid := s.svc.tid, wakeReady := s.svc.wakeReady }
  let u := { z with pending := s.pending, regs := s.keptRegs, mem := mem, out := s.out, images := s.images, trust := trust }
  let v := { u with svc := svc, jtag := s.jtag, pw := pw, bbx := { s.bbx with reading := false }, freeCtr := s.freeCtr }
  ((List.range 5).foldl State.freshJobs { v with tk := { v.tk with now := s.tk.now } }).setFld Reg.RST_STATUS 31 28 0

/-- A package reset: RST_CAUSE shows its cause and counts it (R454). -/
def State.packageReset (s : State) (cause : Nat) : State :=
  ((s.clearPackage).setFld Reg.RST_CAUSE 31 28 cause).count Reg.RST_CAUSE 15 0 1

/-! ### The ordered stop (R433, R442) -/

/-- Every queued record written to the MRAM, in SEQ order (R433). -/
def State.bbxDrain (s : State) : (fuel : Nat) → State
  | 0 => s
  | fuel + 1 =>
    match s.bbx.queue with
    | [] => s
    | r :: _ =>
      if s.fld Reg.BBX_STATUS 31 30 ≠ 1 then s
      else State.bbxDrain (((s.bbxStore (bbxOffset r.seq) (bbxBytes r)).bbxPop).bbxLostRecord) fuel

/-- Steps 3 to 5: power off, the black box flushed, a package reset that holds until a feed has been OK; the package is in P4
meanwhile (R442, R451, R504) (its corners, DEDUCED: log entry 98). -/
def State.endStop (s : State) (cause : Nat) : State :=
  let s1 := ((s.bbxDrain 66).packageReset cause).setFld Reg.PWR_STATE 31 29 4
  { s1 with pw := { s1.pw with stopping := true } }

/-- The package is off: in P4, or held after a stop. -/
def State.packageOff (s : State) : Bool := s.fld Reg.PWR_STATE 31 29 == 4

/-- An ordered stop begins: its event and its record; with a tick in progress it waits for phase B of the landing, else it runs
through at once.  A cause that comes during a stop is recorded and adds nothing (R442, R457) (its corners, DEDUCED: log entry 98). -/
def State.orderedStop (s : State) (cause : Nat) : State :=
  let ws := [wordOf cause, wordOf s.tk.count.toNat]
  if s.pw.stopCause.isSome ∨ s.packageOff then s.bbxPut 4 none 0 ws
  else
    let s1 := (s.raisePf 0x800A ws).bbxPut 4 none 0 ws
    let s2 := { s1 with pw := { s1.pw with alertLow := true, stopCause := some cause } }
    if s.tk.running then s2 else s2.endStop cause

/-- The next state of a command that may end in a reset: the queue stays as it was, and the flight images unless a reset took them. -/
def stopOutcome (s t : State) : Host.Outcome State Fault Refusal := keepQueue s (s.orReset t)

/-- One program replayed in eight ticks running: the event and the stop with cause 4 (R415) (its corners, DEDUCED: log entry 105). -/
def State.replayLimit (s : State) : State :=
  if s.fld Reg.ERR_REPLAY 31 24 < 8 then s
  else (s.raisePf 0x7020 [s.reg Reg.FLT_POS, wordOf s.tk.count.toNat]).orderedStop 4

/-- REPLAY_LIMIT. -/
def execReplayLimit (s : State) : Host.Outcome State Fault Refusal := stopOutcome s s.replayLimit

/-- RST_PACKAGE: the key asks for a package reset, an ordered stop with cause 1; in P3 it applies as a start from P4 (R454,
R457). -/
def State.writeRstPackage (s : State) (key : Word) : State :=
  if key ≠ 0x52535450#32 then s
  else if s.fld Reg.PWR_STATE 31 29 = 3 then
    let s1 := s.packageReset 8
    { s1 with pw := { s1.pw with stopping := true } }
  else s.orderedStop 1

/-- RST_PACKAGE. -/
def execRstPackage (key : Word) (s : State) : Host.Outcome State Fault Refusal := stopOutcome s (s.writeRstPackage key)

/-- A record that power lost while it was written has left torn in the MRAM: its CRC fails (R433, R443). -/
def State.bbxTear (s : State) : State :=
  match s.bbx.queue.head? with
  | none => s
  | some r =>
    if s.fld Reg.BBX_STATUS 31 30 ≠ 1 then s
    else
      let (f, s1) := s.free
      let bs := bbxBytes r
      s1.bbxStore (bbxOffset r.seq) (bs.take 252 ++ bytesOfNat 4 (natOfBytes (bs.drop 252) + 1 + f % 0xFFFFFFFF))

/-- The black box as power is lost: of the records that wait only the last, the one being written, is lost (R433) (its corners, DEDUCED: log entry 98). -/
def State.bbxLose (s : State) : State :=
  let q := s.bbx.queue
  let s1 := { s with bbx := { s.bbx with queue := q.dropLast } }.bbxDrain 66
  { s1 with bbx := { s1.bbx with queue := q.drop (q.length - 1) } }.bbxTear

/-- The standby domain without its supply: only the black-box records, the boot memory, the flash tier and what lies outside the
device keep their contents (R455). -/
def State.losePower (s0 : State) : State :=
  let s := s0.bbxLose
  let z := State.reset
  let mem := { Mems.empty with host := s.mem.host, flash := s.mem.flash, boot := s.mem.boot, mram := s.mem.mram }
  let t := s.trust
  let trust := { z.trust with copy0 := t.copy0, copy1 := t.copy1 }
  { z with pending := s.pending, mem := mem, out := s.out, images := s.images, trust := trust, freeCtr := s.freeCtr }

/-- POWER_ON_RESET: the supply is back, and start-up begins (R454). -/
def execPowerOnReset (s : State) : Host.Outcome State Fault Refusal := keepQueue s s.losePower

/-- STANDBY_SUPPLY_LOST: V1P8_OUT drops and the standby state is lost (R442, R501). -/
def execStandbySupplyLost (s : State) : Host.Outcome State Fault Refusal := keepQueue s s.losePower

end Sys2Proof.Machine
end

