-- ==== Sys2Proof/Machine/Power.lean ====
section
/-! DEFINITION. Feeds, the loss timer, caps and the governor, thermal limits, clocks, power states (R64, R69, R435 to R453,
R457, R458). -/

namespace Sys2Proof.Machine

/-- A second, in units of `tk.now`. -/
def secondUnits : Nat := 1000 * msUnits

/-! ### Feeds (Tables 16-1 and 16-2) -/

/-- State of a feed: 0 ABSENT, 1 LOW, 2 WARN, 3 OK, 4 REJECTED. -/
def State.feedState (s : State) (x : Nat) : Nat := if x = 0 then s.fld Reg.PWR_FEED_STATUS 29 27 else s.fld Reg.PWR_FEED_STATUS 26 24

/-- The active feed: 0 A, 1 B, 2 none. -/
def State.feedActive (s : State) : Nat := s.fld Reg.PWR_FEED_STATUS 31 30

/-- A feed's state and voltage shown. -/
def State.setFeed (s : State) (x st dv : Nat) : State :=
  if x = 0 then (s.setFld Reg.PWR_FEED_STATUS 29 27 st).setFld Reg.PWR_FEED_STATUS 23 12 dv
  else (s.setFld Reg.PWR_FEED_STATUS 26 24 st).setFld Reg.PWR_FEED_STATUS 11 0 dv

/-- A transition's event with its RCLASS 3 record (R437). -/
def State.feedEvent (s : State) (code : Nat) (payload : List Nat) : State :=
  (s.raisePf code (payload.map wordOf)).bbxPut 3 none 0 (wordOf code :: payload.map wordOf)

/-- One switch closed, the other open (R436). -/
def State.closeFeed (s : State) (x : Nat) : State :=
  { s.setFld Reg.PWR_FEED_STATUS 31 30 x with pw := { s.pw with switchA := x == 0, switchB := x == 1 } }

/-- A switch-over, counted (R436). -/
def State.switchFeed (s : State) (x : Nat) : State := (s.closeFeed x).count Reg.PWR_FEED_COUNT 31 16 1

/-- A feed is OK or WARN. -/
def State.feedGood (s : State) (x : Nat) : Bool := s.feedState x == 3 || s.feedState x == 2

/-- The loss timer runs while no feed is OK or WARN, with the switch of every feed that is not REJECTED closed; when it stops, the
feed that recovered is the active one (R441) (its corners, DEDUCED: log entry 96). -/
def State.lossStep (s : State) (x : Nat) : State :=
  if s.feedGood 0 || s.feedGood 1 then
    if s.pw.lossTimer then
      let s1 := { s with pw := { s.pw with lossTimer := false } }
      if s1.feedGood x then s1.closeFeed x else s1
    else s
  else { s with pw := { s.pw with lossTimer := true, switchA := s.feedState 0 != 4, switchB := s.feedState 1 != 4 } }

/-- The feed-warning cap asked for; a warning while it is in force restarts its second (R439). -/
def State.askCap (s : State) : State :=
  { s with pw := if s.pw.warnCap.isSome then { s.pw with warnCap := some s.tk.now } else { s.pw with warnReq := true } }

/-- Feed x enters a state at a voltage; a break in feed A's OK ends its wait to return (R438). -/
def State.enterFeed (s : State) (x st dv : Nat) : State :=
  let s1 := s.setFeed x st dv
  if x = 0 ∧ st ≠ 3 then { s1 with pw := { s1.pw with returnDue := false } } else s1

/-- The feed-warning cap kept where it is in force, else asked for (Table 16-2). -/
def State.keepCap (s : State) : State := if s.pw.warnCap.isSome then s else s.askCap

/-- The active feed falls: to WARN, to LOW (Table 16-2). -/
def State.activeFalls (s : State) (x st dv : Nat) : State :=
  let o := 1 - x
  let cause := if st = 2 then 0 else 1
  if s.feedState o = 3 then (s.switchFeed o).feedEvent 0x8002 [x, o, cause]
  else if st = 2 then (s.feedEvent 0x8001 [x, st, dv]).askCap
  else if s.feedState o = 2 then ((s.switchFeed o).feedEvent 0x8002 [x, o, cause]).keepCap
  else s.feedEvent 0x8001 [x, st, dv]

/-- WARN_FALL, WARN_RISE and RESET of PWR_FEED_CFG, in units of 0.1 V; until start-up has set the register, their defaults (R435) (its corners, DEDUCED:
log entry 96). -/
def State.feedLimits (s : State) : Nat × Nat × Nat :=
  let c := s.reg Reg.PWR_FEED_CFG
  if c = 0 then (430, 445, 380) else (c.field 26 18, c.field 17 9, c.field 8 0)

/-- The state of Table 16-1 that a voltage gives a feed which is not REJECTED. -/
def State.feedFor (s : State) (x dv : Nat) : Nat :=
  let (fall, rise, low) := s.feedLimits
  if 600 < dv then 4
  else if dv < 200 then 0
  else if dv < low then 1
  else if dv < fall ∨ (s.feedState x ≠ 3 ∧ dv < rise) then 2
  else 3

/-- What a feed's entry into a state does: nothing where the voltage gives another state, or to one in REJECTED, which only its release ends (R435) (its
corners, DEDUCED: log entry 96). -/
def State.feedEntry (s : State) (x st dv : Nat) (t : State) : State := if s.feedState x = 4 ∨ s.feedFor x dv ≠ st then s else t

/-- A feed that is not active and has fallen to WARN or LOW raises EV_FEED_WARN; one that rises to it raises nothing (R437). -/
def State.idleFalls (s : State) (x old st dv : Nat) : State := if st < old then s.feedEvent 0x8001 [x, st, dv] else s

/-- FEED_ENTERS_WARN. -/
def execFeedEntersWarn (feed : BitVec 1) (dv : BitVec 12) (s : State) : Host.Outcome State Fault Refusal :=
  let x := feed.toNat
  let s1 := (s.enterFeed x 2 dv.toNat).lossStep x
  keep s (s.feedEntry x 2 dv.toNat (if s1.feedActive = x then s1.activeFalls x 2 dv.toNat else s1.idleFalls x (s.feedState x) 2 dv.toNat))

/-- FEED_ENTERS_LOW. -/
def execFeedEntersLow (feed : BitVec 1) (dv : BitVec 12) (s : State) : Host.Outcome State Fault Refusal :=
  let x := feed.toNat
  let s1 := s.enterFeed x 1 dv.toNat
  let s2 := if s1.feedActive = x then s1.activeFalls x 1 dv.toNat else s1.idleFalls x (s.feedState x) 1 dv.toNat
  keep s (s.feedEntry x 1 dv.toNat (s2.lossStep x))

/-- FEED_ENTERS_ABSENT: below LOW, which the feed passes on its way; an active feed that was not LOW yet acts as it enters LOW. -/
def execFeedEntersAbsent (feed : BitVec 1) (dv : BitVec 12) (s : State) : Host.Outcome State Fault Refusal :=
  let x := feed.toNat
  let s1 := s.enterFeed x 0 dv.toNat
  let s2 := if s1.feedActive = x ∧ s.feedGood x then s1.activeFalls x 0 dv.toNat else s1
  keep s (s.feedEntry x 0 dv.toNat (s2.lossStep x))

/-- FEED_ENTERS_REJECTED. -/
def execFeedEntersRejected (feed : BitVec 1) (dv : BitVec 12) (s : State) : Host.Outcome State Fault Refusal :=
  let x := feed.toNat
  let s1 := s.enterFeed x 4 dv.toNat
  let s2 :=
    if s1.feedActive ≠ x then s1
    else if s1.feedState (1 - x) ≠ 4 then (s1.switchFeed (1 - x)).feedEvent 0x8004 [x, dv.toNat]
    else
      let s3 := s1.setFld Reg.PWR_FEED_STATUS 31 30 2
      { s3 with pw := { s3.pw with switchA := false, switchB := false } }.feedEvent 0x8004 [x, dv.toNat]
  keep s (s.feedEntry x 4 dv.toNat (s2.lossStep x))

/-- A feed enters OK; with no other good feed to run from it becomes the active one. -/
def State.feedOk (s : State) (x dv : Nat) : State :=
  let s1 := (s.enterFeed x 3 dv).lossStep x
  if s1.feedActive = 2 then s1.closeFeed x else s1

/-- FEED_ENTERS_OK. -/
def execFeedEntersOk (feed : BitVec 1) (dv : BitVec 12) (s : State) : Host.Outcome State Fault Refusal :=
  keep s (s.feedEntry feed.toNat 3 dv.toNat (s.feedOk feed.toNat dv.toNat))

/-- FEED_REJECT_RELEASE: a feed at or below 58.0 V leaves REJECTED for the state its voltage has (R435) (its corners, DEDUCED: log entry 96). -/
def execFeedRejectRelease (feed : BitVec 1) (dv : BitVec 12) (s : State) : Host.Outcome State Fault Refusal :=
  let x := feed.toNat
  let v := dv.toNat
  let st := s.feedFor x v
  keep s (if s.feedState x ≠ 4 ∨ 580 < v then s
    else if st = 3 then s.feedOk x v
    else
      let s1 := (s.enterFeed x st v).lossStep x
      if s1.feedActive = 2 ∧ st = 2 then s1.closeFeed x else s1)

/-- FEED_RETURN: A has been OK for 100 ms, FORCE is 0 and B is active: the return waits for phase C of the next landing (R438). -/
def execFeedReturn (s : State) : Host.Outcome State Fault Refusal :=
  keep s (if s.feedActive = 1 ∧ s.feedState 0 = 3 ∧ s.fld Reg.PWR_FEED_CTRL 0 0 = 0 then
      { s with pw := { s.pw with returnDue := true } }
    else s)

/-- FEED_FORCE: FORCE set; with B OK the switch waits for phase C of the next landing (R437, R438) (its corners, DEDUCED: log entry 96). -/
def execFeedForce (s : State) : Host.Outcome State Fault Refusal := keep s (s.setFld Reg.PWR_FEED_CTRL 0 0 1)

/-- Phase C: the return to A, or the forced switch to B (Table 16-2) (its corners, DEDUCED: log entry 96). -/
def State.feedLanding (s : State) : State :=
  let force := s.fld Reg.PWR_FEED_CTRL 0 0
  let s1 := { s with pw := { s.pw with returnDue := false } }
  if force = 1 ∧ s.feedActive = 0 ∧ s.feedState 1 = 3 then (s1.switchFeed 1).feedEvent 0x8002 [0, 1, 2]
  else if s.pw.returnDue ∧ force = 0 ∧ s.feedActive = 1 ∧ s.feedState 0 = 3 then
    (s1.switchFeed 0).feedEvent 0x8003 [s.tk.count.toNat]
  else s1

/-- LOSS_TIMER_EXPIRE: 50 µs with no feed OK or WARN begin an ordered stop with cause 2 (R441). -/
def execLossTimerExpire (s : State) : Host.Outcome State Fault Refusal :=
  stopOutcome s (if s.pw.lossTimer then s.orderedStop 2 else s)

/-! ### The governor (R64, R439, R444, R452) -/

/-- R64 permits a change of factor: 1.000 s have passed since the last one. -/
def State.mayStretch (s : State) : Bool :=
  match s.tk.lastStretch with
  | some t => decide (t + secondUnits ≤ s.tk.now)
  | none => true

/-- The feed-warning cap ends once its second has passed and a change is permitted (R439). -/
def State.capEnd (s : State) : State :=
  match s.pw.warnCap with
  | some t =>
    if t + secondUnits ≤ s.tk.now ∧ s.mayStretch then
      let s1 := { s with pw := { s.pw with warnCap := none } }
      s1.bbxPut 3 none 0 [wordOf s.tk.count.toNat]
    else s
  | none => s

/-- FEED_WARNING_CAP_END. -/
def execFeedWarningCapEnd (s : State) : Host.Outcome State Fault Refusal := keep s s.capEnd

/-- The thermal cap applies: a sensor has read at or above THR within the last second. -/
def State.thermalCap (s : State) : Bool :=
  match s.pw.thermal with
  | some t => decide (s.tk.now ≤ t + secondUnits)
  | none => false

/-- The cap requested takes effect where a change is permitted; its second runs from the tick that starts now (R439, R457) (its corners, DEDUCED: log entry 97). -/
def State.capStart (s : State) : State :=
  if s.pw.warnReq && s.mayStretch then
    { s.count Reg.PWR_FEED_COUNT 15 0 1 with pw := { s.pw with warnReq := false, warnCap := some s.tk.now } }
  else s

/-- The lowest cap in force, in W. -/
def State.lowestCap (s : State) : Nat :=
  let cont := s.fld Reg.PWR_LIMIT 31 16
  if s.pw.warnCap.isSome then Nat.min cont (s.fld Reg.PWR_LIMIT 15 0) else cont

/-- The least factor that the power model finds for the flights and variants that run and the caps in force; above 320 where none does (R444, R445). -/
def State.wantedFactor (s : State) : Nat :=
  if s.runs.isEmpty then 256
  else Config.powerFactor (s.runs.flatMap fun r => r.f.digest ++ [wordOf r.parent, wordOf r.mask]) (maskOf 8 fun g => s.outSet.contains g) s.lowestCap

/-- STATE of PWR_STATE in P0 to P2 (R448) (its corners, DEDUCED: log entry 97). -/
def State.showPower (s : State) (factor : Nat) : State :=
  let st := if s.fld Reg.PWR_STATE 23 16 ≠ 0 then 2 else if factor = 256 then 0 else 1
  let old := s.fld Reg.PWR_STATE 31 29
  if st = old then s
  else (s.setFld Reg.PWR_STATE 31 29 st).raisePf 0x8008 ([old, st, s.fld Reg.PWR_STATE 23 16].map wordOf)

/-- A cap that comes into force: CAPS shows it and EV_POWER_CAP tells of it (Table 16-11) (its corners, DEDUCED: log entry 97). -/
def State.showCap (s : State) (kind : Nat) (on : Bool) (cap factor : Nat) : State :=
  let old := (s.reg Reg.PWR_STATE).bit (12 + kind)
  let s1 := s.setFld Reg.PWR_STATE (12 + kind) (12 + kind) (b2n on)
  if on && !old && decide (kind < 3) then s1.raisePf 0x8005 ([kind, cap, factor, s.tk.count.toNat + 1].map wordOf) else s1

/-- Tick-sync suspends while the factor is above 256 and acquires again when it returns (Table 2-15). -/
def State.syncStretch (s : State) (factor : Nat) : State :=
  let st := s.fld Reg.TCK_SYNC_STATUS 31 29
  let s1 := { s with sync := { s.sync with accepted := 0, measured := false } }
  if 256 < factor ∧ 1 ≤ st ∧ st ≤ 4 then
    (s1.setFld Reg.TCK_SYNC_STATUS 31 29 5).raisePf 0x1024 [wordOf factor]
  else if factor = 256 ∧ st = 5 then s1.setFld Reg.TCK_SYNC_STATUS 31 29 1
  else s

/-- Phase D: the factor of the next tick, `tk.now` being the time at which it starts (R64, R444) (its corners, DEDUCED: log entry 97). -/
def State.governor (s : State) : State :=
  let s1 := s.capEnd.capStart
  let want := s1.wantedFactor
  let old := s1.fld Reg.TCK_STRETCH 8 0
  let goal := if s1.thermalCap then 320 else Nat.max 256 (Nat.min want 320)
  let new := if !s1.mayStretch then old else if old ≤ goal then goal else Nat.max goal (old - 16)
  let short := decide (320 < want)
  let (fv, sf) := if s1.thermalCap && !(s1.reg Reg.PWR_STATE).bit 14 then s1.free else (0, s1)
  let cont := s1.fld Reg.PWR_LIMIT 31 16
  let s2 := ((sf.showCap 0 (decide (256 < goal) && s1.pw.warnCap.isNone && !s1.thermalCap) cont new).showCap 1 s1.pw.warnCap.isSome
    (s1.fld Reg.PWR_LIMIT 15 0) new).showCap 2 s1.thermalCap fv new
  let s3 := s2.showCap 3 short 0 new
  let s4 := if short && (match s3.pw.shortAt with
      | some t => decide (t + secondUnits ≤ s3.tk.now)
      | none => true) then
      let s5 := { s3 with pw := { s3.pw with shortAt := some s3.tk.now } }
      s5.raisePf 0x8006 ([b2n (s1.pw.warnCap.isSome && decide (s1.lowestCap < cont)), s1.lowestCap].map wordOf)
    else s3
  if new = old then s4
  else
    let s6 := (s4.setFld Reg.TCK_STRETCH 8 0 new).setFld Reg.CLK_STATUS 11 0 (2400 * 256 / new)
    let s7 := { s6 with tk := { s6.tk with lastStretch := some s6.tk.now } }
    ((s7.raisePf 0x1011 ([new, s.tk.count.toNat + 1].map wordOf)).syncStretch new).showPower new

/-! ### Measurements (R445 to R447, R453) -/

/-- POWER_WINDOW: a 10 ms average; above 5,600 W, or two running above CONT_W, begin the stop with cause 7 (R445). -/
def execPowerWindow (avgW : BitVec 16) (s : State) : Host.Outcome State Fault Refusal :=
  let high := decide (s.fld Reg.PWR_LIMIT 31 16 < avgW.toNat)
  let s1 := { s with pw := { s.pw with lastWindowHigh := high } }
  stopOutcome s (if 5600 < avgW.toNat ∨ (high ∧ s.pw.lastWindowHigh) then s1.orderedStop 7 else s1)

/-- POWER_READING_UPDATE (R447). -/
def execPowerReadingUpdate (avg25 : BitVec 8) (max25 : BitVec 8) (jmax : BitVec 8) (die : BitVec 4) (s : State) :
    Host.Outcome State Fault Refusal :=
  let n := (s.fld Reg.PWR_READING 15 0 + 1) % 65536
  let s1 := s.setReg Reg.PWR_READING (wordOf (avg25.toNat * 0x1000000 + max25.toNat * 0x10000 + n))
  keep s ((s1.setFld Reg.PWR_TEMP 31 24 jmax.toNat).setFld Reg.PWR_TEMP 23 20 die.toNat)

/-- JUNCTION_ABOVE_THR: the thermal cap's second starts afresh (R444). -/
def execJunctionAboveThr (die : BitVec 4) (temp : BitVec 8) (s : State) : Host.Outcome State Fault Refusal :=
  keep s (if temp.toNat < s.fld Reg.PWR_TEMP 15 8 then s
    else
      let s1 := { s with pw := { s.pw with thermal := some s.tk.now } }
      s1.raisePf 0x8007 [wordOf die.toNat, wordOf temp.toNat])

/-- THERMAL_SHUTDOWN: a sensor at 115 °C begins the stop with cause 3 (R446). -/
def execThermalShutdown (die : BitVec 4) (temp : BitVec 8) (s : State) : Host.Outcome State Fault Refusal :=
  stopOutcome s (if temp.toNat < 115 then s else (s.raisePf 0x8007 [wordOf die.toNat, wordOf temp.toNat]).orderedStop 3)

/-- CLOCK_LOST: REF25_CLK is lost; the internal oscillator runs and the stop with cause 6 begins (R453). -/
def execClockLost (s : State) : Host.Outcome State Fault Refusal :=
  stopOutcome s (((s.setFld Reg.CLK_STATUS 31 31 0).setFld Reg.CLK_STATUS 29 29 1).raisePf 0x8009 [0] |>.orderedStop 6)

/-! ### Parking (R449) -/

/-- Bits of a gallery mask. -/
def galsOf (mask : Nat) : List Nat := (List.range 8).filter fun g => mask / 2 ^ g % 2 == 1

/-- The status of a park of galleries: ST_BUSY where R449 refuses it. -/
def State.parkStatus (s : State) (gs : List Nat) : Nat :=
  let homes := (List.range 64).any fun n =>
    let h := s.fld (Reg.WIN_RANGE n) 4 2
    s.fld (Reg.WIN_RANGE n) 18 5 != 0 && (gs.contains h || gs.contains (h ^^^ 4))
  let holds := gs.any fun g => decide (0 < s.framesHeld g)
    || s.ls.slots.any fun p => slotGal p.1 == g && p.2.owner.isSome
  let out := (List.range 8).filter fun g => gs.contains g || s.outSet.contains g
  let bare := s.runs.any fun r =>
    if r.pair = 0 then ((chooseVariant r.f s.shortOf 9 out).2.2).any fun g => gs.contains g && decide (r.f.galMask / 2 ^ g % 2 = 1)
    else (pairGals r.pair).any fun g => gs.contains g && decide (r.f.galMask / 2 ^ g % 2 = 1)
  if gs.contains 0 || gs.contains 4 || homes || holds || bare then St.busy else St.ok

/-- A request's status shown. -/
def State.stateStatus (s : State) (st : Nat) : State := s.setFld Reg.PWR_STATE_CTRL 7 0 st

/-- PARK: the request waits for the landing, where it is checked again after the fences (R449, R457). -/
def State.writePark (s : State) (mask : Nat) : State :=
  let st := s.parkStatus (galsOf mask)
  let s1 := s.stateStatus st
  if st = St.ok then { s1 with pw := { s1.pw with parkQ := s1.pw.parkQ ++ [.park mask] } } else s1

/-- PARK. -/
def execPark (mask : BitVec 8) (s : State) : Host.Outcome State Fault Refusal := keep s (s.writePark mask.toNat)

/-- UNPARK: the parked galleries of the mask begin their gallery reset and self-test. -/
def State.writeUnpark (s : State) (mask : Nat) : State :=
  let gs := (galsOf mask).filter fun g => s.galParked g && !s.pw.unparking.contains g
  let s1 := s.stateStatus St.ok
  { s1 with pw := { s1.pw with unparking := s1.pw.unparking ++ gs } }

/-- UNPARK. -/
def execUnpark (mask : BitVec 8) (s : State) : Host.Outcome State Fault Refusal := keep s (s.writeUnpark mask.toNat)

/-- UNPARK_COMPLETE: the self-test is done, its failures known; the gallery comes back at the next landing. -/
def execUnparkComplete (gal : BitVec 3) (fails : List (BitVec 4 × BitVec 5)) (s : State) : Host.Outcome State Fault Refusal :=
  let g := gal.toNat
  keep s (if !s.pw.unparking.contains g then s
    else
      let fs := fails.map fun f => (f.1.toNat, f.2.toNat)
      { s with pw := { s.pw with unparking := s.pw.unparking.filter (· != g), parkQ := s.pw.parkQ ++ [.unpark g fs] } })

/-- The registers of a gallery whose domain is gallery reset back at their reset values (R454). -/
def State.galleryRegs (s : State) (g : Nat) : State :=
  let mine := fun k => decide (0x100000 * (g + 1) ≤ k ∧ k < 0x100000 * (g + 2)) && match regLookup k with
    | some r => r.dom == .gallery
    | none => false
  let counts := s.cal.counts.filter fun p => p.1 / 256 != g
  let ticks := (List.range 8).map fun i => if i = g then 0 else natAt s.cal.ticks i
  { s with regs := s.regs.filter fun p => !mine p.1, cal := { s.cal with counts := counts, ticks := ticks } }

/-- A block that failed its self-test: STATE 3 and its fence, the gallery's where the domain leads to it (R419, Table 15-1). -/
def State.selfTestFail (s : State) (domain g unit : Nat) : State :=
  let off := match domain with
    | 0 => some (Reg.GAL_MU_STATUS g unit)
    | 1 => some (Reg.GAL_VU_STATUS g unit)
    | 2 => some (Reg.GAL_ISU_STATUS g unit)
    | 6 | 7 => some (Reg.GAL_FAB_STATUS g (portOf domain unit))
    | _ => none
  if domain = 9 then s
  else
    let s1 := match off with
      | some o => s.setFld o 31 30 3
      | none => s
    let now := s1.showCapacity
    let s2 := s1.raiseAll 0x7002 ([domain, g, unit, now.fld Reg.DEV_CAPACITY 15 8, now.fld Reg.DEV_CAPACITY 7 0, s.tk.count.toNat].map wordOf)
    if domain ≠ 0 ∨ 2 ≤ s2.shortOf g then s2.fenceGal g 8 else s2

/-- PWR_STATE.PARKED set. -/
def State.setParked (s : State) (mask : Nat) : State :=
  let s1 := (s.setFld Reg.PWR_STATE 23 16 mask).setFld Reg.CLK_STATUS 19 12 (255 - mask)
  s1.showPower (s1.fld Reg.TCK_STRETCH 8 0)

/-- One change of the parked set: a park is checked again, after the fences; a gallery comes back with its registers reset and what failed fenced. -/
def State.parkOne (s : State) : ParkAct → State
  | .park m =>
    let st := s.parkStatus (galsOf m)
    let s1 := s.stateStatus st
    if st = St.ok then s1.setParked (maskOf 8 fun g => (galsOf m).contains g || s.galParked g) else s1
  | .unpark b fails =>
    let s2 := fails.foldl (fun v f => v.selfTestFail f.1 b f.2) (s.galleryRegs b)
    (if fails.isEmpty then s2 else s2.showCapacity).setParked (maskOf 8 fun g => g != b && s.galParked g)

/-- Step 2 of R27: the changes of the parked set in the order in which they were queued; a change chooses the variant anew (R449, R457). -/
def State.parkStep (s : State) : State :=
  if s.pw.parkQ.isEmpty then s
  else
    let s3 := s.pw.parkQ.foldl State.parkOne { s with pw := { s.pw with parkQ := [] } }
    s3.variantStep (s3.fld Reg.PWR_STATE 23 16 != s.fld Reg.PWR_STATE 23 16)

/-! ### P3 and P4 (R450, R451) -/

/-- An update is past RequestUpdate (R473). -/
def State.updateOpen (s : State) : Bool := s.svc.updating

/-- The status of a request for P3. -/
def State.p3Status (s : State) : Nat :=
  let moving := s.ls.lex.any (fun p => p.2.state == 1 || p.2.convert.isSome) || s.ls.train.any (fun p => p.2.ckptActive.isSome || !p.2.ckptQueue.isEmpty)
    || s.ls.stems.any fun t => t.state == 1
  let busy := !s.hs.reqs.isEmpty || s.ls.train.any (fun p => p.2.state != 0) || (List.range 64).any (fun n => s.instState n == 4 || s.instState n == 5)
  if busy || moving || s.updateOpen then St.busy else St.ok

/-- ENTER_P3: an accepted request applies at the next landing. -/
def State.writeP3 (s : State) : State :=
  if s.packageOff ∨ !s.tk.running then s.stateStatus St.busy
  else
    let st := s.p3Status
    let s1 := s.stateStatus st
    if st = St.ok then { s1 with pw := { s1.pw with p3Due := true } } else s1

/-- ENTER_P3. -/
def execEnterP3 (s : State) : Host.Outcome State Fault Refusal := keep s s.writeP3

/-- P3 entered at a landing: instances detach, ticks stop, TCK_COUNT is held, DEV_ALERT_N is released (R450, R504, Table 16-8) (its corners, DEDUCED: log entry 98). -/
def State.enterP3 (s : State) : State :=
  let old := s.fld Reg.PWR_STATE 31 29
  let s1 := (((s.linkReset.applyPeriod).setFld Reg.PWR_STATE 31 29 3).setFld Reg.TCK_STRETCH 8 0 256).setFld Reg.CLK_STATUS 11 0 2400 |>.syncStretch 256
  let s2 := { s1 with tk := { s1.tk with running := false, seats := [], pend := [], lastStretch := none } }
  let pw := { s2.pw with p3Due := false, hallOn := false, hbmRefresh := true, alertLow := false, warnReq := false, warnCap := none, thermal := none }
  { s2 with pw := pw, trust := { s2.trust with sessions := [], nonces := [] } }.raisePf 0x8008
    ([old, 3, s.fld Reg.PWR_STATE 23 16].map wordOf)

/-- P4 entered on request: everything off but the standby domain, DEV_ALERT_N released (R451, R504). -/
def State.enterP4 (s : State) : State :=
  let old := s.fld Reg.PWR_STATE 31 29
  let s1 := s.raisePf 0x8008 ([old, 4, s.fld Reg.PWR_STATE 23 16].map wordOf)
  let s2 := (s1.bbxDrain 66).clearPackage.setFld Reg.PWR_STATE 31 29 4
  { s2 with pw := { s2.pw with alertLow := false } }

/-- ENTER_P4: with ticks running it applies at the next landing, in P3 at once. -/
def State.writeP4 (s : State) : State :=
  if s.packageOff then s
  else if s.updateOpen then s.stateStatus St.busy
  else if s.tk.running then { s.stateStatus St.ok with pw := { s.pw with p4Due := true } }
  else if s.fld Reg.PWR_STATE 31 29 = 3 then s.enterP4
  else s.stateStatus St.busy

/-- ENTER_P4. -/
def execEnterP4 (s : State) : Host.Outcome State Fault Refusal := stopOutcome s s.writeP4

/-- JTAG once the galleries are on: EXTEST reads as BYPASS and drives no land (R506, R508). -/
def State.stopExtest (s : State) : State :=
  if s.jtag.ir = 3 then { s with jtag := { s.jtag with ir := 0, driving := false } } else s

/-- The hall core on again: the identity is checked, with the outcome of start-up, and the key table unsealed where R387 and R389 allow it (R450) (its
corners, DEDUCED: log entry 66). -/
def State.wakeKeys (s : State) : State :=
  let s1 := { s with trust := { s.trust with keys := [] } }
  if (s.reg Reg.SEC_STATUS).bit 31 then s1.raisePf 0x6005 [wordOf s.trust.pufCause]
  else if s.boot.cfg.isEmpty then s1
  else s1.unsealFor s.trust.owner s.trust.nextOwner

/-- The stem slots verified against their measurements: one with a page that cannot be read is FAILED (R450) (its corners, DEDUCED: log entry 66). -/
def State.wakeStems (s : State) : State :=
  s.faults.poison.foldl (fun u q => match q.kind with
    | .stemShard slot proj => if (u.stemAt slot.toNat).state = 0 ∨ (u.stemAt slot.toNat).state = 6 then u else u.stemFail slot.toNat proj.toNat
    | _ => u) s

/-- P3 ends: the hall core and the galleries are powered, keys and stems are checked, and ticks resume with the tick after the one held
(R450). -/
def State.wakeP3 (s : State) : State :=
  if s.fld Reg.PWR_STATE 31 29 ≠ 3 then s
  else
    let s1 := s.wakeKeys.wakeStems
    let s2 := { s1 with pw := { s1.pw with hallOn := true, hbmRefresh := false } }
    ({ s2 with tk := { s2.tk with running := true, count := s2.tk.count + 1 } }.showPower 256).stopExtest

/-- PERST_N_DEASSERT: the link may train, and P3 ends (R450, R503). -/
def execPerstNDeassert (s : State) : Host.Outcome State Fault Refusal := keepRun s s.wakeP3

/-- RST_GALLERY: the fenced or parked galleries of the mask are reset and stay out of service; one that is in service refuses it
with ST_BUSY (R454). -/
def State.writeRstGallery (s : State) (mask : Nat) : State :=
  let gs := galsOf mask
  if gs.any fun g => !s.galFenced g && !s.galParked g then s.setFld Reg.RST_GALLERY 7 0 St.busy
  else (gs.foldl (fun u g => u.galleryRegs g) s).setFld Reg.RST_GALLERY 7 0 St.ok

/-- RST_GALLERY. -/
def execRstGallery (mask : BitVec 8) (s : State) : Host.Outcome State Fault Refusal := keep s (s.writeRstGallery mask.toNat)

/-! ### Drives (R291, R292, R503) -/

/-- RES_DRIVE_STATUS of a port, the capacity given in MiB. -/
def State.setDrive (s : State) (d st width cause cap : Nat) : State :=
  s.setReg (Reg.RES_DRIVE_STATUS d) (wordOf (st * 0x40000000 + width % 8 * 0x8000000 + cause * 0x1000000 + cap / 1024 % 0x1000000))

/-- EV_DRIVE_FAULT: port, cause and the drive's NVMe status, which is the drive's to give (Table 10-8). -/
def State.driveFault (s : State) (d cause : Nat) : State :=
  let (f, s1) := s.free
  s1.raisePf 0x3006 [wordOf d, wordOf cause, wordOf f]

/-- A drive enumerated: used only where it is found good; a drive that is not gives EV_DRIVE_FAULT (R291) (its corners, DEDUCED: log entry 100). -/
def State.enumerate (s : State) (d identify width cap : Nat) (inUse : Bool) : State :=
  let cause := if width = 0 then 3 else if identify = 1 then 1 else if identify = 2 then 2 else 0
  if cause = 0 then
    (if inUse then (let s1 := s.setDrive d 1 width 0 cap; { s1 with ls := { s1.ls with driveMib := smInsert s1.ls.driveMib d cap } }) else s)
  else (s.setDrive d 2 width cause cap).driveFault d cause

/-- DRIVE_INSERTED: the port enumerates its drive; the drives in use stay those of start-up (R292, R503). -/
def execDriveInserted (port : BitVec 3) (identify : BitVec 2) (width : BitVec 3) (capMib : BitVec 34) (s : State) :
    Host.Outcome State Fault Refusal :=
  let d := port.toNat
  let st := s.fld (Reg.RES_DRIVE_STATUS d) 31 30
  keep s (if st = 1 ∨ st = 3 then s else s.enumerate d identify.toNat width.toNat capMib.toNat false)

/-- A drive in use fails with a cause: its stripes fail (R292) (its corners, DEDUCED: log entry 100). -/
def State.driveFails (s : State) (d cause : Nat) : State :=
  if s.fld (Reg.RES_DRIVE_STATUS d) 31 30 ≠ 1 then s
  else ((s.setFld (Reg.RES_DRIVE_STATUS d) 31 30 3).setFld (Reg.RES_DRIVE_STATUS d) 26 24 cause).driveFault d cause

/-- DRIVE_REMOVED: a drive failure (R503). -/
def execDriveRemoved (port : BitVec 3) (s : State) : Host.Outcome State Fault Refusal := keep s (s.driveFails port.toNat 3)

/-- DRIVE_LINK_LOST (R292). -/
def execDriveLinkLost (port : BitVec 3) (s : State) : Host.Outcome State Fault Refusal := keep s (s.driveFails port.toNat 3)

end Sys2Proof.Machine
end

