-- ==== Sys2Proof/Machine/Spdm.lean ====
section
/-! DEFINITION. Attestation: the SPDM responder, measurements, sessions, tenant reports, IDE keys and the other DOE protocols
(R386, R387, R391 to R395, R405).  Message and error codes are the standard's (PRESUMED: log entry 44). -/

namespace Sys2Proof.Machine

/-- SPDM is served on a function's DOE from READY on while the link is up, and on the service port while the hall core is on;
in recovery mode on neither (R391, R456, R474) (its corners, PRESUMED: log entry 88). -/
def State.spdmServed (s : State) (port : SpdmPort) : Bool :=
  !s.pw.recovery && match port with
    | .doe _ => s.fld Reg.RST_STATUS 31 28 == 7 && s.hs.linkUp
    | .service => s.pw.hallOn

/-- An answer where SPDM is served. -/
def State.spdm (s : State) (port : SpdmPort) (code : Nat) (body : List Byte) : State :=
  if s.spdmServed port then s.spdmSend port code body else s

/-- An ERROR answer: 0x01 invalid request, 0x04 unexpected request, 0x05 unspecified, 0x06 decrypt error, 0x0A session limit
exceeded. -/
def State.spdmError (s : State) (port : SpdmPort) (e : Nat) : State := s.spdm port 0x7F [byteOf e, 0]

/-- PUF FAIL: no certificate, no measurement, no session (R387) (its corners, DEDUCED: log entry 98). -/
def State.pufFail (s : State) : Bool := (s.reg Reg.SEC_STATUS).bit 31

/-- The DER certificate chain of slot 0 (R386). -/
def State.certs (s : State) : List Byte := Config.certChain (memRead s.mem.boot 0 0x10000)

/-- GET_VERSION: versions 1.2 and 1.3. -/
def execGetVersion (port : SpdmPort) (s : State) : Host.Outcome State Fault Refusal :=
  keep s (s.spdm port 0x04 [0, 2, 0x00, 0x12, 0x00, 0x13])

/-- The capability flags of Table 14-3: CERT, CHAL, MEAS with signature, MEAS_FRESH, ENCRYPT, MAC, KEY_EX, HBEAT, KEY_UPD, CHUNK. -/
def spdmCaps : Nat := 2 + 4 + 0x10 + 0x20 + 0x40 + 0x80 + 0x200 + 0x2000 + 0x4000 + 0x20000

/-- GET_CAPABILITIES. -/
def execGetCapabilities (port : SpdmPort) (s : State) : Host.Outcome State Fault Refusal :=
  keep s (s.spdm port 0x61 (bytesOfNat 4 spdmCaps))

/-- The signature algorithm chosen among those offered: RSAPSS_3072 (bit 3), else RSASSA_3072 (bit 2). -/
def asymChoice (offered : Word) : Word := if offered.bit 3 then 8 else if offered.bit 2 then 4 else 0

/-- The algorithm structures of the answer: FFDHE3072 (key exchange, bit 1) and AES-256-GCM (session AEAD, bit 1) (R391). -/
def algStructs : List Byte := [2, 0x20] ++ bytesOfNat 2 2 ++ [3, 0x20] ++ bytesOfNat 2 2

/-- NEGOTIATE_ALGORITHMS: a signature algorithm, SHA-256 (bit 0), FFDHE3072 and AES-256-GCM. -/
def execNegotiateAlgorithms (port : SpdmPort) (baseAsym baseHash : Word) (s : State) : Host.Outcome State Fault Refusal :=
  let a := asymChoice baseAsym
  let h : Word := if baseHash.bit 0 then 1 else 0
  keep s (if !s.spdmServed port then s
    else if a = 0 ∨ h = 0 then s.spdmError port 0x01
    else
      let rest := s.trust.negotiated.filter fun n => n.1 != port
      { s with trust := { s.trust with negotiated := (port, a, h) :: rest } }.spdm port 0x63 (a.bytes ++ h.bytes ++ algStructs))

/-- GET_DIGESTS: slot 0's chain. -/
def execGetDigests (port : SpdmPort) (s : State) : Host.Outcome State Fault Refusal :=
  keep s (if s.pufFail then s.spdmError port 0x05 else s.spdm port 0x01 ([1] ++ sha256 s.certs))

/-- GET_CERTIFICATE: a portion of slot 0's chain and what remains (R386). -/
def execGetCertificate (port : SpdmPort) (slot : BitVec 8) (offset length : BitVec 16) (s : State) : Host.Outcome State Fault Refusal :=
  let c := s.certs
  let part := (c.drop offset.toNat).take length.toNat
  keep s (if s.pufFail then s.spdmError port 0x05
    else if slot ≠ 0 then s.spdmError port 0x01
    else s.spdm port 0x02 ([byteOf slot.toNat] ++ bytesOfNat 2 part.length ++ bytesOfNat 2 (c.length - offset.toNat - part.length) ++ part))

/-! ### Measurements (R392) -/

/-- Bytes of a digest held as words. -/
def digestBytes (ws : List Word) : List Byte := (List.range 8).flatMap fun w => (wordAt ws w).bytes

/-- Block n of Table 14-4 but the nonce block; blocks 7 to 10 as of the last landing (its corners, PRESUMED: log entry 88). -/
def State.measureBlock (s : State) (n : Nat) : List Byte :=
  let st := s.reg Reg.SEC_STATUS
  if n = 1 then bytesOfNat 32 (Config.partConst 2 0)
  else if n = 2 then digestBytes s.trust.fwDigest
  else if n = 3 then (s.reg Reg.DEV_FW_VER).bytes ++ [byteOf (st.field 23 16), byteOf (st.field 15 8), 0, 0]
  else if n = 4 then digestBytes s.trust.cfgDigest
  else if n = 5 then digestBytes ((List.range 8).map fun w => s.reg (Reg.SEC_OWNER_DIGEST w))
  else if n = 6 then (st &&& 0xF0000000#32).bytes
  else if 7 ≤ n ∧ n ≤ 10 then s.trust.measured.getD (n - 7) (List.replicate 32 0)
  else []

/-- Blocks 7 to 10 as they are now: the digests of the active and the staged flight image and of the stem slots (its corners, PRESUMED: log entry 88). -/
def State.measureNow (s : State) : List (List Byte) :=
  let f := fun (x : Option Flight) => match x with
    | some f => digestBytes f.digest
    | none => List.replicate 32 0
  let t := fun n => if (s.stemAt n).state = 0 then List.replicate 32 0 else digestBytes (s.stemAt n).digest
  [f s.flights.v3.active, f s.flights.v3.staged, t 0, t 1]

/-- The DMTF value type of a block: the kind of what is measured, with bit 7 set for a raw value (PRESUMED: log entry 88). -/
def valueType (n : Nat) : Nat :=
  match n with
  | 1 => 0
  | 3 => 0x87
  | 4 | 5 => 3
  | 6 => 0x85
  | 0xF0 => 0x80
  | _ => 1

/-- A block in the DMTF measurement format: index, specification 1, size, then value type, value size and the value (R392). -/
def blockForm (n : Nat) (bs : List Byte) : List Byte :=
  [byteOf n, 1] ++ bytesOfNat 2 (bs.length + 3) ++ [byteOf (valueType n)] ++ bytesOfNat 2 bs.length ++ bs

/-- A signature by the DIK over a request and a response. -/
def dikSign (request body : List Byte) : List Byte := Config.sign Config.deviceKey (request ++ body)

/-- GET_MEASUREMENTS: one block, all (0xFF) or their number (0); a signed answer with block 0xF0 carries a fresh nonce bound
to the session, which must be established, or with session 0 to the mailbox (R392, R393). -/
def execGetMeasurements (port : SpdmPort) (session index : BitVec 8) (signed : Bool) (nonce : BitVec 256) (s : State) :
    Host.Outcome State Fault Refusal :=
  let i := index.toNat
  let blocks := if i = 0xFF then [1, 2, 3, 4, 5, 6, 7, 8, 9, 10] else if 1 ≤ i ∧ i ≤ 10 then [i] else []
  let plain := blocks.flatMap fun n => blockForm n (s.measureBlock n)
  let withNonce := signed && (i == 0xF0 || i == 0xFF)
  keep s (if !s.spdmServed port then s
    else if s.pufFail then s.spdmError port 0x05
    else if session ≠ 0 ∧ (s.sessionAt port session.toNat).isNone then s.spdmError port 0x04
    else if i = 0 then s.spdm port 0x60 [11]
    else if blocks.isEmpty && !withNonce then s.spdmError port 0x01
    else
      let (s1, body) := if withNonce then
          let (v, t) := s.freshNonce port session.toNat
          (t, plain ++ blockForm 0xF0 (bytesOfNat 32 v.toNat))
        else (s, plain)
      s1.spdm port 0x60 (if signed then body ++ dikSign (bytesOfNat 32 nonce.toNat) body else body))

/-- CHALLENGE: slot 0's chain digest, a fresh nonce and a signature by the DIK. -/
def execChallenge (port : SpdmPort) (slot : BitVec 8) (nonce : BitVec 256) (s : State) : Host.Outcome State Fault Refusal :=
  keep s (if !s.spdmServed port then s
    else if s.pufFail then s.spdmError port 0x05
    else if slot ≠ 0 then s.spdmError port 0x01
    else
      let (f, s1) := s.free
      let body := [0, 1] ++ sha256 s.certs ++ bytesOfNat 32 f
      s1.spdm port 0x03 (body ++ dikSign (bytesOfNat 32 nonce.toNat) body))

/-! ### Sessions -/

/-- Sessions at once: 4 on a function's DOE, 8 on the service port (Table 14-3). -/
def sessionLimit : SpdmPort → Nat
  | .doe _ => 4
  | .service => 8

/-- The sessions of a port with one changed or removed. -/
def State.updSession (s : State) (port : SpdmPort) (id : Nat) (f : Session → Option Session) : State :=
  { s with trust := { s.trust with sessions := s.trust.sessions.filterMap fun x => if x.port = port ∧ x.id = id then f x else some x } }

/-- A session ended, with the nonces bound to it. -/
def State.dropSession (s : State) (port : SpdmPort) (id : Nat) : State :=
  let s1 := s.updSession port id fun _ => none
  { s1 with trust := { s1.trust with nonces := s1.trust.nonces.filter fun n => !(n.port == port && n.session == id) } }

/-- KEY_EXCHANGE: a session in its handshake under a key from the secret of a fresh FFDHE3072 exchange, signed by the DIK. -/
def execKeyExchange (port : SpdmPort) (random : BitVec 256) (exchange : List Byte) (s : State) : Host.Outcome State Fault Refusal :=
  let own := s.trust.sessions.filter fun x => x.port == port
  let id := ((List.range 256).find? fun n => n != 0 && !own.any fun x => x.id == n).getD 0
  keep s (if !s.spdmServed port then s
    else if s.pufFail then s.spdmError port 0x05
    else if sessionLimit port ≤ own.length then s.spdmError port 0x0A
    else
      let (f, s1) := s.free
      let key := BitVec.ofNat 256 (Config.kdf (ffdhePow (beNat exchange) f) (bytesOfNat 32 random.toNat))
      let body := [byteOf id] ++ beBytes 384 (ffdhePow 2 f)
      let x : Session := ⟨port, id, false, key, 0⟩
      let s2 := { s1 with trust := { s1.trust with sessions := s1.trust.sessions ++ [x] } }
      s2.spdm port 0x64 (body ++ dikSign (bytesOfNat 32 random.toNat ++ exchange) body))

/-- FINISH: the requester's proof of the session key establishes the session; a wrong proof ends it. -/
def execFinish (port : SpdmPort) (session : BitVec 8) (verifyData : List Byte) (s : State) : Host.Outcome State Fault Refusal :=
  let id := session.toNat
  keep s (if !s.spdmServed port then s
    else match s.trust.sessions.find? fun x => x.port == port && x.id == id && !x.established with
      | none => s.spdmError port 0x04
      | some x =>
        if Config.mac x.key.toNat [byteOf id] = verifyData then
          (s.updSession port id fun y => some { y with established := true }).spdm port 0x65 []
        else (s.dropSession port id).spdmError port 0x06)

/-- HEARTBEAT. -/
def execHeartbeat (port : SpdmPort) (session : BitVec 8) (s : State) : Host.Outcome State Fault Refusal :=
  keep s (if (s.sessionAt port session.toNat).isSome then s.spdm port 0x68 [] else s.spdmError port 0x04)

/-- KEY_UPDATE: 1 and 2 derive the next session key, 3 verifies it. -/
def execKeyUpdate (port : SpdmPort) (session : BitVec 8) (operation : BitVec 8) (s : State) : Host.Outcome State Fault Refusal :=
  let id := session.toNat
  let op := operation.toNat
  keep s (if !s.spdmServed port then s
    else if (s.sessionAt port id).isNone then s.spdmError port 0x04
    else if op = 1 ∨ op = 2 then
      (s.updSession port id fun x => some { x with key := BitVec.ofNat 256 (Config.kdf x.key.toNat [byteOf op]), updates := x.updates + 1 }).spdm
        port 0x69 [byteOf op]
    else if op = 3 then s.spdm port 0x69 [byteOf op]
    else s.spdmError port 0x01)

/-- END_SESSION. -/
def execEndSession (port : SpdmPort) (session : BitVec 8) (s : State) : Host.Outcome State Fault Refusal :=
  keep s (if !s.spdmServed port then s
    else if (s.sessionAt port session.toNat).isSome then (s.dropSession port session.toNat).spdm port 0x6C []
    else s.spdmError port 0x04)

/-! ### Chunks -/

/-- CHUNK_SEND: the chunks of a large request gathered in order; the request itself is a command of its own (PRESUMED: log entry 44). -/
def execChunkSend (port : SpdmPort) (chunkSeq : BitVec 16) (last : Bool) (data : List Byte) (s : State) : Host.Outcome State Fault Refusal :=
  let cur := (s.trust.chunk.find? fun c => c.1 == port).map (·.2)
  let rest := s.trust.chunk.filter fun c => c.1 != port
  let want := (cur.map (·.1)).getD 0
  let got := (cur.map (·.2)).getD []
  keep s (if !s.spdmServed port then s
    else if chunkSeq.toNat ≠ want then { s with trust := { s.trust with chunk := rest } }.spdmError port 0x01
    else
      let next := if last then rest else (port, want + 1, got ++ data) :: rest
      { s with trust := { s.trust with chunk := next } }.spdm port 0x05 (bytesOfNat 2 want))

/-- Bytes of a chunk: the manual gives no transfer size. -/
def chunkBytes : Nat := Config.partConst 1 0 + 1

/-- CHUNK_GET: chunk `chunkSeq` of the port's last answer. -/
def execChunkGet (port : SpdmPort) (chunkSeq : BitVec 16) (s : State) : Host.Outcome State Fault Refusal :=
  let n := chunkSeq.toNat
  keep s (match s.trust.answers.find? fun a => a.1 == port with
    | none => s.spdmError port 0x04
    | some a =>
      if a.2.length ≤ n * chunkBytes then s.spdmError port 0x01
      else if s.spdmServed port then
        { s with out := s.out ++ [.spdm port 0x06 (bytesOfNat 2 n ++ (a.2.drop (n * chunkBytes)).take chunkBytes)] }
      else s)

/-! ### Tenant reports (R395) -/

/-- One entry of a report: lexicon id, KIND and FORM, record digest. -/
def reportEntry (p : Nat × LexEntry) : List Byte :=
  bytesOfNat 3 p.1 ++ [byteOf (16 * p.2.kind + p.2.form)] ++ digestBytes p.2.recDigest

/-- TENANT_REPORT: slot state, both epochs, blocks 2 to 10, and up to 64 entries from START with the index that continues (its corners, DEDUCED: log entry 86). -/
def execTenantReport (fn : BitVec 6) (session : BitVec 8) (slot : BitVec 16) (nonce : BitVec 256) (start : BitVec 24)
    (mac : List Byte) (s : State) : Host.Outcome State Fault Refusal :=
  let k := s.keyAt slot.toNat
  let entries := s.slotEntries slot.toNat
  let page := (entries.drop start.toNat).take 64
  let body := [byteOf k.state] ++ k.cur.bytes ++ k.prev.bytes
    ++ ((List.range 9).flatMap fun i => blockForm (i + 2) (s.measureBlock (i + 2))) ++ page.flatMap reportEntry
    ++ bytesOfNat 3 (start.toNat + page.length)
  keep s (if (s.sessionAt (.doe fn) session.toNat).isNone then s.tenantAnswer fn.toNat 3 St.denied []
    else if !s.keyInRange fn.toNat slot.toNat ∨ k.state = 0 then s.tenantAnswer fn.toNat 3 St.notFound []
    else if !macOk k 3 slot.toNat k.cur nonce mac then s.tenantAnswer fn.toNat 3 St.auth []
    else s.tenantAnswer fn.toNat 3 St.ok (body ++ dikSign (tenantMessage 3 slot.toNat k.cur nonce ++ bytesOfNat 3 start.toNat ++ mac) body))

/-! ### IDE and the other DOE protocols (R326, R405) -/

/-- IDE_KM: keys of a stream set inside a session on the physical function's DOE; a stream whose keys are set is secure. -/
def execIdeKm (session : BitVec 8) (stream : BitVec 8) (secure : Bool) (s : State) : Host.Outcome State Fault Refusal :=
  let n := stream.toNat
  keep s (if !s.spdmServed (.doe 0) then s
    else if (s.sessionAt (.doe 0) session.toNat).isNone then s.spdmError (.doe 0) 0x04
    else if ideCount ≤ n then s.spdmError (.doe 0) 0x01
    else s.setIde ((n, secure) :: s.trust.ideStreams.filter fun x => x.1 != n) n)

/-- DOE mailboxes are served from READY on (R456). -/
def State.doeServed (s : State) : Bool := s.fld Reg.RST_STATUS 31 28 == 7 && s.hs.linkUp

/-- The DOE protocols of R326: discovery 0, CMA-SPDM 1, secured CMA-SPDM 2 of the PCI-SIG, CXL table access 2 of the CXL
vendor, as (vendor, protocol). -/
def doeProtocols : List (Nat × Nat) := [(1, 0), (1, 1), (1, 2), (0x1E98, 2)]

/-- DOE_DISCOVERY: the protocol at an index and the next index, 0 after the last. -/
def execDoeDiscovery (fn : BitVec 6) (index : BitVec 8) (s : State) : Host.Outcome State Fault Refusal :=
  let i := index.toNat
  let p := doeProtocols.getD i (0xFFFF, 0xFF)
  let next := if i + 1 < doeProtocols.length then i + 1 else 0
  keep s (if s.doeServed then
      { s with out := s.out ++ [.doe fn.toNat 0 (bytesOfNat 2 p.1 ++ [byteOf p.2, byteOf next])] }
    else s)

/-- CXL_TABLE_ACCESS: an entry of the CDAT; the manual gives no contents of the table (DESIGN CHOICE: log entry 8). -/
def execCxlTableAccess (fn : BitVec 6) (entryHandle : BitVec 16) (s : State) : Host.Outcome State Fault Refusal :=
  keep s (if s.doeServed then
      let n := Config.partConst 3 entryHandle.toNat
      { s with out := s.out ++ [.doe fn.toNat 2 (bytesOfNat (n % 64) (Config.partConst 4 entryHandle.toNat))] }
    else s)

end Sys2Proof.Machine
end

