-- ==== Sys2Proof/Machine/Boot.lean ====
section
/-! DEFINITION. Start-up: firmware, the configuration block, keys, self-test, the default flight; debug unlock (R385 to R390,
R401, R407, R408, R419, R432, R454 to R469, R474, R477). -/

namespace Sys2Proof.Machine

/-! ### The boot memory (Table 17-1) -/

/-- Bytes of the boot memory. -/
def State.bootRead (s : State) (a n : Nat) : List Byte := memRead s.mem.boot a n

/-- An event of class 0x9, recorded in the black box whatever BBX_MASK holds (R477). -/
def State.raiseBoot (s : State) (code : Nat) (payload : List Nat) : State :=
  let ws := payload.map wordOf
  let s1 := s.raisePf code ws
  if (s.reg Reg.BBX_MASK).bit 9 then s1 else s1.bbxPut 1 none code ws

/-- A configuration slot, 0 A or 1 B. -/
def cfgOffset (k : Nat) : Nat := 0x10000 * (k + 1)

/-- The bytes of a configuration slot. -/
def State.cfgBytes (s : State) (k : Nat) : List Byte := s.bootRead (cfgOffset k) 65536

/-- A run of a block's bytes. -/
def cut (bs : List Byte) (off n : Nat) : List Byte := (bs.drop off).take n

/-- Word `i` of a run of bytes. -/
def wordIn (bs : List Byte) (i : Nat) : Word := wordOf (natOfBytes (cut bs (4 * i) 4))

/-- The DIK public key, which the PUF gives (R385). -/
def dikKey : List Byte := Config.publicKey Config.deviceKey

/-- DIGEST and the signature of a block verify: under its owner key, or under the DIK for SIGNER 1 (R388, Table 17-4). -/
def cfgSigned (bs : List Byte) : Bool :=
  let key := if (wordIn bs 1).bit 0 then dikKey else cut bs 0xFD00 384
  sha256 (cut bs 0x80 0xFE00) == cut bs 16 32 && rsaVerify key (bs.take 0xFE80) (cut bs 0xFE80 384)

/-- MAGIC of a block is right. -/
def cfgMagic (bs : List Byte) : Bool := wordIn bs 0 == 0x4743464B#32

/-- MIN_SVN of a block. -/
def cfgMinSvn (bs : List Byte) : Nat := (wordIn bs 64).field 31 24

/-- The MIN_SVN that the ROM takes: the largest of the blocks that verify (R462). -/
def State.romMinSvn (s : State) : Nat :=
  ([0, 1].map fun k => let bs := s.cfgBytes k; if cfgMagic bs && cfgSigned bs then cfgMinSvn bs else 0).foldl Nat.max 0

/-! ### Firmware (R461, R462) -/

/-- The offset of a firmware slot. -/
def fwOffset (k : Nat) : Nat := 0x100000 + 0x800000 * k

/-- The header of a firmware slot. -/
def State.fwHeader (s : State) (k : Nat) : List Word := wordsOfBytes (s.bootRead (fwOffset k) 128)

/-- Why an image of `bytes` is no candidate: 0 header or signature, 3 length, 1 key, 2 SVN (R461, R462) (its corners, DEDUCED: log entry 99). -/
def fwFail (bs : List Byte) (minSvn : Nat) : Option Nat :=
  let w := wordAt (wordsOfBytes (bs.take 128))
  let n := (w 4).toNat
  if w 0 ≠ 0x5746464B#32 ∨ (w 1).field 31 16 ≠ 1 ∨ (w 1).field 7 0 ≠ 0 ∨ (w 3).field 31 16 = 0 ∨ (w 3).field 15 0 ≠ 0
      ∨ (List.range 26).any (fun i => w (6 + i) != 0) then some 0
  else if n < 896 ∨ 0x800000 < n ∨ bs.length < n then some 3
  else
    let key := cut bs (n - 768) 384
    if !Config.romKeys.contains (sha256 key) then some 1
    else if !rsaVerify key (bs.take (n - 384)) (cut bs (n - 384) 384) then some 0
    else if (w 1).field 15 8 < minSvn then some 2
    else none

/-- The failure of a firmware slot. -/
def State.fwSlotFail (s : State) (k minSvn : Nat) : Option Nat := fwFail (s.bootRead (fwOffset k) 0x800000) minSvn

/-- ISEQ of a slot that holds an image. -/
def State.fwIseq (s : State) (k : Nat) : Nat :=
  let h := s.fwHeader k
  if wordAt h 0 = 0x5746464B#32 then (wordAt h 3).field 31 16 else 0

/-- The slot that runs, and the slot with the higher ISEQ that failed, with its cause (R462). -/
def State.chooseFw (s : State) (minSvn : Nat) : Option Nat × Option (Nat × Nat) :=
  let first := if s.fwIseq 0 < s.fwIseq 1 then 1 else 0
  match s.fwSlotFail first minSvn, s.fwSlotFail (1 - first) minSvn with
  | none, _ => (some first, none)
  | some c, none => (some (1 - first), some (first, c))
  | some _, some _ => (none, none)

/-! ### The configuration block (R463 to R469) -/

/-- Device words that are register images, with their registers (Table 17-4). -/
def deviceRegs : List (Nat × Nat) :=
  [(1, Reg.TCK_SYNC_CTRL), (2, Reg.PWR_FEED_CFG), (3, Reg.PWR_LIMIT), (4, Reg.PWR_FEED_CTRL), (5, Reg.PWR_TEMP), (6, Reg.CLK_DRV_CTRL),
    (7, Reg.BBX_MASK), (8, Reg.LEX_STEM_SEL 0), (9, Reg.LEX_STEM_SEL 1)]

/-- Instance words that are register images, in order (Table 17-4). -/
def instanceRegs (n : Nat) : List Nat :=
  [Reg.WIN_RANGE n, Reg.WIN_RINGS n, Reg.WIN_INST_CFG n, Reg.WIN_HANDLES n] ++ (List.range 8).map (Reg.RES_QUOTA n)
    ++ [Reg.RES_INST_CFG n, Reg.RES_CACHE_WAYS n, Reg.RES_FLASH_RANGE n, Reg.RES_LIMITS n, Reg.LEX_RANGE_BASE n, Reg.LEX_RANGE_COUNT n,
      Reg.LEX_SLOTS n, Reg.DEV_SHARE n, Reg.DEV_SEATS n, Reg.SEC_KEYRANGE n]

/-- The fields of a register that come from the configuration block set from an image of it. -/
def State.cfgFields (s : State) (off : Nat) (w : Word) : State :=
  match regLookup off with
  | some r => (r.fields.filter (·.cfg)).foldl (fun u f => u.setFld off f.hi f.lo (w.field f.hi f.lo)) s
  | none => s

/-- A field lies in a range. -/
def within (v lo hi : Nat) : Bool := decide (lo ≤ v ∧ v ≤ hi)

/-- The checks of the registers of the device section: each with its word (Table 17-4, R464). -/
def deviceChecks (bs : List Byte) (version : Nat) : List (Bool × Nat) :=
  let w := fun i => wordIn bs (32 + i)
  let mode := (w 1).field 31 30
  let fall := (w 2).field 26 18
  [(within ((w 0).field 6 0) 20 80, 0),
    (mode != 3 && (mode != 2 || within ((w 1).field 20 16) 1 16) && decide ((w 1).field 15 0 < 600 * (w 0).field 6 0), 1),
    (within fall 420 440 && within ((w 2).field 17 9) (fall + 10) 460 && within ((w 2).field 8 0) 360 400, 2),
    (within ((w 3).field 31 16) 1500 4800 && (version == 1 || within ((w 3).field 15 0) 1500 4800), 3),
    (within ((w 5).field 15 8) 85 105, 5), (within ((w 10).field 4 0) 26 33, 10), ((w 12).field 1 0 != 3, 12),
    (decide ((wordIn bs 64).field 21 19 ≤ 4), 32)]

/-- Root-port entries: WIDTH 1, 2 or 4 and a rate of WIN_LINK. -/
def portChecks (bs : List Byte) : List (Bool × Nat) :=
  (List.range 8).map fun d =>
    let w := wordIn bs (576 + 8 * d)
    (!w.bit 31 || ([1, 2, 4].contains (w.field 30 28) && within (w.field 27 25) 1 6), 544 + 8 * d)

/-- The instance section applied to the registers. -/
def State.applyInstances (s : State) (bs : List Byte) : State :=
  (List.range 64).foldl (fun u n =>
    (List.range 22).foldl (fun v i =>
      let w := wordIn bs (640 + 64 * n + i)
      let off := natAt (instanceRegs n) i
      if i = 2 then v.cfgFields off w else v.setReg off (v.wordFor off w)) u) s

/-- The word of an instance's entry whose register fails a check of R364. -/
def instanceWord (n off : Nat) : Nat := 608 + 64 * n + (instanceRegs n).idxOf off

/-- The first value of a block that fails, as its byte offset (R464). -/
def State.cfgValueFail (s : State) (bs : List Byte) (version recMin recMax : Nat) : Option Nat :=
  let u := ({ s with boot := { s.boot with cfg := wordsOfBytes bs } }).applyInstances bs
  let fixed := deviceChecks bs version ++ portChecks bs
  let insts := (List.range 64).flatMap fun n => (State.resizeChecks u u n).map fun c => (c.1, instanceWord n c.2.2)
  let formats := if version = 1 then [] else (List.range 64).map fun n =>
    let f := (wordIn bs (640 + 64 * n + 22)).field 7 0
    (f == 0 || within f recMin recMax, 608 + 64 * n + 22)
  ((fixed ++ insts ++ formats).find? fun c => !c.1).map fun c => 0x80 + 4 * c.2

/-- The first check of R464 that a block fails: its cause and the byte offset of the failing field. -/
def State.cfgFail (s : State) (fw : List Word) (bs : List Byte) : Option (Nat × Nat) :=
  let version := (wordIn bs 1).field 31 16
  let f := wordAt fw 5
  if !cfgMagic bs then some (0, 0)
  else if !within version (f.field 23 16) (f.field 31 24) ∨ !within version 1 2 then some (0, 4)
  else if sha256 (cut bs 0x80 0xFE00) ≠ cut bs 16 32 then some (1, 16)
  else if !cfgSigned bs then some (1, 0xFE80)
  else (s.cfgValueFail bs version (f.field 7 0) (f.field 15 8)).map fun o => (2, o)

/-- A slot's failure; a SIGNER 1 block also needs a valid SIGNER 0 block with its SOURCE_DIGEST in the other slot (R464). -/
def State.slotFail (s : State) (fw : List Word) (k : Nat) : Option (Nat × Nat) :=
  let bs := s.cfgBytes k
  match s.cfgFail fw bs with
  | some f => some f
  | none =>
    if !(wordIn bs 1).bit 0 then none
    else
      let src := s.cfgBytes (1 - k)
      if (s.cfgFail fw src).isNone && !(wordIn src 1).bit 0 && sha256 src == cut bs 48 32 then none else some (3, 48)

/-- The slot of the block in force: the higher CFG_SEQ, then the higher VERSION, then slot A (R466). -/
def State.cfgInForce (s : State) (fails : List (Option (Nat × Nat))) : Option Nat :=
  let rank := fun k => let bs := s.cfgBytes k; (wordIn bs 2).toNat * 0x10000 + (wordIn bs 1).field 31 16
  let ok := fun k => (fails.getD k none).isNone
  match ok 0, ok 1 with
  | true, true => some (if rank 0 < rank 1 then 1 else 0)
  | true, false => some 0
  | false, true => some 1
  | false, false => none

/-- Bytes of a list replaced from an offset. -/
def patch (bs : List Byte) (off : Nat) (new : List Byte) : List Byte := bs.take off ++ new ++ bs.drop (off + new.length)

/-- The migrated block of R467: version CFG_VER, SIGNER 1, the source's digest, WARN_CAP_W 4,000, REC_FMT 0, signed with the DIK. -/
def migrateBlock (src : List Byte) (ver : Nat) : List Byte :=
  let b1 := patch src 4 (wordOf (ver * 0x10000 + 1)).bytes
  let b2 := patch b1 48 (sha256 src)
  let b3 := patch b2 140 (bytesOfNat 2 4000)
  let b4 := (List.range 64).foldl (fun b n => patch b (0xA00 + 256 * n + 88) [0]) b3
  let b5 := patch b4 16 (sha256 (cut b4 0x80 0xFE00))
  patch b5 0xFE80 ((Config.sign Config.deviceKey (b5.take 0xFE80)).take 384)

/-- The values of a start-up with no valid block (R468). -/
def State.unconfigured (s : State) : State :=
  let s1 := (s.setFld Reg.TCK_PERIOD 6 0 80).cfgFields Reg.PWR_FEED_CFG (wordOf (430 * 0x40000 + 445 * 512 + 380))
  let s2 := (s1.cfgFields Reg.PWR_LIMIT (wordOf (1500 * 0x10000 + 1500))).cfgFields Reg.PWR_TEMP (wordOf (100 * 256))
  let s3 := (s2.cfgFields Reg.CLK_DRV_CTRL 0xF#32).cfgFields Reg.BBX_MASK 0xFFFFFFFF#32
  s3.setFld Reg.DEV_BOOT_STATUS 27 27 1

/-- The values `bs` of a start-up, with the block in force, its slot and its header: a block that this start-up migrates gives its values, and is in force
from the next one (Table 17-4, R467, R469, Table 17-8). -/
def State.applyBlock (s : State) (bs block : List Byte) (slot : Nat) : State :=
  let w := fun i => wordIn bs (32 + i)
  let s1 := deviceRegs.foldl (fun u x => u.cfgFields x.2 (w x.1)) (s.setFld Reg.TCK_PERIOD 6 0 ((w 0).field 6 0))
  let pol := wordIn bs 64
  let s2 := (s1.setFld Reg.SEC_STATUS 15 8 (pol.field 31 24)).setFld Reg.SEC_STATUS 29 29 (pol.field 23 23)
  let keys := (List.range (pol.field 21 19)).map fun k => cut bs (0x140 + 384 * k) 384
  let s3 := { s2 with trust := { s2.trust with flightKeys := keys, debugTokens := pol.bit 22 } }
  let s4 := (List.range 64).foldl (fun u n => u.showSpan n) (s3.applyInstances bs)
  let s5 := (s4.setFld Reg.DEV_BOOT_STATUS 29 29 slot).setFld Reg.DEV_BOOT_STATUS 28 28 ((wordIn block 1).field 0 0)
  let s6 := (s5.setFld Reg.DEV_BOOT_STATUS 23 16 ((wordIn block 1).field 31 16)).setFld Reg.DEV_BOOT_STATUS 15 12 ((w 11).field 3 0)
  (s6.setReg Reg.DEV_CFG_SEQ (wordIn bs 2)).setFld Reg.TCK_SYNC_STATUS 31 29 (b2n ((s6.fld Reg.TCK_SYNC_CTRL 31 30) != 0))

/-- The block in force found, migrated where its version is older, and applied; the slots that fail raise their events (R464 to
R468) (its corners, DEDUCED: log entry 99). -/
def State.configure (s : State) (fw : List Word) : State :=
  let fails := [s.slotFail fw 0, s.slotFail fw 1]
  let s1 := [0, 1].foldl (fun u k => match fails.getD k none with
    | some f => u.raiseBoot 0x9002 [k, f.1, f.2]
    | none => u) s
  match s1.cfgInForce fails with
  | none => { s1.unconfigured with boot := { s1.boot with fw := fw, cfg := [] } }
  | some k =>
    let bs := s1.cfgBytes k
    let signed := (wordIn bs 1).bit 0
    let src := if signed then 1 - k else k
    let ver := (wordAt fw 5).field 31 24
    let old := (wordIn bs 1).field 31 16
    let puf := !(s1.reg Reg.SEC_STATUS).bit 31
    let s2 := { s1 with trust := { s1.trust with cfgDigest := sha256Words (s1.cfgBytes src) } }
    let put := fun (u : State) (b : List Byte) =>
      let v := { u with boot := { u.boot with fw := fw, cfg := wordsOfBytes b, cfgSource := src } }
      v.applyBlock b bs k
    if ver ≤ old then put s2 bs
    else
      let m := migrateBlock bs ver
      if puf then
        let s3 := { s2 with mem := { s2.mem with boot := memWrite s2.mem.boot (cfgOffset (1 - k)) m } }
        (put s3 m).raiseBoot 0x9001 [old, ver, 1 - k]
      else (put s2 m).raiseBoot 0x9002 [1 - k, 4, 0]

/-! ### Keys at start-up (R387, R389, R401) -/

/-- The key table under the owner of the block in force; with no block or no PUF it stays sealed (R387, R389). -/
def State.unsealKeys (s : State) : State :=
  if s.boot.cfg.isEmpty ∨ (s.reg Reg.SEC_STATUS).bit 31 then s
  else
    let src := s.cfgBytes s.boot.cfgSource
    let owner := sha256Words (cut src 0xFD00 384)
    let next := (List.range 8).map fun i => wordIn src (72 + i)
    let named := if next.all (· == 0) then [] else next
    ((List.range 8).foldl (fun u i => u.setReg (Reg.SEC_OWNER_DIGEST i) (wordAt owner i)) s).unsealFor owner named

/-- A random value of `n` words in a register set. -/
def State.randomWords (s : State) (at_ : Nat → Nat) (n : Nat) : State :=
  let (f, s1) := s.free
  (List.range n).foldl (fun u i => u.setReg (at_ i) (wordOf (f / 2 ^ (32 * i)))) s1

/-- The identity derived and compared with certificate 2 (R385, R387). -/
def State.identity (s : State) (obs : StartObs) : State :=
  let s1 := s.randomWords Reg.SEC_DBG_NONCE 8
  if obs.pufOk then
    let d := sha256Words dikKey
    let s2 := (List.range 8).foldl (fun u i => u.setReg (Reg.SEC_ID_DIGEST i) (wordAt d i)) s1
    { s2 with trust := { s2.trust with dik := dikKey } }
  else
    let s2 := { s1 with trust := { s1.trust with pufCause := obs.pufCause.toNat } }
    (s2.setFld Reg.SEC_STATUS 31 31 1).raisePf 0x6005 [wordOf obs.pufCause.toNat]

/-! ### The black-box scan (R432) -/

/-- The sequence numbers of the records in the MRAM whose CRC matches. -/
def State.bbxSeqs (s : State) : List Nat :=
  ((s.mem.mram.map fun p => p.1 / 256).dedup.filter (· < 32768)).filterMap fun i =>
    let bs := memRead s.mem.mram (256 * i) 256
    if crc32c (bs.take 252) = wordOf (natOfBytes (bs.drop 252)) then some (natOfBytes (bs.take 8)) else none

/-- Records numbered in order from a sequence number (its corners, DEDUCED: log entry 99). -/
def renumber : Nat → List BbxRecord → List BbxRecord
  | _, [] => []
  | n, r :: rs => { r with seq := BitVec.ofNat 64 n } :: renumber (n + 1) rs

/-- The scan: recording resumes after the highest valid SEQ, the records that wait taking the numbers from there; an absent or too
small MRAM is a FAULT (its corners, DEDUCED: log entry 99). -/
def State.bbxScan (s : State) (ok small : Bool) : State :=
  if !ok then s.bbxFault 0
  else if small then s.bbxFault 2
  else
    let next := (s.bbxSeqs.map (· + 1)).foldl Nat.max 0
    let q := renumber next s.bbx.queue
    { s.setFld Reg.BBX_STATUS 31 30 1 with bbx := { s.bbx with queue := q, nextSeq := BitVec.ofNat 64 (next + q.length) } }

/-! ### Self-test and drives (R291, R419) -/

/-- Every unit in service but those that fail; the variant for what remains (R32, R55, R419). -/
def State.selfTest (s : State) (fails : List (BitVec 4 × BitVec 3 × BitVec 5)) : State :=
  let s1 := (List.range 8).foldl (fun u g => (galUnits g).foldl (fun v o => v.setFld o 31 30 1) u) s
  let s2 := fails.foldl (fun u f => u.selfTestFail f.1.toNat f.2.1.toNat f.2.2.toNat) s1.showCapacity
  (s2.showCapacity).variantStep false

/-- The root ports that the block enables enumerate their drives; with no block every port is enabled (R291, R468). -/
def State.startDrives (s : State) (drives : List (BitVec 3 × BitVec 2 × BitVec 3 × BitVec 34)) : State :=
  let s1 := (List.range 8).foldl (fun u d => u.setDrive d 0 0 0 0) { s with ls := { s.ls with driveMib := [] } }
  drives.foldl (fun u x =>
    let d := x.1.toNat
    if s.boot.cfg.isEmpty ∨ (wordAt s.boot.cfg (576 + 8 * d)).bit 31 then u.enumerate d x.2.1.toNat x.2.2.1.toNat x.2.2.2.toNat true
    else u) s1

/-! ### The default flight (step 6) -/

/-- The default flight that the block names admitted and switched in; one that fails admission is reported, and the idle program
runs (R456, R468, R476) (its corners, DEDUCED: log entry 99). -/
def State.defaultFlight (s : State) : State :=
  let k := (wordAt s.boot.cfg 44).field 1 0
  if s.boot.cfg.isEmpty ∨ k = 0 then s
  else
    let at_ := 0x1100000 + 0xA00000 * (k - 1)
    let n := Nat.min (memNat s.mem.boot (at_ + 8) 4) 0xA00000
    let bs := s.bootRead at_ n
    match admitImage 0 n s.trust.flightKeys bs with
    | some f => s.reportRefusal f
    | none =>
      let f := parseFlight bs
      let u := ((s.stage 0 f).activateStaged 0 f).applyPeriod
      u.keepFlights (u.variantStep false)

/-! ### START_UP -/

/-- Step 7: READY, its record, DEV_ALERT_N released (R456, R504). -/
def State.ready (s : State) : State :=
  let s1 := (s.setFld Reg.RST_STATUS 31 28 7).bbxPut 4 none 0 [s.reg Reg.RST_CAUSE]
  { s1 with pw := { s1.pw with alertLow := false } }

/-- Start-up may begin: a feed is OK, the package is reset, and a P4 that was asked for has been woken (R442, R451, R456). -/
def State.mayStart (s : State) : Bool :=
  s.fld Reg.RST_STATUS 31 28 == 0 && !s.tk.running && (s.feedState 0 == 3 || s.feedState 1 == 3)
    && (!s.packageOff || s.pw.stopping || s.svc.wakeReady)

/-- Step 1: the supplies, from the feed selected where it is OK (Table 16-8); a start from P4 counts as a package reset with cause 8 (R451, R454) (its corners, DEDUCED: log entry 97). -/
def State.startSupplies (s : State) : State :=
  let s1 := if s.packageOff ∧ !s.pw.stopping then (s.setFld Reg.RST_CAUSE 31 28 8).count Reg.RST_CAUSE 15 0 1 else s
  let feed := if s.feedActive < 2 ∧ s.feedState s.feedActive = 3 then s.feedActive else if s.feedState 0 = 3 then 0 else 1
  let s2 := (s1.closeFeed feed).setReg Reg.PWR_STATE 0
  let pw := { s2.pw with stopping := false, hallOn := true, v18 := true, lossTimer := false, alertLow := true }
  { s2 with pw := pw, svc := { s2.svc with wakeReady := false } }.setFld Reg.RST_STATUS 31 28 1

/-- Recovery mode: no firmware is a candidate (R462, R474). -/
def State.recoveryMode (s : State) : State :=
  let s1 := s.zeroise 3
  { s1 with pw := { s1.pw with recovery := true } }

/-- Steps 3 to 6 with the firmware that runs. -/
def State.startFirmware (s : State) (obs : StartObs) (fw minSvn : Nat) (fell : Option (Nat × Nat)) : State :=
  let h := s.fwHeader fw
  let img := s.bootRead (fwOffset fw) (wordAt h 4).toNat
  let s1 := (s.setReg Reg.DEV_FW_VER (wordAt h 2)).setFld Reg.SEC_STATUS 23 16 ((wordAt h 1).field 15 8)
  let iseq := fun k => if (s.fwSlotFail k minSvn).isNone then s.fwIseq k else 0
  let s2 := (s1.setReg Reg.DEV_FW_ISEQ (wordOf (iseq 0 * 0x10000 + iseq 1))).setFld Reg.DEV_BOOT_STATUS 31 31 fw
  let s3 := { s2 with trust := { s2.trust with fwDigest := sha256Words img } }
  let s4 := match fell with
    | some f => (s3.setFld Reg.DEV_BOOT_STATUS 30 30 1).raiseBoot 0x9003 [f.1, f.2]
    | none => s3
  let s5 := (s4.configure h).unsealKeys.setFld Reg.RST_STATUS 31 28 (if obs.linkUp then 4 else 3)
  let (fv, s6) := if obs.linkUp then s5.free else (0, s5)
  let s7 := if obs.linkUp then
      let link := (fv % 6 + 1) * 64 + natAt [1, 2, 4, 8, 16] (fv / 6 % 5) * 2 + fv / 30 % 2
      { s6.setFld Reg.WIN_LINK 31 22 link with hs := { s6.hs with linkUp := true } }
    else s6
  let s8 := (s7.startDrives obs.drives).stopExtest.selfTest obs.selfTestFails
  let s9 := s.keepFlights ((s8.setReg Reg.CLK_STATUS (wordOf (3 * 0x40000000 + 0xFF * 4096 + 2400))).setFld Reg.RST_STATUS 31 28 5)
  let s10 := { s9 with tk := { s9.tk with running := true, count := 0 } }
  let s11 := (s10.defaultFlight).setFld Reg.RST_STATUS 31 28 6
  if obs.linkUp then s11.ready else s11

/-- START_UP: the steps of Table 16-9. -/
def execStartUp (obs : StartObs) (s : State) : Host.Outcome State Fault Refusal :=
  keepQueue s (if !s.mayStart then s
    else
      let s1 := s.keepFlights (((s.startSupplies.setFld Reg.RST_STATUS 31 28 2).bbxScan obs.mramOk obs.mramSmall).identity obs)
      let minSvn := if obs.bootPresent then s1.romMinSvn else 0
      match (if obs.bootPresent then s1.chooseFw minSvn else (none, none)) with
      | (none, _) => s1.keepFlights s1.recoveryMode
      | (some fw, fell) => s1.startFirmware obs fw minSvn fell)

/-- The link trains at a rate and a width of Table 12-1. -/
def linkTrains (rate width : Nat) : Bool := [1, 2, 3, 4, 5, 6].contains rate && [1, 2, 4, 8, 16].contains width

/-- HOST_LINK_TRAINS: the link is up at a rate and a width that it supports; a start-up that waited for it is READY (R326, R327, R456, R508). -/
def execHostLinkTrains (rate : BitVec 4) (width : BitVec 5) (cxl : Bool) (s : State) : Host.Outcome State Fault Refusal :=
  let s1 := (((s.setFld Reg.WIN_LINK 31 28 rate.toNat).setFld Reg.WIN_LINK 27 23 width.toNat).setFld Reg.WIN_LINK 22 22 (b2n cxl)).setFld Reg.CLK_STATUS 30 30 1
  let s2 := { s1 with hs := { s1.hs with linkUp := true } }
  keep s (if !s.pw.hallOn ∨ s.pw.recovery ∨ !linkTrains rate.toNat width.toNat then s else if s.fld Reg.RST_STATUS 31 28 = 6 then s2.ready else s2)

/-! ### Debug unlock (R407) -/

/-- Bytes of SEC_DBG_TOKEN. -/
def State.debugTokenBytes (s : State) : List Byte := s.aperture Reg.SEC_DBG_TOKEN 512

/-- A GO in SEC_DBG_CTRL: a token that names this DIK and this nonce zeroises the device and resets the package into debug, its
events published first. -/
def State.debugUnlock (s : State) : State :=
  let nonce := s.aperture Reg.SEC_DBG_NONCE 8
  let ok := Config.debugToken s.debugTokenBytes == some (sha256 s.trust.dik, nonce)
  let s1 := s.randomWords Reg.SEC_DBG_NONCE 8
  if !s.trust.debugTokens then s1.setFld Reg.SEC_DBG_CTRL 7 0 St.denied
  else if !ok then s1.setFld Reg.SEC_DBG_CTRL 7 0 St.auth
  else
    let s2 := ((s1.zeroise 1).raisePf 0x6006 [wordOf s.tk.count.toNat]).publish
    (s2.setFld Reg.SEC_STATUS 30 30 1).packageReset 5

/-- DEBUG_UNLOCK. -/
def execDebugUnlock (s : State) : Host.Outcome State Fault Refusal := stopOutcome s s.debugUnlock

/-! ### Repairs (R422) -/

/-- A poison cleared. -/
def State.unpoison (s : State) (p : Poison) : State :=
  { s with faults := { s.faults with poison := s.faults.poison.filter fun q => !(q.stack == p.stack && q.page == p.page) } }

/-- Whether a page of a kind stays bad once its repair has failed: a copy, of which the other one serves from then on (Table 15-2). -/
def copyKind : PageKind → Bool
  | .windowPage _ => true
  | .lexiconCopy => true
  | .ringMirror => true
  | .flightImage => true
  | _ => false

/-- The page's row of Table 15-2 repaired, or its last column applied, with its frame withheld; a stem's page awaits its shards. -/
def State.repairPage (s : State) (p : Poison) (clean : Bool) : State :=
  if (match p.kind with
    | .stemShard slot proj => !s.stemWhole slot.toNat proj.toNat
    | _ => false) then s
  else if clean then (s.unpoison p).repaired p.kind
  else
    let s1 := { s with faults := { s.faults with withheld := (p.stack / 2, p.page / 8) :: s.faults.withheld } }
    if inPool p.kind && s1.poolFree (p.stack / 2) then (s1.unpoison p).repaired p.kind
    else match p.kind with
      | .flightImage =>
        if s.faults.poison.any fun q => q.stack == (p.stack ^^^ 1) && q.page == p.page && q.kind == .flightImage then
          (s1.raisePf 0x7020 [s.reg Reg.FLT_POS, wordOf s.tk.count.toNat]).orderedStop 4
        else s1
      | k => (if copyKind k then s1 else s1.unpoison p).repairFails k

/-- POISON_REPAIR: the replacement of a poisoned page read back. -/
def execPoisonRepair (stack : BitVec 4) (page : BitVec 24) (clean : Bool) (s : State) : Host.Outcome State Fault Refusal :=
  stopOutcome s (match s.faults.poison.find? fun q => q.stack == stack.toNat && q.page == page.toNat with
    | some p => if s.pageWithheld p then s else s.repairPage p clean
    | none => s)

end Sys2Proof.Machine
end

