-- ==== Sys2Proof/Machine/Counting.lean ====
section
/-! DEFINITION. The central reader in phase E, ownership, configuration, holds, snapshots, the bandwidth monitors, and the
calibration windows (R131 to R134, R481 to R491). -/

namespace Sys2Proof.Machine

/-! ### Counters: writes (R481, R482, R485) -/

/-- A block id of Table 18-1. -/
def cntBlockExists (b : Nat) : Bool := if b < 0x100 then decide (b % 0x20 < 30) else decide (b ≤ 0x10B)

/-- A function owns a counter index; the physical function serves instance 0 as well (R327, R482). -/
def State.ownsCounter (s : State) (fn k : Nat) : Bool := s.cntOwner k == fn || (fn == 0 && s.cntOwner k == 0x7F)

/-- The block and index that a function selects. -/
def State.cntSel (s : State) (fn : Nat) : Nat × Nat :=
  let w := s.regC (fn + 1) Reg.CNT_SEL
  (w.field 24 16, w.field 3 0)

/-- Writes to a function's selected counter wait for phase E; ignored on an index it does not own. -/
def State.cntQueue (s : State) (fn : Nat) (ws : List (Option CntReg × Word)) : State :=
  let (b, k) := s.cntSel fn
  if cntBlockExists b && s.ownsCounter fn k then
    { s with cnt := { s.cnt with writes := s.cnt.writes ++ ws.map fun w => ⟨b, k, w.1, w.2⟩ } }
  else s

/-- What a write to a counter register queues: CLR is a clear of its own. -/
def State.writeCntReg (s : State) (fn : Nat) (r : CntReg) (v : Word) : State :=
  s.cntQueue fn ((some r, v) :: if r = .cfg ∧ v.bit 27 then [(none, 0)] else [])

/-- CNT_CFG_WRITE. -/
def execCntCfgWrite (fn : BitVec 6) (reg : CntReg) (value : Word) (s : State) : Host.Outcome State Fault Refusal :=
  keep s (s.writeCntReg fn.toNat reg value)

/-- CNT_CLR. -/
def execCntClr (fn : BitVec 6) (s : State) : Host.Outcome State Fault Refusal := keep s (s.cntQueue fn.toNat [(none, 0)])

/-- A write to CNT_OWNj waits for the landing. -/
def State.writeCntOwn (s : State) (j : Nat) (v : Word) : State := { s with cnt := { s.cnt with ownWrites := s.cnt.ownWrites ++ [(j, v)] } }

/-- CNT_OWN_WRITE. -/
def execCntOwnWrite (j : BitVec 2) (value : Word) (s : State) : Host.Outcome State Fault Refusal := keep s (s.writeCntOwn j.toNat value)

/-- HOLD set or cleared; it acts at the landing (R486). -/
def State.writeCntHold (s : State) (hold : Bool) : State :=
  { s.setFld Reg.CNT_CTRL 31 31 (b2n hold) with cnt := { s.cnt with holdDue := some hold } }

/-- CNT_HOLD. -/
def execCntHold (hold : Bool) (s : State) : Host.Outcome State Fault Refusal := keep s (s.writeCntHold hold)

/-- A write to CNT_BW_CFG waits for the landing (R489). -/
def State.writeBwCfg (s : State) (v : Word) : State := { s with cnt := { s.cnt with bwDue := some v } }

/-- CNT_BW_CFG_WRITE. -/
def execCntBwCfgWrite (value : Word) (s : State) : Host.Outcome State Fault Refusal := keep s (s.writeBwCfg value)

/-! ### Counters: phase E (R483 to R487, Table 18-3) -/

/-- The shadow of a counter added, or discarded when its tick is replayed and COMMIT is 1; a wrap raises its event (R483, R487,
R491). -/
def State.addShadow (s : State) (b k : Nat) (replayed : Bool) : State :=
  let c := s.ctr b k
  let owner := s.cntOwner k
  if replayed && (cntCfgInForce owner c.cfg).bit 30 then s.setCtr b k { c with shadow := 0 }
  else
    let sum := c.value + c.shadow
    let s1 := s.setCtr b k { c with value := sum % 2 ^ 64, shadow := 0 }
    if sum < 2 ^ 64 ∨ !c.cfg.bit 28 then s1
    else s1.raiseTo 0xA001 (if owner = 0x7F then none else some owner) ([b, k, s.tk.count.toNat].map wordOf)
      (if owner = 0x7F then [] else [owner])

/-- The counts of the tick added. -/
def State.addShadows (s : State) (replayed : Bool) : State :=
  (s.cnt.ctrs.map (·.1)).foldl (fun u k => u.addShadow (k / 16) (k % 16) replayed) s

/-- The owners that writes to CNT_OWN give: (index, owner) of each change. -/
def State.ownChanges (s : State) : List (Nat × Nat) :=
  s.cnt.ownWrites.flatMap fun p => (List.range 4).filterMap fun i =>
    let o := p.2.field (8 * i + 6) (8 * i)
    if o < 64 ∨ o = 0x7F then some (4 * p.1 + i, o) else none

/-- A change of owner: the index's counters disabled, their configuration cleared, their values 0, and configuration writes that
wait for them discarded (R481, Table 18-3). -/
def State.changeOwner (s : State) (k o : Nat) : State :=
  if s.cntOwner k = o then s
  else
    let s1 := s.setFld (Reg.CNT_OWN (k / 4)) (8 * (k % 4) + 6) (8 * (k % 4)) o
    { s1 with cnt := { s1.cnt with
      ctrs := s1.cnt.ctrs.filter fun (p : Nat × Counter) => p.1 % 16 != k
      writes := s1.cnt.writes.filter fun w => w.index != k } }

/-- A write to a counter applied: fields that ownership fixes keep their values in force (R482, R485). -/
def State.applyCntWrite (s : State) (w : CntWrite) : State :=
  let c := s.ctr w.block w.index
  s.setCtr w.block w.index (match w.reg with
    | none => { c with value := 0 }
    | some .cfg => { c with cfg := w.value &&& 0xF7FFE7FF#32 }
    | some .filt => { c with filt := w.value &&& 0xFF000000#32 }
    | some .addrBase => { c with addrBase := w.value }
    | some .addrLimit => { c with addrLimit := w.value })

/-- The writes that waited applied, ownership first (its corners, DEDUCED: log entry 102). -/
def State.applyCntWrites (s : State) : State :=
  let s1 := s.ownChanges.foldl (fun u p => u.changeOwner p.1 p.2) s
  let s2 := s1.cnt.writes.foldl (fun u w => u.applyCntWrite w) s1
  { s2 with cnt := { s2.cnt with writes := [], ownWrites := [] } }

/-- Every counter copied into the snapshot with the closing tick (R484). -/
def State.snapshot (s : State) : State :=
  let s1 := s.mapCtrs fun _ c => { c with snap := c.value }
  { s1 with cnt := { s1.cnt with snapTick := s1.tk.count } }

/-! ### Bandwidth monitors (R488, R489) -/

/-- Every monitor changed. -/
def State.mapBw (s : State) (f : BwMon → BwMon) : State :=
  { s with cnt := { s.cnt with bw := s.cnt.bw.foldr (fun p m => smSet (fun _ => BwMon.fresh) m p.1 (f p.2)) [] } }

/-- The bytes of a tick against the peak. -/
def BwMon.endTick (b : BwMon) : BwMon :=
  { b with peakTx := Nat.max b.peakTx b.tickTx, peakRx := Nat.max b.peakRx b.tickRx, tickTx := 0, tickRx := 0 }

/-- The counts of a window copied, and restarted. -/
def BwMon.close (b : BwMon) : BwMon :=
  { b with lastTx := b.tx, lastRx := b.rx, lastPeakTx := b.peakTx, lastPeakRx := b.peakRx, tx := 0, rx := 0, peakTx := 0, peakRx := 0 }

/-- The counts of a window restarted. -/
def BwMon.restart (b : BwMon) : BwMon := { b with tx := 0, rx := 0, tickTx := 0, tickRx := 0, peakTx := 0, peakRx := 0 }

/-- A window of monitors without its counts closes. -/
def State.bwClose (s : State) : State :=
  let s1 := s.mapBw BwMon.close
  let s2 := { s1 with cnt := { s1.cnt with bwTicks := 0 } }
  if (s.reg Reg.CNT_BW_CFG).bit 31 then s2.raisePf 0xA002 [wordOf (s.fld Reg.CNT_BW_CFG 15 0), wordOf s.tk.count.toNat] else s2

/-- The window of the monitors has had its ticks. -/
def State.bwFull (s : State) : Bool := decide (s.fld Reg.CNT_BW_CFG 15 0 + 1 ≤ s.cnt.bwTicks)

/-- A tick ends for the monitors, and its window when it is full. -/
def State.bwTick (s : State) : State :=
  let s1 := s.mapBw BwMon.endTick
  let s2 := { s1 with cnt := { s1.cnt with bwTicks := s1.cnt.bwTicks + 1 } }
  if s2.bwFull then s2.bwClose else s2

/-- A write to CNT_BW_CFG that waited: a window starts with the next tick (its corners, DEDUCED: log entry 102). -/
def State.bwApply (s : State) : State :=
  match s.cnt.bwDue with
  | none => s
  | some v =>
    let s1 := (s.setReg Reg.CNT_BW_CFG (v &&& 0x8000FFFF#32)).mapBw BwMon.restart
    { s1 with cnt := { s1.cnt with bwDue := none, bwTicks := 0 } }

/-- BW_WINDOW_CLOSE: the window closes once it has had its ticks. -/
def execBwWindowClose (s : State) : Host.Outcome State Fault Refusal := keep s (if s.bwFull then s.bwClose else s)

/-- Phase E of the counters: the tick's counts, the window of the monitors, the writes that waited, HOLD, the snapshot (R483 to R490) (its corners, DEDUCED: log entry 102). -/
def State.countE (s : State) (replayed : Bool) : State :=
  let held := s.cnt.holding
  let s1 := if held then s else (s.addShadows replayed).bwTick
  let s2 := s1.applyCntWrites.bwApply
  let s3 := match s2.cnt.holdDue with
    | some h => { s2 with cnt := { s2.cnt with holding := h, holdDue := none } }
    | none => s2
  if held && s3.cnt.holding then s3 else s3.snapshot

/-! ### Calibration (R132 to R134) -/

/-- A write to a calibration register waits for the landing. -/
def State.writeCal (s : State) (g : Nat) (r : CalReg) (v : Word) : State := { s with cal := { s.cal with writes := s.cal.writes ++ [(g, r, v)] } }

/-- CAL_CONFIG_WRITE. -/
def execCalConfigWrite (gal : BitVec 3) (reg : CalReg) (value : Word) (s : State) : Host.Outcome State Fault Refusal :=
  keep s (s.writeCal gal.toNat reg value)

/-- The counts of a slot. -/
def State.calAt (s : State) (g n : Nat) : CalCount := smGet (fun _ => CalCount.fresh) s.cal.counts (256 * g + n)

/-- The counts of a slot restarted. -/
def State.calRestart (s : State) (g n : Nat) : State :=
  { s with cal := { s.cal with counts := smErase s.cal.counts (256 * g + n) } }

/-- The counts of a slot at the end of a window copied, its drift told (R132, R134). -/
def State.calCloseSlot (s : State) (g n : Nat) : State :=
  let w := s.reg (Reg.GAL_CAL_CFG g n)
  let owner := w.field 30 24
  if !w.bit 31 ∨ !(decide (owner < 64) || owner == 0x7F) then s
  else
    let c := s.calAt g n
    let sat := Nat.min c.sat 0xFFFFFFFF
    let s1 := ((s.setReg (Reg.GAL_CAL_SAT g n) (wordOf sat)).setReg64 (Reg.GAL_CAL_ELEM_LO g n) (Reg.GAL_CAL_ELEM_HI g n) c.elem).calRestart g n
    if w.field 15 0 * c.elem < sat * 0x100000 then
      let payload := [wordOf g, wordOf n, wordOf sat, wordOf c.elem, wordOf (c.elem / 0x100000000 % 0x10000), wordOf s.tk.count.toNat]
      if owner = 0x7F then s1.raisePf 0x2001 payload else s1.raiseInst 0x2001 owner payload
    else s1

/-- The slots of a gallery whose configuration waits to change. -/
def State.calTouched (s : State) (g n : Nat) : Bool :=
  s.cal.writes.any fun w => w.1 == g && match w.2.1 with
    | .cfg k => k.toNat == n
    | .window => false

/-- The size of a gallery's window waits to change. -/
def State.calWindowTouched (s : State) (g : Nat) : Bool :=
  s.cal.writes.any fun w => w.1 == g && match w.2.1 with
    | .cfg _ => false
    | .window => true

/-- A gallery's window has had its committed ticks. -/
def State.calFull (s : State) (g : Nat) : Bool :=
  let n := s.fld (Reg.GAL_CAL_WINDOW g) 15 0
  n != 0 && decide (n ≤ natAt s.cal.ticks g)

/-- Committed ticks of a gallery's window set. -/
def State.setCalTicks (s : State) (g n : Nat) : State := { s with cal := { s.cal with ticks := s.cal.ticks.set g n } }

/-- A gallery's window closes; a slot whose configuration changes at this landing restarts without it (R133). -/
def State.calClose (s : State) (g : Nat) : State :=
  ((List.range 256).foldl (fun u n => if u.calTouched g n then u else u.calCloseSlot g n) s).setCalTicks g 0

/-- CAL_WINDOW_CLOSE: a gallery's window closes once it has had its ticks. -/
def execCalWindowClose (gal : BitVec 3) (s : State) : Host.Outcome State Fault Refusal :=
  keep s (if s.calFull gal.toNat then s.calClose gal.toNat else s)

/-- A write to a calibration register takes effect: the counts it touches restart (R133). -/
def State.calApply (s : State) (w : Nat × CalReg × Word) : State :=
  match w.2.1 with
  | .window =>
    let s1 := s.setReg (Reg.GAL_CAL_WINDOW w.1) (w.2.2 &&& 0xFFFF#32)
    { s1 with cal := { s1.cal with counts := smEraseRange s1.cal.counts (256 * w.1) (256 * w.1 + 256) } }.setCalTicks w.1 0
  | .cfg n => (s.setReg (Reg.GAL_CAL_CFG w.1 n.toNat) (w.2.2 &&& 0xFF00FFFF#32)).calRestart w.1 n.toNat

/-- Phase E of calibration: a committed tick counted and full windows closed, then the writes that waited. -/
def State.calE (s : State) (replayed : Bool) : State :=
  let s1 := if replayed then s else (List.range 8).foldl (fun u g =>
    let n := u.fld (Reg.GAL_CAL_WINDOW g) 15 0
    if n = 0 || u.calWindowTouched g then u
    else
      let v := u.setCalTicks g (natAt u.cal.ticks g + 1)
      if v.calFull g then v.calClose g else v) s
  let s2 := s1.cal.writes.foldl (fun u w => u.calApply w) s1
  { s2 with cal := { s2.cal with writes := [] } }

end Sys2Proof.Machine
end

