-- ==== Sys2Proof/Machine/Bind.lean ====
section
/-! DEFINITION. The seat binder: eligibility, credits, tick stems, the choice for each seat (R57 to R60, R210, R223, R365 to
R368). -/

namespace Sys2Proof.Machine

/-! ### Eligible requests -/

/-- A batch was admitted before its object's TRAIN_STEP. -/
def State.beforeStep (s : State) (r : Request) (id : Nat) : Bool :=
  (s.hs.reqs.takeWhile fun q => !(q.live && q.opcode == Op.trainStep && q.lexId == some id)).any fun q => q.handle == r.handle

/-- What the step of its object lets a training request do: a TRAIN_STEP once its step is APPLYING, or REAPPLYING with the write
plane free at stage 0; a batch while the step is OPEN, or CLOSED by a later TRAIN_STEP (R250, R251, R254) (its corners, DEDUCED: log entry 104). -/
def State.trainReady (s : State) (r : Request) : Bool :=
  match r.lexId with
  | none => true
  | some id =>
    let t := s.trainAt id
    if r.opcode = Op.trainStep then t.state == 2 || (t.state == 3 && (r.stage != 0 || s.planeFree id))
    else if r.opcode = Op.trainBatch then t.state == 0 || (t.state == 1 && s.beforeStep r id)
    else true

/-- A flight switch in DRAIN mode that is pending stops new binding on the flight that it replaces (R50, R70) (its corners, DEDUCED: log entry 104). -/
def State.drains (s : State) (pair : Nat) : Bool :=
  s.flights.switches.any fun w => !w.immediate && (w.pair == 0 || w.pair == pair || s.changesContract w.pair)

/-- A request that may be seated on a flight: in progress, not parked, nothing awaited, its instance not frozen, its training step
ready; while the flight drains, only one that was seated. -/
def State.mayRun (s : State) (pair : Nat) (r : Request) : Bool :=
  r.live && (r.state == 2 || (r.state == 1 && !s.drains pair)) && r.waits.isEmpty && r.wait == 0 && !s.frozen r.inst && s.trainReady r

/-- A request fits a seat of a running flight: route, next stage, class, overflow mark; in partition mode the partition that runs on
the gallery is its instance's (R57, R59, R71, R210). -/
def State.fitsSeat (s : State) (run : Running) (t : Template) (r : Request) : Bool :=
  r.route == t.route && r.stage == t.stage && r.cls == t.cls && r.mark == t.overflow
    && (run.pair == 0 || match s.partOf t.gal with
      | some q => q.inst == r.inst
      | none => false)

/-- The seats of the program at a flight's position, on a gallery, in ascending slot order. -/
def Running.seatsOn (run : Running) (g : Nat) : List Template :=
  (run.templates.filter fun t => t.program == run.pos && t.gal == g).insertionSort fun a b => a.slot ≤ b.slot

/-- The instance that owns a slot. -/
def State.slotOwner (s : State) (slot : Nat) : Option Nat :=
  (List.range 64).find? fun n => decide ((s.seatR n).1 ≤ slot ∧ slot < (s.seatR n).1 + (s.seatR n).2)

/-- ISOLATE of an instance. -/
def State.isolated (s : State) (n : Nat) : Bool := (s.reg (Reg.DEV_SHARE n)).bit 9

/-- An instance may take a pool seat: not isolated, credit left (R365, R368). -/
def State.poolShare (s : State) (n : Nat) : Bool := !s.isolated n && decide (0 < (s.instAt n).credit)

/-- A slot may serve the pool: no owner, or an owner without ISOLATE. -/
def State.poolSlot (s : State) (slot : Nat) : Bool :=
  match s.slotOwner slot with
  | some n => !s.isolated n
  | none => true

/-- An instance has share left for a seat. -/
def State.shareLeft (s : State) (run : Running) (t : Template) (n : Nat) : Bool :=
  run.pair != 0 || s.slotOwner t.slot == some n || (s.poolSlot t.slot && s.poolShare n)

/-! ### The order of R59 -/

/-- The place of a request in the order: class of choice, then the figure that orders it, least first.  The stages of a second pass
come first, as a deferred request does (R59, R270). -/
def State.rank (s : State) (r : Request) : Nat × Int :=
  if r.deferredLast ∨ (r.opcode = Op.trainStep ∧ r.pass = 1) then (0, 0)
  else if r.cls = 0 then (1, r.admitted.toNat + r.deadline)
  else (2, -(s.instAt r.inst).credit)

/-- One request comes before another; ties go to the lower handle index. -/
def State.before (s : State) (a b : Request) : Bool :=
  let x := s.rank a
  let y := s.rank b
  decide (x.1 < y.1) || (x.1 == y.1 && (decide (x.2 < y.2) || (x.2 == y.2 && decide (a.handle < b.handle))))

/-- The first request of a list in the order. -/
def State.first (s : State) (rs : List Request) : Option Request :=
  rs.foldl (fun best r => match best with
    | some b => if s.before r b then some r else some b
    | none => some r) none

/-! ### Credits and tick stems -/

/-- The seats of the next tick, with their flights. -/
def State.nextSeats (s : State) : List (Running × Template) :=
  s.runs.flatMap fun run => (List.range 8).flatMap fun g => (run.seatsOn g).map fun t => (run, t)

/-- A request is eligible for some seat of the next tick, whatever its share and its stem (its corners, DEDUCED: log entry 104). -/
def State.eligible (s : State) (r : Request) : Bool := s.nextSeats.any fun x => s.fitsSeat x.1 x.2 r && s.mayRun x.1.pair r

/-- The credit of every instance updated; a frozen instance's is suspended (R367, R371) (its corners, DEDUCED: log entry 104). -/
def State.creditStep (s : State) : State :=
  if s.partitionMode then s
  else ((List.range 64).filter fun n => !s.frozen n).foldl (fun u n =>
    let share : Int := 256 * s.fld (Reg.DEV_SHARE n) 31 16
    let ready := s.hs.reqs.any fun r => r.inst == n && s.eligible r
    u.updInst n fun i =>
      { i with credit := if ready then min (i.credit + share) (share * s.fld (Reg.DEV_SHARE n) 15 10) else min i.credit 0 }) s

/-- The tick stem of a gallery: that of the first request which could be seated there; with none it stays (R223) (its corners, DEDUCED: log entry 104). -/
def State.stemStep (s : State) (g : Nat) : State :=
  let xs := s.nextSeats.filter fun x => x.2.gal == g
  let rs := s.hs.reqs.filter fun r => xs.any fun x => s.fitsSeat x.1 x.2 r && s.mayRun x.1.pair r && s.shareLeft x.1 x.2 r.inst
  match s.first rs with
  | some r => { s with tk := { s.tk with tickStem := (List.range 8).map fun i => if i = g then r.stem else natAt s.tk.tickStem i } }
  | none => s

/-! ### Binding -/

/-- The request that a seat takes, and whether the seat serves the pool: an owner's own slot first, an empty one lent unless its
owner is isolated (R59, R365, R368). -/
def State.choose (s : State) (run : Running) (t : Template) : Option (Request × Bool) :=
  let cs := s.hs.reqs.filter fun r => s.fitsSeat run t r && s.mayRun run.pair r && r.stem == natAt s.tk.tickStem t.gal
    && !(s.tk.seats.any fun x => x.handle == r.handle)
  if run.pair ≠ 0 then (s.first cs).map fun r => (r, false)
  else
    let own := match s.slotOwner t.slot with
      | some n => s.first (cs.filter fun r => r.inst == n)
      | none => none
    match own with
    | some r => some (r, false)
    | none => if s.poolSlot t.slot then (s.first (cs.filter fun r => s.poolShare r.inst)).map fun r => (r, true) else none

/-- The input pages of a request that is seated become immutable for the host (R39). -/
def State.freezeInput (s : State) (r : Request) : State :=
  if r.inBytes = 0 ∨ s.hs.immutable.any fun x => x.1 == r.handle then s
  else { s with hs := { s.hs with immutable := s.hs.immutable ++ [(r.handle, r.inOff, r.inBytes)] } }

/-- A seat bound: the request SEATED, its instance's credit charged for a pool seat, fills issued for the stages ahead, and for its own
stage when it was deferred; the step blocks of a training step written (R39, R63, R266, R295, R368). -/
def State.bindSeat (s : State) (run : Running) (t : Template) (r : Request) (pool : Bool) : State :=
  let cost := run.cost t
  let seat : Seat := ⟨t.gal, t.slot, t.tid, r.handle, r.inst, cost, pool, false, t.overflow, t.stream, t.cls⟩
  let s1 := (s.freezeInput r).updReq r.handle fun q => { q with state := 2 }
  let s2 := if pool then s1.updInst r.inst fun i => { i with credit := i.credit - cost } else s1
  let s3 := { s2 with tk := { s2.tk with seats := s2.tk.seats ++ [seat] } }
  let ahead := s3.lookahead r.inst
  let s4 := if r.deferredLast then s3.issueFills run t.route r.inst r.handle t.stage (ahead + 1) else s3.issueFills run t.route r.inst r.handle (t.stage + 1) ahead
  let s5 := if r.opcode = Op.trainStep then s4.writeStepBlocks r t.gal else s4
  s5.tally ⟨0x20 * t.gal + 24, 1, 7, some r.inst, some (t.stream, t.cls), 0xFF, none, 1⟩

/-- Requests that found no seat: ADMITTED again, and those eligible counted as waiting (R60, Table 12-13) (its corners, DEDUCED: log entry 104). -/
def State.unseat (s : State) : State :=
  let out := s.hs.reqs.filter fun r => r.live && !(s.tk.seats.any fun x => x.handle == r.handle)
  let s1 := (out.filter fun r => r.state == 1 || r.state == 2).foldl (fun u r => u.updReq r.handle fun q => { q with state := 1, deferredLast := false }) s
  (out.filter s.eligible).foldl (fun u r => u.updInst r.inst fun i => { i with waited := i.waited + 1 }) s1

/-- A gallery with no request seated keeps its tick stem from the tick before (R223). -/
def State.keepStems (s : State) (before : List Nat) : State :=
  let stem := fun g => natAt (if s.tk.seats.any fun x => x.gal == g then s.tk.tickStem else before) g
  { s with tk := { s.tk with tickStem := (List.range 8).map stem } }

/-- The seats of the next tick bound: credits, tick stems, then gallery by gallery and slot by slot (R59, R223, R367). -/
def State.bindAll (s : State) : State :=
  let s1 := { s with tk := { s.tk with seats := [] } }.creditStep
  let s2 := (List.range 8).foldl (fun u g => u.stemStep g) s1
  ((s2.nextSeats.foldl (fun u x => match u.choose x.1 x.2 with
    | some (r, pool) => u.bindSeat x.1 x.2 r pool
    | none => u) s2).keepStems s.tk.tickStem).unseat

end Sys2Proof.Machine
end

