-- ==== Sys2Proof/Machine/Fetch.lean ====
section
/-! DEFINITION. The fetch engine's window fills: where the bytes of a window come from, and their arrival in the fetch buffer (R286, R294 to
R296). -/

namespace Sys2Proof.Machine

/-- The port of the drive that a fill's first byte comes from, where it comes from the flash tier (Table 18-1). -/
def State.fillPort (s : State) (f : Fill) : Nat :=
  let man := (s.reqAt f.handle).bind fun r =>
    if f.desc.hmode = 1 then ((s.stemAt r.stem).projs[f.desc.stemProj.toNat]?).bind (·.man)
    else (windowRecord r f.desc.obj.toNat).bind fun id => (s.lexAt id).man
  let src := man.bind fun m =>
    (m.shards.find? fun x => decide (64 * x.targetOff ≤ xHbm f.desc ∧ xHbm f.desc < 64 * x.targetOff + x.bytes)).bind fun x =>
      ((m.sources.drop x.srcFirst).take x.srcCount).find? fun y => y.type == 1
  (src.map fun y => s.drivePort y.addr).getD 0

/-- A fill's data in the fetch buffer. -/
def State.fillPresent (s : State) (f : Fill) (bs : List Byte) : State :=
  { s with ls := { s.ls with fills := s.ls.fills.map fun x => if x.gal = f.gal ∧ x.window = f.window then { x with data := bs, present := true } else x } }

/-- An arrival is that of a fill from what the device asked for: the tier and its bytes, and for the flash tier the drive's port (its corners,
DESIGN CHOICE: log entry 109). -/
def State.arrives (s : State) (f : Fill) (tier port : Nat) (data : List Byte) : Bool :=
  s.fillSource f == some (tier, data) && (tier != 1 || s.fillPort f == port)

/-- FETCH_ARRIVAL: the data of a fill that was issued reaches the fetch buffer from the first tier of R296 that holds it, when the instance's share has
room for it and its budget covers the bytes of a host or flash tier; else the fill waits (R286, R294 to R296). -/
def execFetchArrival (gal : BitVec 3) (window : BitVec 16) (tier : BitVec 2) (port : BitVec 3) (data : List Byte) (s : State) :
    Host.Outcome State Fault Refusal :=
  keep s (match s.fillOf gal.toNat window.toNat with
    | none => s
    | some f =>
      let t := tier.toNat
      let left := f.bytes - f.got
      let charged := decide (t ≤ 1) && f.inst != 0
      if !s.arrives f t port.toNat data || f.present || (f.inst != 0 && decide (s.bufferShare f.inst < s.bufferHeld f.inst + f.bytes))
          || (charged && !s.covered f.inst (.fill f.gal f.window) left) then s
      else ((if charged then s.charge f.inst left else s).fillPresent f data).tallyFetch (some f.inst) t port.toNat f.bytes)

end Sys2Proof.Machine
end

