-- ==== Sys2Proof/Machine/Sync.lean ====
section
/-! DEFINITION. Tick-sync: pulses, the sync state machine and its control register (R67 to R69). -/

namespace Sys2Proof.Machine

/-- State of tick-sync: 0 OFF, 1 ACQUIRING, 2 LOCKED, 3 HOLDOVER, 4 FREERUN, 5 SUSPENDED. -/
def State.syncState (s : State) : Nat := s.fld Reg.TCK_SYNC_STATUS 31 29

/-- Tick-sync in a state. -/
def State.setSync (s : State) (st : Nat) : State := s.setFld Reg.TCK_SYNC_STATUS 31 29 st

/-- Ticks between two pulses: one in MODE 1, 2^K in MODE 2. -/
def State.syncTicks (s : State) : Nat :=
  if s.fld Reg.TCK_SYNC_CTRL 31 30 = 2 then 2 ^ s.fld Reg.TCK_SYNC_CTRL 20 16 else 1

/-- The expected interval of pulses, in ns. -/
def State.syncNs (s : State) : Nat := s.syncTicks * 250 * s.fld Reg.TCK_PERIOD 6 0

/-- An interval within ±0.05 % of the expected one (R67). -/
def State.syncFits (s : State) (ns : Nat) : Bool :=
  let e := s.syncNs
  decide (2000 * ns ≤ 2001 * e) && decide (1999 * e ≤ 2000 * ns)

/-- The trim the clock takes at an accepted edge while locked: a free value of at most 500 ppm either way (R68). -/
def State.setTrim (s : State) : State :=
  let (v, s1) := s.free
  let t := v % 1001
  s1.setFld Reg.TCK_SYNC_STATUS 28 16 (if 500 ≤ t then t - 500 else 8192 - (500 - t))

/-- No trim. -/
def State.noTrim (s : State) : State := s.setFld Reg.TCK_SYNC_STATUS 28 16 0

/-- The tick in progress, as payload. -/
def State.tickPayload (s : State) : List Word := [wordOf s.tk.count.toNat]

/-- A pulse accepted. -/
def State.syncAccept (s : State) (phase : Nat) : State :=
  let n := s.sync.accepted + 1
  let s1 := { s with sync := { s.sync with accepted := n, measured := true } }
  match s.syncState with
  | 1 => if 8 ≤ n ∧ phase ≤ 24 then ((s1.setSync 2).setTrim).raisePf 0x1020 s.tickPayload else s1
  | 2 => s1.setTrim
  | _ => s1.setSync 1

/-- A pulse rejected: in ACQUIRING the pulses in a row start again (R67, R69). -/
def State.syncReject (s : State) : State :=
  ({ s with sync := { s.sync with accepted := if s.syncState = 2 then s.sync.accepted else 0 } }).count Reg.TCK_SYNC_STATUS 15 0 1

/-- TICK_SYNC: an active edge, its width, its interval from the last accepted pulse, and its phase error in cycles.  While no pulse has been
accepted there is no interval to hold one against, and in HOLDOVER and FREERUN any pulse is accepted; in OFF and SUSPENDED a pulse is ignored and
not counted (R67, R69, DESIGN CHOICE: log entry 46). -/
def execTickSync (widthNs intervalNs phaseCycles : BitVec 32) (s : State) : Host.Outcome State Fault Refusal :=
  let st := s.syncState
  keep s (if widthNs.toNat < 40 ∨ st = 0 ∨ 5 ≤ st then s
    else
      let fresh := 3 ≤ st || !s.sync.measured
      let s1 := { s with sync := { s.sync with lastNs := intervalNs.toNat, accepted := if fresh then 0 else s.sync.accepted } }
      if fresh || s1.syncFits intervalNs.toNat then s1.syncAccept phaseCycles.toNat else s1.syncReject)

/-- The fields of TCK_SYNC_CTRL written: a reserved MODE, a K outside 1 to 16 and an OFFSET not less than the budget leave their
field as it is. -/
def State.writeSyncCtrl (s : State) (v : Word) : State :=
  if (s.reg Reg.DEV_BOOT_STATUS).bit 12 then s
  else
    let old := s.syncState
    let mode := if v.field 31 30 = 3 then s.fld Reg.TCK_SYNC_CTRL 31 30 else v.field 31 30
    let k := if 1 ≤ v.field 20 16 ∧ v.field 20 16 ≤ 16 then v.field 20 16 else s.fld Reg.TCK_SYNC_CTRL 20 16
    let off := if v.field 15 0 < 600 * s.fld Reg.TCK_PERIOD 6 0 then v.field 15 0 else s.fld Reg.TCK_SYNC_CTRL 15 0
    let s1 := s.setReg Reg.TCK_SYNC_CTRL (wordOf (mode * 0x40000000 + v.field 29 29 * 0x20000000 + k * 0x10000 + off))
    let fresh := fun (t : State) => { t with sync := { t.sync with accepted := 0, measured := false } }
    if mode = 0 then ((fresh s1).setSync 0).noTrim
    else if old ≠ 0 then s1
    else
      let factor := s.fld Reg.TCK_STRETCH 8 0
      if factor ≤ 256 then (fresh s1).setSync 1 else ((fresh s1).setSync 5).raisePf 0x1024 [wordOf factor]

/-- TCK_SYNC_CTRL_WRITE. -/
def execTckSyncCtrlWrite (value : Word) (s : State) : Host.Outcome State Fault Refusal := keep s (s.writeSyncCtrl value)

/-- SYNC_HOLDOVER: locked, and no pulse accepted for 1.5 expected intervals (Table 2-15). -/
def execSyncHoldover (s : State) : Host.Outcome State Fault Refusal :=
  keep s (if s.syncState = 2 then (s.setSync 3).raisePf 0x1021 s.tickPayload else s)

/-- SYNC_FREERUN: a second of HOLDOVER without an accepted pulse; the trim is zero (Table 2-15, R69). -/
def execSyncFreerun (s : State) : Host.Outcome State Fault Refusal :=
  keep s (if s.syncState = 3 then ((s.setSync 4).noTrim).raisePf 0x1022 s.tickPayload else s)

/-- A second has passed since EV_SYNC_OUT_OF_WINDOW was last raised. -/
def State.windowEventDue (s : State) : Bool :=
  match s.sync.lastWindowEvent with
  | some t => decide (t + secondUnits ≤ s.tk.now)
  | none => true

/-- SYNC_OUT_OF_WINDOW: a second of ACQUIRING with no pulse accepted; the event comes at most once a second, and the next pulse is the first of a
new row (Table 2-15, DESIGN CHOICE: log entry 46). -/
def execSyncOutOfWindow (s : State) : Host.Outcome State Fault Refusal :=
  keep s (if s.syncState = 1 ∧ s.windowEventDue then
      { s with sync := { s.sync with lastWindowEvent := some s.tk.now, accepted := 0, measured := false } }.raisePf 0x1023 [wordOf s.sync.lastNs]
    else s)

end Sys2Proof.Machine
end

