-- ==== Sys2Proof/Machine/View.lean ====
section
/-! DEFINITION. What a register reads as for a function (R9, R328), and the reads that latch. -/

namespace Sys2Proof.Machine

/-- The latch that a function holds for a register. -/
def State.latched (s : State) (fn off : Nat) : Option Word := s.latch.lookup (regKey (fn + 1) off)

/-- A register latched for a function. -/
def State.setLatch (s : State) (fn off : Nat) (v : Word) : State := { s with latch := smInsert s.latch (regKey (fn + 1) off) v }

/-- The two halves of a 64-bit value that a LO register latches. -/
def State.loHi (s : State) (fn lo off v : Nat) : Word :=
  if off = lo then wordOf v else (s.latched fn off).getD (wordOf (v / 0x100000000))

/-- A count in `w` bits that saturates. -/
def satBits (w n : Nat) : Word := wordOf (Nat.min n (2 ^ w - 1))

/-! ### Counters (R482, R484, R488) -/

/-- The block and index that a function selects, when it owns the index. -/
def State.ctrMine (s : State) (fn : Nat) : Option (Nat × Nat) :=
  let (b, k) := s.cntSel fn
  if cntBlockExists b && s.ownsCounter fn k then some (b, k) else none

/-- The snapshot a function reads: the one it latched last, else the newest (R484). -/
def State.snapOf (s : State) (fn b k : Nat) : Nat :=
  match s.cnt.latched.lookup fn with
  | some (_, m) => smGet (fun _ => 0) m (16 * b + k)
  | none => (s.ctr b k).snap

/-- The tick of the snapshot a function reads. -/
def State.snapTickOf (s : State) (fn : Nat) : Nat :=
  match s.cnt.latched.lookup fn with
  | some (t, _) => t.toNat
  | none => s.cnt.snapTick.toNat

/-- The selected monitor. -/
def State.bwAt (s : State) : BwMon := smGet (fun _ => BwMon.fresh) s.cnt.bw (s.fld Reg.CNT_BW_SEL 5 0)

/-- A peak in units of 64 KiB, rounded up. -/
def peakUnits (n : Nat) : Nat := Nat.min (ceilDiv n 0x10000) 0xFFFF

/-- A counter register as a function reads it: a configuration reads as it was last written, in force or not (R9). -/
def State.cntView (s : State) (fn off : Nat) : Option Word :=
  let mine := fun (f : Nat → Nat → Word) => some (match s.ctrMine fn with
    | some (b, k) => f b k
    | none => 0)
  let last := fun (b k : Nat) (r : CntReg) (old : Word) =>
    match s.cnt.writes.reverse.find? fun w => w.block == b && w.index == k && w.reg == some r with
    | some w => w.value
    | none => old
  if off = Reg.CNT_CFG then mine fun b k => cntCfgInForce (s.cntOwner k) ((s.wordFor off (last b k .cfg (s.ctr b k).cfg)).setField 27 27 0)
  else if off = Reg.CNT_FILT then mine fun b k => s.wordFor off (last b k .filt (s.ctr b k).filt)
  else if off = Reg.CNT_ADDR_BASE then mine fun b k => last b k .addrBase (s.ctr b k).addrBase
  else if off = Reg.CNT_ADDR_LIMIT then mine fun b k => last b k .addrLimit (s.ctr b k).addrLimit
  else if off = Reg.CNT_VAL_LO then mine fun b k => wordOf (s.snapOf fn b k)
  else if off = Reg.CNT_VAL_HI then mine fun b k => wordOf (s.snapOf fn b k / 0x100000000)
  else if off = Reg.CNT_SNAP_TICK_LO then some (wordOf (s.snapTickOf fn))
  else if off = Reg.CNT_SNAP_TICK_HI then some (wordOf (s.snapTickOf fn / 0x100000000))
  else if off = Reg.CNT_BW_TX_LO ∨ off = Reg.CNT_BW_TX_HI then some (s.loHi fn Reg.CNT_BW_TX_LO off s.bwAt.lastTx)
  else if off = Reg.CNT_BW_RX_LO ∨ off = Reg.CNT_BW_RX_HI then some (s.loHi fn Reg.CNT_BW_RX_LO off s.bwAt.lastRx)
  else if off = Reg.CNT_BW_PEAK then some (wordOf (peakUnits s.bwAt.lastPeakTx * 0x10000 + peakUnits s.bwAt.lastPeakRx))
  else if off = Reg.CNT_BW_CFG then s.cnt.bwDue.map (· &&& 0x8000FFFF#32)
  else none

/-! ### Counts and states that the device computes -/

/-- The requests that are PARKED, of one instance or of the package. -/
def State.parkedCount (s : State) (inst : Option Nat) : Nat :=
  s.hs.reqs.countP fun r => r.state == 0 && (inst.isNone || inst == some r.inst)

/-- The steps that are HELD, of one instance or of the package. -/
def State.heldSteps (s : State) (inst : Option Nat) : Nat :=
  s.ls.train.countP fun p => p.2.state == 4 && (inst.isNone || inst == some (s.lexAt p.1).inst)

/-- The lexicon entries in use, of one instance or of the package. -/
def State.lexUsed (s : State) (inst : Option Nat) : Nat :=
  s.ls.lex.countP fun p => p.2.kind != 0 && (inst.isNone || inst == some p.2.inst)

/-- The sums of the held step that a function selects. -/
def State.gateView (s : State) (fn : Nat) : GroupSum :=
  let id := (s.regC (fn + 1) Reg.LEX_GATE_ID).field 23 0
  let t := s.trainAt id
  if s.lexVisible fn false id && t.state == 4 then
    (t.sums[(s.regC (fn + 1) Reg.LEX_GATE_GROUP).field 7 0]?).getD ⟨0, 0, 0, 0⟩
  else ⟨0, 0, 0, 0⟩

/-- The engine time of the handle that a function selects (R369). -/
def State.acctView (s : State) (fn : Nat) : Nat :=
  match s.handleOf fn (s.regC (fn + 1) Reg.DEV_ACCT_HANDLE) with
  | some h => (s.handleAt h).eng
  | none => 0

/-- CREDIT in two's complement, saturating. -/
def creditWord (c : Int) : Word := BitVec.ofInt 32 (max (-2147483648) (min c 2147483647))

/-- The instance whose range holds a key slot; 0 with none (its corners, DEDUCED: log entry 103). -/
def State.keyInst (s : State) (slot : Nat) : Nat :=
  ((List.range 64).find? fun n => decide ((s.keyR n).1 ≤ slot ∧ slot < (s.keyR n).1 + (s.keyR n).2)).getD 0

/-- A window word at the last landing; 0 in the range of an instance that holds key slots (R347, R406) (its corners, DEDUCED: log entry 103). -/
def State.dbgWord (s : State) (w : Nat) : Word :=
  let a := s.reg64 Reg.WIN_DBG_ADDR_LO Reg.WIN_DBG_ADDR_HI / 4096 * 4096 + 4 * w
  match s.winOwner a with
  | some n => if (s.keyR n).2 ≠ 0 then 0 else memWord (if s.galFenced (s.fld (Reg.WIN_RANGE n) 4 2) then s.mem.seenM else s.mem.seen) a
  | none => 0

/-- A register of a gallery block: the fault count of the sliding window stands beside what is stored (R418). -/
def State.galView (s : State) (off : Nat) : Word :=
  let g := off / 0x100000 - 1
  let o := off % 0x100000
  let w := s.reg off
  let unit := o % 0x10000 / 0x40
  let with_ := fun (d : Nat) => w.setField 7 0 (Nat.min 255 (s.faultWindow d g unit))
  if o % 0x40 ≠ 0 then w
  else match o / 0x10000 with
    | 1 => with_ 0
    | 2 => with_ 1
    | 3 => with_ 2
    | 4 => if unit < 3 then with_ (if unit = 0 then 6 else 7) else w
    | _ => w

/-- The index of a set's register at an offset with base `b`, stride `d` and count `n`. -/
def setIndex (b d n off : Nat) : Option Nat := if b ≤ off ∧ off < b + d * n ∧ (off - b) % d = 0 then some ((off - b) / d) else none

/-- A register whose value the device computes, as the physical function (`vf` false) or a virtual function reads it. -/
def State.computedView (s : State) (fn off : Nat) : Option Word :=
  let scope := if fn = 0 then none else some fn
  let own := fn + 1
  if off = Reg.TCK_COUNT_LO ∨ off = Reg.TCK_COUNT_HI then some (s.loHi fn Reg.TCK_COUNT_LO off s.tk.count.toNat)
  else if off = Reg.LEX_STATUS then some (wordOf (Nat.min (s.lexUsed scope) 0x1FFFFFF * 128 + if fn = 0 then 0 else s.stemSel fn))
  else if off = Reg.LEX_GATE_HELD then some (satBits 16 (s.heldSteps scope))
  else if off = Reg.LEX_GATE_G2 then some (s.gateView fn).g2
  else if off = Reg.LEX_GATE_NONFIN then some (satBits 32 (s.gateView fn).nonfin)
  else if off = Reg.RES_PARKED then some (satBits 17 (s.parkedCount scope))
  else if off = Reg.ERR_POISON then some (wordOf (Nat.min (s.faults.poison.countP fun p => !s.pageWithheld p) 0xFFFF * 0x10000 + Nat.min s.faults.withheld.length 0xFFFF))
  else if off = Reg.DEV_ACCT_CYC_LO ∨ off = Reg.DEV_ACCT_CYC_HI then some (s.loHi fn Reg.DEV_ACCT_CYC_LO off (s.acctView fn))
  else if off = Reg.WIN_ATTACH_STATE then some ((s.regC own off).setField 16 0 (Nat.min (s.heldFor fn) 0x1FFFF))
  else if off = Reg.ERR_LAST_TICK_HI then s.latched fn off
  else if off = Reg.BBX_SEQ_LO ∨ off = Reg.BBX_SEQ_HI then some (s.loHi fn Reg.BBX_SEQ_LO off s.bbx.nextSeq.toNat)
  else if off = Reg.SEC_SLOT_STATE ∨ off = Reg.SEC_SLOT_CUR ∨ off = Reg.SEC_SLOT_PREV ∨ off = Reg.SEC_SLOT_PAGES ∨ off = Reg.SEC_SLOT_INFLIGHT then
    let slot := s.fld Reg.SEC_SLOT_SEL 15 0
    let k := s.keyAt slot
    some (if off = Reg.SEC_SLOT_STATE then wordOf (k.state * 0x40000000 + s.keyInst slot * 0x1000000)
      else if off = Reg.SEC_SLOT_CUR then (if k.state = 0 then 0 else k.cur)
      else if off = Reg.SEC_SLOT_PREV then (if k.state = 2 then k.prev else 0)
      else if off = Reg.SEC_SLOT_PAGES then wordOf (if k.state = 2 then s.pagesUnder slot k.prev else 0)
      else wordOf (if k.state = 2 then s.readsUnder slot k.prev else 0))
  else match setIndex (Reg.RES_POOL_FREE 0) 4 8 off with
    | some g => some (if s.fld Reg.RST_STATUS 31 28 = 7 then satBits 21 (s.poolFrames g s.activeFlights - s.framesHeld g) else 0)
    | none => match setIndex (Reg.LEX_STEM_STATUS 0) 4 2 off with
      | some k => some (wordOf ((s.stemAt k).state * 0x10000000
          + if fn = 0 then Nat.min (s.hs.reqs.countP fun r => r.live && r.stem == k) 0x1FFFF else 0))
      | none => match setIndex (Reg.LEX_STEM_DIGEST 0 0) 4 16 off with
        | some i => some (if (s.stemAt (i / 8)).state = 0 then 0 else wordAt (s.stemAt (i / 8)).digest (i % 8))
        | none => match setIndex (Reg.BBX_DATA 0) 4 64 off with
          | some w => some (if (s.reg Reg.BBX_STATUS).bit 0 then s.bbxWord w else 0)
          | none => match setIndex (Reg.WIN_DBG_APERTURE 0) 4 1024 off with
            | some w => some (s.dbgWord w)
            | none => match setIndex (Reg.RES_USED 0 0) 4 512 off with
              | some i => some (satBits 21 (s.instUsed (i / 8) (i % 8)))
              | none => match setIndex (Reg.DEV_CREDIT 0) 0x20 64 off with
                | some n => some (creditWord (s.instAt n).credit)
                | none => match setIndex (Reg.DEV_ENG_LO 0) 0x20 64 off with
                  | some n => some (s.loHi fn off off (s.instAt n).eng)
                  | none => match setIndex (Reg.DEV_ENG_HI 0) 0x20 64 off with
                    | some n => some (s.loHi fn (off - 4) off (s.instAt n).eng)
                    | none => s.cntView fn off

/-- Where a calibration register of a gallery lies. -/
def calOff (g : Nat) : CalReg → Nat
  | .window => Reg.GAL_CAL_WINDOW g
  | .cfg n => Reg.GAL_CAL_CFG g n.toNat

/-- A LEX_STEM_SEL register with the selections that wait for a landing, where there are some. -/
def State.pendingSel (s : State) (off : Nat) : Option Word :=
  let w := (off - Reg.LEX_STEM_SEL 0) / 4
  let waits := s.insts.filterMap fun p => if p.1 / 32 = w then (p.2.resize.reverse.lookup off).map fun v => (p.1 % 32, v.bit (p.1 % 32)) else none
  if waits.isEmpty then none else some (waits.foldl (fun v b => v.setField b.1 b.1 (b2n b.2)) (s.reg off))

/-- A write of a register that waits for a landing: RW returns the value written last (Table 0-3) (its corners, DEDUCED: log entry 102). -/
def State.pendingView (s : State) (off : Nat) : Option Word :=
  match (s.regWrites.reverse.lookup off) with
  | some v => some v
  | none => match if (setIndex (Reg.LEX_STEM_SEL 0) 4 2 off).isSome then s.pendingSel off else s.insts.findSome? fun p => p.2.resize.reverse.lookup off with
    | some v => some v
    | none => match (s.cnt.ownWrites.map fun (p : Nat × Word) => (Reg.CNT_OWN p.1, p.2)).reverse.lookup off with
      | some v => some (s.wordFor off v)
      | none => ((s.cal.writes.map fun (w : Nat × CalReg × Word) => (calOff w.1 w.2.1, w.2.2)).reverse.lookup off).map (s.wordFor off)

/-- Whether a register's HI half latches with its LO half in a gallery's calibration slots. -/
def isCalElemHi (off : Nat) : Bool := decide (0x1C1000 ≤ off % 0x100000 + 0x100000 ∧ off % 0x100000 + 0x100000 < 0x1C2000 ∧ off % 16 = 12 ∧ 0x100000 ≤ off)

/-- A register at an offset of the physical function's map, as a function that sees it reads it. -/
def State.readAt (s : State) (fn off : Nat) : Word :=
  match s.computedView fn off with
  | some w => w
  | none => match s.pendingView off with
    | some w => w
    | none =>
      if 0x100 ≤ off ∧ off < 0x160 then s.reg off
      else match regLookup off with
        | none => 0
        | some r =>
          let w := if 0x100000 ≤ off then
              (if isCalElemHi off then (s.latched fn off).getD (s.reg off) else s.galView off)
            else match r.view with
              | .perFn => s.regC (fn + 1) off
              | .scoped => s.regC (if fn = 0 then 0 else fn + 1) off
              | _ => s.reg off
          r.fields.foldl (fun v f => if f.acc = .wo then v.setField f.hi f.lo 0 else v) w

/-- The offset of the physical function's map that a virtual function's offset names, if it may read it (R328). -/
def vfOffset (fn off : Nat) : Option Nat :=
  if 0x90000 ≤ off then none
  else if 0x100 ≤ off ∧ off < 0x160 then some off
  else match regLookup off with
    | none => none
    | some r => match r.view with
      | .pf => match setIndex (Reg.RES_USED 0 0) 4 8 off with
        | some _ => some (off + 0x20 * fn)
        | none => none
      | .byInst => match r.dims with
        | (d, _) :: _ => if off - r.base < d then some (off + d * fn) else none
        | [] => none
      | _ => some off

/-- What a doorbell page reads as at an offset: SQ_HEAD and the ring's state, CQ_TAIL and the records held; 0 elsewhere (R339, Table
12-5). -/
def State.pageView (s : State) (fn page off : Nat) : Word :=
  match s.pageRing fn page with
  | none => 0
  | some k =>
    let r := s.ringAt k
    if off = 0x10 then wordOf (r.sqPos % r.depth * 0x10000 + r.state * 0x4000)
    else if off = 0x14 then wordOf (r.cqPos % r.depth * 0x10000) ||| satBits 16 (r.held.length + r.heldEv.length)
    else 0

/-- The doorbell page at an offset of a function's BAR0, and the offset in it (R328, Table 12-2). -/
def doorbellAt (fn off : Nat) : Option (Nat × Nat) :=
  let (base, pages) := if fn = 0 then (0x4000000, 16384) else (0x400000, 1024)
  if base ≤ off ∧ off < base + 4096 * pages then some ((off - base) / 4096, off % 4096) else none

/-- What a register reads as for a function: 0 at an offset that names none the function sees (R9, R10, R328). -/
def State.regView (s : State) (fn off : Nat) : Word :=
  match doorbellAt fn off with
  | some x => s.pageView fn x.1 x.2
  | none =>
  if fn = 0 then s.readAt 0 off
  else match vfOffset fn off with
    | some o => s.readAt fn o
    | none => 0

/-! ### Reads that latch -/

/-- The answer to a read sent to a function. -/
def State.answerRead (s : State) (fn off : Nat) (v : Word) : State := { s with out := s.out ++ [.readData fn off v] }

/-- A read of a LO register: its HI half latches for the function's next read, and the LO half is answered. -/
def State.latchRead (s : State) (fn lo hi v : Nat) : State :=
  (s.setLatch fn hi (wordOf (v / 0x100000000))).answerRead fn lo (wordOf v)

/-- A register read that answers where the BARs are served; elsewhere it does not reach the device (R405, R456). -/
def State.whenServed (s t : State) : Host.Outcome State Fault Refusal := keep s (if s.barServed then t else s)

/-- TCK_COUNT_LO_READ. -/
def execTckCountLoRead (fn : BitVec 6) (s : State) : Host.Outcome State Fault Refusal :=
  s.whenServed (s.latchRead fn.toNat Reg.TCK_COUNT_LO Reg.TCK_COUNT_HI s.tk.count.toNat)

/-- GAL_CAL_ELEM_LO_READ; a virtual function reads 0 (R328). -/
def execGalCalElemLoRead (fn : BitVec 6) (gal : BitVec 3) (slot : BitVec 8) (s : State) : Host.Outcome State Fault Refusal :=
  let lo := Reg.GAL_CAL_ELEM_LO gal.toNat slot.toNat
  let hi := Reg.GAL_CAL_ELEM_HI gal.toNat slot.toNat
  s.whenServed (if fn = 0 then s.latchRead 0 lo hi (s.reg64 lo hi) else s.answerRead fn.toNat lo 0)

/-- DEV_ACCT_CYC_LO_READ. -/
def execDevAcctCycLoRead (fn : BitVec 6) (s : State) : Host.Outcome State Fault Refusal :=
  s.whenServed (s.latchRead fn.toNat Reg.DEV_ACCT_CYC_LO Reg.DEV_ACCT_CYC_HI (s.acctView fn.toNat))

/-- DEV_ENG_LO_READ of set n; virtual function k reads instance k's at n = 0, and 0 at every other n (R328). -/
def execDevEngLoRead (fn n : BitVec 6) (s : State) : Host.Outcome State Fault Refusal :=
  let i := if fn = 0 then n.toNat else fn.toNat
  s.whenServed (if fn = 0 ∨ n = 0 then
      (s.setLatch fn.toNat (Reg.DEV_ENG_HI i) (wordOf ((s.instAt i).eng / 0x100000000))).answerRead fn.toNat (Reg.DEV_ENG_LO n.toNat)
        (wordOf (s.instAt i).eng)
    else s.answerRead fn.toNat (Reg.DEV_ENG_LO n.toNat) 0)

/-- ERR_LAST_TICK_LO_READ; a virtual function reads 0. -/
def execErrLastTickLoRead (fn : BitVec 6) (s : State) : Host.Outcome State Fault Refusal :=
  s.whenServed (if fn = 0 then s.latchRead 0 Reg.ERR_LAST_TICK_LO Reg.ERR_LAST_TICK_HI (s.reg64 Reg.ERR_LAST_TICK_LO Reg.ERR_LAST_TICK_HI)
    else s.answerRead fn.toNat Reg.ERR_LAST_TICK_LO 0)

/-- BBX_SEQ_LO_READ; a virtual function reads 0. -/
def execBbxSeqLoRead (fn : BitVec 6) (s : State) : Host.Outcome State Fault Refusal :=
  s.whenServed (if fn = 0 then s.latchRead 0 Reg.BBX_SEQ_LO Reg.BBX_SEQ_HI s.bbx.nextSeq.toNat else s.answerRead fn.toNat Reg.BBX_SEQ_LO 0)

/-- CNT_BW_LO_READ; a virtual function reads 0. -/
def execCntBwLoRead (fn : BitVec 6) (reg : BwReg) (s : State) : Host.Outcome State Fault Refusal :=
  let lo := if reg = .tx then Reg.CNT_BW_TX_LO else Reg.CNT_BW_RX_LO
  let v := if reg = .tx then s.bwAt.lastTx else s.bwAt.lastRx
  s.whenServed (if fn = 0 then s.latchRead 0 lo (lo + 4) v else s.answerRead fn.toNat lo 0)

/-- CNT_SNAP_TICK_LO_READ: the current snapshot latches for the function until it reads again (R484). -/
def execCntSnapTickLoRead (fn : BitVec 6) (s : State) : Host.Outcome State Fault Refusal :=
  let snaps : SMap Nat := (s.cnt.ctrs.map fun (p : Nat × Counter) => (p.1, p.2.snap)).filter fun p => p.2 != 0
  let s1 := { s with cnt := { s.cnt with latched := smInsert s.cnt.latched fn.toNat (s.cnt.snapTick, snaps) } }
  s.whenServed (s1.answerRead fn.toNat Reg.CNT_SNAP_TICK_LO (wordOf s.cnt.snapTick.toNat))

end Sys2Proof.Machine
end

