-- ==== Sys2Proof/Machine/RegWrite.lean ====
section
/-! DEFINITION. A host write to a register: its access code, what waits for a landing, and the registers whose write is a
command of its own (R9 to R11, R328, R364). -/

namespace Sys2Proof.Machine

/-- The RWL lock that covers a register's block: a bit of DEV_BOOT_STATUS.LOCKED (R469). -/
def State.rwlLocked (s : State) (off : Nat) : Bool :=
  let b := s.reg Reg.DEV_BOOT_STATUS
  match off / 0x100 with
  | 0x300 => b.bit 12
  | 0x100 => b.bit 13
  | 0x101 => b.bit 14
  | 0x580 => b.bit 15
  | _ => false

/-- A write by the access codes alone, into the copy that the function sees. -/
def State.plainWrite (s : State) (fn off : Nat) (v : Word) : State :=
  match regLookup off with
  | none => s
  | some r =>
    match r.view with
    | .perFn => s.setRegC (fn + 1) off (r.written (s.rwlLocked off) (s.regC (fn + 1) off) v)
    | _ => if fn = 0 then s.setReg off (r.written (s.rwlLocked off) (s.reg off) v) else s

/-- The instance whose resource register lies at an offset (Table 13-1). -/
def resourceOf (off : Nat) : Option Nat := (List.range 64).find? fun n => (resourceRegs n).contains off

/-- A resource register's write waits with its instance's resize (R364). -/
def State.writeResource (s : State) (n off : Nat) (v : Word) : State :=
  match regLookup off with
  | none => s
  | some r =>
    let s1 := s.updInst n fun i => { i with resize := i.resize ++ [(off, r.written false ((s.pendingView off).getD (s.reg off)) v)] }
    if s.hs.resizeQ.contains n then s1 else { s1 with hs := { s1.hs with resizeQ := s1.hs.resizeQ ++ [n] } }

/-- A write of a LEX_STEM_SEL register is part of the resize of each instance whose bit it changes (R364, Table 13-1). -/
def State.writeStemSel (s : State) (off : Nat) (v : Word) : State :=
  let w := (off - Reg.LEX_STEM_SEL 0) / 4
  let old := (s.pendingView off).getD (s.reg off)
  ((List.range 32).filter fun b => old.bit b != v.bit b).foldl (fun u b => u.writeResource (32 * w + b) off v) s

/-- A write of RES_ROUTE_KV waits for the landing (Table 10-1). -/
def State.writeLate (s : State) (off : Nat) (v : Word) : State := { s with regWrites := s.regWrites ++ [(off, v)] }

/-- The writes of RES_ROUTE_KV that waited, applied. -/
def State.applyRegWrites (s : State) : State :=
  s.regWrites.foldl (fun u w => u.setReg w.1 w.2) { s with regWrites := [] }

/-- A stem slot's base or size, ignored unless the slot is EMPTY, and when base and size together would exceed the program space
(R247). -/
def State.writeStemPlace (s : State) (off : Nat) (v : Word) : State :=
  let slot := (off - Reg.LEX_STEM_BASE 0) / 8
  let isBase := off = Reg.LEX_STEM_BASE slot
  let other := s.fld (if isBase then Reg.LEX_STEM_SIZE slot else Reg.LEX_STEM_BASE slot) 16 0
  if (s.stemAt slot).state ≠ 0 ∨ 129024 < v.field 16 0 + other then s else s.plainWrite 0 off v

/-- A write of the physical function whose registers act on GO, by operation. -/
def State.goWrite (s : State) (off : Nat) (v : Word) : Option (Host.Outcome State Fault Refusal) :=
  let go := v.bit 31
  let op := v.field 30 28
  let inst := BitVec.ofNat 6 (v.field 27 22)
  let idle := keep s s
  if off = Reg.DEV_INST_CTRL then some (if !go then idle
    else match op with
      | 1 => execPause inst s
      | 2 => execFreeze inst s
      | 3 => execThaw inst s
      | 4 => execSave inst s
      | 5 => execRestore inst s
      | 6 => execLogStart inst s
      | 7 => execLogStop inst s
      | _ => idle)
  else if off = Reg.LEX_STEM_CTRL then some (if !go then idle
    else
      let slot := BitVec.ofNat 1 (v.field 24 24)
      match op with
      | 1 => execStemLoad slot s
      | 2 => execStemSwitch slot s
      | 3 => execStemRolling slot s
      | 4 => execStemUnload slot s
      | _ => idle)
  else if off = Reg.SEC_SLOT_CTRL then some (if !go then idle
    else match op with
      | 1 => execForceRetire s
      | 2 => execClear s
      | _ => idle)
  else if off = Reg.SEC_MIG_CTRL then some (if !go then idle
    else match op with
      | 1 => execSetTarget inst s
      | 2 => execImport inst s
      | _ => idle)
  else if off = Reg.PWR_STATE_CTRL then some (if !go then idle
    else
      let mask := BitVec.ofNat 8 (v.field 23 16)
      match op with
      | 0 => execUnpark mask s
      | 2 => execPark mask s
      | 3 => execEnterP3 s
      | 4 => execEnterP4 s
      | _ => idle)
  else if off = Reg.SEC_DBG_CTRL then some (if go then execDebugUnlock s else idle)
  else if off = Reg.SEC_ZEROISE then some (execZeroise v s)
  else if off = Reg.RST_PACKAGE then some (execRstPackage v s)
  else if off = Reg.RST_GALLERY then some (if go then execRstGallery (BitVec.ofNat 8 (v.field 15 8)) s else idle)
  else if off = Reg.FLT_LOAD_CTRL then
    let s1 := s.setFld off 2 0 (v.field 2 0)
    some (if go then execFlightLoad (BitVec.ofNat 3 (v.field 2 0)) s1 else keep s s1)
  else if off = Reg.FLT_SWITCH then
    let pair := BitVec.ofNat 3 (v.field 18 16)
    some (if !go then idle else if v.bit 30 then execFlightSwitchImmediate pair s else execFlightSwitchDrain pair (BitVec.ofNat 16 (v.field 15 0)) s)
  else none

/-- A write of the physical function to a register that waits for a landing or acts in a way of its own. -/
def State.pfWrite (s : State) (off : Nat) (v : Word) : State :=
  if off = Reg.TCK_SYNC_CTRL then s.writeSyncCtrl v
  else if off = Reg.CNT_CTRL then s.writeCntHold (v.bit 31)
  else if off = Reg.CNT_BW_CFG then s.writeBwCfg v
  else if Reg.SEC_DBG_TOKEN 0 ≤ off ∧ off < Reg.SEC_MIG_TARGET 0 + 8192 ∧ (regLookup off).isSome then s.setReg off v
  else if off = Reg.BBX_INDEX then s.writeBbxIndex (v.field 14 0)
  else if 0x100000 ≤ off ∧ off < 0x900000 ∧ off % 0x100000 = 0xC0000 then s.writeCal (off / 0x100000 - 1) .window v
  else match setIndex (Reg.CNT_OWN 0) 4 4 off with
    | some j => s.writeCntOwn j v
    | none => match setIndex (Reg.LEX_STEM_SEL 0) 4 2 off with
      | some _ => s.writeStemSel off v
      | none => match setIndex (Reg.LEX_STEM_BASE 0) 4 4 off with
        | some _ => s.writeStemPlace off v
        | none => match (if 0x100000 ≤ off ∧ off < 0x900000 then setIndex 0xC1000 16 256 (off % 0x100000) else none) with
          | some n => s.writeCal (off / 0x100000 - 1) (.cfg (BitVec.ofNat 8 n)) v
          | none => match setIndex (Reg.WIN_LOG_CFG 0) 0x20 64 off with
            | some n => if (s.reg (Reg.DEV_INST_STATE n)).bit 26 then s else s.plainWrite 0 off v
            | none => match resourceOf off with
              | some n => s.writeResource n off v
              | none => match setIndex (Reg.RES_ROUTE_KV 0) 4 256 off with
                | some _ => s.writeLate off v
                | none => s.plainWrite 0 off v

/-- The counter register at an offset. -/
def cntRegAt (off : Nat) : Option CntReg :=
  if off = Reg.CNT_CFG then some .cfg
  else if off = Reg.CNT_FILT then some .filt
  else if off = Reg.CNT_ADDR_BASE then some .addrBase
  else if off = Reg.CNT_ADDR_LIMIT then some .addrLimit
  else none

/-- A write in a doorbell page: TAIL with SEQ_LAST at 0x000, CQ_HEAD at 0x008; ignored elsewhere (R339, Table 12-5). -/
def State.pageWrite (s : State) (fn : BitVec 6) (page off : Nat) (v : Word) : Host.Outcome State Fault Refusal :=
  let p := BitVec.ofNat 14 page
  if off = 0 then execDoorbell fn p (BitVec.ofNat 16 (v.field 31 16)) (BitVec.ofNat 16 (v.field 15 0)) s
  else if off = 8 then execCqHeadWrite fn p (BitVec.ofNat 16 (v.field 15 0)) s
  else keep s s

/-- REGISTER_WRITE: a function writes a register or a doorbell page; an offset that names none it sees is ignored (R9, R328). -/
def execRegisterWrite (fn : BitVec 6) (off : BitVec 28) (value : Word) (s : State) : Host.Outcome State Fault Refusal :=
  let f := fn.toNat
  let o := off.toNat / 4 * 4
  if !s.barServed then keep s s
  else match doorbellAt f o with
  | some x => s.pageWrite fn x.1 x.2 value
  | none =>
  if f ≠ 0 ∧ (vfOffset f o).isNone then keep s s
  else if o = Reg.MGQ_CMD then keep s (if value.bit 31 then s.mgqGo f (value.field 30 28) else s)
  else if o = Reg.LEX_GATE_CMD then
    keep s (if value.field 31 30 = 1 ∨ value.field 31 30 = 2 then s.lexGate f (value.field 31 30) else s)
  else if o = Reg.WIN_HEARTBEAT then execHeartbeatWrite fn value s
  else match cntRegAt o with
    | some r => keep s (s.writeCntReg f r value)
    | none =>
      if f ≠ 0 then keep s (s.plainWrite f o value)
      else match s.goWrite o value with
        | some r => r
        | none => keep s (s.pfWrite o value)

end Sys2Proof.Machine
end

