-- ==== Sys2Proof/Machine/Landing.lean ====
section
/-! DEFINITION. The landing: its phases in order, the start of the next tick, and the clock's own events (R34 to R38, R62 to R65,
R92, R102, R295, R373, R374). -/

namespace Sys2Proof.Machine

/-! ### Accumulators between ticks (R102, R144) -/

/-- The save area of a partition on a gallery: among the 8 MiB scratchpad claims of the running program on the gallery, the one at the
partition's place in table order (DESIGN CHOICE: log entry 42). -/
def State.saveArea (s : State) (g : Nat) : Option Nat :=
  (s.runs.find? fun run => run.pair == g / 2 + 1).bind fun run =>
    (s.partOf g).bind fun q =>
      let mine := run.f.partitions.filter fun x => x.dies / 2 ^ (g % 2) % 2 == 1
      let areas := (run.f.progs.filter fun p => p.variant == 0 && p.index == run.pos).flatMap fun p =>
        (p.claims.filter fun c => c.kind == 6 && c.where_ == g && c.amount == 0x800000).map (·.base)
      areas[mine.idxOf q]?

/-- The accumulators of a gallery saved in its partition's area. -/
def State.saveAcc (s : State) (g : Nat) : State :=
  match s.saveArea g with
  | some a => s.spWrite g a (memRead s.mem.acc (accKey g 0 0) 0x800000)
  | none => s

/-- The save window: a tick marked for replay saves nothing, so that its replay restores what it restored (DESIGN CHOICE: log entry 42). -/
def State.saveWindow (s : State) : State :=
  if s.partitionMode && !s.tk.replay then (List.range 8).foldl (fun u g => u.saveAcc g) s else s

/-- The start of a tick: accumulators read +0 and scale registers the canonical NaN; in partition mode the restore window fills the
accumulators from the area of the partition that runs. -/
def State.restoreWindow (s : State) : State :=
  let s1 := { s with mem := { s.mem with acc := [], scale := [] } }
  if !s.partitionMode then s1
  else (List.range 8).foldl (fun u g => match u.saveArea g with
    | some a => { u with mem := { u.mem with acc := memWrite u.mem.acc (accKey g 0 0) (memRead u.mem.sp (spKey g a) 0x800000) } }
    | none => u) s1

/-! ### The position (R35, R71) -/

/-- A turn after a tick that commits: the next partition once the slice has had its ticks. -/
def Turn.advance (x : Turn) (turns : List Partition) : Turn :=
  match turns[x.part]? with
  | none => x
  | some q => if q.slice ≤ x.slice + 1 then ⟨0, if turns.length ≤ x.part + 1 then 0 else x.part + 1⟩ else ⟨x.slice + 1, x.part⟩

/-- A slot pair's position after a tick that commits, and the turns of its partitions. -/
def FlightSlots.advance (x : FlightSlots) : FlightSlots :=
  match x.active with
  | none => x
  | some f =>
    { x with pos := if f.programs = 0 then 0 else (x.pos + 1) % f.programs
             turn0 := x.turn0.advance f.turn0
             turn1 := x.turn1.advance f.turn1 }

/-- The position of every running flight advanced. -/
def State.advance (s : State) : State :=
  let s1 := { s with flights := { s.flights with v3 := s.flights.v3.advance, pairs := s.flights.pairs.map FlightSlots.advance } }
  s1.keepFlights s1.showFlight

/-! ### Phase C -/

/-- A function over every key of the lexicon. -/
def State.eachLex (s : State) (f : State → Nat → State) : State := (s.ls.lex.map (·.1)).foldl f s

/-- A function over the 64 instances (R363). -/
def State.eachInst (s : State) (f : State → Nat → State) : State := (List.range 64).foldl f s

/-- Instance resets that are due. -/
def State.resetsDue (s : State) : State := s.eachInst fun u n => if (u.instAt n).reset then u.resetInst n else u

/-- Handles that DESTROY or a shrink named, once no request holds them; affix slots that were being released (R235, R352). -/
def State.releaseStep (s : State) : State :=
  let s1 := (s.hs.handles.filter fun p => p.2.freeing && (s.reqAt p.1).isNone).foldl (fun u p => u.freeHandle p.1) s
  (s1.ls.slots.filter fun p => p.2.releasing).foldl (fun u p => u.freeSlot p.1) s1

/-- Checkpoints that are queued start, one of an object at a time (R276, R278). -/
def State.ckptStep (s : State) : State :=
  (s.ls.train.filter fun p => p.2.ckptActive.isNone).foldl (fun u p => match (u.trainAt p.1).ckptQueue.head? with
    | some g => u.ckptStart p.1 g
    | none => u) s

/-- Steps 1 and 2 of R27, but for a switch to another image: re-reads, fences, parks, and writes that waited. -/
def State.actionsFirst (s : State) : State := s.reReadAll.fenceStep.parkStep.applyRegWrites

/-- Steps 3 to 6 of R27 and everything else that phase C does, in order. -/
def State.actionsRest (s : State) : State :=
  let s1 := s.resizeAll.keyOpsStep.instOps.resetsDue
  let s2 := (s1.poisonStep.deleteStep.eachLex fun u i => u.convertStep i).eachLex fun u i => u.activate i
  let s3 := ((s2.eachLex fun u i => u.evictDone i).grantFrames).chaseVictims
  let stems := fun (u : State) (k : Nat) => ((u.stemReadyStep k true).stemDrainStep k).stemRetireStep k
  let s4 := (stems (stems s3.stemFirstStep 0) 1).stemSwitchStep
  ((s4.releaseStep.ckptStep.eachInst fun u n => u.pausedStep n).feedLanding).retireAll

/-! ### Phase D -/

/-- Fills for requests that have ended are dropped: the next request that needs their windows has fills of its own (R63, R295). -/
def State.dropEnded (s : State) : State :=
  { s with ls := { s.ls with fills := s.ls.fills.filter fun f => (s.reqAt f.handle).any (·.live) } }

/-- Entries and management commands take effect, what they reserved holds its frames at once unless it waits for a victim's release, steps
begin, a step that waits to run again for its write plane is counted (R250, R254, R299, R342, R360). -/
def State.effects (s : State) : State :=
  let s1 := s.dropEnded.abandonOrphans.takeEntries.mgqAll.grantFrames.placeFrames
  let s2 := (s1.ls.train.map (·.1)).foldl (fun u i => u.stepStart i true) s1
  (s2.ls.train.filter fun p => p.2.state == 3).foldl (fun u p =>
    if (u.hs.reqs.any fun r => r.opcode == Op.trainStep && r.lexId == some p.1 && r.live && r.stage == 0) && !u.planeFree p.1 then
      u.countScoped Reg.LEX_TRN_WAITS (some (u.lexAt p.1).inst) 1
    else u) s2

/-- Phase D: what was submitted takes effect, the next tick's seats are bound, and its stretch is fixed.  A replay of a tick keeps its
bindings; a tick that a late fault marked is bound afresh (R62, R414). -/
def State.phaseD (s : State) (replayed : Bool) : State :=
  let s1 := s.effects.dropEnded
  let s2 := if replayed && !s.tk.lateMark then s1.creditStep else s1.bindAll
  let s3 := { s2 with tk := { s2.tk with now := s2.tk.now + s.tickUnits } }
  s3.governor

/-! ### Phase E -/

/-- A log entry of a page written for an instance; dropped when the log is full (R373, R374). -/
def State.logEntry (s : State) (n : Nat) (x : Nat × Bool) : State :=
  let size := 2 ^ s.fld (Reg.WIN_LOG_CFG n) 4 0
  let tail := s.fld (Reg.WIN_LOG_TAIL n) 19 0
  if (tail + 1) % size = s.fld (Reg.WIN_LOG_HEAD n) 19 0 % size then
    if (s.reg (Reg.WIN_LOG_STATUS n)).bit 0 then s
    else (s.setFld (Reg.WIN_LOG_STATUS n) 0 0 1).raiseInst 0x5004 n ([n, s.tk.count.toNat].map wordOf)
  else
    let i := s.instAt n
    let w := 4096 * x.1 + 2 * b2n x.2 + (1 - i.logSeq / size % 2)
    let a := s.reg64 (Reg.WIN_LOG_BASE_LO n) (Reg.WIN_LOG_BASE_HI n) / 4096 * 4096 + 8 * tail
    let s1 := { s with mem := { s.mem with host := memWrite s.mem.host a ((words64 w).flatMap Word.bytes) } }.tallyCache n 8 0
    (s1.setReg (Reg.WIN_LOG_TAIL n) (wordOf ((tail + 1) % size))).updInst n fun j => { j with logSeq := j.logSeq + 1 }

/-- The log entries of the tick. -/
def State.logStep (s : State) : State :=
  s.eachInst fun u n =>
    let pages := (u.instAt n).logPages
    if pages.isEmpty then u
    else (pages.foldl (fun v x => v.logEntry n x) u).updInst n fun i => { i with logPages := [] }

/-- Phase E: the load's changes of state, counters and calibration windows, the events raised before it published, the logs, the snapshot of the
window and of the measurements (R34, R48, R347, R351, R392, R483). -/
def State.phaseE (s0 : State) (replayed : Bool) : State :=
  let s := s0.loadStep
  let due := s.events
  let s1 := ({ s with events := [] }.calE replayed).countE replayed
  let s2 := { s1 with events := due }.publish
  let s3 := { s2 with events := s1.events }.logStep
  let s4 := { s3 with mem := { s3.mem with seen := s3.mem.win, seenM := s3.mem.winM } }
  { s4 with trust := { s4.trust with measured := s4.measureNow } }

/-- The next tick starts: its period, its fetch budgets, its marks, its accumulators, its share of ring entries (R27, R102, R144, R342, R414). -/
def State.tickStart (s0 : State) : State :=
  let s := s0.applyPeriod.engineTick
  let t := s.tk
  let s1 := { s with tk := { t with replay := t.replayNext, lateMark := t.replayNext, replayNext := false }, hs := { s.hs with readCount := [] } }
  (s1.restoreWindow).eachInst fun u n => u.readRings n

/-! ### LANDING -/

/-- Phases C to E, TCK_COUNT advanced (R34), and the next tick; a program replayed in eight ticks running stops the package once its landing is finished
(R415) (its corners, DEDUCED: log entry 105). -/
def State.landRest (s : State) (replayed : Bool) : State :=
  let s1 := (s.keepFlights s.actionsFirst.placeFrames).switchLanding (!replayed)
  let s2 := s1.keepFlights s1.actionsRest
  if s2.pw.p4Due then s2.orReset s2.enterP4
  else if s2.pw.p3Due then s2.keepFlights s2.enterP3
  else
    let limit := decide (8 ≤ s2.fld Reg.ERR_REPLAY 31 24)
    let s3 := s2.phaseD replayed
    let s4 := (s2.keepFlights (if limit then s3.replayLimit else s3)).phaseE replayed
    let s5 := { s4 with tk := { s4.tk with count := s2.tk.count + 1 } }
    if limit then s5.orReset (s5.endStop 4) else s5.keepFlights s5.tickStart

/-- The landing as a whole: phases A and B, a stop that waits for them, then the rest (R36, R442). -/
def State.landing (s : State) : State :=
  if !s.tk.running then s
  else
    let replayed := s.tk.replay
    let s1 := s.keepFlights (s.ckptAdvance.saveWindow.endDeleted.phaseAB)
    match s1.pw.stopCause with
    | some c => s1.orReset (s1.endStop c)
    | none => State.landRest (if replayed then s1 else s1.advance) replayed

/-- LANDING. -/
def execLanding (s : State) : Host.Outcome State Fault Refusal := keepQueue s s.landing

/-! ### Windows, refreshes, overruns -/

/-- WINDOW_DEADLINE_MISS: a window whose data has not arrived is late in this tick (R63) (its corners, DEDUCED: log entry 101). -/
def execWindowDeadlineMiss (gal : BitVec 3) (window : BitVec 16) (s : State) : Host.Outcome State Fault Refusal :=
  let w := (gal.toNat, window.toNat)
  let here := match s.fillOf w.1 w.2 with
    | some f => f.present
    | none => false
  keep s (if here || s.tk.lateWindows.contains w then s else { s with tk := { s.tk with lateWindows := s.tk.lateWindows ++ [w] } })

/-- REFRESH: 192 cycles of a pseudo-channel that no slot uses (R91, R92); no state changes (DEDUCED: log entry 9). -/
def execRefresh (_stack : BitVec 4) (_pc : BitVec 6) (_cycle : BitVec 16) (s : State) : Host.Outcome State Fault Refusal := keep s s

/-- TICK_OVERRUN_END: the cycles waited are reported and counted, and every later boundary shifts by them (R65) (its corners, DEDUCED: log entry 105). -/
def execTickOverrunEnd (cycles : BitVec 32) (s : State) : Host.Outcome State Fault Refusal :=
  let n := cycles.toNat
  keep s (if !s.tk.running then s
    else
      let s1 := (s.count Reg.TCK_OVERRUN 31 20 1).setFld Reg.TCK_OVERRUN 19 0 (Nat.min n 0xFFFFF)
      let s2 := { s1 with tk := { s1.tk with now := s1.tk.now + n * s.fld Reg.TCK_STRETCH 8 0 / 600 } }
      s2.raisePf 0x1012 ([n, s.tk.count.toNat].map wordOf))

end Sys2Proof.Machine
end

