-- ==== Sys2Proof/Machine/Service.lean ====
section
/-! DEFINITION. The service port and JTAG: I3C, MCTP control, PLDM types 0 and 5, the vendor messages, updates (R470 to R474, R503,
R506).  Message codes and completion codes are those of the DMTF and IEEE standards that the manual names (PRESUMED: log entry 44). -/

namespace Sys2Proof.Machine

/-! ### I3C and MCTP control (R470) -/

/-- ENTDAA: the dynamic address. -/
def execEntdaa (addr : BitVec 7) (s : State) : Host.Outcome State Fault Refusal :=
  keepRun s { s with svc := { s.svc with dynAddr := some addr } }

/-- SVC_SCL_LOW_TIMEOUT: the target interface resets and releases SVC_SDA (R503); its dynamic address is part of it (its corners, DEDUCED: log entry 100). -/
def execSvcSclLowTimeout (s : State) : Host.Outcome State Fault Refusal :=
  keepRun s { s with svc := { s.svc with dynAddr := none } }

/-- A message answered while the port has an address; no other target state changes without one. -/
def State.onPort (s : State) (f : State → State) : State := if s.svc.dynAddr.isSome then f s else s

/-- A message sent over MCTP: message type, PLDM type where it has one, command; then its bytes. -/
def State.mctpSend (s : State) (type pldm cmd : Nat) (body : List Byte) : State :=
  { s with out := s.out ++ [.mctp (type * 0x10000 + pldm * 0x100 + cmd) body] }

/-- An MCTP control answer. -/
def State.control (s : State) (cmd : Nat) (body : List Nat) : State := s.mctpSend 0 0 cmd (body.map byteOf)

/-- SET_ENDPOINT_ID: 0 and 0xFF are no endpoint ids. -/
def execSetEndpointId (eid : BitVec 8) (s : State) : Host.Outcome State Fault Refusal :=
  keepRun s (s.onPort fun u =>
    if eid = 0 ∨ eid = 0xFF#8 then u.control 1 [2, 0, u.svc.eid.toNat, 0]
    else { u with svc := { u.svc with eid := eid } }.control 1 [0, 0, eid.toNat, 0])

/-- GET_ENDPOINT_ID: a simple endpoint with a dynamic id. -/
def execGetEndpointId (s : State) : Host.Outcome State Fault Refusal :=
  keepRun s (s.onPort fun u => u.control 2 [0, u.svc.eid.toNat, 0, 0])

/-- The message types served (Table 17-5), those of recovery mode alone there (R474). -/
def State.messageTypes (s : State) : List Nat := if s.pw.recovery then [0x00, 0x01, 0x7E] else [0x00, 0x01, 0x05, 0x06, 0x7E]

/-- GET_VERSION_SUPPORT: one version, whose number the manual does not give. -/
def execGetVersionSupport (msgType : BitVec 8) (s : State) : Host.Outcome State Fault Refusal :=
  keepRun s (s.onPort fun u =>
    if msgType = 0xFF#8 ∨ u.messageTypes.contains msgType.toNat then
      let (f, u1) := u.free
      u1.control 4 ([0, 1] ++ (bytesOfNat 4 f).map (·.toNat))
    else u.control 4 [0x80, 0])

/-- GET_MESSAGE_TYPE_SUPPORT. -/
def execGetMessageTypeSupport (s : State) : Host.Outcome State Fault Refusal :=
  keepRun s (s.onPort fun u => u.control 5 ([0, u.messageTypes.length] ++ u.messageTypes))

/-- GET_VENDOR_DEFINED_MESSAGE_SUPPORT: one set, PCI vendor ID 0x1F6B, whose version the manual does not give. -/
def execGetVendorDefinedMessageSupport (selector : BitVec 8) (s : State) : Host.Outcome State Fault Refusal :=
  keepRun s (s.onPort fun u =>
    if selector ≠ 0 then u.control 6 [2]
    else
      let (f, u1) := u.free
      u1.control 6 ([0, 0xFF, 0, 0x1F, 0x6B] ++ (bytesOfNat 2 f).map (·.toNat)))

/-! ### PLDM type 0 -/

/-- A PLDM answer or request. -/
def State.pldm (s : State) (type cmd : Nat) (body : List Nat) : State := s.mctpSend 1 type cmd (body.map byteOf)

/-- GET_TID. -/
def execGetTid (s : State) : Host.Outcome State Fault Refusal := keepRun s (s.onPort fun u => u.pldm 0 2 [0, u.svc.tid.toNat])

/-- SET_TID: 0 and 0xFF are refused. -/
def execSetTid (tid : BitVec 8) (s : State) : Host.Outcome State Fault Refusal :=
  keepRun s (s.onPort fun u =>
    if tid = 0 ∨ tid = 0xFF#8 then u.pldm 0 1 [2] else { u with svc := { u.svc with tid := tid } }.pldm 0 1 [0])

/-- GET_PLDM_VERSION: types 0 and 5, one version each, whose number the manual does not give. -/
def execGetPldmVersion (pldmType : BitVec 8) (s : State) : Host.Outcome State Fault Refusal :=
  keepRun s (s.onPort fun u =>
    if pldmType = 0 ∨ pldmType = 5 then
      let (f, u1) := u.free
      u1.pldm 0 3 ([0, 0, 0, 0, 0, 5] ++ (bytesOfNat 8 f).map (·.toNat))
    else u.pldm 0 3 [0x83])

/-- GET_PLDM_TYPES: 0 and 5. -/
def execGetPldmTypes (s : State) : Host.Outcome State Fault Refusal :=
  keepRun s (s.onPort fun u => u.pldm 0 4 [0, 0x21, 0, 0, 0, 0, 0, 0, 0])

/-- Bytes of a bit map of commands. -/
def commandMap (cmds : List Nat) : List Nat := (bytesOfNat 32 (cmds.map (2 ^ ·)).sum).map (·.toNat)

/-- GET_PLDM_COMMANDS: those of Table 17-5 and of R472. -/
def execGetPldmCommands (pldmType : BitVec 8) (s : State) : Host.Outcome State Fault Refusal :=
  keepRun s (s.onPort fun u =>
    if pldmType = 0 then u.pldm 0 5 (0 :: commandMap [1, 2, 3, 4, 5])
    else if pldmType = 5 then u.pldm 0 5 (0 :: commandMap [0x10, 0x13, 0x14, 0x15, 0x16, 0x17, 0x18, 0x1A])
    else u.pldm 0 5 [0x83])

/-! ### Updates (R472 to R474) -/

/-- DEV_BOOT_STATUS.UPDATE. -/
def State.updateState (s : State) : Nat := s.fld Reg.DEV_BOOT_STATUS 11 8

/-- A change of UPDATE with its event (R472, R477). -/
def State.toUpdate (s : State) (component st code : Nat) : State :=
  (s.setFld Reg.DEV_BOOT_STATUS 11 8 st).raiseBoot 0x9004 [component, st, code]

/-- REQUEST_UPDATE: one update at a time. -/
def execRequestUpdate (s : State) : Host.Outcome State Fault Refusal :=
  keepRun s (s.onPort fun u =>
    if u.svc.updating then u.pldm 5 0x10 [0x81]
    else
      let v := { u.svc with updating := true, components := [], component := none, received := [], verified := false }
      { u with svc := v }.pldm 5 0x10 [0, 0, 0, 0])

/-- Components that an update may bring: all of Table 17-7, or in recovery mode the firmware image alone (R474) (its corners, DEDUCED: log entry 99). -/
def State.componentKnown (s : State) (c : Nat) : Bool := if s.pw.recovery then c == 1 else c == 1 || c == 2 || c == 3

/-- PASS_COMPONENT_TABLE: the components of the package; each is answered as updatable or not. -/
def execPassComponentTable (components : List (BitVec 16)) (s : State) : Host.Outcome State Fault Refusal :=
  keepRun s (s.onPort fun u =>
    if !u.svc.updating then u.pldm 5 0x13 [0x80]
    else
      let cs := components.map (·.toNat)
      let all := cs.all u.componentKnown
      { u with svc := { u.svc with components := cs } }.pldm 5 0x13 [0, if all then 0 else 1, if all then 0 else 6])

/-- Where a component is written, and the bytes its slot takes (Table 17-7). -/
def State.updateSlot (s : State) (c : Nat) : Nat × Nat :=
  if c = 1 then (if s.pw.recovery then fwOffset 0 else fwOffset (1 - s.fld Reg.DEV_BOOT_STATUS 31 31), 0x800000)
  else if c = 2 then (cfgOffset (1 - s.boot.cfgSource), 65536)
  else (if (wordAt s.boot.cfg 44).field 1 0 = 1 then 0x1B00000 else 0x1100000, 0xA00000)

/-- UPDATE_COMPONENT: a component starts to be received. -/
def execUpdateComponent (component : BitVec 16) (size : Word) (s : State) : Host.Outcome State Fault Refusal :=
  keepRun s (s.onPort fun u =>
    let c := component.toNat
    let n := size.toNat
    let st := u.updateState
    if !u.svc.updating then u.pldm 5 0x14 [0x80]
    else if 1 ≤ st ∧ st ≤ 3 then u.pldm 5 0x14 [0x84]
    else if !u.componentKnown c ∨ !u.svc.components.contains c ∨ n = 0 ∨ (u.updateSlot c).2 < n then u.pldm 5 0x14 [0, 1, 6]
    else
      let v := { u.svc with component := some c, size := n, received := [], verified := false, slot := (u.updateSlot c).1 }
      ({ u with svc := v }.toUpdate c 1 0).pldm 5 0x14 [0, 0, 0])

/-- REQUEST_FIRMWARE_DATA: the agent's answer to the device's next request; the bytes go to the slot, and after the last of them
the device sends TransferComplete. -/
def execRequestFirmwareData (offset : Word) (data : List Byte) (s : State) : Host.Outcome State Fault Refusal :=
  keepRun s (s.onPort fun u =>
    match u.svc.component with
    | none => u
    | some c =>
      let at_ := u.svc.received.length
      if u.updateState ≠ 1 ∨ offset.toNat ≠ at_ then u
      else
        let bs := data.take (u.svc.size - at_)
        let m := { u.mem with boot := memWrite u.mem.boot (u.svc.slot + at_) bs }
        let u1 := { u with mem := m, svc := { u.svc with received := u.svc.received ++ bs } }
        if at_ + bs.length < u.svc.size then u1 else (u1.toUpdate c 2 0).pldm 5 0x16 [0])

/-- The checks of Table 17-7 for a component that has been received. -/
def State.componentOk (s : State) (c : Nat) (bs : List Byte) : Bool :=
  if c = 1 then
    let minSvn := s.romMinSvn
    (fwFail bs minSvn).isNone && wordIn bs 4 == wordOf bs.length && (s.pw.recovery || decide ((wordAt s.boot.fw 3).field 31 16 < (wordIn bs 3).field 31 16))
  else if c = 2 then
    let owner := sha256Words (cut bs 0xFD00 384)
    let ours := s.boot.cfg.isEmpty || owner == sha256Words (cut (s.cfgBytes s.boot.cfgSource) 0xFD00 384) || (!s.trust.nextOwner.isEmpty && owner == s.trust.nextOwner)
    decide (bs.length = 65536) && !(wordIn bs 1).bit 0 && (State.reset.cfgFail s.boot.fw bs).isNone && ours
      && (s.boot.cfg.isEmpty || decide ((s.reg Reg.DEV_CFG_SEQ).toNat < (wordIn bs 2).toNat))
  else
    decide (bs.length ≤ 0xA00000) && (wordIn bs 1).field 31 16 == 3 && match admitImage 0 bs.length s.trust.flightKeys bs with
      | some f => decide (6 < f.check)
      | none => true

/-- VERIFY_COMPLETE: the device has checked the component (its corners, DEDUCED: log entry 99). -/
def execVerifyComplete (s : State) : Host.Outcome State Fault Refusal :=
  keepRun s (match s.svc.component with
    | none => s
    | some c =>
      if s.updateState ≠ 2 then s
      else if s.componentOk c s.svc.received then
        ({ s with svc := { s.svc with verified := true } }.toUpdate c 3 0).pldm 5 0x17 [0]
      else ({ s with svc := { s.svc with component := none } }.toUpdate c 5 1).pldm 5 0x17 [1])

/-- In recovery the image is read back, copied to slot B, and the package is reset with cause 1 (R474). -/
def State.recoverNow (s : State) : State :=
  let s1 := { s with mem := { s.mem with boot := memWrite s.mem.boot (fwOffset 1) s.svc.received } }
  s1.packageReset 1

/-- APPLY_COMPLETE: the slot holds the component. -/
def execApplyComplete (s : State) : Host.Outcome State Fault Refusal :=
  keepRun s (match s.svc.component with
    | none => s
    | some c =>
      if s.updateState ≠ 3 then s
      else
        let s1 := ({ s with svc := { s.svc with component := none } }.toUpdate c 4 0).pldm 5 0x18 [0]
        if s.pw.recovery then s1.recoverNow else s1)

/-- ACTIVATE_FIRMWARE: the update ends; the reset that activates it is the host's to ask for. -/
def execActivateFirmware (s : State) : Host.Outcome State Fault Refusal :=
  keepRun s (s.onPort fun u =>
    if !u.svc.updating then u.pldm 5 0x1A [0x80]
    else if u.svc.component.isSome then u.pldm 5 0x1A [0x84]
    else { u with svc := { u.svc with updating := false, components := [], received := [] } }.pldm 5 0x1A [0, 0, 0])

/-! ### Vendor messages (Table 17-6) -/

/-- An answer to a vendor message: its code, its status, its bytes. -/
def State.vendor (s : State) (code status : Nat) (body : List Byte) : State := s.mctpSend 0x7E 0 code (byteOf status :: body)

/-- STATUS. -/
def execStatus (s : State) : Host.Outcome State Fault Refusal :=
  keepRun s (s.onPort fun u =>
    u.vendor 1 0 ([Reg.PWR_STATE, Reg.RST_STATUS, Reg.DEV_BOOT_STATUS, Reg.DEV_FW_VER].flatMap fun r => (u.reg r).bytes))

/-- WAKE: P3 ends, or a start from P4 begins; ST_BUSY elsewhere (R450, R451, R476). -/
def execWake (s : State) : Host.Outcome State Fault Refusal :=
  keepRun s (s.onPort fun u =>
    if u.pw.recovery then u
    else if u.fld Reg.PWR_STATE 31 29 = 3 then u.wakeP3.vendor 2 0 []
    else if u.packageOff then { u with svc := { u.svc with wakeReady := true } }.vendor 2 0 []
    else u.vendor 2 St.busy [])

/-- BBX_READ: a record as stored. -/
def execBbxRead (index : BitVec 15) (s : State) : Host.Outcome State Fault Refusal :=
  keepRun s (s.onPort fun u =>
    if u.fld Reg.BBX_STATUS 31 30 ≠ 1 then u.vendor 3 St.busy []
    else u.vendor 3 0 (memRead u.mem.mram (256 * index.toNat) 256))

/-- BBX_INFO: BBX_STATUS, BBX_SEQ, BBX_LOST; not served in recovery mode. -/
def execBbxInfo (s : State) : Host.Outcome State Fault Refusal :=
  keepRun s (s.onPort fun u =>
    if u.pw.recovery then u
    else u.vendor 4 0 ((u.reg Reg.BBX_STATUS).bytes ++ bytesOfNat 8 u.bbx.nextSeq.toNat ++ (u.reg Reg.BBX_LOST).bytes))

/-! ### JTAG (R506) -/

/-- JTAG_TRST: the TAP is reset, IDCODE selected, no land driven. -/
def execJtagTrst (s : State) : Host.Outcome State Fault Refusal := keepRun s { s with jtag := ⟨true, 1, false⟩ }

/-- BYPASS. -/
def execBypass (s : State) : Host.Outcome State Fault Refusal := keepRun s { s with jtag := ⟨false, 0, false⟩ }

/-- IDCODE: version 0x1 for stepping B0, part 0x8160. -/
def execIdcode (s : State) : Host.Outcome State Fault Refusal :=
  keepRun s { s with jtag := ⟨false, 1, false⟩, out := s.out ++ [.tdo 0x181607B7#32] }

/-- SAMPLE_PRELOAD. -/
def execSamplePreload (s : State) : Host.Outcome State Fault Refusal := keepRun s { s with jtag := ⟨false, 2, false⟩ }

/-- The galleries are off: in start-up before step 5, in recovery mode, in P3, in P4. -/
def State.galleriesOff (s : State) : Bool :=
  decide (s.fld Reg.RST_STATUS 31 28 < 5) || s.pw.recovery || s.fld Reg.PWR_STATE 31 29 == 3 || s.packageOff

/-- EXTEST: effective while the galleries are off; at any other time it selects BYPASS. -/
def execExtest (s : State) : Host.Outcome State Fault Refusal :=
  keepRun s { s with jtag := if s.galleriesOff then ⟨false, 3, true⟩ else ⟨false, 0, false⟩ }

end Sys2Proof.Machine
end

