-- ==== Sys2Proof/Machine/Dispatch.lean ====
section
/-! DEFINITION. The meaning of every command: one arm for each constructor of `Instr`. -/

namespace Sys2Proof.Machine

def exec (i : Instr) (s : State) : Host.Outcome State Fault Refusal :=
  match i with
  | .landing => Sys2Proof.Machine.execLanding s
  | .calWindowClose gal => Sys2Proof.Machine.execCalWindowClose gal s
  | .bwWindowClose => Sys2Proof.Machine.execBwWindowClose s
  | .tickOverrunEnd cycles => Sys2Proof.Machine.execTickOverrunEnd cycles s
  | .replayLimit => Sys2Proof.Machine.execReplayLimit s
  | .refresh stack pc cycle => Sys2Proof.Machine.execRefresh stack pc cycle s
  | .mm c d => Sys2Proof.Machine.execMm c d s
  | .scaleLoad c d => Sys2Proof.Machine.execScaleLoad c d s
  | .accSave c d => Sys2Proof.Machine.execAccSave c d s
  | .accRestore c d => Sys2Proof.Machine.execAccRestore c d s
  | .map c d => Sys2Proof.Machine.execMap c d s
  | .add c d => Sys2Proof.Machine.execAdd c d s
  | .sub c d => Sys2Proof.Machine.execSub c d s
  | .mul c d => Sys2Proof.Machine.execMul c d s
  | .max c d => Sys2Proof.Machine.execMax c d s
  | .min c d => Sys2Proof.Machine.execMin c d s
  | .fma c d => Sys2Proof.Machine.execFma c d s
  | .infl c d w => Sys2Proof.Machine.execInfl c d w s
  | .signUpdate c d w => Sys2Proof.Machine.execSignUpdate c d w s
  | .rsum c d => Sys2Proof.Machine.execRsum c d s
  | .rsumsq c d => Sys2Proof.Machine.execRsumsq c d s
  | .rmax c d => Sys2Proof.Machine.execRmax c d s
  | .rmin c d => Sys2Proof.Machine.execRmin c d s
  | .topk c d => Sys2Proof.Machine.execTopk c d s
  | .xred c d accIn => Sys2Proof.Machine.execXred c d accIn s
  | .xcomb c d accIn => Sys2Proof.Machine.execXcomb c d accIn s
  | .compress c d w => Sys2Proof.Machine.execCompress c d w s
  | .expand c d w => Sys2Proof.Machine.execExpand c d w s
  | .solveSpd c d w => Sys2Proof.Machine.execSolveSpd c d w s
  | .update c d => Sys2Proof.Machine.execUpdate c d s
  | .publish c d => Sys2Proof.Machine.execPublish c d s
  | .read c d => Sys2Proof.Machine.execRead c d s
  | .write c d => Sys2Proof.Machine.execWrite c d s
  | .gather c d => Sys2Proof.Machine.execGather c d s
  | .windowFill c d => Sys2Proof.Machine.execWindowFill c d s
  | .send c d => Sys2Proof.Machine.execSend c d s
  | .parityError domain gal unit where_ cycle => Sys2Proof.Machine.execParityError domain gal unit where_ cycle s
  | .hbmUncorrectable stack addr kind cycle => Sys2Proof.Machine.execHbmUncorrectable stack addr kind cycle s
  | .hbmCorrected stack => Sys2Proof.Machine.execHbmCorrected stack s
  | .poisonRepair stack page clean => Sys2Proof.Machine.execPoisonRepair stack page clean s
  | .windowDeadlineMiss gal window => Sys2Proof.Machine.execWindowDeadlineMiss gal window s
  | .fetchArrival gal window tier port data => Sys2Proof.Machine.execFetchArrival gal window tier port data s
  | .shardArrival obj shard data => Sys2Proof.Machine.execShardArrival obj shard data s
  | .shardAttemptTimeout obj shard => Sys2Proof.Machine.execShardAttemptTimeout obj shard s
  | .objectActivate id => Sys2Proof.Machine.execObjectActivate id s
  | .evictionComplete id => Sys2Proof.Machine.execEvictionComplete id s
  | .checkpointStart id group => Sys2Proof.Machine.execCheckpointStart id group s
  | .checkpointComplete id ok => Sys2Proof.Machine.execCheckpointComplete id ok s
  | .stepApplyStart id => Sys2Proof.Machine.execStepApplyStart id s
  | .gateTimeout id => Sys2Proof.Machine.execGateTimeout id s
  | .flightLoad pair => Sys2Proof.Machine.execFlightLoad pair s
  | .flightCopyComplete => Sys2Proof.Machine.execFlightCopyComplete s
  | .flightAdmissionComplete => Sys2Proof.Machine.execFlightAdmissionComplete s
  | .flightSwitchDrain pair drainTicks => Sys2Proof.Machine.execFlightSwitchDrain pair drainTicks s
  | .flightSwitchImmediate pair => Sys2Proof.Machine.execFlightSwitchImmediate pair s
  | .flightSwitchApply => Sys2Proof.Machine.execFlightSwitchApply s
  | .drainTicksExpire => Sys2Proof.Machine.execDrainTicksExpire s
  | .tickSync widthNs intervalNs phaseCycles => Sys2Proof.Machine.execTickSync widthNs intervalNs phaseCycles s
  | .tckSyncCtrlWrite value => Sys2Proof.Machine.execTckSyncCtrlWrite value s
  | .syncHoldover => Sys2Proof.Machine.execSyncHoldover s
  | .syncFreerun => Sys2Proof.Machine.execSyncFreerun s
  | .syncOutOfWindow => Sys2Proof.Machine.execSyncOutOfWindow s
  | .create ring e => Sys2Proof.Machine.execCreate ring e s
  | .bind ring e => Sys2Proof.Machine.execBind ring e s
  | .admitReq ring e => Sys2Proof.Machine.execAdmit ring e s
  | .destroy ring e => Sys2Proof.Machine.execDestroy ring e s
  | .trainBatch ring e => Sys2Proof.Machine.execTrainBatch ring e s
  | .trainStep ring e => Sys2Proof.Machine.execTrainStep ring e s
  | .trainGate ring e => Sys2Proof.Machine.execTrainGate ring e s
  | .lexCreate ring e => Sys2Proof.Machine.execLexCreate ring e s
  | .lexDelete ring e => Sys2Proof.Machine.execLexDelete ring e s
  | .lexQuery ring e => Sys2Proof.Machine.execLexQuery ring e s
  | .lexConvert ring e => Sys2Proof.Machine.execLexConvert ring e s
  | .affixClaim ring e => Sys2Proof.Machine.execAffixClaim ring e s
  | .affixRelease ring e => Sys2Proof.Machine.execAffixRelease ring e s
  | .resStore ring e => Sys2Proof.Machine.execResStore ring e s
  | .resPrefetch ring e => Sys2Proof.Machine.execResPrefetch ring e s
  | .resEvict ring e => Sys2Proof.Machine.execResEvict ring e s
  | .resRetry ring e => Sys2Proof.Machine.execResRetry ring e s
  | .nop ring e => Sys2Proof.Machine.execNop ring e s
  | .doorbell fn page tail seqLast => Sys2Proof.Machine.execDoorbell fn page tail seqLast s
  | .dbTimeoutExpire ring => Sys2Proof.Machine.execDbTimeoutExpire ring s
  | .hostReadTimeout ring => Sys2Proof.Machine.execHostReadTimeout ring s
  | .cqHeadWrite fn page head => Sys2Proof.Machine.execCqHeadWrite fn page head s
  | .globalObservation handle => Sys2Proof.Machine.execGlobalObservation handle s
  | .hostWriteTimeout handle code => Sys2Proof.Machine.execHostWriteTimeout handle code s
  | .windowWrite fn off cxlMem data => Sys2Proof.Machine.execWindowWrite fn off cxlMem data s
  | .inputWrite fn off cxlMem data => Sys2Proof.Machine.execInputWrite fn off cxlMem data s
  | .ringCreate fn => Sys2Proof.Machine.execRingCreate fn s
  | .ringDestroy fn => Sys2Proof.Machine.execRingDestroy fn s
  | .ringResume fn => Sys2Proof.Machine.execRingResume fn s
  | .attach fn => Sys2Proof.Machine.execAttach fn s
  | .detach fn => Sys2Proof.Machine.execDetach fn s
  | .heartbeatWrite fn beat => Sys2Proof.Machine.execHeartbeatWrite fn beat s
  | .heartbeatTimeout fn => Sys2Proof.Machine.execHeartbeatTimeout fn s
  | .hostLinkReset => Sys2Proof.Machine.execHostLinkReset s
  | .perstNDeassert => Sys2Proof.Machine.execPerstNDeassert s
  | .instanceReset inst => Sys2Proof.Machine.execInstanceReset inst s
  | .pause inst => Sys2Proof.Machine.execPause inst s
  | .instancePaused inst => Sys2Proof.Machine.execInstancePaused inst s
  | .freeze inst => Sys2Proof.Machine.execFreeze inst s
  | .thaw inst => Sys2Proof.Machine.execThaw inst s
  | .save inst => Sys2Proof.Machine.execSave inst s
  | .saveComplete inst => Sys2Proof.Machine.execSaveComplete inst s
  | .restore inst => Sys2Proof.Machine.execRestore inst s
  | .restoreComplete inst => Sys2Proof.Machine.execRestoreComplete inst s
  | .logStart inst => Sys2Proof.Machine.execLogStart inst s
  | .logStop inst => Sys2Proof.Machine.execLogStop inst s
  | .lexGateGo fn => Sys2Proof.Machine.execLexGateGo fn s
  | .lexGateSkip fn => Sys2Proof.Machine.execLexGateSkip fn s
  | .stemLoad slot => Sys2Proof.Machine.execStemLoad slot s
  | .stemSwitch slot => Sys2Proof.Machine.execStemSwitch slot s
  | .stemRolling slot => Sys2Proof.Machine.execStemRolling slot s
  | .stemUnload slot => Sys2Proof.Machine.execStemUnload slot s
  | .stemReady slot => Sys2Proof.Machine.execStemReady slot s
  | .stemDrained slot => Sys2Proof.Machine.execStemDrained slot s
  | .stemRetired slot => Sys2Proof.Machine.execStemRetired slot s
  | .keyProvision fn session slot epoch nonce wrapped mac => Sys2Proof.Machine.execKeyProvision fn session slot epoch nonce wrapped mac s
  | .keyRevoke fn session slot nonce mac => Sys2Proof.Machine.execKeyRevoke fn session slot nonce mac s
  | .tenantReport fn session slot nonce start mac => Sys2Proof.Machine.execTenantReport fn session slot nonce start mac s
  | .epochRetired slot => Sys2Proof.Machine.execEpochRetired slot s
  | .epochKeyDestroy slot => Sys2Proof.Machine.execEpochKeyDestroy slot s
  | .forceRetire => Sys2Proof.Machine.execForceRetire s
  | .clear => Sys2Proof.Machine.execClear s
  | .zeroise key => Sys2Proof.Machine.execZeroise key s
  | .debugUnlock => Sys2Proof.Machine.execDebugUnlock s
  | .setTarget inst => Sys2Proof.Machine.execSetTarget inst s
  | .import_ inst => Sys2Proof.Machine.execImport inst s
  | .getVersion port => Sys2Proof.Machine.execGetVersion port s
  | .getCapabilities port => Sys2Proof.Machine.execGetCapabilities port s
  | .negotiateAlgorithms port baseAsym baseHash => Sys2Proof.Machine.execNegotiateAlgorithms port baseAsym baseHash s
  | .getDigests port => Sys2Proof.Machine.execGetDigests port s
  | .getCertificate port slot offset length => Sys2Proof.Machine.execGetCertificate port slot offset length s
  | .challenge port slot nonce => Sys2Proof.Machine.execChallenge port slot nonce s
  | .getMeasurements port session index signed nonce => Sys2Proof.Machine.execGetMeasurements port session index signed nonce s
  | .keyExchange port random exchange => Sys2Proof.Machine.execKeyExchange port random exchange s
  | .finish port session verifyData => Sys2Proof.Machine.execFinish port session verifyData s
  | .heartbeat port session => Sys2Proof.Machine.execHeartbeat port session s
  | .keyUpdate port session operation => Sys2Proof.Machine.execKeyUpdate port session operation s
  | .endSession port session => Sys2Proof.Machine.execEndSession port session s
  | .chunkSend port chunkSeq last data => Sys2Proof.Machine.execChunkSend port chunkSeq last data s
  | .chunkGet port chunkSeq => Sys2Proof.Machine.execChunkGet port chunkSeq s
  | .ideKm session stream secure => Sys2Proof.Machine.execIdeKm session stream secure s
  | .doeDiscovery fn index => Sys2Proof.Machine.execDoeDiscovery fn index s
  | .cxlTableAccess fn entryHandle => Sys2Proof.Machine.execCxlTableAccess fn entryHandle s
  | .park mask => Sys2Proof.Machine.execPark mask s
  | .unpark mask => Sys2Proof.Machine.execUnpark mask s
  | .unparkComplete gal fails => Sys2Proof.Machine.execUnparkComplete gal fails s
  | .enterP3 => Sys2Proof.Machine.execEnterP3 s
  | .enterP4 => Sys2Proof.Machine.execEnterP4 s
  | .rstPackage key => Sys2Proof.Machine.execRstPackage key s
  | .rstGallery mask => Sys2Proof.Machine.execRstGallery mask s
  | .powerOnReset => Sys2Proof.Machine.execPowerOnReset s
  | .startUp obs => Sys2Proof.Machine.execStartUp obs s
  | .feedEntersWarn feed dv => Sys2Proof.Machine.execFeedEntersWarn feed dv s
  | .feedEntersLow feed dv => Sys2Proof.Machine.execFeedEntersLow feed dv s
  | .feedEntersRejected feed dv => Sys2Proof.Machine.execFeedEntersRejected feed dv s
  | .feedEntersOk feed dv => Sys2Proof.Machine.execFeedEntersOk feed dv s
  | .feedEntersAbsent feed dv => Sys2Proof.Machine.execFeedEntersAbsent feed dv s
  | .feedRejectRelease feed dv => Sys2Proof.Machine.execFeedRejectRelease feed dv s
  | .feedReturn => Sys2Proof.Machine.execFeedReturn s
  | .feedForce => Sys2Proof.Machine.execFeedForce s
  | .feedWarningCapEnd => Sys2Proof.Machine.execFeedWarningCapEnd s
  | .lossTimerExpire => Sys2Proof.Machine.execLossTimerExpire s
  | .powerWindow avgW => Sys2Proof.Machine.execPowerWindow avgW s
  | .powerReadingUpdate avg25 max25 jmax die => Sys2Proof.Machine.execPowerReadingUpdate avg25 max25 jmax die s
  | .junctionAboveThr die temp => Sys2Proof.Machine.execJunctionAboveThr die temp s
  | .thermalShutdown die temp => Sys2Proof.Machine.execThermalShutdown die temp s
  | .clockLost => Sys2Proof.Machine.execClockLost s
  | .driveInserted port identify width capMib => Sys2Proof.Machine.execDriveInserted port identify width capMib s
  | .driveRemoved port => Sys2Proof.Machine.execDriveRemoved port s
  | .driveLinkLost port => Sys2Proof.Machine.execDriveLinkLost port s
  | .bbxRecordWritten ok => Sys2Proof.Machine.execBbxRecordWritten ok s
  | .bbxIndexWrite index => Sys2Proof.Machine.execBbxIndexWrite index s
  | .bbxDataReady => Sys2Proof.Machine.execBbxDataReady s
  | .calConfigWrite gal reg value => Sys2Proof.Machine.execCalConfigWrite gal reg value s
  | .cntOwnWrite j value => Sys2Proof.Machine.execCntOwnWrite j value s
  | .cntCfgWrite fn reg value => Sys2Proof.Machine.execCntCfgWrite fn reg value s
  | .cntClr fn => Sys2Proof.Machine.execCntClr fn s
  | .cntHold hold => Sys2Proof.Machine.execCntHold hold s
  | .cntBwCfgWrite value => Sys2Proof.Machine.execCntBwCfgWrite value s
  | .cntSnapTickLoRead fn => Sys2Proof.Machine.execCntSnapTickLoRead fn s
  | .tckCountLoRead fn => Sys2Proof.Machine.execTckCountLoRead fn s
  | .galCalElemLoRead fn gal slot => Sys2Proof.Machine.execGalCalElemLoRead fn gal slot s
  | .devAcctCycLoRead fn => Sys2Proof.Machine.execDevAcctCycLoRead fn s
  | .devEngLoRead fn n => Sys2Proof.Machine.execDevEngLoRead fn n s
  | .errLastTickLoRead fn => Sys2Proof.Machine.execErrLastTickLoRead fn s
  | .bbxSeqLoRead fn => Sys2Proof.Machine.execBbxSeqLoRead fn s
  | .cntBwLoRead fn reg => Sys2Proof.Machine.execCntBwLoRead fn reg s
  | .entdaa addr => Sys2Proof.Machine.execEntdaa addr s
  | .svcSclLowTimeout => Sys2Proof.Machine.execSvcSclLowTimeout s
  | .setEndpointId eid => Sys2Proof.Machine.execSetEndpointId eid s
  | .getEndpointId => Sys2Proof.Machine.execGetEndpointId s
  | .getVersionSupport msgType => Sys2Proof.Machine.execGetVersionSupport msgType s
  | .getMessageTypeSupport => Sys2Proof.Machine.execGetMessageTypeSupport s
  | .getVendorDefinedMessageSupport selector => Sys2Proof.Machine.execGetVendorDefinedMessageSupport selector s
  | .getTid => Sys2Proof.Machine.execGetTid s
  | .setTid tid => Sys2Proof.Machine.execSetTid tid s
  | .getPldmVersion pldmType => Sys2Proof.Machine.execGetPldmVersion pldmType s
  | .getPldmTypes => Sys2Proof.Machine.execGetPldmTypes s
  | .getPldmCommands pldmType => Sys2Proof.Machine.execGetPldmCommands pldmType s
  | .requestUpdate => Sys2Proof.Machine.execRequestUpdate s
  | .passComponentTable components => Sys2Proof.Machine.execPassComponentTable components s
  | .updateComponent component size => Sys2Proof.Machine.execUpdateComponent component size s
  | .requestFirmwareData offset data => Sys2Proof.Machine.execRequestFirmwareData offset data s
  | .verifyComplete => Sys2Proof.Machine.execVerifyComplete s
  | .applyComplete => Sys2Proof.Machine.execApplyComplete s
  | .activateFirmware => Sys2Proof.Machine.execActivateFirmware s
  | .status => Sys2Proof.Machine.execStatus s
  | .wake => Sys2Proof.Machine.execWake s
  | .bbxRead index => Sys2Proof.Machine.execBbxRead index s
  | .bbxInfo => Sys2Proof.Machine.execBbxInfo s
  | .jtagTrst => Sys2Proof.Machine.execJtagTrst s
  | .bypass => Sys2Proof.Machine.execBypass s
  | .idcode => Sys2Proof.Machine.execIdcode s
  | .samplePreload => Sys2Proof.Machine.execSamplePreload s
  | .extest => Sys2Proof.Machine.execExtest s
  | .registerWrite fn off value => Sys2Proof.Machine.execRegisterWrite fn off value s
  | .standbySupplyLost => Sys2Proof.Machine.execStandbySupplyLost s
  | .hostLinkTrains rate width cxl => Sys2Proof.Machine.execHostLinkTrains rate width cxl s

end Sys2Proof.Machine
end

