-- ==== Sys2Proof/Safety.lean ====
section
/-! DEFINITION. What counts as a safe run, and the words in which statements say what a command leaves alone. -/

namespace Sys2Proof.Machine

/-- The command completes at the state: `exec` answers a next state. -/
def completes (c : Instr) (s : State) : Prop := ∃ t, exec c s = .next t

/-- The parts of the state that a frame names: each field of `State`, and each field of its memories, its host side, its lexicon
side and its tick clock (`tickCount` is `tk.count`, `bootMem` the boot memory). -/
inductive Part where
  | pending | regs | latch | regWrites | sp | hbm | acc | scale | staging | host | flash | bootMem | mram | ctx | win | winM
  | obj | req | slot | hdr | hdrM | seen | seenM | flights | running | tickCount | replay | replayNext | lateMark | now | lastStretch
  | period | seats | tickStem | pend | lateWindows | sync | events | evCount | out | rings | handles | reqs | mirror | entries | cmdRecords
  | readCount | lastRing | mgq | resizeQ | instOps | linkUp | immutable | evLost | lex | lexCopies | slots | train | stems | fills | fetched
  | placed | cache | driveMib | insts | images
  | trust | boot | svc | jtag | faults | bbx | pw | cnt | cal | freeCtr
  deriving DecidableEq, Repr

/-- Two states agree on a part. -/
def Part.same (s t : State) : Part → Prop
  | .pending => t.pending = s.pending
  | .regs => t.regs = s.regs
  | .latch => t.latch = s.latch
  | .regWrites => t.regWrites = s.regWrites
  | .sp => t.mem.sp = s.mem.sp
  | .hbm => t.mem.hbm = s.mem.hbm
  | .acc => t.mem.acc = s.mem.acc
  | .scale => t.mem.scale = s.mem.scale
  | .staging => t.mem.staging = s.mem.staging
  | .host => t.mem.host = s.mem.host
  | .flash => t.mem.flash = s.mem.flash
  | .bootMem => t.mem.boot = s.mem.boot
  | .mram => t.mem.mram = s.mem.mram
  | .ctx => t.mem.ctx = s.mem.ctx
  | .win => t.mem.win = s.mem.win
  | .winM => t.mem.winM = s.mem.winM
  | .obj => t.mem.obj = s.mem.obj
  | .req => t.mem.req = s.mem.req
  | .slot => t.mem.slot = s.mem.slot
  | .hdr => t.mem.hdr = s.mem.hdr
  | .hdrM => t.mem.hdrM = s.mem.hdrM
  | .seen => t.mem.seen = s.mem.seen
  | .seenM => t.mem.seenM = s.mem.seenM
  | .flights => t.flights = s.flights
  | .running => t.tk.running = s.tk.running
  | .tickCount => t.tk.count = s.tk.count
  | .replay => t.tk.replay = s.tk.replay
  | .replayNext => t.tk.replayNext = s.tk.replayNext
  | .lateMark => t.tk.lateMark = s.tk.lateMark
  | .now => t.tk.now = s.tk.now
  | .lastStretch => t.tk.lastStretch = s.tk.lastStretch
  | .period => t.tk.period = s.tk.period
  | .seats => t.tk.seats = s.tk.seats
  | .tickStem => t.tk.tickStem = s.tk.tickStem
  | .pend => t.tk.pend = s.tk.pend
  | .lateWindows => t.tk.lateWindows = s.tk.lateWindows
  | .sync => t.sync = s.sync
  | .events => t.events = s.events
  | .evCount => t.evCount = s.evCount
  | .out => t.out = s.out
  | .rings => t.hs.rings = s.hs.rings
  | .handles => t.hs.handles = s.hs.handles
  | .reqs => t.hs.reqs = s.hs.reqs
  | .mirror => t.hs.mirror = s.hs.mirror
  | .entries => t.hs.entries = s.hs.entries
  | .cmdRecords => t.hs.cmdRecords = s.hs.cmdRecords
  | .readCount => t.hs.readCount = s.hs.readCount
  | .lastRing => t.hs.lastRing = s.hs.lastRing
  | .mgq => t.hs.mgq = s.hs.mgq
  | .resizeQ => t.hs.resizeQ = s.hs.resizeQ
  | .instOps => t.hs.instOps = s.hs.instOps
  | .linkUp => t.hs.linkUp = s.hs.linkUp
  | .immutable => t.hs.immutable = s.hs.immutable
  | .evLost => t.hs.evLost = s.hs.evLost
  | .lex => t.ls.lex = s.ls.lex
  | .lexCopies => t.ls.lexCopies = s.ls.lexCopies
  | .slots => t.ls.slots = s.ls.slots
  | .train => t.ls.train = s.ls.train
  | .stems => t.ls.stems = s.ls.stems
  | .fills => t.ls.fills = s.ls.fills
  | .fetched => t.ls.fetched = s.ls.fetched
  | .placed => t.ls.placed = s.ls.placed
  | .cache => t.ls.cache = s.ls.cache
  | .driveMib => t.ls.driveMib = s.ls.driveMib
  | .insts => t.insts = s.insts
  | .images => t.images = s.images
  | .trust => t.trust = s.trust
  | .boot => t.boot = s.boot
  | .svc => t.svc = s.svc
  | .jtag => t.jtag = s.jtag
  | .faults => t.faults = s.faults
  | .bbx => t.bbx = s.bbx
  | .pw => t.pw = s.pw
  | .cnt => t.cnt = s.cnt
  | .cal => t.cal = s.cal
  | .freeCtr => t.freeCtr = s.freeCtr

/-- No part changes but those listed. -/
def changesOnly (ps : List Part) (s t : State) : Prop := ∀ p, p ∉ ps → p.same s t

/-- No register changes but those at the listed keys (copy 2^28 + offset). -/
def regsOnly (ks : List Nat) (s t : State) : Prop := ∀ k, k ∉ ks → smGet regDefault t.regs k = smGet regDefault s.regs k

/-- The parts and the registers a command may change. -/
def framed (ps : List Part) (ks : List Nat) (s t : State) : Prop := changesOnly ps s t ∧ regsOnly ks s t

/-- What raising an event may change beside `events`: the black box and its two registers (R431). -/
def eventParts : List Part := [.events, .regs, .bbx]

/-- The registers that raising an event may change. -/
def eventRegs : List Nat := [Reg.BBX_STATUS, Reg.BBX_LOST]

/-! ### What a clause stores -/

/-- A memory is what it was outside runs of bytes, each an offset from `base` and a length. -/
def sameOutside (base : Nat) (runs : List (Nat × Nat)) (m m' : Mem) : Prop :=
  ∀ k, (∀ x ∈ runs, k < base + x.1 ∨ base + x.1 + x.2 ≤ k) → memByte m' k = memByte m k

/-- The bytes of line `i` of a grid that an operand stores: a row, or a column when the operand is transposed. -/
def vuLineBytes (o : VuOperand) (grid : List (List VuOut)) (i : Nat) : List Byte :=
  (if o.trn then grid.map fun row => row.getD i ⟨[], false, false⟩ else grid.getD i []).flatMap (·.bytes)

/-- The lines of a grid that an operand stores. -/
def vuLineCount (o : VuOperand) (grid : List (List VuOut)) : Nat := if o.trn then (grid.headD []).length else grid.length

/-- The runs of bytes that a grid covers where an operand stores it. -/
def vuRuns (o : VuOperand) (grid : List (List VuOut)) : List (Nat × Nat) :=
  (List.range (vuLineCount o grid)).map fun i => (o.off.toNat + i * o.pitch.toNat, (vuLineBytes o grid i).length)

/-- The run of a clause's status words. -/
def statusRuns (d : VuDesc) : List (Nat × Nat) := if d.statusOff = 0xFFFFFFFF then [] else [(d.statusOff.toNat, 8)]

/-- The runs of scratchpad bytes, and of context bytes, that a grid covers. -/
def spRuns (o : VuOperand) (grid : List (List VuOut)) : List (Nat × Nat) := if o.ctx then [] else vuRuns o grid
def ctxRuns (o : VuOperand) (grid : List (List VuOut)) : List (Nat × Nat) := if o.ctx then vuRuns o grid else []

/-- Nothing of the contexts changes but runs of the next half of one seat's context on a gallery; with no seat, nothing. -/
def ctxOutside (s t : State) (g : Nat) (seat : Option Seat) (runs : List (Nat × Nat)) : Prop :=
  match seat with
  | some q => sameOutside (ctxKey q.handle g (1 - s.curHalf q.handle) 0) runs s.mem.ctx t.mem.ctx
  | none => t.mem.ctx = s.mem.ctx

/-- A VU clause that stores a grid at D with status words 0: what the memories hold, which bytes stay, and that nothing else changes
but what waits for the commit and the counters (`more`: the free value it used). -/
def storesGrid (c : Issue) (d : VuDesc) (outs : List (List VuOut)) (more : List Part) (s t : State) : Prop :=
  let g := c.gal.toNat
  let seat := s.seatAt g c.seat.toNat
  t.mem = (vuStatus (vuWrite s g seat d.d outs) g d 0 0).mem
    ∧ sameOutside (spKey g 0) (spRuns d.d outs ++ statusRuns d) s.mem.sp t.mem.sp
    ∧ ctxOutside s t g seat (ctxRuns d.d outs)
    ∧ framed (.sp :: .ctx :: .pend :: .cnt :: more) [] s t

/-- The runs of bytes that an MM stores at its destination, from the base of what it addresses: its rows, and with WFMT 9 those of
its second plane; in CTX mode the 16 rows of a row group (R137, R151). -/
def mmDestRuns (d : MmDesc) : List (Nat × Nat) :=
  let rows := if d.dmode then 16 else (tileShape d.shape.toNat).1
  let cols := (tileShape d.shape.toNat).2
  let at_ := fun (off bytes : Nat) => (List.range rows).map fun i => (off + i * (32 * d.dPitch.toNat), bytes)
  if d.write then
    if d.wfmt = 9 then at_ d.dOff.toNat (2 * cols) ++ at_ d.ypreOff.toNat (2 * cols) else at_ d.dOff.toNat (wfmtBytes d.wfmt.toNat * cols)
  else []

/-- The run of an MM's status word. -/
def mmStatusRuns (d : MmDesc) : List (Nat × Nat) := if d.statusOff = 0xFFFFFFFF then [] else [(d.statusOff.toNat, 4)]

/-- The runs of accumulator storage that an MM may store to: its tile, the tile of a second pass, its gradient blocks (R142, R156,
R161). -/
def mmAccRuns (d : MmDesc) : List (Nat × Nat) :=
  let tile := (tileShape d.shape.toNat).1 * (tileShape d.shape.toNat).2 * accBytes d.acc.toNat
  [(8192 * d.accBase.toNat, tile)]
    ++ (if d.rpl then [(8192 * d.accBase.toNat + tile, tile)] else [])
    ++ (if d.infl = 3 then (List.range d.gblk.toNat).map fun j => (8192 * d.gaccBase.toNat + 16384 * j, 16384) else [])

/-- Nothing of the contexts changes but runs of the next halves of the contexts of the listed seats on a gallery. -/
def ctxOutsideAll (s t : State) (g : Nat) (seats : List (Option Seat)) (runs : List (Nat × Nat)) : Prop :=
  ∀ k, (∀ q, some q ∈ seats → ∀ x ∈ runs, k < ctxKey q.handle g (1 - s.curHalf q.handle) 0 + x.1
      ∨ ctxKey q.handle g (1 - s.curHalf q.handle) 0 + x.1 + x.2 ≤ k) →
    memByte t.mem.ctx k = memByte s.mem.ctx k

/-- The seats of an expert-routing clause: its own and those of its slices (R206). -/
def routeSeats (s : State) (c : Issue) (w : RouteWords) : List (Option Seat) :=
  s.seatAt c.gal.toNat c.seat.toNat :: w.slices.map fun x => s.seatAt c.gal.toNat x.toNat

/-- The runs of the buffers of COMPRESS at D: each expert's rows, slice by slice (R207). -/
def compressBufRuns (d : VuDesc) (w : RouteWords) : List (Nat × Nat) :=
  (List.range w.e.toNat).flatMap fun e => (List.range (16 * w.cap16.toNat * w.slices.length)).map fun r =>
    (d.d.off.toNat + e * w.bufStride.toNat + r * d.d.pitch.toNat, d.cols.toNat * vuBytes d.x.fmt.toNat)

/-- The runs of scratchpad that COMPRESS stores: its buffers in ABS mode, the map, its status words (R207, R208). -/
def compressSpRuns (d : VuDesc) (w : RouteWords) : List (Nat × Nat) :=
  (if d.d.ctx then [] else compressBufRuns d w) ++ [(w.mapOff.toNat, 4 * w.kc.toNat * d.rows.toNat)] ++ statusRuns d

/-- The runs of the contexts that COMPRESS may store: each slice's overflow rows and its own map, and its buffers in CTX mode (R195, R207,
R208). -/
def compressCtxRuns (d : VuDesc) (w : RouteWords) : List (Nat × Nat) :=
  ((List.range w.e.toNat).flatMap fun e => (List.range (16 * w.ocap16.toNat)).map fun p =>
      (w.ovfOff.toNat + e * (16 * w.ocap16.toNat) * d.d.pitch.toNat + p * d.d.pitch.toNat, d.cols.toNat * vuBytes d.x.fmt.toNat))
    ++ [(w.omapOff.toNat, 4 * w.kc.toNat * d.rows.toNat)] ++ if d.d.ctx then compressBufRuns d w else []

/-- The lines of an operand of a shape, stored with at most its elements' bytes each. -/
def lineRuns (o : VuOperand) (rows cols : Nat) : List (Nat × Nat) :=
  (List.range (if o.trn then cols else rows)).map fun i =>
    (o.off.toNat + i * o.pitch.toNat, (if o.trn then rows else cols) * vuBytes o.fmt.toNat)

/-- The runs of scratchpad that SOLVE_SPD stores: its workspace, D, the lower triangle of L, its status words (R213, R214). -/
def solveSpRuns (d : VuDesc) (w : SolveWords) : List (Nat × Nat) :=
  let n := w.n.toNat
  [(w.wsOff.toNat, 4 * n * (n + w.r.toNat))] ++ (if d.d.ctx then [] else lineRuns d.d n w.r.toNat)
    ++ (if w.lOff = 0xFFFFFFFF then [] else (List.range n).map fun i => (w.lOff.toNat + 4 * n * i, 4 * (i + 1))) ++ statusRuns d

/-- The runs of scratchpad that SIGN_UPDATE stores: its records, their serving copies at D, its status words (R265). -/
def signSpRuns (d : VuDesc) (w : SignWords) : List (Nat × Nat) :=
  [(w.recOut.toNat, 8 * (d.rows.toNat * d.cols.toNat))]
    ++ (if d.d.fmt = 15 ∨ d.d.ctx then [] else lineRuns d.d d.rows.toNat d.cols.toNat) ++ statusRuns d

/-- The runs of a context that hold a layer's norm entry and a group's step summary (R269). -/
def areaRuns (layer normOff group sumOff : Nat) : List (Nat × Nat) := [(normOff + 192 * layer, 192), (sumOff + 64 * group, 64)]

/-- The bytes an in-stack update engine stored at an offset of its space, and nothing else of it (R267, R268). -/
def isuStores (sp : IsuSpace) (off : Nat) (bs : List Byte) (s t : State) : Prop :=
  match sp with
  | .stack n => memRead t.mem.hbm (n * 0x1000000000 + off) bs.length = bs
      ∧ sameOutside (n * 0x1000000000) [(off, bs.length)] s.mem.hbm t.mem.hbm ∧ t.mem.slot = s.mem.slot
  | .slot n cur => memRead t.mem.slot (slotKey n (1 - cur) off) bs.length = bs
      ∧ sameOutside (slotKey n (1 - cur) 0) [(off, bs.length)] s.mem.slot t.mem.slot ∧ t.mem.hbm = s.mem.hbm
  | .nowhere => t.mem.hbm = s.mem.hbm ∧ t.mem.slot = s.mem.slot

/-- The runs of the scratchpad side of a transfer (Table 10-5). -/
def xferRows (d : XferDesc) : List (Nat × Nat) := (List.range d.rows.toNat).map fun i => (xSpRow d i, d.rowBytes.toNat)

/-- The offsets of the 64-byte pieces that a WRITE stores on its memory side. -/
def writePieces (d : XferDesc) : List Nat :=
  (xRowOffs d).flatMap fun o => (List.range (d.rowBytes.toNat / 64)).map fun k => o + 64 * k

/-- The runs of bytes that a 64-byte piece of an object-relative WRITE reaches: one run where all of it is resident, else each byte that is
(R307). -/
def pieceRuns (s : State) (r : Request) (g obj off : Nat) : List (ObjPlace × Nat) :=
  match (s.writeSpan r g obj off).filter fun x => decide (64 ≤ x.2) with
  | some x => [(x.1, 64)]
  | none => (List.range 64).filterMap fun k => (s.objPlaceW r g obj (off + k)).map fun p => (p, 1)

/-- The runs of bytes that an object-relative WRITE reaches. -/
def writeRuns (s : State) (c : Issue) (d : XferDesc) : List (ObjPlace × Nat) :=
  match s.seatReq c with
  | some r => (writePieces d).flatMap fun o => pieceRuns s r c.gal.toNat d.obj.toNat o
  | none => []

/-- The memories that an object-relative WRITE reaches hold what they held outside its runs. -/
def outsidePlaces (runs : List (ObjPlace × Nat)) (s t : State) : Prop :=
  (∀ k, (∀ j w n, (ObjPlace.obj j w, n) ∈ runs → k < j ∨ j + n ≤ k) → memByte t.mem.obj k = memByte s.mem.obj k)
    ∧ (∀ k, (∀ j w n, (ObjPlace.slot j w, n) ∈ runs → k < j ∨ j + n ≤ k) → memByte t.mem.slot k = memByte s.mem.slot k)
    ∧ (∀ k, (∀ j n, (ObjPlace.req j, n) ∈ runs → k < j ∨ j + n ≤ k) → memByte t.mem.req k = memByte s.mem.req k)
    ∧ ∀ k, (∀ i o n, (ObjPlace.win i o, n) ∈ runs → k < o ∨ o + n ≤ k) →
      memByte t.mem.win k = memByte s.mem.win k ∧ memByte t.mem.winM k = memByte s.mem.winM k

/-- The bytes a fabric transfer takes from its source: hall staging, scratchpad or the seat's context (R312, R314). -/
def sendSource (s : State) (c : Issue) (d : FabDesc) : List Byte :=
  if d.path = 2 then memRead s.mem.staging d.srcOff.toNat d.bytes.toNat
  else s.opRead d.src.toNat d.smodeCtx (s.seatAt c.gal.toNat c.seat.toNat) d.srcOff.toNat d.bytes.toNat

/-- An ordered stop with a cause begins (R442): while ticks run, the cause is held for phase B of the landing, DEV_ALERT_N is pulled low,
the event is raised, and nothing changes but those and the parts listed; with no tick running it runs through at once: a package reset
that shows the cause, held in P4, which leaves the queue, host memory, the flash tier, the boot memory and the saved images. -/
def stopBegun (cause : Nat) (more : List Part) (s t : State) : Prop :=
  (s.tk.running = true → t.pw = { s.pw with alertLow := true, stopCause := some cause, lastWindowHigh := t.pw.lastWindowHigh }
      ∧ ⟨0x800A, none, [wordOf cause, wordOf s.tk.count.toNat], []⟩ ∈ t.events ∧ changesOnly (.pw :: more ++ eventParts) s t)
    ∧ (s.tk.running = false → t.tk.running = false ∧ t.pw.stopping = true ∧ t.fld Reg.PWR_STATE 31 29 = 4 ∧ t.fld Reg.RST_CAUSE 31 28 = cause
      ∧ t.pending = s.pending ∧ t.mem.host = s.mem.host ∧ t.mem.flash = s.mem.flash ∧ t.mem.boot = s.mem.boot ∧ t.images = s.images)

/-- An entry submitted on a command ring in use (R332, R337, R340; DESIGN CHOICE: log entry 43): its 64 bytes stand in its slot of the ring, in both
copies where the ring lies in the window; TAIL covers it unless the instance is DETACHED or TAIL is ahead already; nothing else
changes but what the ring engine reads at once. -/
def submitted (op : Nat) (ring : BitVec 14) (e : Entry) (s t : State) : Prop :=
  let k := ring.toNat
  let r := s.ringAt k
  let bs := (entryWords op e).flatMap Word.bytes
  let a := r.sqAddr + 64 * (e.seq.toNat % r.depth)
  let ahead := (e.seq.toNat + 65536 - r.sqPos % 65536) % 65536
  let out := (r.tail + r.depth - r.sqPos % r.depth) % r.depth
  t.mem = (if r.sqHost then { s.mem with host := memWrite s.mem.host a bs }
      else { s.mem with win := memWrite s.mem.win a bs, winM := memWrite s.mem.winM a bs })
    ∧ (t.ringAt k).tail = (if s.attachState r.inst ≠ 2 ∧ out ≤ ahead ∧ ahead + 1 < r.depth then (r.sqPos + ahead + 1) % r.depth else r.tail)
    ∧ changesOnly [.host, .win, .winM, .rings, .readCount, .entries, .lastRing, .cnt] s t

/-- A record posted in a completion queue (R347, R348): its 64 bytes stand at the queue's next place, in both
copies where the queue lies in the window (R330), and the place moves on by one. -/
def recordPosted (k : Nat) (x : Record) (s t : State) : Prop :=
  let r := s.ringAt k
  let a := r.cqAddr + 64 * (r.cqPos % r.depth)
  (∀ m ∈ (if r.cqHost then [t.mem.host] else [t.mem.win, t.mem.winM]), memRead m a 64 = (complWords x r.phase).flatMap Word.bytes)
    ∧ (t.ringAt k).cqPos = r.cqPos + 1 ∧ (t.ringAt k).cqHead = r.cqHead ∧ (t.ringAt k).held = []

/-- An image that passed admission: parsed from bytes that no check of Table 2-12 refuses (R45, R46). -/
def admitted (f : Flight) : Prop := ∃ pair len keys bytes, admitImage pair len keys bytes = none ∧ f = parseFlight bytes

/-- Every image that a slot holds, STAGED or ACTIVE, passed admission. -/
def flightsAdmitted (s : State) : Prop :=
  ∀ x, x = s.flights.v3 ∨ x ∈ s.flights.pairs → (∀ f, x.active = some f → admitted f) ∧ ∀ f, x.staged = some f → admitted f

end Sys2Proof.Machine

namespace Sys2Proof

/-- The commands that neither belong to the flight images, the service port or JTAG, nor start, end or stop ticks, nor may stand
for one that does (REGISTER_WRITE). -/
def Instr.isKept : Instr → Bool
  | .landing | .replayLimit | .poisonRepair _ _ _ | .flightLoad _ | .flightCopyComplete | .flightAdmissionComplete
  | .flightSwitchDrain _ _ | .flightSwitchImmediate _ | .flightSwitchApply | .drainTicksExpire | .perstNDeassert | .debugUnlock
  | .enterP4 | .rstPackage _ | .powerOnReset | .startUp _ | .lossTimerExpire | .powerWindow _ | .thermalShutdown _ _
  | .clockLost | .entdaa _ | .svcSclLowTimeout | .setEndpointId _ | .getEndpointId | .getVersionSupport _
  | .getMessageTypeSupport | .getVendorDefinedMessageSupport _ | .getTid | .setTid _ | .getPldmVersion _ | .getPldmTypes
  | .getPldmCommands _ | .requestUpdate | .passComponentTable _ | .updateComponent _ _ | .requestFirmwareData _ _
  | .verifyComplete | .applyComplete | .activateFirmware | .status | .wake | .bbxRead _ | .bbxInfo | .jtagTrst | .bypass
  | .idcode | .samplePreload | .extest | .registerWrite _ _ _ | .standbySupplyLost => false
  | _ => true

end Sys2Proof
end

