-- ==== Sys2Proof/Certificates/Slice0/Obligations.lean ====
section
/-! DEFINITION.  The statements for the provers, one `Obligations.<Name> : Prop` each, by the spec's parts: the queue, the clock, the units
of a gallery, transfers and the fabric, faults, residency and training, flights, landings and stops, the host side, instances, stems, keys and
sessions, power, records, registers, the service port, updates and start-up.  A docstring names the rules it formalises; where it rests on a
choice of the model it names the log entry. -/

open Sys2Proof Sys2Proof.Machine

/-! ## The queue, and the block as a whole -/

/-- A step takes the command at the front of the queue and answers what `exec` answers on the state with the rest. -/
def Obligations.StepRunsFront : Prop :=
  ∀ (c : Instr) (s : State) (rest : List Instr), s.pending = c :: rest → step s = exec c { s with pending := rest }

/-- With no command waiting the block idles (the model's choice, log entry 3); no command touches the queue of commands that wait behind it; and
a command that neither belongs to flights, the service port or JTAG, nor starts, ends or stops ticks, leaves the flight images, the service port,
JTAG and TCK_COUNT as they are. -/
def Obligations.CommandsConfined : Prop :=
  (∀ s : State, s.pending = [] → step s = .next s)
  ∧ (∀ (c : Instr) (s t : State), exec c s = .next t → t.pending = s.pending)
  ∧ ∀ (c : Instr) (s t : State), c.isKept = true → exec c s = .next t →
    t.flights = s.flights ∧ t.svc = s.svc ∧ t.jtag = s.jtag ∧ t.tk.count = s.tk.count

/-! ## The clock and its windows -/

/-- TICK_OVERRUN_END with ticks running: TCK_OVERRUN counts the overrun and shows its cycles, saturating, the event is raised, and the
boundaries that follow shift (R65).  REFRESH changes nothing (R91; its timing is left out, log entry 9). -/
def Obligations.OverrunsAndRefreshes : Prop :=
  (∀ (cycles : BitVec 32) (s : State), s.tk.running = true → ∃ t, exec (.tickOverrunEnd cycles) s = .next t
    ∧ t.fld Reg.TCK_OVERRUN 31 20 = satAdd 12 (s.fld Reg.TCK_OVERRUN 31 20) 1
    ∧ t.fld Reg.TCK_OVERRUN 19 0 = Nat.min cycles.toNat 0xFFFFF
    ∧ t.tk.now = s.tk.now + cycles.toNat * s.fld Reg.TCK_STRETCH 8 0 / 600
    ∧ t.events = s.events ++ [⟨0x1012, none, [wordOf cycles.toNat, wordOf s.tk.count.toNat], []⟩]
    ∧ framed (.now :: eventParts) (Reg.TCK_OVERRUN :: eventRegs) s t)
  ∧ ∀ (stack : BitVec 4) (pc : BitVec 6) (cycle : BitVec 16) (s : State), exec (.refresh stack pc cycle) s = .next s

/-- BW_WINDOW_CLOSE once the window has had its ticks: every monitor's counts go to its last-window counts and restart, and with
bit 31 of CNT_BW_CFG its event is raised; before that it changes nothing (R488, R489).  CAL_WINDOW_CLOSE once a gallery's window has had its
ticks: the counts of each slot in use whose configuration does not change at this landing are copied to its registers and restart, and the
window's ticks restart; before that it changes nothing (R132, R133). -/
def Obligations.WindowsClose : Prop :=
  (∀ s : State, (s.bwFull = false → exec .bwWindowClose s = .next s)
    ∧ (s.bwFull = true → ∃ t, exec .bwWindowClose s = .next t
      ∧ (∀ p, smGet (fun _ => BwMon.fresh) t.cnt.bw p = (smGet (fun _ => BwMon.fresh) s.cnt.bw p).close)
      ∧ t.cnt = { s.cnt with bw := t.cnt.bw, bwTicks := 0 }
      ∧ t.events = s.events ++ (if (s.reg Reg.CNT_BW_CFG).bit 31 then
          [⟨0xA002, none, [wordOf (s.fld Reg.CNT_BW_CFG 15 0), wordOf s.tk.count.toNat], []⟩] else [])
      ∧ framed (.cnt :: eventParts) eventRegs s t))
  ∧ ∀ (gal : BitVec 3) (s : State), (s.calFull gal.toNat = false → exec (.calWindowClose gal) s = .next s)
    ∧ (s.calFull gal.toNat = true → ∃ t, exec (.calWindowClose gal) s = .next t
      ∧ (∀ n < 256, s.calTouched gal.toNat n = false → (s.reg (Reg.GAL_CAL_CFG gal.toNat n)).bit 31 = true →
          ((s.reg (Reg.GAL_CAL_CFG gal.toNat n)).field 30 24 < 64 ∨ (s.reg (Reg.GAL_CAL_CFG gal.toNat n)).field 30 24 = 0x7F) →
          t.reg (Reg.GAL_CAL_SAT gal.toNat n) = wordOf (Nat.min (s.calAt gal.toNat n).sat 0xFFFFFFFF)
          ∧ t.reg (Reg.GAL_CAL_ELEM_LO gal.toNat n) = wordOf (s.calAt gal.toNat n).elem
          ∧ t.reg (Reg.GAL_CAL_ELEM_HI gal.toNat n) = wordOf ((s.calAt gal.toNat n).elem / 0x100000000)
          ∧ t.calAt gal.toNat n = CalCount.fresh)
      ∧ natAt t.cal.ticks gal.toNat = 0
      ∧ changesOnly (.cal :: eventParts) s t)

/-! ## Exact sums and counters -/

/-- Exact sums: up to 2^42 FP32 words added to the empty accumulator, in any order, leave the same value and the same flags; the value is the
sum of the words' own, in units of 2^-149; the parts of a sum joined leave what the whole sum leaves; and a pair adds its hi and its lo (R184). -/
def Obligations.ExactSumsCommute : Prop :=
  let sum := fun (ws : List Word) => ws.foldl (fun a w => xAdd a (fpDecode fp32 w.toNat)) xEmpty
  (∀ ws vs : List Word, ws.Perm vs → ws.length ≤ 2 ^ 42 → sum ws = sum vs)
  ∧ (∀ (ws : List Word) (terms : List (Bool × Nat × Int)), ws.length ≤ 2 ^ 42 →
      ws.map (fun w => fpDecode fp32 w.toNat) = terms.map (fun t => Fv.fin t.1 t.2.1 t.2.2) →
      (sum ws).value = (terms.map fun t => xUnits t.1 t.2.1 t.2.2).sum)
  ∧ (∀ ws vs : List Word, ws.length + vs.length ≤ 2 ^ 42 → xJoin (sum ws) (sum vs) = sum (ws ++ vs))
  ∧ ∀ (a : XAcc) (hi lo : Word), xAddElem 8 a (hi.toNat + 0x100000000 * lo.toNat)
      = xAdd (xAdd a (fpDecode fp32 hi.toNat)) (fpDecode fp32 lo.toNat)

/-- Phase E adds a counter's shadow: the value wraps modulo 2^64, and each wrap with WRAP_EV raises EV_CNT_WRAP to the counter's owner; a replayed
tick with COMMIT discards the shadow; nothing else changes (R483, R487, R491). -/
def Obligations.CounterShadowsAdd : Prop :=
  ∀ (s : State) (b k : Nat) (replayed : Bool),
    let c := s.ctr b k
    let owner := s.cntOwner k
    let t := s.addShadow b k replayed
    let counts := (replayed && (cntCfgInForce owner c.cfg).bit 30) = false
    let dests := if owner = 0x7F then [] else [owner]
    (t.ctr b k).shadow = 0
    ∧ (counts → (t.ctr b k).value = (c.value + c.shadow) % 2 ^ 64)
    ∧ (¬counts → (t.ctr b k).value = c.value)
    ∧ t.events = s.events ++ (if counts ∧ 2 ^ 64 ≤ c.value + c.shadow ∧ c.cfg.bit 28 = true then
        [⟨0xA001, if owner = 0x7F then none else some owner, [b, k, s.tk.count.toNat].map wordOf, dests⟩] else [])
    ∧ (∀ b' k', 16 * b' + k' ≠ 16 * b + k → t.ctr b' k' = s.ctr b' k')
    ∧ framed (.cnt :: eventParts) eventRegs s t

/-! ## Matrix units -/

/-- MM that the running program places on an MU in service, admissible and inside scratchpad: what its memories hold, which bytes of scratchpad, contexts and
accumulator storage stay, and that nothing else changes but what waits for the commit and the counters (R137, R142, R151, R156, R161,
R167). -/
def Obligations.MatrixMultiply : Prop :=
  ∀ (c : Issue) (d : MmDesc) (s : State), s.muReady c (.mm d) = true → mmCheck c.seat.toNat d = none →
    (mmInside d && mmInflInside s c d) = true →
    let g := c.gal.toNat
    let m := s.physMu g c.unit.toNat
    ∃ t, exec (.mm c d) s = .next t
      ∧ t.mem = (mmStore s g m d (mmSeats s g d) (mmCalc s c m d)).mem
      ∧ sameOutside (spKey g 0) ((if d.dmode then [] else mmDestRuns d) ++ mmStatusRuns d) s.mem.sp t.mem.sp
      ∧ ctxOutsideAll s t g (mmSeats s g d) (if d.dmode then mmDestRuns d else [])
      ∧ sameOutside (accKey g m 0) (mmAccRuns d) s.mem.acc t.mem.acc
      ∧ framed [.sp, .ctx, .acc, .pend, .cnt] [] s t

/-- SCALE_LOAD, ACC_SAVE and ACC_RESTORE that the running program places on an MU in service with what R148 and Table 5-8 allow, inside scratchpad: the registers or
bytes they copy, and that nothing else changes but the counters. -/
def Obligations.MatrixMoves : Prop :=
  ∀ (c : Issue) (s : State),
    let g := c.gal.toNat
    let m := s.physMu g c.unit.toNat
    (∀ d : ScaleLoadDesc, s.muReady c (.scaleLoad d) = true → 1 ≤ d.count.toNat → d.reg0.toNat + d.count.toNat ≤ 4096 → d.srcOff.toNat % 64 = 0 →
      d.srcOff.toNat + 4 * d.count.toNat ≤ spSize → ∃ t, exec (.scaleLoad c d) s = .next t
        ∧ (∀ r, smGet (fun _ => 0x7FC00000#32) t.mem.scale ((16 * g + m) * 4096 + r) =
            if d.reg0.toNat ≤ r ∧ r < d.reg0.toNat + d.count.toNat then
              wordOf (natOfBytes (memRead s.mem.sp (spKey g (d.srcOff.toNat + 4 * (r - d.reg0.toNat))) 4))
            else smGet (fun _ => 0x7FC00000#32) s.mem.scale ((16 * g + m) * 4096 + r))
        ∧ (∀ k, (k < (16 * g + m) * 4096 ∨ (16 * g + m) * 4096 + 4096 ≤ k) →
            smGet (fun _ => 0x7FC00000#32) t.mem.scale k = smGet (fun _ => 0x7FC00000#32) s.mem.scale k)
        ∧ framed [.scale, .cnt] [] s t)
    ∧ ∀ d : AccMoveDesc, accMoveOk d = true → d.spOff.toNat + 8192 * d.len.toNat ≤ spSize →
      (s.muReady c (.accMove 2 d) = true → ∃ t, exec (.accSave c d) s = .next t
        ∧ memRead t.mem.sp (spKey g d.spOff.toNat) (8192 * d.len.toNat) = memRead s.mem.acc (accKey g m (8192 * d.accBase.toNat)) (8192 * d.len.toNat)
        ∧ sameOutside (spKey g 0) [(d.spOff.toNat, 8192 * d.len.toNat)] s.mem.sp t.mem.sp
        ∧ framed [.sp, .cnt] [] s t)
      ∧ (s.muReady c (.accMove 3 d) = true → ∃ t, exec (.accRestore c d) s = .next t
        ∧ memRead t.mem.acc (accKey g m (8192 * d.accBase.toNat)) (8192 * d.len.toNat) = memRead s.mem.sp (spKey g d.spOff.toNat) (8192 * d.len.toNat)
        ∧ sameOutside (accKey g m 0) [(8192 * d.accBase.toNat, 8192 * d.len.toNat)] s.mem.acc t.mem.acc
        ∧ framed [.acc, .cnt] [] s t)

/-! ## Vector units -/

/-- MAP, ADD, SUB, MUL, MAX, MIN and FMA that the running program places on a VU in service, admissible and inside scratchpad: D holds each element's result rounded
once, the status words are 0, and nothing else is stored (R193, R198, R199, R215).  MAP's elements whose two ends differ are free
(log entry 10). -/
def Obligations.VectorElementwise : Prop :=
  ∀ (c : Issue) (d : VuDesc) (s : State),
    (s.vuReady c (.vu 0x01 false d) = true → vuCheck 0x01 c.seat.toNat false d = none → vuInside 0x01 d = true → ∃ t, exec (.map c d) s = .next t
      ∧ storesGrid c d (mapOuts s c d) [.freeCtr] s t ∧ t.freeCtr = s.freeCtr + 1)
    ∧ (s.vuReady c (.vu 0x02 false d) = true → vuCheck 0x02 c.seat.toNat false d = none → vuInside 0x02 d = true → ∃ t, exec (.add c d) s = .next t
      ∧ storesGrid c d (map2Outs s c d fvAdd) [] s t)
    ∧ (s.vuReady c (.vu 0x03 false d) = true → vuCheck 0x03 c.seat.toNat false d = none → vuInside 0x03 d = true → ∃ t, exec (.sub c d) s = .next t
      ∧ storesGrid c d (map2Outs s c d fvSub) [] s t)
    ∧ (s.vuReady c (.vu 0x04 false d) = true → vuCheck 0x04 c.seat.toNat false d = none → vuInside 0x04 d = true → ∃ t, exec (.mul c d) s = .next t
      ∧ storesGrid c d (map2Outs s c d fvMul) [] s t)
    ∧ (s.vuReady c (.vu 0x05 false d) = true → vuCheck 0x05 c.seat.toNat false d = none → vuInside 0x05 d = true → ∃ t, exec (.max c d) s = .next t
      ∧ storesGrid c d (map2Outs s c d fvMax) [] s t)
    ∧ (s.vuReady c (.vu 0x06 false d) = true → vuCheck 0x06 c.seat.toNat false d = none → vuInside 0x06 d = true → ∃ t, exec (.min c d) s = .next t
      ∧ storesGrid c d (map2Outs s c d fvMin) [] s t)
    ∧ (s.vuReady c (.vu 0x07 false d) = true → vuCheck 0x07 c.seat.toNat false d = none → vuInside 0x07 d = true → ∃ t, exec (.fma c d) s = .next t
      ∧ storesGrid c d (fmaOuts s c d) [] s t)
    ∧ ∀ w : InflWords, s.vuReady c (.infl d w) = true → vuCheck 0x08 c.seat.toNat false d = none → vuInside 0x08 d = true →
      (firstFail (inflRules c.seat.toNat d.rows.toNat w)).isNone = true → inflRead s c d w = true → ∃ t, exec (.infl c d w) s = .next t
      ∧ storesGrid c d (inflOuts s c d w) [] s t

/-- RSUM, RSUMSQ, RMAX, RMIN, XRED and XCOMB that the running program places on a VU in service, admissible and inside scratchpad: D holds the reduction of each
output's range, the status words are 0, and nothing else is stored (R201, R203, R204, R215). -/
def Obligations.VectorReductions : Prop :=
  ∀ (c : Issue) (d : VuDesc) (s : State),
    (s.vuReady c (.vu 0x10 false d) = true → vuCheck 0x10 c.seat.toNat false d = none → vuInside 0x10 d = true → ∃ t, exec (.rsum c d) s = .next t
      ∧ storesGrid c d (reduceOuts s c d fun xs => pairStore d.d.fmt.toNat d.ovf (fastSum xs)) [] s t)
    ∧ (s.vuReady c (.vu 0x11 false d) = true → vuCheck 0x11 c.seat.toNat false d = none → vuInside 0x11 d = true → ∃ t, exec (.rsumsq c d) s = .next t
      ∧ storesGrid c d (reduceOuts s c d fun xs => pairStore d.d.fmt.toNat d.ovf (fastSum (xs.map fun x => rne32 (fvMul x x)))) [] s t)
    ∧ (s.vuReady c (.vu 0x12 false d) = true → vuCheck 0x12 c.seat.toNat false d = none → vuInside 0x12 d = true → ∃ t, exec (.rmax c d) s = .next t
      ∧ storesGrid c d (reduceOuts s c d fun xs => vuStore d.d.fmt.toNat d.ovf (xs.foldl fvMax (.inf true))) [] s t)
    ∧ (s.vuReady c (.vu 0x13 false d) = true → vuCheck 0x13 c.seat.toNat false d = none → vuInside 0x13 d = true → ∃ t, exec (.rmin c d) s = .next t
      ∧ storesGrid c d (reduceOuts s c d fun xs => vuStore d.d.fmt.toNat d.ovf (xs.foldl fvMin (.inf false))) [] s t)
    ∧ ∀ accIn : Bool,
      (s.vuReady c (.vu 0x20 accIn d) = true → vuCheck 0x20 c.seat.toNat accIn d = none → vuInside 0x20 d = true → ∃ t, exec (.xred c d accIn) s = .next t
        ∧ storesGrid c d (exactOuts s c d d.axis.toNat accIn) [] s t)
      ∧ (s.vuReady c (.vu 0x21 accIn d) = true → vuCheck 0x21 c.seat.toNat accIn d = none → vuInside 0x21 d = true → ∃ t, exec (.xcomb c d accIn) s = .next t
        ∧ storesGrid c d (exactOuts s c d 2 accIn) [] s t)

/-- TOPK and EXPAND that the running program places on a VU in service, admissible and inside scratchpad: TOPK stores the values at D and their indices at Y, EXPAND
its rows at D; the status words are 0 and nothing else is stored (R202, R206, R215). -/
def Obligations.VectorSelections : Prop :=
  ∀ (c : Issue) (d : VuDesc) (s : State),
    let g := c.gal.toNat
    let seat := s.seatAt g c.seat.toNat
    (s.vuReady c (.vu 0x14 false d) = true → vuCheck 0x14 c.seat.toNat false d = none → vuInside 0x14 d = true →
      (d.y.ctx = true ∨ lineInside (vuLines d.y (vuDestShape 0x14 d).1 (vuDestShape 0x14 d).2) = true) →
      ∃ t, exec (.topk c d) s = .next t
        ∧ t.mem = (vuStatus (vuWrite (vuWrite s g seat d.y (topIdxs s c d)) g seat d.d (topVals s c d)) g d 0 0).mem
        ∧ sameOutside (spKey g 0) (spRuns d.y (topIdxs s c d) ++ spRuns d.d (topVals s c d) ++ statusRuns d) s.mem.sp t.mem.sp
        ∧ ctxOutside s t g seat (ctxRuns d.y (topIdxs s c d) ++ ctxRuns d.d (topVals s c d))
        ∧ framed [.sp, .ctx, .pend, .cnt] [] s t)
    ∧ ∀ w : RouteWords, s.vuReady c (.route 0x31 d w) = true → vuCheck 0x31 c.seat.toNat false d = none → vuInside 0x31 d = true →
      (firstFail (routingRules 0x31 c.seat.toNat d w)).isNone = true →
      ((w.expSrc || (d.z.ctx || (routeBuffers d.z.off.toNat d.z.pitch.toNat (d.cols.toNat * vuBytes d.z.fmt.toNat) w).all lineInside)
        && lineInside (routeMap d.rows.toNat w)) && (d.y.ctx || lineInside (vuLines d.y d.rows.toNat w.kc.toNat))) = true →
      ∃ t, exec (.expand c d w) s = .next t ∧ storesGrid c d (expandOuts s c d w) [] s t

/-- COMPRESS, SOLVE_SPD and SIGN_UPDATE that the running program places on a VU in service, admissible and inside scratchpad: what the memories then hold, which bytes
stay, and that nothing else changes but what waits for the commit, the counters and a free value (R206 to R216, R263 to R269). -/
def Obligations.VectorRoutines : Prop :=
  ∀ (c : Issue) (d : VuDesc) (s : State),
    let g := c.gal.toNat
    let seat := s.seatAt g c.seat.toNat
    (∀ w : RouteWords, s.vuReady c (.route 0x30 d w) = true → vuCheck 0x30 c.seat.toNat false d = none → vuInside 0x30 d = true →
      (firstFail (routingRules 0x30 c.seat.toNat d w)).isNone = true →
      ((d.d.ctx || (routeBuffers d.d.off.toNat d.d.pitch.toNat (d.cols.toNat * vuBytes d.x.fmt.toNat) w).all lineInside)
        && lineInside (routeMap d.rows.toNat w) && (d.y.ctx || lineInside (vuLines d.y d.rows.toNat w.kc.toNat))) = true →
      ∃ t, exec (.compress c d w) s = .next t ∧ t.mem = (compressRun c d w s).mem
        ∧ sameOutside (spKey g 0) (compressSpRuns d w) s.mem.sp t.mem.sp
        ∧ ctxOutsideAll s t g (routeSeats s c w) (compressCtxRuns d w)
        ∧ framed [.sp, .ctx, .pend, .cnt, .freeCtr] [] s t)
    ∧ (∀ w : SolveWords,
      let d' := { d with rows := BitVec.ofNat 16 w.n.toNat, cols := BitVec.ofNat 16 w.r.toNat }
      s.vuReady c (.solve d w) = true → vuCheck 0x40 c.seat.toNat false d' = none → vuInside 0x40 d' = true → (firstFail (solveRules d w)).isNone = true →
      (extentOk false w.wsOff.toNat 0 1 (4 * w.n.toNat * (w.n.toNat + w.r.toNat))
        && (w.lOff == 0xFFFFFFFF || extentOk false w.lOff.toNat 0 1 (4 * w.n.toNat * w.n.toNat))
        && (d.x.ctx || lineInside (vuLines d.x w.n.toNat w.n.toNat))) = true →
      ∃ t, exec (.solveSpd c d w) s = .next t ∧ t.mem = (solveRun c d w s).mem
        ∧ sameOutside (spKey g 0) (solveSpRuns d w) s.mem.sp t.mem.sp
        ∧ ctxOutsideAll s t g [seat] (if d.d.ctx then lineRuns d.d w.n.toNat w.r.toNat else [])
        ∧ framed [.sp, .ctx, .pend, .cnt, .freeCtr] [] s t)
    ∧ ∀ w : SignWords, s.vuReady c (.sign d w) = true → vuCheck 0x09 c.seat.toNat false d = none → vuInside 0x09 d = true → signOk c d w = true →
      (extentOk false w.recIn.toNat 0 1 (8 * (d.rows.toNat * d.cols.toNat))
        && extentOk false w.recOut.toNat 0 1 (8 * (d.rows.toNat * d.cols.toNat))) = true →
      ∃ t, exec (.signUpdate c d w) s = .next t ∧ t.mem = (signRun c d w s).mem
        ∧ sameOutside (spKey g 0) (signSpRuns d w) s.mem.sp t.mem.sp
        ∧ ctxOutsideAll s t g [seat] ((if d.d.fmt ≠ 15 ∧ d.d.ctx = true then lineRuns d.d d.rows.toNat d.cols.toNat else [])
            ++ areaRuns w.layer.toNat w.normOff.toNat w.group.toNat w.sumOff.toNat)
        ∧ framed [.sp, .ctx, .pend, .cnt] [] s t

/-- A grid stored in scratchpad row by row reads back: each row's bytes stand at its place when no two rows meet. -/
def Obligations.VectorStoresReadBack : Prop :=
  ∀ (s : State) (g : Nat) (q : Option Seat) (o : VuOperand) (grid : List (List VuOut)), o.ctx = false → o.trn = false →
    (∀ i < grid.length, (vuLineBytes o grid i).length ≤ o.pitch.toNat) →
    ∀ i < grid.length, memRead (vuWrite s g q o grid).mem.sp (spKey g (o.off.toNat + i * o.pitch.toNat)) (vuLineBytes o grid i).length
      = vuLineBytes o grid i

/-! ## In-stack engines, transfers and the fabric -/

/-- UPDATE and PUBLISH that the running program places on an ISU in service, admissible and inside their space: the records (or serving words) stored, the norm entry
and step summary added to, and nothing else changed but what waits for the commit and the counters; with no space named, UPDATE adds
zeros and PUBLISH moves nothing (R87, R267 to R269). -/
def Obligations.InStackUpdates : Prop :=
  ∀ (c : Issue) (d : IsuDesc) (s : State), isuOk c d = true →
    let g := c.gal.toNat
    let seat := s.seatAt g c.seat.toNat
    let sp := s.isuSpace c d
    let n := d.params.toNat
    let us := updateAll (s.stepBlock g seat 0 d.group.toNat) (numsOf 4 n (s.isuRead sp 2 (64 * d.gAddr64.toNat) (4 * n)))
      (numsOf 8 n (s.isuRead sp 0 (64 * d.recIn64.toNat) (8 * n)))
    let areas := areaRuns d.layer.toNat d.normOff.toNat d.group.toNat d.sumOff.toNat
    (s.isuReady c (.isu 1 d) = true → sp ≠ .nowhere → isuInside sp (64 * d.gAddr64.toNat) (4 * n) = true → isuInside sp (64 * d.recIn64.toNat) (8 * n) = true →
      isuInside sp (64 * d.recOut64.toNat) (8 * n) = true → ∃ t, exec (.update c d) s = .next t
        ∧ isuStores sp (64 * d.recOut64.toNat) (us.flatMap recordBytes) s t
        ∧ t.mem.ctx = (s.addNorms c d.layer.toNat d.normOff.toNat d.group.toNat d.sumOff.toNat us).mem.ctx
        ∧ ctxOutsideAll s t g [seat] areas ∧ framed [.hbm, .slot, .ctx, .pend, .cnt] [] s t)
    ∧ (s.isuReady c (.isu 1 d) = true → sp = .nowhere → ∃ t, exec (.update c d) s = .next t
        ∧ t.mem.ctx = (s.addZeros c d.layer.toNat d.normOff.toNat d.group.toNat d.sumOff.toNat).mem.ctx
        ∧ ctxOutsideAll s t g [seat] areas ∧ framed [.ctx, .pend, .cnt] [] s t)
    ∧ (s.isuReady c (.isu 2 d) = true → sp ≠ .nowhere → isuInside sp (64 * d.recOut64.toNat) (8 * n) = true → isuInside sp (64 * d.pub64.toNat) (2 * n) = true →
      ∃ t, exec (.publish c d) s = .next t
        ∧ isuStores sp (64 * d.pub64.toNat)
            ((numsOf 8 n (s.isuRead sp 1 (64 * d.recOut64.toNat) (8 * n))).flatMap fun v => bytesOfNat 2 (v / 0x1000000000000)) s t
        ∧ framed [.hbm, .slot, .cnt] [] s t)
    ∧ (s.isuReady c (.isu 2 d) = true → sp = .nowhere → ∃ t, exec (.publish c d) s = .next t ∧ framed [.cnt] [] s t)

/-- READ, GATHER and WINDOW_FILL that the running program places, admissible and inside their spaces: each row's bytes stored at its place of
scratchpad or the context, and nothing else changed but the counters and, by a GATHER, the cache (which of its lines hit is free: log entry 20);
a READ or GATHER that no slot entry names moves nothing (R88), and a window whose data is not in staging stores nothing (R63, R295, R306, R307). -/
def Obligations.TransfersIn : Prop :=
  ∀ (c : Issue) (d : XferDesc) (s : State),
    let g := c.gal.toNat
    let seat := s.seatAt g c.seat.toNat
    let stays := fun (t : State) => sameOutside (spKey g 0) (if d.smodeCtx then [] else xferRows d) s.mem.sp t.mem.sp
      ∧ ctxOutsideAll s t g [seat] (if d.smodeCtx then xferRows d else [])
    (s.issued 3 c (.xfer 1 d) = true → xferCheck 1 c.seat.toNat d = none →
      (d.named = true → (xferInside 1 d && s.memInside g d (xRowOffs d)) = true → ∃ t, exec (.read c d) s = .next t
        ∧ t.mem = (xferIn s c d (xRowOffs d)).mem ∧ stays t ∧ framed [.sp, .ctx, .cnt] [] s t)
      ∧ (d.named = false → ∃ t, exec (.read c d) s = .next t ∧ framed [.cnt] [] s t))
    ∧ (s.issued 3 c (.xfer 3 d) = true → xferCheck 3 c.seat.toNat d = none →
      (d.named = true → (xferInside 3 d && s.memInside g d (s.gatherOffs c d)) = true → ∃ t, exec (.gather c d) s = .next t
        ∧ t.mem = (xferIn s c d (s.gatherOffs c d)).mem ∧ stays t ∧ framed [.sp, .ctx, .cnt, .cache, .freeCtr] [] s t)
      ∧ (d.named = false → ∃ t, exec (.gather c d) s = .next t ∧ framed [.cnt] [] s t))
    ∧ (d.drops = [] → s.fillReady c d = true → windowOk c.seat.toNat d = true → xferInside 4 d = true →
      (d.hmode = 0 → ∀ o ∈ xRowOffs d, o + d.rowBytes.toNat ≤ 0x10000000) →
      (∀ bs, s.windowRows g d = some bs → ∃ t, exec (.windowFill c d) s = .next t
        ∧ t.mem = ((List.range d.rows.toNat).foldl (fun u i => u.opWrite g d.smodeCtx seat (xSpRow d i)
            ((bs.getD i []).take d.rowBytes.toNat)) s).mem
        ∧ stays t ∧ framed [.sp, .ctx, .cnt] [] s t)
      ∧ (s.windowRows g d = none → ∃ t, exec (.windowFill c d) s = .next t ∧ framed [.cnt] [] s t))

/-- WRITE that the running program places, admissible, named by a slot entry and inside its spaces: an object-relative one stores its runs where R307
puts them and nothing elsewhere; any other stores its rows in the gallery's program space, every other byte of which stays.  One that no slot
entry names moves nothing (R88). -/
def Obligations.TransfersOut : Prop :=
  ∀ (c : Issue) (d : XferDesc) (s : State), s.issued 3 c (.xfer 2 d) = true → xferCheck 2 c.seat.toNat d = none →
    (d.named = false → ∃ t, exec (.write c d) s = .next t ∧ framed [.cnt] [] s t)
    ∧ (d.named = true → (xferInside 2 d && s.memInside c.gal.toNat d (xRowOffs d)) = true →
    let g := c.gal.toNat
    let seat := s.seatAt g c.seat.toNat
    ∃ t, exec (.write c d) s = .next t
      ∧ t.mem = ((List.range d.rows.toNat).foldl (fun u i =>
          u.xferWrite (s.seatReq c) g d (natAt (xRowOffs d) i) (s.opRead g d.smodeCtx seat (xSpRow d i) d.rowBytes.toNat)) s).mem
      ∧ (d.hmode = 2 → outsidePlaces (writeRuns s c d) s t ∧ changesOnly [.obj, .slot, .req, .win, .winM, .cnt, .cache, .regs] s t)
      ∧ (d.hmode ≠ 2 → framed [.hbm, .cnt, .cache] [] s t
          ∧ ∀ a < progSize, (∀ o ∈ xRowOffs d, a < s.xferBase g d.hmode.toNat o ∨ s.xferBase g d.hmode.toNat o + d.rowBytes.toNat ≤ a) →
            memByte t.mem.hbm (progKey g a) = memByte s.mem.hbm (progKey g a)))

/-- SEND with every flit whole, on a gallery that runs, admissible and inside its spaces: the source's bytes stand at the destination,
and nothing else changes but the counters; a fenced receiver takes nothing (R313, R314, R319).  A flit that its receiver drops: its bytes stay
what they were, a running tick is marked for replay, and the event names the cause (R319 to R322). -/
def Obligations.SendDelivers : Prop :=
  (∀ (c : Issue) (d : FabDesc) (s : State), s.sendReady c d = true → sendOk c d = true → sendInside d = true → d.drops = [] →
    let dst := d.dst.toNat
    let n := d.bytes.toNat
    let seat := s.seatAt c.gal.toNat c.seat.toNat
    ∃ t, exec (.send c d) s = .next t
      ∧ (d.path = 1 → memRead t.mem.staging d.dstOff.toNat n = sendSource s c d
          ∧ sameOutside 0 [(d.dstOff.toNat, n)] s.mem.staging t.mem.staging ∧ framed [.staging, .cnt] [] s t)
      ∧ (d.path ≠ 1 → s.galFenced dst = true → framed [.cnt] [] s t)
      ∧ (d.path ≠ 1 → s.galFenced dst = false → d.dmodeCtx = false →
          memRead t.mem.sp (spKey dst d.dstOff.toNat) n = sendSource s c d
          ∧ sameOutside (spKey dst 0) [(d.dstOff.toNat, n)] s.mem.sp t.mem.sp ∧ framed [.sp, .cnt] [] s t)
      ∧ (d.path ≠ 1 → s.galFenced dst = false → d.dmodeCtx = true → ctxOutsideAll s t dst [seat] [(d.dstOff.toNat, n)]
          ∧ framed [.ctx, .cnt] [] s t
          ∧ ∀ q, seat = some q → memRead t.mem.ctx (ctxKey q.handle dst (1 - s.curHalf q.handle) d.dstOff.toNat) n = sendSource s c d))
  ∧ ∀ (c : Issue) (d : FabDesc) (s t : State), s.sendReady c d = true → sendOk c d = true → sendInside d = true → d.path ≠ 1 →
    d.dmodeCtx = false → s.galFenced d.dst.toNat = false → exec (.send c d) s = .next t →
    ∀ p ∈ d.drops, p.1 < ceilDiv d.bytes.toNat (flitBytes d.path.toNat) →
      (∀ i < (flitRun d p.1).2, memByte t.mem.sp (spKey d.dst.toNat (d.dstOff.toNat + (flitRun d p.1).1 + i))
        = memByte s.mem.sp (spKey d.dst.toNat (d.dstOff.toNat + (flitRun d p.1).1 + i)))
      ∧ (t.tk.replay = true ∨ t.tk.replayNext = true)
      ∧ ∃ e ∈ t.events, e.code = 0x7080 ∧ e.payload
        = [d.dst.toNat, fabRx d, p.2.toNat, (flitSlot (s.sendSlots c d) p.1).2, s.tk.count.toNat].map wordOf

/-! ## Faults, windows and fetches -/

/-- PARITY_ERROR at a live block: the tick (for a late cycle the next) is marked for replay while ticks run, ERR_LAST and its tick name
the fault, the event is raised, the fault stands in the log, and the third within 1,000 ticks queues the block's fence (R412, R414, R418,
R431); at a fenced block it changes nothing (R413). -/
def Obligations.ParityErrorsRecorded : Prop :=
  ∀ (domain : BitVec 4) (gal : BitVec 3) (unit : BitVec 5) (place : BitVec 4) (cycle : BitVec 16) (s : State),
    let d := domain.toNat
    let g := gal.toNat
    let u := unit.toNat
    (s.blockLive d g u = false → exec (.parityError domain gal unit place cycle) s = .next s)
    ∧ (s.blockLive d g u = true → ∃ t, exec (.parityError domain gal unit place cycle) s = .next t
      ∧ (s.tk.running = true → if s.lateCycle cycle.toNat then t.tk.replayNext = true ∧ t.tk.replay = s.tk.replay
          else t.tk.replay = true ∧ t.tk.replayNext = s.tk.replayNext)
      ∧ (s.tk.running = false → t.tk.replay = s.tk.replay ∧ t.tk.replayNext = s.tk.replayNext)
      ∧ t.reg Reg.ERR_LAST = wordOf (d * 0x10000000 + g * 0x2000000 + u * 0x100000 + cycle.toNat)
      ∧ t.reg Reg.ERR_LAST_TICK_LO = wordOf s.tk.count.toNat
      ∧ t.reg Reg.ERR_LAST_TICK_HI = wordOf (s.tk.count.toNat / 0x100000000)
      ∧ t.events = s.events ++ [⟨0x7001, none, [d, g, u, place.toNat, cycle.toNat, s.tk.count.toNat].map wordOf, []⟩]
      ∧ (d, g, u, s.tk.count) ∈ t.faults.log
      ∧ ((d, g, u, s.tk.count) ∉ s.faults.log → 2 ≤ s.faultWindow d g u → d ≠ 9 →
          ∃ f ∈ t.faults.fences, f.domain = d ∧ f.gal = g ∧ f.unit = u)
      ∧ framed (.replay :: .replayNext :: .faults :: eventParts)
          ([Reg.ERR_LAST, Reg.ERR_LAST_TICK_LO, Reg.ERR_LAST_TICK_HI, Reg.GAL_MU_PARITY g u, Reg.GAL_VU_PARITY g u,
            Reg.GAL_ISU_PARITY g u, Reg.GAL_FAB_PARITY g (portOf d u)] ++ eventRegs) s t)

/-- HBM_CORRECTED counts its error and does nothing else (R420).  HBM_UNCORRECTABLE on a live stack and a page not yet poisoned counts,
marks the replay, remembers the burst and queues the page's poison; on a fenced gallery or a poisoned page it changes nothing (R414, R418,
R421). -/
def Obligations.HbmErrors : Prop :=
  ∀ (stack : BitVec 4) (s : State),
    (∃ t, exec (.hbmCorrected stack) s = .next t
      ∧ t.fld (Reg.ERR_HBM_CE stack.toNat) 31 0 = satAdd 32 (s.fld (Reg.ERR_HBM_CE stack.toNat) 31 0) 1
      ∧ framed [.regs, .cnt] [Reg.ERR_HBM_CE stack.toNat] s t)
    ∧ ∀ (addr : BitVec 36) (kind : PageKind) (cycle : BitVec 16),
      let st := stack.toNat
      (s.galFenced (st / 2) = true ∨ s.pagePoisoned st (addr.toNat / 4096) = true → exec (.hbmUncorrectable stack addr kind cycle) s = .next s)
      ∧ (s.galFenced (st / 2) = false → s.pagePoisoned st (addr.toNat / 4096) = false →
        ∃ t, exec (.hbmUncorrectable stack addr kind cycle) s = .next t
          ∧ t.fld (Reg.ERR_HBM_UE st) 31 0 = satAdd 32 (s.fld (Reg.ERR_HBM_UE st) 31 0) 1
          ∧ (s.tk.running = true → if s.lateCycle cycle.toNat then t.tk.replayNext = true else t.tk.replay = true)
          ∧ (∃ b ∈ t.faults.bursts, b.1 = st ∧ b.2.1 = addr.toNat / 64)
          ∧ (∃ p ∈ t.faults.toPoison, p.1.stack = st ∧ p.1.page = addr.toNat / 4096)
          ∧ framed [.replay, .replayNext, .faults, .regs, .bbx]
              ([Reg.ERR_LAST, Reg.ERR_LAST_TICK_LO, Reg.ERR_LAST_TICK_HI, Reg.ERR_HBM_UE st] ++ eventRegs) s t)

/-- POISON_REPAIR of a page that is not poisoned, or whose frame is withheld already, changes nothing, and that of a stem's page waits until its shards have
arrived again; a clean replacement takes the page's poison away, and a page that belongs to no object has nothing else to do; with no clean one the page's frame is withheld (R422). -/
def Obligations.PoisonRepaired : Prop :=
  ∀ (stack : BitVec 4) (page : BitVec 24) (s : State),
    (∀ clean, s.pagePoisoned stack.toNat page.toNat = false → exec (.poisonRepair stack page clean) s = .next s)
    ∧ ∀ p, s.faults.poison.find? (fun q => q.stack == stack.toNat && q.page == page.toNat) = some p →
      let waits := ∃ slot proj, p.kind = .stemShard slot proj ∧ s.stemWhole slot.toNat proj.toNat = false
      (∀ clean, s.pageWithheld p = true ∨ waits → exec (.poisonRepair stack page clean) s = .next s)
      ∧ (s.pageWithheld p = false → ¬waits →
        (∃ t, exec (.poisonRepair stack page true) s = .next t ∧ t.pagePoisoned stack.toNat page.toNat = false
          ∧ ((∀ id, p.kind ≠ .servingObject id ∧ p.kind ≠ .trainingObject id) → changesOnly [.faults] s t))
        ∧ (p.kind ≠ .flightImage → ∃ t, exec (.poisonRepair stack page false) s = .next t
          ∧ (stack.toNat / 2, page.toNat / 8) ∈ t.faults.withheld
          ∧ (copyKind p.kind = true → changesOnly [.faults] s t ∧ t.pagePoisoned stack.toNat page.toNat = true)
          ∧ ((∃ page, p.kind = .kvOrActivation page) ∨ p.kind = .freeFrame →
              changesOnly [.faults] s t ∧ t.pagePoisoned stack.toNat page.toNat = false)))

/-- WINDOW_DEADLINE_MISS of a window whose data is not there marks it late in this tick, once.  FETCH_ARRIVAL of an issued fill whose data a tier of its
SOURCES holds, from that tier (and its drive's port) and with its bytes, with room in the instance's share of the fetch buffer and its budget of the tick covering what comes from the host or flash tier:
the data of the first such tier is in place and charged; an arrival of anything else, or one for which the share has no room or the budget does not reach,
leaves the fill waiting (R63, R286, R294 to R296). -/
def Obligations.WindowsLateAndFilled : Prop :=
  ∀ (gal : BitVec 3) (window : BitVec 16) (tier : BitVec 2) (port : BitVec 3) (bs : List Byte) (s : State),
    let g := gal.toNat
    let w := window.toNat
    let arrive := Instr.fetchArrival gal window tier port bs
    ((s.fillOf g w).any (·.present) = false → ∃ t, exec (.windowDeadlineMiss gal window) s = .next t
      ∧ (g, w) ∈ t.tk.lateWindows ∧ (∀ x, x ≠ (g, w) → t.tk.lateWindows.count x = s.tk.lateWindows.count x)
      ∧ framed [.lateWindows] [] s t)
    ∧ ((s.fillOf g w).any (·.present) = true → exec (.windowDeadlineMiss gal window) s = .next s ∧ exec arrive s = .next s)
    ∧ (s.fillOf g w = none → exec arrive s = .next s)
    ∧ ∀ f, s.fillOf g w = some f → f.present = false →
      (s.fillSource f ≠ some (tier.toNat, bs) ∨ (tier = 1 ∧ s.fillPort f ≠ port.toNat) → exec arrive s = .next s)
      ∧ (s.fillSource f = some (tier.toNat, bs) → (tier = 1 → s.fillPort f = port.toNat) →
        let room := f.inst = 0 ∨ s.bufferHeld f.inst + f.bytes ≤ s.bufferShare f.inst
        let charged := tier.toNat ≤ 1 ∧ f.inst ≠ 0
        let paid := charged → s.covered f.inst (.fill f.gal f.window) (f.bytes - f.got) = true
        (room → paid → ∃ t, exec arrive s = .next t ∧ t.fillOf g w = some { f with data := bs, present := true }
          ∧ (∀ g' w', (g', w') ≠ (g, w) → t.fillOf g' w' = s.fillOf g' w')
          ∧ (∀ n, smGet (fun _ => 0) t.ls.fetched n
              = smGet (fun _ => 0) s.ls.fetched n + if n = f.inst ∧ charged then f.bytes - f.got else 0)
          ∧ framed [.fills, .fetched, .cnt] [] s t)
        ∧ (¬(room ∧ paid) → exec arrive s = .next s))

/-! ## Residency and training -/

/-- SHARD_ARRIVAL of a shard under fetch, whose attempt brings bytes that pass their digest and that the tick's budget covers: they are placed and the
shard is verified; bytes that the budget does not cover wait; an arrival that nothing awaits changes nothing.  A stem shard's likewise, but that no
instance is charged, that a codebook it completes must be admissible, and that the attempt fails by its digest where other bytes come than the neighbour or
source whose turn it is holds (R116, R294, R303, R304, R322). -/
def Obligations.ShardsArriveVerified : Prop :=
  ∀ (shard : BitVec 12) (s : State),
    let n := shard.toNat
    (∀ (id : BitVec 24) (m : Manifest) (x : Shard) (st : ShardState),
      let e := s.lexAt id.toNat
      s.fetching id.toNat n = some (m, x, st) →
      (s.attemptCharge id.toNat m x st = none → exec (.shardArrival (.lex id) shard (s.brought (.lex id) n)) s = .next s)
      ∧ ∀ (bs : List Byte) (ep : List Nat) (k : Nat), (s.attemptCharge id.toNat m x st).isSome = true → s.attempt id.toNat m x st = .good bs ep k →
        ∃ t, exec (.shardArrival (.lex id) shard (s.brought (.lex id) n)) s = .next t
          ∧ t.lexAt id.toNat = { e with
              shards := e.shards.map fun y => if y.shard = n then { y with verified := true, digest := sha256Words bs } else y
              epochPages := trackPages e.epochPages (64 * x.targetOff / 4096) ep }
          ∧ (∀ j, j ≠ id.toNat → t.lexAt j = s.lexAt j)
          ∧ t.mem = (s.placeShard id.toNat x bs).mem ∧ framed [.lex, .lexCopies, .hdr, .hdrM, .obj, .slot, .fetched, .cnt] [] s t)
    ∧ (∀ (id : BitVec 24) (data : List Byte), s.fetching id.toNat n = none → exec (.shardArrival (.lex id) shard data) s = .next s)
    ∧ (∀ (k : BitVec 1) (p : BitVec 16) (data : List Byte), s.stemFetching k.toNat p.toNat n = none →
      exec (.shardArrival (.stem k p) shard data) s = .next s)
    ∧ ∀ (k : BitVec 1) (p : BitVec 16) (j : StemProj) (m : Manifest) (x : Shard) (st : ShardState) (bs : List Byte) (ep : List Nat) (q : Nat),
      let a := s.stemAt k.toNat
      let failed := fun (data : List Byte) (cause : Nat) => ∃ t, exec (.shardArrival (.stem k p) shard data) s = .next t
        ∧ t.events = s.events ++ [⟨0x3003, none, [0xFFFFFFFF, n, st.attempts + 1, cause].map wordOf, []⟩] ∧ t.mem = s.mem
        ∧ framed (.stems :: .cnt :: eventParts) (Reg.RES_RETRIES :: eventRegs) s t
      let placed := (s.progWrite x.home (s.stemBase k.toNat + 64 * x.targetOff) bs).updStemShard k.toNat p.toNat n fun y =>
        { y with verified := true, digest := sha256Words bs }
      s.stemFetching k.toNat p.toNat n = some (j, m, x, st) → s.stemAttempt k.toNat j m x st = .good bs ep q →
      (∀ data, s.brought (.stem k p) n ≠ data → st.attempts < 3 → failed data 2)
      ∧ (placed.stemCodebookOk k.toNat p.toNat j m = true → ∃ t, exec (.shardArrival (.stem k p) shard (s.brought (.stem k p) n)) s = .next t
        ∧ t.stemAt k.toNat = { a with
            quantSat := a.quantSat + q
            shards := a.shards.map fun z => if z.1 = p.toNat ∧ z.2.shard = n then
              (z.1, { z.2 with verified := true, digest := sha256Words bs }) else z }
        ∧ t.mem = (s.progWrite x.home (s.stemBase k.toNat + 64 * x.targetOff) bs).mem ∧ framed [.stems, .hbm, .cnt] [] s t)
      ∧ (placed.stemCodebookOk k.toNat p.toNat j m = false → st.attempts < 3 → failed (s.brought (.stem k p) n) 4)

/-- A failed attempt at a shard, by an arrival that fails or of bytes damaged on their way, or by SHARD_ATTEMPT_TIMEOUT of one that is overdue: the shard
counts it with its cause (a retired key only where every attempt so far had it: R399), RES_RETRIES counts it and the event is raised; the fourth fails the object.  One that is not overdue, or not under fetch, changes nothing (R303). -/
def Obligations.FailedAttemptsRetry : Prop :=
  ∀ (id : BitVec 24) (shard : BitVec 12) (m : Manifest) (x : Shard) (st : ShardState) (s : State),
    let e := s.lexAt id.toNat
    let n := shard.toNat
    let near := st.near || (st.attempts == 0 && (s.nearest e n).isSome)
    let again := fun (t : State) (cause : Nat) =>
      (st.attempts < 3 → t.lexAt id.toNat = { e with
          shards := e.shards.map fun y => if y.shard = n then
            { y with
              attempts := st.attempts + 1, cause := if st.attempts = 0 ∨ st.cause = St.keyRetired then cause else st.cause, since := s.tk.now, got := 0, near := near } else y }
        ∧ t.events = s.events ++ [⟨0x3003, some e.inst, [id.toNat, n, st.attempts + 1, cause].map wordOf, [e.inst]⟩]
        ∧ framed (.lex :: .lexCopies :: .fetched :: .cnt :: eventParts) (Reg.RES_RETRIES :: regKey (e.inst + 1) Reg.RES_RETRIES :: eventRegs) s t)
      ∧ (3 ≤ st.attempts → (t.lexAt id.toNat).state = 5 ∧ (t.lexAt id.toNat).frames = []
        ∧ ⟨0x3002, some e.inst, [id.toNat, n, cause].map wordOf, [e.inst]⟩ ∈ t.events
        ∧ changesOnly (.lex :: .lexCopies :: .fetched :: .cnt :: .obj :: .slot :: .hdr :: .hdrM :: .reqs :: eventParts) s t)
    (s.fetching id.toNat n = none → exec (.shardAttemptTimeout (.lex id) shard) s = .next s)
    ∧ (s.fetching id.toNat n = some (m, x, st) →
      (s.overdue e.inst x.stored st.since = true → ∃ t, exec (.shardAttemptTimeout (.lex id) shard) s = .next t ∧ again t 0)
      ∧ (s.overdue e.inst x.stored st.since = false → exec (.shardAttemptTimeout (.lex id) shard) s = .next s)
      ∧ (∀ data, s.brought (.lex id) n ≠ data → ∃ t, exec (.shardArrival (.lex id) shard data) s = .next t ∧ again t 2)
      ∧ ∀ c : Nat, (s.attemptCharge id.toNat m x st).isSome = true → s.attempt id.toNat m x st = .bad c →
        ∃ t, exec (.shardArrival (.lex id) shard (s.brought (.lex id) n)) s = .next t ∧ again t c)

/-- OBJECT_ACTIVATE of an object whose every shard is verified, whose checkpointed groups can be read back (giving the state s1) and whose record
then passes R239: resident (pinned if anything pins it), its event raised; with a check failed, FAILED with both events; with a checkpoint page
that cannot be read, FAILED; of an incomplete one: nothing (R239, R298, R300).  EVICTION_COMPLETE at its time: ABSENT, its frames zeroed, its page of the
header store given back (R287, R297, R409). -/
def Obligations.ObjectsComeAndGo : Prop :=
  ∀ (id : BitVec 24) (s : State),
    let n := id.toNat
    let e := s.lexAt n
    let quiet := ∀ r ∈ s.hs.reqs, n ∉ r.waits
    let parts := [.lex, .lexCopies, .train, .obj, .slot, .hdr, .hdrM, .reqs] ++ eventParts
    (e.complete = false → exec (.objectActivate id) s = .next s)
    ∧ (e.complete = true → ∀ s1, s.ckptRefetch n = some s1 →
      (s1.recordCheck n = none → ∃ t, exec (.objectActivate id) s = .next t
        ∧ (0 < e.pins → (t.lexAt n).state = 3) ∧ (e.pins = 0 → quiet → (t.lexAt n).state = 2) ∧ (t.lexAt n).hdrOk = true
        ∧ (t.lexAt n).place = wordOf n ∧ (t.lexAt n).lastLanding = s.tk.count ∧ (t.lexAt n).shards = e.shards
        ∧ (∃ more, t.events = s.events ++ [⟨0x3001, some e.inst, [wordOf n, wordOf s.tk.count.toNat], [e.inst]⟩] ++ more ∧ (quiet → more = []))
        ∧ changesOnly parts s t ∧ (quiet → (∀ j, j ≠ n → t.lexAt j = s.lexAt j) ∧ framed parts eventRegs s t))
      ∧ ∀ k, s1.recordCheck n = some k → ∃ t, exec (.objectActivate id) s = .next t ∧ (t.lexAt n).state = 5
        ∧ t.events = s.events ++ [⟨0x3044, some e.inst, [wordOf n, wordOf k], [e.inst]⟩, ⟨0x3002, some e.inst, [n, 0, k].map wordOf, [e.inst]⟩])
    ∧ (e.complete = true → s.ckptRefetch n = none → ∃ t, exec (.objectActivate id) s = .next t ∧ (t.lexAt n).state = 5
      ∧ t.events = s.events ++ [⟨0x3002, some e.inst, [n, 0, 1].map wordOf, [e.inst]⟩])
    ∧ (∀ due, e.evictDue = some due → e.state = 4 → due ≤ s.tk.count.toNat → ∃ t, exec (.evictionComplete id) s = .next t
      ∧ t.lexAt n = { e with
          state := 0, frames := [], evictDue := none, shards := [], place := 0xFFFFFFFF#32
          first := if e.shards.all (·.verified) then s.hdrRead (4096 * n) 4096 else e.first }
      ∧ (∀ g < 8, ∀ p < 4, ∀ off < 0x40000000, memByte t.mem.obj (objKey n g p off) = 0)
      ∧ (t.trainAt n).state = 0
      ∧ t.events = s.events ++ [⟨0x3004, some e.inst, [wordOf n, wordOf e.evictCause], [e.inst]⟩]
      ∧ framed ([.lex, .lexCopies, .train, .obj, .slot, .hdr, .hdrM] ++ eventParts) (Reg.RES_EVICTIONS :: regKey (e.inst + 1) Reg.RES_EVICTIONS :: eventRegs) s t)
    ∧ (e.evictDue = none ∨ e.state ≠ 4 ∨ (∃ due, e.evictDue = some due ∧ s.tk.count.toNat < due) → exec (.evictionComplete id) s = .next s)

/-- CHECKPOINT_START of a queued group with copies and none active: active from the current plane, off the queue, its copy no longer
valid while it is written, and nothing written yet; CHECKPOINT_COMPLETE, once the tick's budget covers its bytes, writes what is left and ends it: valid if
every page was written, else with its event (R276 to R278, R281, R294). -/
def Obligations.CheckpointsStartAndEnd : Prop :=
  ∀ (id : BitVec 24) (s : State),
    let n := id.toNat
    let x := s.trainAt n
    (∀ group : BitVec 8, (x.ckptActive.isSome = true ∨ group.toNat ∉ x.ckptQueue ∨ x.ckptCopies = []) →
      exec (.checkpointStart id group) s = .next s)
    ∧ (∀ group : BitVec 8, x.ckptActive = none → group.toNat ∈ x.ckptQueue → x.ckptCopies ≠ [] →
      ∃ t, exec (.checkpointStart id group) s = .next t
        ∧ (t.trainAt n).ckptActive = some (group.toNat, x.cur)
        ∧ (t.trainAt n).ckptQueue = x.ckptQueue.filter (· != group.toNat)
        ∧ (group.toNat, natAt x.ckptNext group.toNat % 2) ∉ (t.trainAt n).ckptValid
        ∧ framed [.train] [] s t)
    ∧ ∀ (group plane : Nat) (ok : Bool), x.ckptActive = some (group, plane) →
      let paid := s.covered (s.lexAt n).inst (.checkpoint n) x.ckptLeft
      let good := ok = true ∧ (s.ckptWriteTo n (s.ckptPages n group).length).ckptWritten n group (natAt x.ckptNext group % 2) = true
      (ok = true → paid = false → exec (.checkpointComplete id ok) s = .next s)
      ∧ (ok = false ∨ paid = true → ∃ t, exec (.checkpointComplete id ok) s = .next t ∧ (t.trainAt n).ckptActive = none
        ∧ (good → (group, natAt x.ckptNext group % 2) ∈ (t.trainAt n).ckptValid ∧ t.events = s.events)
        ∧ (¬good → (t.trainAt n).ckptValid = x.ckptValid ∧ (t.trainAt n).ckptNext.take x.groups.length
              = (List.range x.groups.length).map (natAt x.ckptNext)
            ∧ t.events = s.events ++ [⟨0x3060, some (s.lexAt n).inst, [n, group, x.ckptFrom].map wordOf, [(s.lexAt n).inst]⟩])
        ∧ framed ([.train, .lex, .lexCopies, .fetched, .hdr, .hdrM, .obj, .slot, .trust, .flash, .host, .insts, .cnt] ++ eventParts) eventRegs s t)

/-- STEP_APPLY_START of a CLOSED step whose batches are done and whose write plane is free: APPLYING, the write plane given the current
plane's bits; before that nothing (R250, R254, R255).  GATE_TIMEOUT of a held step at the end of its hold: SKIPPED, the workspace
cleared (R252, R274). -/
def Obligations.StepsStartAndSkip : Prop :=
  ∀ (id : BitVec 24) (s : State),
    let n := id.toNat
    let x := s.trainAt n
    (x.state = 1 → s.batchesDone n = true → s.planeFree n = true → x.cur ≤ 1 → ∃ t, exec (.stepApplyStart id) s = .next t
      ∧ t.trainAt n = { x with state := 2, sums := [], flags := 0 }
      ∧ (∀ g < 8, ∀ off < 0x40000000, memByte t.mem.obj (objKey n g (1 - x.cur) off) = memByte s.mem.obj (objKey n g x.cur off))
      ∧ framed [.train, .obj, .slot] [] s t)
    ∧ (x.state ≠ 1 ∨ s.batchesDone n = false ∨ s.planeFree n = false → exec (.stepApplyStart id) s = .next s)
    ∧ (x.state = 4 → x.holdLeft = 0 → ∃ t, exec (.gateTimeout id) s = .next t
      ∧ (t.trainAt n).state = 0 ∧ (t.trainAt n).step = x.step ∧ (t.trainAt n).cur = x.cur
      ∧ (∀ g < 8, ∀ off < 0x40000000, memByte t.mem.obj (objKey n g 2 off) = 0)
      ∧ t.events = s.events ++ [⟨0x2013, some (s.lexAt n).inst, [wordOf n, wordOf x.number, wordOf s.tk.count.toNat], [(s.lexAt n).inst]⟩]
      ∧ framed ([.train, .req, .reqs, .obj, .slot] ++ eventParts)
          (Reg.LEX_TRN_SKIPS :: regKey ((s.lexAt n).inst + 1) Reg.LEX_TRN_SKIPS :: eventRegs) s t)
    ∧ (x.state ≠ 4 ∨ x.holdLeft ≠ 0 → exec (.gateTimeout id) s = .next s)

/-- LEX_GATE_GO and LEX_GATE_SKIP: a held step of an object in the function's own range, with the step number given, keeps the command, SKIP
before GO; the status goes to the function's own LEX_GATE_CMD; anything else gets its status and nothing more (R275). -/
def Obligations.GateCommands : Prop :=
  ∀ (fn : BitVec 6) (s : State),
    let f := fn.toNat
    let id := (s.regC (f + 1) Reg.LEX_GATE_ID).field 23 0
    let lo := s.fld (Reg.LEX_RANGE_BASE f) 23 0
    let seen := (s.lexAt id).kind ≠ 0 ∧ lo ≤ id ∧ id < lo + s.fld (Reg.LEX_RANGE_COUNT f) 24 0
    let held := (s.trainAt id).state = 4 ∧ (s.trainAt id).number % 0x100000000 = (s.regC (f + 1) Reg.LEX_GATE_STEP).toNat
    (∃ t, exec (.lexGateGo fn) s = .next t
      ∧ (seen → held → (t.trainAt id).gate = some (if (s.trainAt id).gate = some 2 then 2 else 1)
        ∧ (t.regC (f + 1) Reg.LEX_GATE_CMD).field 7 0 = St.ok)
      ∧ (¬seen → t.ls = s.ls ∧ (t.regC (f + 1) Reg.LEX_GATE_CMD).field 7 0 = St.notFound)
      ∧ (seen → ¬held → t.ls = s.ls ∧ (t.regC (f + 1) Reg.LEX_GATE_CMD).field 7 0 = St.badField)
      ∧ framed [.train, .regs] [regKey (f + 1) Reg.LEX_GATE_CMD] s t)
    ∧ ∃ t, exec (.lexGateSkip fn) s = .next t
      ∧ (seen → held → (t.trainAt id).gate = some 2 ∧ (t.regC (f + 1) Reg.LEX_GATE_CMD).field 7 0 = St.ok)
      ∧ (¬seen → t.ls = s.ls ∧ (t.regC (f + 1) Reg.LEX_GATE_CMD).field 7 0 = St.notFound)
      ∧ (seen → ¬held → t.ls = s.ls ∧ (t.regC (f + 1) Reg.LEX_GATE_CMD).field 7 0 = St.badField)
      ∧ framed [.train, .regs] [regKey (f + 1) Reg.LEX_GATE_CMD] s t

/-! ## Flights -/

/-- Every image in a slot passed admission, and no step changes that (R45 to R54). -/
def Obligations.AdmittedFlightsStay : Prop :=
  ∀ s t : State, flightsAdmitted s → step s = .next t → flightsAdmitted t

/-- After reset no slot holds an image, so every image in a slot passed admission. -/
def Obligations.AdmittedFlightsAtReset : Prop := flightsAdmitted State.reset

/-- FLIGHT_LOAD with no load in progress and no switch of its slots pending: COPYING, the staged image of the slots lost, the address and the
length taken (log entry 47); during one, BUSY_DROP and nothing else; a PAIR that names no slot starts nothing (log entry 47).  FLIGHT_COPY_COMPLETE takes the image's bytes and
FLIGHT_ADMISSION_COMPLETE ends the checks, each once.  Phase E of a landing (`State.loadStep`) then shows CHECKING; ADMITTED, staged and with its
event; or REFUSED with the check that failed (R45 to R49, R54, R70). -/
def Obligations.FlightsLoadAndAdmit : Prop :=
  ∀ s : State,
    (∀ pair : BitVec 3,
      ((s.switchOf pair.toNat).isSome = true ∨ s.admitState = 1 ∨ s.admitState = 2 →
        ∃ t, exec (.flightLoad pair) s = .next t ∧ t.fld Reg.FLT_ADMIT_STATUS 1 1 = 1 ∧ framed [.regs] [Reg.FLT_ADMIT_STATUS] s t)
      ∧ (4 < pair.toNat → s.switchOf pair.toNat = none → s.admitState ≠ 1 → s.admitState ≠ 2 → exec (.flightLoad pair) s = .next s)
      ∧ (pair.toNat ≤ 4 → s.switchOf pair.toNat = none → s.admitState ≠ 1 → s.admitState ≠ 2 →
        ∃ t, exec (.flightLoad pair) s = .next t ∧ t.admitState = 1 ∧ (t.slotsOf pair.toNat).staged = none
          ∧ (t.slotsOf pair.toNat).active = (s.slotsOf pair.toNat).active ∧ t.flights.switches = s.flights.switches
          ∧ t.flights.load = some ⟨pair.toNat, s.reg64 Reg.FLT_LOAD_ADDR_LO Reg.FLT_LOAD_ADDR_HI / 4096 * 4096, (s.reg Reg.FLT_LOAD_LEN).toNat,
              [], false, false⟩
          ∧ framed [.flights, .regs] [Reg.FLT_LOAD_CTRL, Reg.FLT_ADMIT_STATUS] s t))
    ∧ (∀ l, s.flights.load = some l →
      (s.admitState = 1 → l.copied = false →
        ∃ t, exec .flightCopyComplete s = .next t ∧ t.flights.load = some { l with bytes := s.loadBytes l, copied := true }
          ∧ changesOnly [.flights] s t)
      ∧ (s.admitState ≠ 1 ∨ l.copied = true → exec .flightCopyComplete s = .next s)
      ∧ (s.admitState = 2 → l.checked = false →
        ∃ t, exec .flightAdmissionComplete s = .next t ∧ t.flights.load = some { l with checked := true } ∧ changesOnly [.flights] s t)
      ∧ (s.admitState ≠ 2 ∨ l.checked = true → exec .flightAdmissionComplete s = .next s)
      ∧ (s.admitState = 1 → l.copied = true → s.loadStep.admitState = 2 ∧ framed [.regs] [Reg.FLT_ADMIT_STATUS] s s.loadStep)
      ∧ (s.admitState = 2 → l.checked = true →
        (∀ f, admitImage l.pair l.len s.trust.flightKeys l.bytes = some f →
          s.loadStep.admitState = 4 ∧ s.loadStep.fld Reg.FLT_ADMIT_STATUS 15 8 = f.check % 256
          ∧ s.loadStep.reg Reg.FLT_ADMIT_NEED = wordOf f.need ∧ s.loadStep.reg Reg.FLT_ADMIT_LIMIT = wordOf f.limit
          ∧ s.loadStep.flights = { s.flights with load := none }
          ∧ s.loadStep.events = s.events ++ [⟨0x1002, none, [f.check, f.variant, f.program, f.gal, f.entry].map wordOf, []⟩]
          ∧ changesOnly (.flights :: eventParts) s s.loadStep)
        ∧ (l.pair ≤ 4 → admitImage l.pair l.len s.trust.flightKeys l.bytes = none →
          s.loadStep.admitState = 3 ∧ s.loadStep.fld Reg.FLT_ADMIT_STATUS 15 8 = 0
          ∧ (s.loadStep.slotsOf l.pair).staged = some (parseFlight l.bytes)
          ∧ (s.loadStep.slotsOf l.pair).active = (s.slotsOf l.pair).active ∧ s.loadStep.flights.load = none
          ∧ ⟨0x1001, none, [(parseFlight l.bytes).flightId], []⟩ ∈ s.loadStep.events
          ∧ changesOnly (.flights :: eventParts) s s.loadStep)))
    ∧ (s.flights.load = none → exec .flightCopyComplete s = .next s ∧ exec .flightAdmissionComplete s = .next s ∧ s.loadStep = s)

/-- FLIGHT_SWITCH of an admitted staged image waits for its landing, one switch of the same slots at a time; where a switch may not be asked for,
nothing changes; FLIGHT_SWITCH_APPLY and DRAIN_TICKS_EXPIRE mark what is due, or has drained long enough, for the next landing that commits
(R24, R26, R50 to R54, R70).  There (`State.switchOne`) the staged image becomes the active one at position 0, the former one is STAGED and the
event is raised; one whose regions do not fit is dropped, its image still STAGED; at any other landing the switch waits and the landing counts. -/
def Obligations.FlightsSwitch : Prop :=
  (∀ (pair : BitVec 3) (drain : BitVec 16) (s : State),
    let p := pair.toNat
    let may := s.switchOf p = none ∧ s.admitState = 3 ∧ (s.slotsOf p).staged.isSome = true
    let asked := fun (w : Switch) (t : State) => t.flights = { s.flights with switches := s.flights.switches ++ [w] }
      ∧ (w.immediate = false → t.fld Reg.FLT_ACTIVE 31 28 = 2) ∧ changesOnly [.flights, .regs] s t
    (may → ∃ t, exec (.flightSwitchDrain pair drain) s = .next t ∧ asked ⟨p, false, drain.toNat, 0, false⟩ t)
    ∧ (¬may → exec (.flightSwitchDrain pair drain) s = .next s ∧ exec (.flightSwitchImmediate pair) s = .next s)
    ∧ (may → s.changesContract p = false → ∃ t, exec (.flightSwitchImmediate pair) s = .next t ∧ asked ⟨p, true, 0, 0, false⟩ t)
    ∧ (may → s.changesContract p = true → exec (.flightSwitchImmediate pair) s = .next s)
    ∧ (∃ t, exec .flightSwitchApply s = .next t ∧ changesOnly [.flights] s t
      ∧ t.flights = { s.flights with switches := s.flights.switches.map fun w => if s.switchDue w then { w with now := true } else w })
    ∧ ∃ t, exec .drainTicksExpire s = .next t ∧ changesOnly [.flights] s t
      ∧ t.flights = { s.flights with switches := s.flights.switches.map fun w => if w.drainOver then { w with now := true } else w })
  ∧ ∀ (commits : Bool) (w : Switch) (f : Flight) (s : State), w.pair ≤ 4 → w ∈ s.flights.switches → (s.slotsOf w.pair).staged = some f →
    let applies := commits = true ∧ (w.now = true ∨ s.switchDue w = true ∨ w.drainOver = true)
    let t := s.switchOne commits w
    (applies → s.switchFits (s.flightsAfter w.pair f) = true →
      (t.slotsOf w.pair).active = some f ∧ (t.slotsOf w.pair).pos = 0 ∧ (t.slotsOf w.pair).staged = (s.slotsOf w.pair).active
        ∧ t.switchOf w.pair = none ∧ t.tk.period = some f.periodQ ∧ ∃ e ∈ t.events, e.code = 0x1004)
    ∧ (applies → s.switchFits (s.flightsAfter w.pair f) = false →
      t.flights = { s.flights with switches := s.flights.switches.filter fun x => x.pair != w.pair } ∧ changesOnly [.flights, .regs] s t)
    ∧ (¬applies → changesOnly [.flights] s t ∧ t.flights.v3 = s.flights.v3 ∧ t.flights.pairs = s.flights.pairs ∧ t.flights.load = s.flights.load
      ∧ t.flights.switches = s.flights.switches.map fun x => if x.pair = w.pair then { x with counted := x.counted + 1 } else x)

/-! ## Landings and stops -/

/-- LANDING while no tick runs changes nothing.  Otherwise, phases A and B done: where a stop waits, it ends, its cause shown (R442);
a P4 or P3 that is due is entered (R450, R451); and else TCK_COUNT advances by one (R34), a late fault's mark becomes the next tick's
(R414), the window's snapshot is what the window holds (R330), and accumulators and scale registers start afresh (R102, R144).  Each instance's budget
starts again with a tick (`State.engineTick`), less what a RES_STORE took past the last one (R294; log entry 101). -/
def Obligations.LandingsRun : Prop :=
  ∀ s : State,
    let s1 := s.keepFlights (s.ckptAdvance.saveWindow.endDeleted.phaseAB)
    let s0 := if s.tk.replay then s1 else s1.advance
    let sw := (s0.keepFlights s0.actionsFirst.placeFrames).switchLanding (!s.tk.replay)
    let s2 := sw.keepFlights sw.actionsRest
    (s.tk.running = false → exec .landing s = .next s)
    ∧ (s.tk.running = true → ∀ c < 16, s1.pw.stopCause = some c → ∃ t, exec .landing s = .next t ∧ t.tk.running = false
        ∧ t.pw.stopping = true ∧ t.fld Reg.PWR_STATE 31 29 = 4 ∧ t.fld Reg.RST_CAUSE 31 28 = c ∧ t.pending = s.pending)
    ∧ (s.tk.running = true → s1.pw.stopCause = none →
      (s2.pw.p4Due = true → ∃ t, exec .landing s = .next t ∧ t.tk.running = false ∧ t.fld Reg.PWR_STATE 31 29 = 4 ∧ t.pending = s.pending)
      ∧ (s2.pw.p4Due = false → s2.pw.p3Due = true → ∃ t, exec .landing s = .next t ∧ t.tk.running = false
          ∧ t.fld Reg.PWR_STATE 31 29 = 3 ∧ t.tk.count = s.tk.count ∧ t.pending = s.pending)
      ∧ (s2.pw.p4Due = false → s2.pw.p3Due = false → s2.fld Reg.ERR_REPLAY 31 24 < 8 → ∃ t, exec .landing s = .next t
          ∧ t.tk.count = s.tk.count + 1 ∧ t.tk.replayNext = false ∧ t.tk.lateMark = t.tk.replay
          ∧ t.mem.seen = t.mem.win ∧ t.mem.seenM = t.mem.winM ∧ (∀ p ∈ t.ls.fetched, p.2 ≠ 0)
          ∧ t.flights.v3.active = s2.flights.v3.active ∧ (s2.flights.load = none → t.flights = s2.flights) ∧ t.pending = s.pending
          ∧ (t.partitionMode = false → t.mem.acc = [] ∧ t.mem.scale = [])))
    ∧ ((s.ls.fetched.map (·.1)).Nodup → ∀ n, smGet (fun _ => 0) s.engineTick.ls.fetched n = smGet (fun _ => 0) s.ls.fetched n - s.fetchBudget n)

/-- The causes of an ordered stop, with no stop begun and the package on: REPLAY_LIMIT (4), POWER_WINDOW (7), THERMAL_SHUTDOWN (3), CLOCK_LOST (6),
LOSS_TIMER_EXPIRE (2) and RST_PACKAGE (1) begin it where their condition holds; where it does not, nothing changes but the window's
note (R415, R441, R442, R445, R446, R453, R454). -/
def Obligations.StopsBegin : Prop :=
  ∀ s : State, s.pw.stopCause = none → s.packageOff = false →
    (8 ≤ s.fld Reg.ERR_REPLAY 31 24 → ∃ t, exec .replayLimit s = .next t ∧ stopBegun 4 [] s t)
    ∧ (s.fld Reg.ERR_REPLAY 31 24 < 8 → exec .replayLimit s = .next s)
    ∧ (∀ w : BitVec 16,
      let high := decide (s.fld Reg.PWR_LIMIT 31 16 < w.toNat)
      let stops := 5600 < w.toNat ∨ (high = true ∧ s.pw.lastWindowHigh = true)
      (stops → ∃ t, exec (.powerWindow w) s = .next t ∧ stopBegun 7 [] s t)
      ∧ (¬stops → ∃ t, exec (.powerWindow w) s = .next t ∧ t.pw = { s.pw with lastWindowHigh := high } ∧ changesOnly [.pw] s t))
    ∧ (∀ (die : BitVec 4) (temp : BitVec 8),
      (115 ≤ temp.toNat → ∃ t, exec (.thermalShutdown die temp) s = .next t ∧ stopBegun 3 [] s t)
      ∧ (temp.toNat < 115 → exec (.thermalShutdown die temp) s = .next s))
    ∧ (∃ t, exec .clockLost s = .next t ∧ stopBegun 6 [] s t
      ∧ (s.tk.running = true → t.fld Reg.CLK_STATUS 31 31 = 0 ∧ t.fld Reg.CLK_STATUS 29 29 = 1))
    ∧ (s.pw.lossTimer = true → ∃ t, exec .lossTimerExpire s = .next t ∧ stopBegun 2 [] s t)
    ∧ (s.pw.lossTimer = false → exec .lossTimerExpire s = .next s)
    ∧ (s.fld Reg.PWR_STATE 31 29 ≠ 3 → ∃ t, exec (.rstPackage 0x52535450) s = .next t ∧ stopBegun 1 [] s t)
    ∧ (∀ key, key ≠ 0x52535450#32 → exec (.rstPackage key) s = .next s)

/-- RST_PACKAGE in P3 starts the package as from P4: its cause is 8, and it holds until a feed is OK (R457).  A power-on reset, and the loss of
the standby supply, leave the black-box records, the boot memory, the flash tier, host memory, the saved images and the queue; every register
reads its reset value and no tick runs (R454, R455, R501).  Of the records that wait to be written all but the last reach the MRAM (`State.bbxLose`); the
last is left torn, and no longer reads as a record (R433, R443). -/
def Obligations.ResetsKeep : Prop :=
  (∀ s : State, s.fld Reg.PWR_STATE 31 29 = 3 → ∃ t, exec (.rstPackage 0x52535450) s = .next t ∧ t.fld Reg.RST_CAUSE 31 28 = 8
    ∧ t.tk.running = false ∧ t.pw.stopping = true ∧ t.events = [] ∧ t.mem.hbm = [] ∧ t.mem.host = s.mem.host ∧ t.mem.flash = s.mem.flash)
  ∧ ∀ (c : Instr) (s : State), c = .powerOnReset ∨ c = .standbySupplyLost → ∃ t, exec c s = .next t
    ∧ (∀ copy off, t.regC copy off = regDefault (regKey copy off)) ∧ t.tk = State.reset.tk ∧ t.hs = State.reset.hs ∧ t.ls = State.reset.ls
    ∧ t.flights = State.reset.flights ∧ t.mem.hbm = [] ∧ t.mem.sp = [] ∧ t.mem.mram = s.bbxLose.mem.mram ∧ t.mem.boot = s.mem.boot
    ∧ t.mem.flash = s.mem.flash ∧ t.mem.host = s.mem.host ∧ t.images = s.images ∧ t.pending = s.pending
    ∧ (s.bbx.queue = [] ∨ s.fld Reg.BBX_STATUS 31 30 ≠ 1 → t.mem.mram = s.mem.mram)
    ∧ ∀ r, s.bbx.queue = [r] → s.fld Reg.BBX_STATUS 31 30 = 1 → (bbxBytes r).length = 256 →
      sameOutside (bbxOffset r.seq) [(0, 256)] s.mem.mram t.mem.mram ∧ memRead t.mem.mram (bbxOffset r.seq) 256 ≠ bbxBytes r

/-! ## Clauses that are not issued -/

/-- An operation that no clause of the running program places, whose unit is not in service or whose gallery runs no clauses, and one whose
descriptor admission check 0x07 forbids or whose extent passes the end of its space, is never issued: it changes nothing (R22, R44, R170,
R217, R307, R413, R509). -/
def Obligations.ClausesNotIssuedIdle : Prop :=
  (∀ (c : Issue) (s : State),
    (∀ d, s.muReady c (.mm d) = false ∨ (mmCheck c.seat.toNat d).isSome = true → exec (.mm c d) s = .next s)
    ∧ (∀ d, s.muReady c (.scaleLoad d) = false ∨ scaleLoadOk d = false → exec (.scaleLoad c d) s = .next s)
    ∧ (∀ d, (s.muReady c (.accMove 2 d) = false ∨ accMoveOk d = false → exec (.accSave c d) s = .next s)
      ∧ (s.muReady c (.accMove 3 d) = false ∨ accMoveOk d = false → exec (.accRestore c d) s = .next s))
    ∧ (∀ (d : VuDesc) (iw : InflWords) (gw : SignWords) (rw : RouteWords) (acc : Bool),
      ∀ x ∈ [(0x01, false, Op.vu 0x01 false d, Instr.map c d), (0x02, false, .vu 0x02 false d, .add c d), (0x03, false, .vu 0x03 false d, .sub c d),
        (0x04, false, .vu 0x04 false d, .mul c d), (0x05, false, .vu 0x05 false d, .max c d), (0x06, false, .vu 0x06 false d, .min c d),
        (0x07, false, .vu 0x07 false d, .fma c d), (0x08, false, .infl d iw, .infl c d iw), (0x09, false, .sign d gw, .signUpdate c d gw),
        (0x10, false, .vu 0x10 false d, .rsum c d), (0x11, false, .vu 0x11 false d, .rsumsq c d), (0x12, false, .vu 0x12 false d, .rmax c d),
        (0x13, false, .vu 0x13 false d, .rmin c d), (0x14, false, .vu 0x14 false d, .topk c d), (0x20, acc, .vu 0x20 acc d, .xred c d acc),
        (0x21, acc, .vu 0x21 acc d, .xcomb c d acc), (0x30, false, .route 0x30 d rw, .compress c d rw), (0x31, false, .route 0x31 d rw, .expand c d rw)],
      s.vuReady c x.2.2.1 = false ∨ (vuCheck x.1 c.seat.toNat x.2.1 d).isSome = true → exec x.2.2.2 s = .next s)
    ∧ (∀ (d : VuDesc) (w : SolveWords), s.vuReady c (.solve d w) = false ∨ (firstFail (solveRules d w)).isSome = true →
      exec (.solveSpd c d w) s = .next s)
    ∧ (∀ d, (s.isuReady c (.isu 1 d) = false ∨ isuOk c d = false → exec (.update c d) s = .next s)
      ∧ (s.isuReady c (.isu 2 d) = false ∨ isuOk c d = false → exec (.publish c d) s = .next s))
    ∧ (∀ d : XferDesc, ∀ x ∈ [(1, Instr.read c d), (2, .write c d), (3, .gather c d)],
      s.issued 3 c (.xfer x.1 d) = false ∨ (xferCheck x.1 c.seat.toNat d).isSome = true → exec x.2 s = .next s)
    ∧ (∀ d : XferDesc, s.fillReady c d = false ∨ windowOk c.seat.toNat d = false → exec (.windowFill c d) s = .next s)
    ∧ ∀ d : FabDesc, s.sendReady c d = false ∨ sendOk c d = false → exec (.send c d) s = .next s)
  ∧ ∀ (c : Issue) (s : State),
    (∀ d, s.muReady c (.mm d) = true → mmCheck c.seat.toNat d = none → mmInside d = false → exec (.mm c d) s = .next s)
    ∧ (∀ d : VuDesc, ∀ x ∈ [(0x01, Instr.map c d), (0x02, .add c d), (0x03, .sub c d), (0x04, .mul c d), (0x05, .max c d), (0x06, .min c d),
        (0x07, .fma c d), (0x10, .rsum c d), (0x11, .rsumsq c d), (0x12, .rmax c d), (0x13, .rmin c d), (0x14, .topk c d)],
      s.vuReady c (.vu x.1 false d) = true → vuCheck x.1 c.seat.toNat false d = none → vuInside x.1 d = false →
        exec x.2 s = .next s)
    ∧ ∀ d : XferDesc, ∀ x ∈ [(1, Instr.read c d), (2, .write c d), (3, .gather c d)],
      s.issued 3 c (.xfer x.1 d) = true → xferCheck x.1 c.seat.toNat d = none → d.named = true → xferInside x.1 d = false →
        exec x.2 s = .next s

/-! ## Tick-sync -/

/-- TICK_SYNC: a pulse under 40 ns, or in OFF or SUSPENDED, is no pulse; one within 0.05 % of the expected interval is accepted, and so is
one with no interval to hold it against (log entry 46); eight in a row lock, each accepted one in LOCKED sets a trim of at most
500 ppm; one outside is rejected and counted (R67 to R69). -/
def Obligations.SyncPulses : Prop :=
  ∀ (width interval phase : BitVec 32) (s : State),
    let st := s.syncState
    let fresh := 3 ≤ st ∨ s.sync.measured = false
    let n := if fresh then 1 else s.sync.accepted + 1
    let run := fun (t : State) => exec (.tickSync width interval phase) s = .next t
    let frame := fun (t : State) => t.sync.lastNs = interval.toNat ∧ framed (.sync :: .freeCtr :: eventParts) (Reg.TCK_SYNC_STATUS :: eventRegs) s t
    let trimmed := fun (t : State) => t.fld Reg.TCK_SYNC_STATUS 28 16 ≤ 500 ∨ 7692 ≤ t.fld Reg.TCK_SYNC_STATUS 28 16
    (width.toNat < 40 ∨ st = 0 ∨ 5 ≤ st → run s)
    ∧ (40 ≤ width.toNat → 1 ≤ st → st ≤ 4 →
      (fresh ∨ s.syncFits interval.toNat = true →
        (st = 2 → ∃ t, run t ∧ t.syncState = 2 ∧ trimmed t ∧ t.sync.accepted = n ∧ t.events = s.events ∧ frame t)
        ∧ (st = 1 → 8 ≤ n → phase.toNat ≤ 24 → ∃ t, run t ∧ t.syncState = 2 ∧ trimmed t ∧ t.sync.accepted = n
            ∧ t.events = s.events ++ [⟨0x1020, none, [wordOf s.tk.count.toNat], []⟩] ∧ frame t)
        ∧ (st = 1 → ¬(8 ≤ n ∧ phase.toNat ≤ 24) → ∃ t, run t ∧ t.syncState = 1 ∧ t.sync.accepted = n ∧ t.events = s.events ∧ frame t)
        ∧ (3 ≤ st → ∃ t, run t ∧ t.syncState = 1 ∧ t.sync.accepted = 1 ∧ t.events = s.events ∧ frame t))
      ∧ (¬fresh → s.syncFits interval.toNat = false → ∃ t, run t ∧ t.syncState = st ∧ t.sync.accepted = (if st = 2 then s.sync.accepted else 0)
          ∧ t.fld Reg.TCK_SYNC_STATUS 15 0 = satAdd 16 (s.fld Reg.TCK_SYNC_STATUS 15 0) 1 ∧ t.events = s.events ∧ frame t))

/-- TCK_SYNC_CTRL_WRITE while the configuration is not locked writes the register, a reserved field kept; MODE 0 turns tick-sync off with
its trim zero; leaving OFF it acquires, or is suspended while ticks are stretched; locked, the write is dropped (R67, R69; reserved values: log
entry 46).  SYNC_HOLDOVER from LOCKED, SYNC_FREERUN from HOLDOVER with the trim zero, SYNC_OUT_OF_WINDOW in ACQUIRING at most once a second: the
new state and its event; in any other state nothing (Table 2-15). -/
def Obligations.SyncControls : Prop :=
  (∀ (v : Word) (s : State),
    let mode := if v.field 31 30 = 3 then s.fld Reg.TCK_SYNC_CTRL 31 30 else v.field 31 30
    let k := if 1 ≤ v.field 20 16 ∧ v.field 20 16 ≤ 16 then v.field 20 16 else s.fld Reg.TCK_SYNC_CTRL 20 16
    let off := if v.field 15 0 < 600 * s.fld Reg.TCK_PERIOD 6 0 then v.field 15 0 else s.fld Reg.TCK_SYNC_CTRL 15 0
    ((s.reg Reg.DEV_BOOT_STATUS).bit 12 = true → exec (.tckSyncCtrlWrite v) s = .next s)
    ∧ ((s.reg Reg.DEV_BOOT_STATUS).bit 12 = false → ∃ t, exec (.tckSyncCtrlWrite v) s = .next t
      ∧ t.reg Reg.TCK_SYNC_CTRL = wordOf (mode * 0x40000000 + v.field 29 29 * 0x20000000 + k * 0x10000 + off)
      ∧ (mode = 0 → t.syncState = 0 ∧ t.fld Reg.TCK_SYNC_STATUS 28 16 = 0 ∧ t.events = s.events)
      ∧ (mode ≠ 0 → s.syncState ≠ 0 → t.syncState = s.syncState ∧ t.sync = s.sync ∧ t.events = s.events)
      ∧ (mode ≠ 0 → s.syncState = 0 → s.fld Reg.TCK_STRETCH 8 0 ≤ 256 → t.syncState = 1 ∧ t.sync.accepted = 0 ∧ t.events = s.events)
      ∧ (mode ≠ 0 → s.syncState = 0 → 256 < s.fld Reg.TCK_STRETCH 8 0 → t.syncState = 5 ∧ t.sync.accepted = 0
          ∧ t.events = s.events ++ [⟨0x1024, none, [wordOf (s.fld Reg.TCK_STRETCH 8 0)], []⟩])
      ∧ framed (.sync :: eventParts) (Reg.TCK_SYNC_CTRL :: Reg.TCK_SYNC_STATUS :: eventRegs) s t))
  ∧ ∀ s : State,
    let tick := [wordOf s.tk.count.toNat]
    let regs := Reg.TCK_SYNC_STATUS :: eventRegs
    (s.syncState = 2 → ∃ t, exec .syncHoldover s = .next t ∧ t.syncState = 3 ∧ t.events = s.events ++ [⟨0x1021, none, tick, []⟩]
      ∧ t.fld Reg.TCK_SYNC_STATUS 28 16 = s.fld Reg.TCK_SYNC_STATUS 28 16 ∧ framed eventParts regs s t)
    ∧ (s.syncState ≠ 2 → exec .syncHoldover s = .next s)
    ∧ (s.syncState = 3 → ∃ t, exec .syncFreerun s = .next t ∧ t.syncState = 4 ∧ t.fld Reg.TCK_SYNC_STATUS 28 16 = 0
      ∧ t.events = s.events ++ [⟨0x1022, none, tick, []⟩] ∧ framed eventParts regs s t)
    ∧ (s.syncState ≠ 3 → exec .syncFreerun s = .next s)
    ∧ (s.syncState = 1 → s.windowEventDue = true → ∃ t, exec .syncOutOfWindow s = .next t ∧ t.syncState = 1 ∧ t.sync.accepted = 0
      ∧ t.sync.lastWindowEvent = some s.tk.now ∧ t.events = s.events ++ [⟨0x1023, none, [wordOf s.sync.lastNs], []⟩]
      ∧ framed (.sync :: eventParts) eventRegs s t)
    ∧ (s.syncState ≠ 1 ∨ s.windowEventDue = false → exec .syncOutOfWindow s = .next s)

/-! ## The host side -/

/-- Every submission row on a command ring in use stores its entry and moves TAIL; on a FREE ring or an event ring it changes nothing. -/
def Obligations.EntriesSubmitted : Prop :=
  ∀ (ring : BitVec 14) (e : Entry) (s : State),
    ∀ x ∈ [(0x01, Instr.create ring e), (0x02, .bind ring e), (0x03, .admitReq ring e), (0x04, .destroy ring e), (0x05, .trainBatch ring e),
      (0x06, .trainStep ring e), (0x07, .trainGate ring e), (0x10, .lexCreate ring e), (0x11, .lexDelete ring e), (0x12, .lexQuery ring e),
      (0x13, .lexConvert ring e), (0x14, .affixClaim ring e), (0x15, .affixRelease ring e), (0x20, .resStore ring e),
      (0x21, .resPrefetch ring e), (0x22, .resEvict ring e), (0x23, .resRetry ring e), (0x30, .nop ring e)],
    ((s.ringAt ring.toNat).state ≠ 0 → (s.ringAt ring.toNat).kind = 0 → ∃ t, exec x.2 s = .next t ∧ submitted x.1 ring e s t)
    ∧ ((s.ringAt ring.toNat).state = 0 ∨ (s.ringAt ring.toNat).kind ≠ 0 → exec x.2 s = .next s)

/-- What an entry does when it takes effect in phase D: a field out of range gets ST_BAD_FIELD with its number and nothing else (R354); a handle
that is not the instance's gets ST_BAD_HANDLE (R344); NOP gets ST_OK; CREATE takes the lowest free handle of the range; BIND binds; DESTROY
marks its handle for the next landing (R352). -/
def Obligations.EntriesTakeEffect : Prop :=
  ∀ (k op : Nat) (e : Entry) (s : State), (s.ringAt k).state ≠ 0 →
    let n := (s.ringAt k).inst
    let t := s.takeEffect k op e
    let h := e.handle.field 15 0
    let answered := fun (st field : Nat) (res : List Word) => t.hs.cmdRecords = s.hs.cmdRecords
      ++ [(k, s.tk.count, ⟨st, op, e.seq.toNat, e.handle, e.tag, 0, 0, s.tk.count, field, 0, 0, res ++ List.replicate (8 - res.length) 0⟩)]
    (∀ f, s.badField n op e = some f → answered St.badField f [] ∧ changesOnly [.cmdRecords] s t)
    ∧ (s.badField n op e = none → namesHandle op = true → s.handleOf n e.handle = none →
        answered St.badHandle 0 [] ∧ changesOnly [.cmdRecords] s t)
    ∧ (s.badField n op e = none →
      (op = 0x30 → answered St.ok 0 [] ∧ changesOnly [.cmdRecords] s t)
      ∧ (op = 0x01 → ∀ i < s.handleCount n, (s.handleAt (s.handleFirst n + i)).state = 0 → (∀ j < i, (s.handleAt (s.handleFirst n + j)).state ≠ 0) →
          let g := (s.handleAt (s.handleFirst n + i)).gen
          t.handleAt (s.handleFirst n + i) = { Handle.free with state := 1, gen := g }
          ∧ answered St.ok 0 [handleWord g (s.handleFirst n + i)] ∧ (∀ j, j ≠ s.handleFirst n + i → t.handleAt j = s.handleAt j)
          ∧ changesOnly [.handles, .cmdRecords] s t)
      ∧ (op = 0x02 → s.handleOf n e.handle = some h → (s.handleAt h).state ≠ 3 → (entryOp e 5).bit 0 = true →
          t.handleAt h = { s.handleAt h with state := 2, route := (entryOp e 5).field 31 24, lexId := (entryOp e 4).field 23 0, noInfl := true }
          ∧ answered St.ok 0 [] ∧ changesOnly [.handles, .cmdRecords] s t)
      ∧ (op = 0x04 → s.handleOf n e.handle = some h → t.handleAt h = { s.handleAt h with freeing := true }
          ∧ answered St.ok 0 [] ∧ changesOnly [.handles, .reqs, .cmdRecords] s t))

/-- DOORBELL that fits SEQ_LAST moves TAIL; one that does not raises its event and moves nothing; one on a FREE ring, a page with no ring
or a DETACHED instance changes nothing, nor does one while the BARs are not served (R335, R339, R340, R356, R405, R456). -/
def Obligations.DoorbellsMoveTail : Prop :=
  ∀ (fn : BitVec 6) (page : BitVec 14) (tail seqLast : BitVec 16) (s : State),
    (s.barServed = false ∨ s.pageRing fn.toNat page.toNat = none → exec (.doorbell fn page tail seqLast) s = .next s)
    ∧ ∀ k, s.barServed = true → s.pageRing fn.toNat page.toNat = some k →
      let r := s.ringAt k
      let fits := tail.toNat < r.depth ∧ (seqLast.toNat + 1) % r.depth = tail.toNat
      (r.state = 0 ∨ s.attachState r.inst = 2 → exec (.doorbell fn page tail seqLast) s = .next s)
      ∧ (r.state ≠ 0 → s.attachState r.inst ≠ 2 → fits → ∃ t, exec (.doorbell fn page tail seqLast) s = .next t
        ∧ (t.ringAt k).tail = tail.toNat ∧ changesOnly [.rings, .readCount, .entries, .lastRing, .cnt] s t)
      ∧ (r.state ≠ 0 → s.attachState r.inst ≠ 2 → ¬fits → ∃ t, exec (.doorbell fn page tail seqLast) s = .next t
        ∧ t.events = s.events ++ [⟨0x4002, some r.inst, [k, tail.toNat, seqLast.toNat].map wordOf, [r.inst]⟩]
        ∧ framed eventParts eventRegs s t)

/-- HOST_READ_TIMEOUT counts as a mismatch of the entry that waits to be read; DB_TIMEOUT_EXPIRE halts a ring whose mismatch has lasted
DB_TIMEOUT re-reads, with its event; else neither changes anything (R341). -/
def Obligations.MismatchesHaltRings : Prop :=
  ∀ (ring : BitVec 14) (s : State),
    let k := ring.toNat
    let r := s.ringAt k
    ((r.ahead && r.sqHost) = true → ∃ t, exec (.hostReadTimeout ring) s = .next t
      ∧ t.ringAt k = (if r.mismatch = none then { r with mismatch := some 0 } else { r with readTimeout := true })
      ∧ (∀ j, j ≠ k → t.ringAt j = s.ringAt j) ∧ changesOnly [.rings] s t)
    ∧ ((r.ahead && r.sqHost) = false → exec (.hostReadTimeout ring) s = .next s)
    ∧ (∀ n, r.mismatch = some n → r.state = 1 → s.fld (Reg.WIN_INST_CFG r.inst) 29 24 ≤ n → ∃ t, exec (.dbTimeoutExpire ring) s = .next t
      ∧ t.ringAt k = { r with state := 2, mismatch := none } ∧ (∀ j, j ≠ k → t.ringAt j = s.ringAt j)
      ∧ (∃ seen, t.events = s.events ++ [⟨0x4001, some r.inst, [k, r.sqPos, r.sqPos % 65536, seen].map wordOf, [r.inst]⟩]
          ∧ ∀ ws, s.nextWords r = some ws → seen = (wordAt ws 0).field 15 0)
      ∧ framed (.rings :: eventParts) eventRegs s t)
    ∧ (r.mismatch = none ∨ r.state ≠ 1 → exec (.dbTimeoutExpire ring) s = .next s)
    ∧ (∀ n, r.mismatch = some n → n < s.fld (Reg.WIN_INST_CFG r.inst) 29 24 → exec (.dbTimeoutExpire ring) s = .next s)

/-- CQ_HEAD_WRITE of an index that lies between the head and the records posted moves the head there, to the depth's own index past a full queue;
an index past the depth, or past what was posted, moves nothing, nor does a write while the BARs are not served (R339, R348, R405, R456).  What then posts is
held for no message of its own (R349). -/
def Obligations.CqHeadMoves : Prop :=
  ∀ (fn : BitVec 6) (page : BitVec 14) (head : BitVec 16) (s : State),
    (s.barServed = false ∨ s.pageRing fn.toNat page.toNat = none → exec (.cqHeadWrite fn page head) s = .next s)
    ∧ ∀ k, s.barServed = true → s.pageRing fn.toNat page.toNat = some k →
    let r := s.ringAt k
    let h := head.toNat
    let step := (h + r.depth - r.cqHead % r.depth) % r.depth
    let moved := if step = 0 ∧ r.cqPos - r.cqHead = r.depth then r.depth else step
    (r.state = 0 ∨ r.depth ≤ h ∨ r.cqPos < r.cqHead + moved → exec (.cqHeadWrite fn page head) s = .next s)
    ∧ (r.state ≠ 0 → h < r.depth → r.cqHead + moved ≤ r.cqPos → ∃ t, exec (.cqHeadWrite fn page head) s = .next t
      ∧ (t.ringAt k).cqHead = r.cqHead + moved ∧ (t.ringAt k).cqHead % r.depth = h
      ∧ (r.held = [] → (t.ringAt k).cqPos = r.cqPos) ∧ (t.ringAt k).posted = r.posted
      ∧ changesOnly [.rings, .reqs, .handles, .immutable, .host, .win, .winM, .insts, .readCount, .entries, .lastRing, .cnt] s t)

/-- GLOBAL_OBSERVATION of an ended request whose record waits for its host data posts the record (here in a queue with room and none held before it);
HOST_WRITE_TIMEOUT posts it with ST_HOST_FAULT, its PATH without the host, and its event; for any other request neither changes anything
(R331, R347, R348, R350). -/
def Obligations.HostDataCompletes : Prop :=
  ∀ (handle : BitVec 16) (code : BitVec 32) (s : State),
    let h := handle.toNat
    let waits := fun (r : Request) (x : Record) => s.reqAt h = some r ∧ r.record = some x ∧ r.dataVisible = false
    let open_ := fun (r : Request) =>
      (s.ringAt r.ring).state ≠ 0 ∧ (s.ringAt r.ring).held = [] ∧ (s.ringAt r.ring).room = true ∧ s.cqOpen (s.ringAt r.ring) = true
    let parts := [.reqs, .rings, .handles, .immutable, .host, .win, .winM, .insts, .cnt]
    (∀ r x, waits r x → ∃ t, exec (.globalObservation handle) s = .next t ∧ changesOnly parts s t ∧ (open_ r → recordPosted r.ring x s t))
    ∧ (∀ r x, waits r x → ∃ t, exec (.hostWriteTimeout handle code) s = .next t ∧ changesOnly (parts ++ eventParts) s t
      ∧ t.events = s.events ++ [⟨0x4006, some r.inst, [handleWord r.gen h, code], [r.inst]⟩]
      ∧ (open_ r → recordPosted r.ring
          { x with status := St.hostFault, path := x.path % 2, outBytes := if x.path % 2 = 1 then x.outBytes else 0 } s t))
    ∧ (s.reqAt h = none ∨ (∃ r, s.reqAt h = some r ∧ (r.record = none ∨ r.dataVisible = true)) →
      exec (.globalObservation handle) s = .next s ∧ exec (.hostWriteTimeout handle code) s = .next s)

/-- WINDOW_WRITE and INPUT_WRITE of bytes within one line: stored in both copies of the window where the function reaches the line;
discarded and counted in WIN_OOB where it does not; discarded, counted, and flagged and told of by event for every request whose input makes the line
immutable; while the BARs are not served, nothing (R330, R333, R405, R456). -/
def Obligations.HostWritesReachTheWindow : Prop :=
  ∀ (fn : BitVec 6) (off : BitVec 40) (cxlMem : Bool) (data : List Byte) (s : State), data ≠ [] →
    let a := s.winAbs fn.toNat off.toNat
    a % 64 + data.length ≤ 64 →
    let reach := ∃ n, s.winOwner a = some n ∧ (fn.toNat = 0 ∨ n = fn.toNat)
    ∀ c ∈ [Instr.windowWrite fn off cxlMem data, .inputWrite fn off cxlMem data],
    (s.barServed = false → exec c s = .next s)
    ∧ (s.barServed = true → reach → s.immutableBy a = [] → ∃ t, exec c s = .next t
      ∧ memRead t.mem.win a data.length = data ∧ memRead t.mem.winM a data.length = data
      ∧ sameOutside a [(0, data.length)] s.mem.win t.mem.win ∧ sameOutside a [(0, data.length)] s.mem.winM t.mem.winM
      ∧ framed [.win, .winM, .cnt] [] s t)
    ∧ (s.barServed = true → ¬reach → ∃ t, exec c s = .next t ∧ t.fld Reg.WIN_OOB 31 0 = satAdd 32 (s.fld Reg.WIN_OOB 31 0) 1
      ∧ framed [.regs, .cnt] [Reg.WIN_OOB, regKey (fn.toNat + 1) Reg.WIN_OOB] s t)
    ∧ (s.barServed = true → reach → ∀ r rs, s.immutableBy a = r :: rs → ∃ t, exec c s = .next t
      ∧ t.events = s.events ++ (r :: rs).map (fun x => ⟨0x4005, some x.inst, [handleWord x.gen x.handle, wordOf (a / 4096)], [x.inst]⟩)
      ∧ t.fld Reg.WIN_IMMUT_WRITES 31 0 = satAdd 32 (s.fld Reg.WIN_IMMUT_WRITES 31 0) 1
      ∧ framed (.reqs :: .cnt :: eventParts) (Reg.WIN_IMMUT_WRITES :: regKey (r.inst + 1) Reg.WIN_IMMUT_WRITES :: eventRegs) s t)

/-- A management command's GO takes the arguments and shows BUSY until the next landing; while BUSY it is ignored (R360).  What a landing does
with a queued one: RING_RESUME of a HALTED ring makes it ACTIVE (R341), ATTACH of an UNATTACHED instance records the token and attaches it, DETACH
of an ATTACHED one detaches it with cause 2 (R355, Table 12-14); DONE shows the status. -/
def Obligations.ManagementDecided : Prop :=
  (∀ (fn : BitVec 6) (s : State),
    ∀ x ∈ [(1, Instr.ringCreate fn), (2, .ringDestroy fn), (3, .ringResume fn), (4, .attach fn), (5, .detach fn)],
    ((s.regC (fn.toNat + 1) Reg.MGQ_STATUS).field 31 30 = 1 → exec x.2 s = .next s)
    ∧ ((s.regC (fn.toNat + 1) Reg.MGQ_STATUS).field 31 30 ≠ 1 → ∃ t, exec x.2 s = .next t
      ∧ (t.regC (fn.toNat + 1) Reg.MGQ_STATUS).field 31 30 = 1
      ∧ t.hs.mgq = s.hs.mgq ++ [⟨fn.toNat, x.1, (List.range 6).map fun i => s.regC (fn.toNat + 1) (Reg.MGQ_ARG i)⟩]
      ∧ framed [.mgq, .regs] [regKey (fn.toNat + 1) Reg.MGQ_STATUS] s t))
  ∧ ∀ (fn : Nat) (args : List Word) (s : State), fn < 64 →
    let w := wordAt args
    let done := fun (t : State) (st : Nat) => t.regC (fn + 1) Reg.MGQ_STATUS = wordOf (0x80000000 + st * 0x10000)
    (let k := s.ringFirst fn + (w 0).field 13 0;
      (w 0).field 13 0 < s.ringCount fn → (w 0).field 31 14 = 0 →
      let t := s.mgqStep ⟨fn, 3, args⟩
      ((s.ringAt k).state = 2 → t.ringAt k = { s.ringAt k with state := 1, mismatch := none } ∧ done t St.ok)
      ∧ ((s.ringAt k).state = 1 → t.ringAt k = s.ringAt k ∧ done t St.busy)
      ∧ ((s.ringAt k).state = 0 → t.ringAt k = s.ringAt k ∧ done t St.notFound)
      ∧ framed [.rings, .regs] [regKey (fn + 1) Reg.MGQ_STATUS] s t)
    ∧ (s.ideBlocks = false → s.attachState fn = 0 →
      let t := s.mgqStep ⟨fn, 4, args⟩
      t.attachState fn = 1 ∧ (t.instAt fn).token = some (BitVec.ofNat 64 ((w 0).toNat + 0x100000000 * (w 1).toNat)) ∧ done t St.ok
      ∧ (∃ e ∈ t.events, e.code = 0x4004 ∧ e.inst = some fn))
    ∧ (s.attachState fn = 1 →
      let t := s.mgqStep ⟨fn, 5, args⟩
      t.attachState fn = 2 ∧ (t.regC (fn + 1) Reg.WIN_ATTACH_STATE).field 29 28 = 2 ∧ done t St.ok
      ∧ t.events = s.events ++ [⟨0x4003, some fn, [2], [fn]⟩])
    ∧ (s.attachState fn ≠ 1 →
      let t := s.mgqStep ⟨fn, 5, args⟩
      t.attachState fn = s.attachState fn ∧ done t St.busy)

/-- HEARTBEAT_WRITE restarts the timer, which a frozen instance holds; HEARTBEAT_TIMEOUT detaches an ATTACHED instance with cause 0 once HB_MS have
passed, and none that has no timeout or is frozen; HOST_LINK_RESET takes the link down, resets IDE, and detaches every ATTACHED instance with
cause 1; whether the cause was the loss of HOST_REFCLK, which CLK_STATUS and an event then show, is free (R327, R355, R371, R405, R453; log entry 110). -/
def Obligations.AttachmentIsLost : Prop :=
  ∀ (fn : BitVec 6) (s : State),
    let n := fn.toNat
    (∀ beat : Word, ∃ t, exec (.heartbeatWrite fn beat) s = .next t ∧ t.regC (n + 1) Reg.WIN_HEARTBEAT = beat
      ∧ t.instAt n = { s.instAt n with beat := if s.frozen n then 0 else s.tk.now } ∧ (∀ m, m ≠ n → t.instAt m = s.instAt m)
      ∧ framed [.regs, .insts] [regKey (n + 1) Reg.WIN_HEARTBEAT] s t)
    ∧ (s.beatDue n = true → s.attachState n = 1 → ∃ t, exec (.heartbeatTimeout fn) s = .next t
      ∧ t.attachState n = 2 ∧ (t.regC (n + 1) Reg.WIN_ATTACH_STATE).field 29 28 = 0
      ∧ t.events = s.events ++ [⟨0x4003, some n, [0], [n]⟩] ∧ framed eventParts (regKey (n + 1) Reg.WIN_ATTACH_STATE :: eventRegs) s t)
    ∧ (s.fld (Reg.WIN_INST_CFG n) 15 0 = 0 ∨ s.frozen n = true ∨ s.beatDue n = false ∨ s.attachState n ≠ 1 → exec (.heartbeatTimeout fn) s = .next s)
    ∧ ∃ t, exec .hostLinkReset s = .next t ∧ t.hs.linkUp = false ∧ t.trust.ideStreams = [] ∧ t.fld Reg.WIN_LINK 31 22 = 0
      ∧ t.fld Reg.WIN_LINK 15 0 = satAdd 16 (s.fld Reg.WIN_LINK 15 0) 1 ∧ t.fld Reg.SEC_STATUS 28 28 = 0
      ∧ (∀ m < 64, s.attachState m = 1 → t.attachState m = 2 ∧ (t.regC (m + 1) Reg.WIN_ATTACH_STATE).field 29 28 = 1
          ∧ ⟨0x4003, some m, [1], [m]⟩ ∈ t.events)
      ∧ (∀ m < 64, s.attachState m ≠ 1 → t.attachState m = s.attachState m)
      ∧ (if s.free.1 % 2 = 1 then t.fld Reg.CLK_STATUS 30 30 = 0 ∧ ⟨0x8009, none, [1], []⟩ ∈ t.events
          else t.fld Reg.CLK_STATUS 30 30 = s.fld Reg.CLK_STATUS 30 30)
      ∧ changesOnly (.freeCtr :: .linkUp :: .trust :: eventParts) s t

/-! ## Instances -/

/-- The operations of DEV_INST_CTRL wait for the next landing, in order; INSTANCE_PAUSED and SAVE_COMPLETE, once the tick's budget covers the image, end
their states with the event; RESTORE_COMPLETE waits for the landing, in the order of the operations, which restores the image or refuses it with the event
(`State.restoreStep`); INSTANCE_RESET ends the instance's requests and resets it at the next landing (R24, R27, R370, R375 to R378, R381; the image: log
entry 91). -/
def Obligations.InstancesChangeState : Prop :=
  ∀ (inst : BitVec 6) (s : State),
    let n := inst.toNat
    let told := fun (t : State) (st status : Nat) => t.instState n = st
      ∧ t.events = s.events ++ [⟨0x5003, some n, [n, st, status, s.tk.count.toNat].map wordOf, [n]⟩]
    let regs := Reg.DEV_INST_STATE n :: eventRegs
    let moved := s.covered n (.image n) (s.instAt n).imgLeft = true
    (∀ x ∈ [(1, Instr.pause inst), (2, .freeze inst), (3, .thaw inst), (4, .save inst), (5, .restore inst), (6, .logStart inst), (7, .logStop inst)],
      ∃ t, exec x.2 s = .next t ∧ t.hs.instOps = s.hs.instOps ++ [(n, x.1)] ∧ framed [.instOps] [] s t)
    ∧ (s.instState n = 1 → (s.hs.reqs.any fun r => r.inst == n) = false → s.dirtyOf n = [] →
      ∃ t, exec (.instancePaused inst) s = .next t ∧ told t 2 St.ok ∧ framed eventParts regs s t)
    ∧ (s.instState n ≠ 1 ∨ (s.hs.reqs.any fun r => r.inst == n) = true → exec (.instancePaused inst) s = .next s)
    ∧ (s.instState n = 4 → moved → ∃ t, exec (.saveComplete inst) s = .next t ∧ told t 3 St.ok ∧ (t.instAt n).imgLeft = 0
      ∧ (let ok := !s.savePoisoned n && !(s.instAt n).stopped && (s.instAt n).migKey.isSome;
        (t.reg (Reg.DEV_INST_STATE n)).bit 27 = ok
        ∧ t.images = (s.migPlace n, { s.saveImage n with valid := ok }) :: s.images.filter fun p => p.1 != s.migPlace n)
      ∧ framed (.images :: .insts :: .fetched :: eventParts) regs s t)
    ∧ (s.instState n ≠ 4 ∨ ¬moved → exec (.saveComplete inst) s = .next s)
    ∧ (s.instState n = 5 → (s.instAt n).restored = false → moved → ∃ t, exec (.restoreComplete inst) s = .next t
      ∧ t.instAt n = { s.instAt n with restored := true, imgLeft := 0 } ∧ t.hs.instOps = s.hs.instOps ++ [(n, 8)]
      ∧ (∀ m, m ≠ n → t.instAt m = s.instAt m) ∧ framed [.insts, .instOps, .fetched] [] s t)
    ∧ (s.instState n = 5 → (s.instAt n).restored = true → (s.images.find? fun p => p.1 == s.migPlace n) = none →
      told (s.restoreStep n) 3 St.auth ∧ (s.restoreStep n).fld Reg.DEV_INST_CTRL 7 0 = St.auth
        ∧ framed (.insts :: eventParts) (Reg.DEV_INST_CTRL :: regs) s (s.restoreStep n))
    ∧ (∀ p, s.instState n = 5 → (s.instAt n).restored = true → (s.images.find? fun p => p.1 == s.migPlace n) = some p →
      (s.instAt n).stopped = false → s.imageStatus n p.2 = St.ok →
      let t := s.restoreStep n
      told t 3 St.ok ∧ t.fld Reg.DEV_INST_CTRL 7 0 = St.ok ∧ t.mem = s.withImageMem n p.2.mem
      ∧ (t.instAt n).credit = p.2.credit ∧ (t.instAt n).eng = p.2.eng
      ∧ (∀ h ∈ p.2.reqs, ∃ r ∈ t.hs.reqs, r.handle = h.handle ∧ r.inst = n ∧ r.stage = h.stage)
      ∧ changesOnly ([.handles, .rings, .reqs, .immutable, .lex, .lexCopies, .slots, .train, .insts, .obj, .req, .ctx, .slot, .hdr, .hdrM, .win, .winM]
          ++ eventParts) s t)
    ∧ ((s.instAt n).restored = false → s.restoreStep n = s)
    ∧ (s.instState n ≠ 5 ∨ (s.instAt n).restored = true ∨ ¬moved → exec (.restoreComplete inst) s = .next s)
    ∧ ∃ t, exec (.instanceReset inst) s = .next t ∧ (t.instAt n).reset = true ∧ (∀ r ∈ t.hs.reqs, r.inst = n → r.live = false)
      ∧ framed [.reqs, .insts] [] s t

/-! ## Stems -/

/-- STEM_LOAD, STEM_SWITCH, STEM_ROLLING and STEM_UNLOAD: the slot's next state where Table 8-13 allows it, else a status and nothing more;
STEM_READY, STEM_DRAINED and STEM_RETIRED: the transition once its condition holds, before that nothing (R242 to R244). -/
def Obligations.StemSlotsChangeState : Prop :=
  ∀ (slot : BitVec 1) (s : State),
    let k := slot.toNat
    let a := s.stemAt k
    let b := s.stemAt (1 - k)
    let answered := fun (t : State) (st : Nat) => t.fld Reg.LEX_STEM_CTRL 7 0 = st
    let refused := fun (c : Instr) (st : Nat) => ∃ t, exec c s = .next t ∧ answered t st ∧ framed [.regs] [Reg.LEX_STEM_CTRL] s t
    let becomes := fun (c : Instr) (i : Nat) (x : StemSlot) => ∃ t, exec c s = .next t ∧ answered t St.ok ∧ t.stemAt i = x
      ∧ t.stemAt (1 - i) = s.stemAt (1 - i) ∧ framed [.stems, .regs] [Reg.LEX_STEM_CTRL] s t
    let pair := a.state = 3 ∧ b.state = 2
    let free := ((a.state = 2 ∧ a.switching = false) ∨ a.state = 6)
      ∨ (a.state = 3 ∧ s.boundTo k = false ∧ (∀ n < 64, s.stemSel n ≠ k) ∧ b.switching = false)
    (a.state ≠ 0 → refused (.stemLoad slot) St.busy)
    ∧ (a.state = 0 → parseStem s.stemImage = none → ∃ t, exec (.stemLoad slot) s = .next t ∧ answered t St.ok ∧ (t.stemAt k).state = 6)
    ∧ (∀ x, a.state = 0 → parseStem s.stemImage = some x → (∀ y, s.placeStem none x = some y → s.stemFits k y = false) →
      refused (.stemLoad slot) St.noCapacity)
    ∧ (∀ x y, a.state = 0 → parseStem s.stemImage = some x → s.placeStem none x = some y → s.stemFits k y = true →
      becomes (.stemLoad slot) k { y with state := 1, shards := stemShards s.tk.now y })
    ∧ (¬pair ∨ s.stemBusy = true → refused (.stemSwitch slot) St.busy)
    ∧ (pair → s.stemBusy = false → stemLayout a ≠ stemLayout b → refused (.stemSwitch slot) St.stemLayout)
    ∧ (pair → s.stemBusy = false → stemLayout a = stemLayout b →
      becomes (.stemSwitch slot) (1 - k) { b with switching := true })
    ∧ (a.state ≠ 3 ∨ s.stemBusy = true → refused (.stemRolling slot) St.busy)
    ∧ (∀ x, a.state = 3 → s.stemBusy = false → parseStem s.stemImage = some x → stemLayout x ≠ stemLayout a →
      refused (.stemRolling slot) St.stemLayout)
    ∧ (∀ x, a.state = 3 → s.stemBusy = false → parseStem s.stemImage = some x → stemLayout x = stemLayout a →
      ((s.placeStem (some k) x).isSome = true → becomes (.stemRolling slot) k { a with state := 5, next := some s.stemImage })
      ∧ (s.placeStem (some k) x = none → refused (.stemRolling slot) St.noCapacity))
    ∧ (free → becomes (.stemUnload slot) k StemSlot.empty)
    ∧ (¬free → refused (.stemUnload slot) St.busy)
    ∧ (a.state = 1 → a.inPlace = false → (∀ p ∈ a.shards, p.2.verified = true) → ∃ t, exec (.stemReady slot) s = .next t
      ∧ t.stemAt k = { a with state := 2 } ∧ t.reg Reg.RES_QUANT_SAT = wordOf (Nat.min a.quantSat 0xFFFFFFFF)
      ∧ (∃ e ∈ t.events, e.code = 0x3040) ∧ framed (.stems :: .reqs :: eventParts) (Reg.RES_QUANT_SAT :: eventRegs) s t)
    ∧ (a.state ≠ 1 ∨ (∃ p ∈ a.shards, p.2.verified = false) ∨ a.inPlace = true → exec (.stemReady slot) s = .next s)
    ∧ (∀ x, a.state = 5 → (∀ r ∈ s.hs.reqs, r.live = true → r.stem = k → stemWait k ∈ r.waits) →
      (a.next.bind parseStem).bind (s.placeStem (some k)) = some x →
      ∃ t, exec (.stemDrained slot) s = .next t ∧ t.stemAt k = { x with state := 1, inPlace := true, shards := stemShards s.tk.now x }
        ∧ framed [.stems] [] s t)
    ∧ (a.state ≠ 5 → exec (.stemDrained slot) s = .next s)
    ∧ (a.state = 4 → s.boundTo k = false → ∃ t, exec (.stemRetired slot) s = .next t ∧ t.stemAt k = StemSlot.empty ∧ t.stemAt (1 - k) = b
      ∧ (∃ e ∈ t.events, e.code = 0x3042) ∧ framed (.stems :: eventParts) eventRegs s t)
    ∧ (a.state ≠ 4 ∨ s.boundTo k = true → exec (.stemRetired slot) s = .next s)

/-! ## Keys and sessions -/

/-- Tenant requests: denied without a session, not found outside the tenant's range, refused by a MAC that does not verify, each with
its answer and no change of a key; a provisioned key and a revocation wait for the next landing in order, as FORCE_RETIRE and CLEAR of the slot that
SEC_SLOT_SEL names do (R394 to R400, R410). -/
def Obligations.TenantRequestsAnswered : Prop :=
  ∀ (fn : BitVec 6) (session : BitVec 8) (slot : BitVec 16) (nonce : BitVec 256) (mac : List Byte) (s : State),
    let f := fn.toNat
    let n := slot.toNat
    let port := SpdmPort.doe fn
    let k := s.keyAhead n
    let open_ := (s.sessionAt port session.toNat).isSome = true
    let answered := fun (c : Instr) (req st : Nat) => ∃ t, exec c s = .next t
      ∧ t.out = s.out ++ [.spdm port 0x7E [byteOf req, byteOf st]] ∧ t.trust.keys = s.trust.keys ∧ t.trust.keyOps = s.trust.keyOps
      ∧ framed [.out, .trust] [] s t
    let queued := fun (c : Instr) (o : KeyOp) => ∃ t, exec c s = .next t ∧ t.trust.keyOps = s.trust.keyOps ++ [o]
      ∧ t.trust.keys = s.trust.keys ∧ t.out = s.out ∧ framed [.trust, .reqs] [] s t
    (∀ (epoch : Word) (wrapped : List Byte),
      let c := Instr.keyProvision fn session slot epoch nonce wrapped mac
      (¬open_ ∨ s.keysOpen = false → answered c 1 St.denied)
      ∧ (open_ → s.keysOpen = true → s.keyInRange f n = false → answered c 1 St.notFound)
      ∧ (∀ st, open_ → s.keysOpen = true → s.keyInRange f n = true →
          s.provisionChecks port session.toNat n epoch nonce wrapped mac = .inl st → answered c 1 st)
      ∧ ∀ key, open_ → s.keysOpen = true → s.keyInRange f n = true →
          s.provisionChecks port session.toNat n epoch nonce wrapped mac = .inr key → queued c (.provision n epoch key f session.toNat))
    ∧ (¬open_ → answered (.keyRevoke fn session slot nonce mac) 2 St.denied)
    ∧ (open_ → s.keyInRange f n = false ∨ k.state = 0 → answered (.keyRevoke fn session slot nonce mac) 2 St.notFound)
    ∧ (open_ → s.keyInRange f n = true → k.state ≠ 0 → macOk k 2 n k.cur nonce mac = false →
      answered (.keyRevoke fn session slot nonce mac) 2 St.auth)
    ∧ (open_ → s.keyInRange f n = true → k.state ≠ 0 → macOk k 2 n k.cur nonce mac = true →
      queued (.keyRevoke fn session slot nonce mac) (.revoke n 0 f session.toNat))
    ∧ (∀ start : BitVec 24,
      let x := s.keyAt n
      let c := Instr.tenantReport fn session slot nonce start mac
      (¬open_ → answered c 3 St.denied)
      ∧ (open_ → s.keyInRange f n = false ∨ x.state = 0 → answered c 3 St.notFound)
      ∧ (open_ → s.keyInRange f n = true → x.state ≠ 0 → macOk x 3 n x.cur nonce mac = false → answered c 3 St.auth)
      ∧ (open_ → s.keyInRange f n = true → x.state ≠ 0 → macOk x 3 n x.cur nonce mac = true → ∃ t body, exec c s = .next t
          ∧ t.out = s.out ++ [.spdm port 0x7E (byteOf 3 :: byteOf St.ok :: (byteOf x.state :: x.cur.bytes ++ x.prev.bytes ++ body))]
          ∧ t.trust.keys = s.trust.keys ∧ framed [.out, .trust] [] s t))
    ∧ queued .forceRetire (.forceRetire (s.fld Reg.SEC_SLOT_SEL 15 0))
    ∧ queued .clear (.revoke (s.fld Reg.SEC_SLOT_SEL 15 0) 1 0 0)

/-- EPOCH_RETIRED and EPOCH_KEY_DESTROY end an epoch once nothing is tracked or read under it, and none that a FORCE_RETIRE is about to end, and the table
is sealed again where an owner's block and the PUF allow it; ZEROISE clears every key and both sealed copies at once, DEBUG_UNLOCK needs a block that allows
it and a token that verifies, SET_TARGET and IMPORT set an instance's migration key or refuse (R398, R401, R404, R407, R408, R410, R460; log entry 89). -/
def Obligations.KeysEnd : Prop :=
  ∀ (slot : BitVec 16) (inst : BitVec 6) (s : State),
    let n := slot.toNat
    let k := s.keyAt n
    let due := k.state = 2 ∧ KeyOp.forceRetire n ∉ s.trust.keyOps ∧ s.pagesUnder n k.prev = 0 ∧ s.readsUnder n k.prev = 0
    let sealed := fun (t : State) => s.sealOpen = true → t.sealedNow.map (·.keys) = some t.trust.keys
    (due → ∃ t, exec (.epochRetired slot) s = .next t ∧ t.keyAt n = { k with state := 1, prev := 0, keyPrev := 0, ctrPrev := 0 }
      ∧ (∀ m, m ≠ n → t.keyAt m = s.keyAt m) ∧ (∃ e ∈ t.events, e.code = 0x6002) ∧ sealed t
      ∧ framed (.trust :: eventParts) eventRegs s t)
    ∧ (¬due → exec (.epochRetired slot) s = .next s)
    ∧ ((∃ c ∈ k.condemned, s.readsUnder n c.1 = 0) → ∃ t, exec (.epochKeyDestroy slot) s = .next t
      ∧ (∀ c ∈ (t.keyAt n).condemned, c ∈ k.condemned ∧ s.readsUnder n c.1 ≠ 0) ∧ (∀ m, m ≠ n → t.keyAt m = s.keyAt m)
      ∧ (∀ c ∈ k.condemned, s.readsUnder n c.1 = 0 → c.1 ∈ (t.keyAt n).destroyed) ∧ sealed t ∧ framed (.trust :: eventParts) eventRegs s t)
    ∧ ((∀ c ∈ k.condemned, s.readsUnder n c.1 ≠ 0) → exec (.epochKeyDestroy slot) s = .next s)
    ∧ (∃ t, exec (.zeroise 0x5A45524F) s = .next t ∧ (∀ m, t.keyAt m = KeySlot.empty) ∧ t.trust.keyOps = [] ∧ t.trust.copy0 = none ∧ t.trust.copy1 = none
      ∧ (∀ m, (t.instAt m).migKey = none) ∧ ⟨0x6004, none, [0], []⟩ ∈ t.events)
    ∧ (∀ key, key ≠ 0x5A45524F#32 → exec (.zeroise key) s = .next s)
    ∧ (s.trust.debugTokens = false → ∃ t, exec .debugUnlock s = .next t ∧ t.fld Reg.SEC_DBG_CTRL 7 0 = St.denied
      ∧ changesOnly [.regs, .freeCtr] s t)
    ∧ (s.trust.debugTokens = true → Config.debugToken s.debugTokenBytes = some (sha256 s.trust.dik, s.aperture Reg.SEC_DBG_NONCE 8) →
      ∃ t, exec .debugUnlock s = .next t ∧ t.fld Reg.SEC_STATUS 30 30 = 1 ∧ t.fld Reg.RST_CAUSE 31 28 = 5 ∧ t.tk.running = false
        ∧ (∀ m, t.keyAt m = KeySlot.empty) ∧ t.trust.copy0 = none ∧ t.trust.copy1 = none)
    ∧ (s.trust.debugTokens = true → Config.debugToken s.debugTokenBytes ≠ some (sha256 s.trust.dik, s.aperture Reg.SEC_DBG_NONCE 8) →
      ∃ t, exec .debugUnlock s = .next t ∧ t.fld Reg.SEC_DBG_CTRL 7 0 = St.auth ∧ changesOnly [.regs, .freeCtr] s t)
    ∧ (Config.targetStatement (s.aperture Reg.SEC_MIG_TARGET 2048) = none → ∃ t, exec (.setTarget inst) s = .next t
      ∧ t.fld Reg.SEC_MIG_CTRL 7 0 = St.auth ∧ framed [.regs] [Reg.SEC_MIG_CTRL] s t)
    ∧ (∀ svn block6 n dek, Config.targetStatement (s.aperture Reg.SEC_MIG_TARGET 2048) = some (svn, block6, n, dek) →
      block6.bit 31 = false → block6.bit 30 = false → s.fld Reg.SEC_STATUS 23 16 ≤ svn → ∃ t, exec (.setTarget inst) s = .next t
      ∧ t.fld Reg.SEC_MIG_CTRL 7 0 = St.ok ∧ (t.instAt inst.toNat).migKey.isSome = true ∧ (t.instAt inst.toNat).migOut = true
      ∧ (∀ m, m ≠ inst.toNat → t.instAt m = s.instAt m) ∧ changesOnly [.regs, .insts, .freeCtr] s t)
    ∧ (unwrapUnder (s.aperture Reg.SEC_MIG_WRAPPED 96) (s.trust.nonces.filter s.nonceLive) = none → ∃ t, exec (.import_ inst) s = .next t
      ∧ t.fld Reg.SEC_MIG_CTRL 7 0 = St.auth ∧ framed [.regs] [Reg.SEC_MIG_CTRL] s t)
    ∧ ∀ x v, unwrapUnder (s.aperture Reg.SEC_MIG_WRAPPED 96) (s.trust.nonces.filter s.nonceLive) = some (x, v) →
      ∃ t, exec (.import_ inst) s = .next t ∧ t.fld Reg.SEC_MIG_CTRL 7 0 = St.ok
        ∧ (t.instAt inst.toNat).migKey = some v ∧ (t.instAt inst.toNat).migOut = false ∧ (∀ m, m ≠ inst.toNat → t.instAt m = s.instAt m)
        ∧ framed [.trust, .insts, .regs] [Reg.SEC_MIG_CTRL] s t

/-- SPDM and DOE answers: where the port is served, each request of Table 14-2 sends one answer and changes nothing but the port's own records;
where it is not, nothing changes (R386, R391, R392, R326). -/
def Obligations.AttestationAnswers : Prop :=
  ∀ (port : SpdmPort) (s : State),
    let sent := fun (c : Instr) (code : Nat) => ∃ t body, exec c s = .next t ∧ t.out = s.out ++ [.spdm port code body]
      ∧ t.trust.keys = s.trust.keys ∧ t.trust.sessions = s.trust.sessions ∧ framed [.out, .trust, .freeCtr] [] s t
    let plain := [Instr.getVersion port, .getCapabilities port]
    (s.spdmServed port = false → ∀ c ∈ plain, exec c s = .next s)
    ∧ (s.spdmServed port = true →
      (∃ t, exec (.getVersion port) s = .next t ∧ t.out = s.out ++ [.spdm port 0x04 [0, 2, 0x00, 0x12, 0x00, 0x13]]
        ∧ framed [.out, .trust] [] s t)
      ∧ (∃ t, exec (.getCapabilities port) s = .next t ∧ t.out = s.out ++ [.spdm port 0x61 (bytesOfNat 4 spdmCaps)] ∧ framed [.out, .trust] [] s t)
      ∧ (∀ asym hash : Word, ((asymChoice asym ≠ 0 ∧ hash.bit 0 = true) → ∃ t, exec (.negotiateAlgorithms port asym hash) s = .next t
          ∧ t.out = s.out ++ [.spdm port 0x63 ((asymChoice asym).bytes ++ (1 : Word).bytes ++ algStructs)] ∧ (port, asymChoice asym, 1#32) ∈ t.trust.negotiated
          ∧ framed [.out, .trust] [] s t)
        ∧ ((asymChoice asym = 0 ∨ hash.bit 0 = false) → sent (.negotiateAlgorithms port asym hash) 0x7F))
      ∧ (s.pufFail = false → (∃ t, exec (.getDigests port) s = .next t ∧ t.out = s.out ++ [.spdm port 0x01 (1 :: sha256 s.certs)]
          ∧ framed [.out, .trust] [] s t)
        ∧ (∀ offset length : BitVec 16, ∃ t, exec (.getCertificate port 0 offset length) s = .next t
          ∧ (let part := (s.certs.drop offset.toNat).take length.toNat;
            t.out = s.out ++ [.spdm port 0x02 ([0] ++ bytesOfNat 2 part.length
              ++ bytesOfNat 2 (s.certs.length - offset.toNat - part.length) ++ part)])
          ∧ framed [.out, .trust] [] s t)
        ∧ (∀ nonce, sent (.challenge port 0 nonce) 0x03)
        ∧ (∀ (session index : BitVec 8) signed nonce, session = 0 ∨ (s.sessionAt port session.toNat).isSome = true → 1 ≤ index.toNat → index.toNat ≤ 10 →
          sent (.getMeasurements port session index signed nonce) 0x60)
        ∧ (∀ (session index : BitVec 8) signed nonce, session ≠ 0 → s.sessionAt port session.toNat = none →
          sent (.getMeasurements port session index signed nonce) 0x7F))
      ∧ (s.pufFail = true → (∀ c ∈ [Instr.getDigests port], sent c 0x7F) ∧ (∀ slot offset length, sent (.getCertificate port slot offset length) 0x7F)
        ∧ (∀ slot nonce, sent (.challenge port slot nonce) 0x7F)
        ∧ ∀ session index signed nonce, sent (.getMeasurements port session index signed nonce) 0x7F)
      ∧ (∀ (session : BitVec 8), sent (.heartbeat port session) (if (s.sessionAt port session.toNat).isSome then 0x68 else 0x7F))
      ∧ (∀ (seq : BitVec 16) last data, ((s.trust.chunk.find? fun c => c.1 == port).map (·.2.1)).getD 0 = seq.toNat →
        sent (.chunkSend port seq last data) 0x05)
      ∧ ∀ a, (s.trust.answers.find? fun a => a.1 == port) = some a → ∀ seq : BitVec 16, seq.toNat * chunkBytes < a.2.length →
        ∃ t, exec (.chunkGet port seq) s = .next t
          ∧ t.out = s.out ++ [.spdm port 0x06 (bytesOfNat 2 seq.toNat ++ (a.2.drop (seq.toNat * chunkBytes)).take chunkBytes)]
          ∧ framed [.out] [] s t)
    ∧ ∀ (fn : BitVec 6) (index : BitVec 8) (entry : BitVec 16),
      (s.doeServed = true →
        (∃ t, exec (.doeDiscovery fn index) s = .next t
          ∧ (let p := doeProtocols.getD index.toNat (0xFFFF, 0xFF);
            t.out = s.out ++ [.doe fn.toNat 0 (bytesOfNat 2 p.1 ++ [byteOf p.2, byteOf (if index.toNat < 3 then index.toNat + 1 else 0)])])
          ∧ framed [.out] [] s t)
        ∧ ∃ t body, exec (.cxlTableAccess fn entry) s = .next t ∧ t.out = s.out ++ [.doe fn.toNat 2 body] ∧ framed [.out] [] s t)
      ∧ (s.doeServed = false → exec (.doeDiscovery fn index) s = .next s ∧ exec (.cxlTableAccess fn entry) s = .next s)

/-- Sessions: KEY_EXCHANGE opens one with a free id while the port's limit allows; FINISH with the right proof establishes it and with a wrong one
ends it; KEY_UPDATE changes its key; END_SESSION ends it with its nonces; IDE_KM inside one sets a stream (R391, R393, R405). -/
def Obligations.SessionsLive : Prop :=
  ∀ (port : SpdmPort) (session : BitVec 8) (s : State), s.spdmServed port = true →
    let id := session.toNat
    let own := s.trust.sessions.filter fun x => x.port == port
    let gone := fun (t : State) => t.trust.sessions = s.trust.sessions.filter (fun x => !(x.port == port && x.id == id))
      ∧ ∀ n ∈ t.trust.nonces, ¬(n.port = port ∧ n.session = id)
    (∀ random exchange, s.pufFail = false → own.length < sessionLimit port → ∃ t x, exec (.keyExchange port random exchange) s = .next t
      ∧ t.trust.sessions = s.trust.sessions ++ [x] ∧ x.port = port ∧ x.established = false ∧ (∀ y ∈ own, y.id ≠ x.id)
      ∧ framed [.out, .trust, .freeCtr] [] s t)
    ∧ (∀ random exchange, s.pufFail = true ∨ sessionLimit port ≤ own.length → ∃ t, exec (.keyExchange port random exchange) s = .next t
      ∧ t.trust.sessions = s.trust.sessions ∧ framed [.out, .trust] [] s t)
    ∧ (∀ (proof : List Byte) (x : Session), (s.trust.sessions.find? fun x => x.port == port && x.id == id && !x.established) = some x →
      (Config.mac x.key.toNat [byteOf id] = proof → ∃ t, exec (.finish port session proof) s = .next t
        ∧ (t.sessionAt port id).isSome = true ∧ (∀ y ∈ t.trust.sessions, y.port = port → y.id = id → y.established = true)
        ∧ framed [.out, .trust] [] s t)
      ∧ (Config.mac x.key.toNat [byteOf id] ≠ proof → ∃ t, exec (.finish port session proof) s = .next t ∧ gone t ∧ framed [.out, .trust] [] s t))
    ∧ (∀ x, s.sessionAt port id = some x →
      (∀ op : BitVec 8, op = 1 ∨ op = 2 → ∃ t, exec (.keyUpdate port session op) s = .next t
        ∧ t.sessionAt port id = some { x with key := BitVec.ofNat 256 (Config.kdf x.key.toNat [byteOf op.toNat]), updates := x.updates + 1 }
        ∧ framed [.out, .trust] [] s t)
      ∧ ∃ t, exec (.endSession port session) s = .next t ∧ gone t ∧ framed [.out, .trust] [] s t)
    ∧ (s.sessionAt port id = none → ∃ t, exec (.endSession port session) s = .next t ∧ t.trust.sessions = s.trust.sessions
      ∧ framed [.out, .trust] [] s t)
    ∧ (port = .doe 0 → (s.sessionAt port id).isSome = true → ∀ (stream : BitVec 8) (secure : Bool), stream.toNat < 6 →
      ∃ t, exec (.ideKm session stream secure) s = .next t ∧ (stream.toNat, secure) ∈ t.trust.ideStreams
        ∧ (stream.toNat, !secure) ∉ t.trust.ideStreams
        ∧ (s.trust.ideStreams.filter (fun x => x.1 != stream.toNat)).all (fun x => t.trust.ideStreams.contains x) = true
        ∧ t.fld Reg.SEC_STATUS 28 28 = b2n ((List.range s.ideNeeded).all fun n => t.trust.ideStreams.contains (n, true))
        ∧ changesOnly (.trust :: eventParts) s t)

/-! ## Power -/

/-- PARK and P3 are accepted or refused by R449 and R450 and wait for the landing, UNPARK starts the self-test that UNPARK_COMPLETE ends, P4 waits
for the landing or is entered from P3, RST_GALLERY resets galleries out of service alone, PERST_N_DEASSERT ends P3: ticks run on, the key table is unsealed
where the identity and the owner allow it, and a stem with a page that cannot be read is FAILED (R387, R389, R449 to R451, R454; log entry 66). -/
def Obligations.PowerStatesRequested : Prop :=
  ∀ (mask : BitVec 8) (gal : BitVec 3) (s : State),
    let m := mask.toNat
    let gs := galsOf m
    let answered := fun (t : State) (st : Nat) => t.fld Reg.PWR_STATE_CTRL 7 0 = st
    let ctrl := [Reg.PWR_STATE_CTRL]
    let refused := fun (c : Instr) (st : Nat) => ∃ t, exec c s = .next t ∧ answered t st ∧ framed [.regs] ctrl s t
    let accepted := fun (c : Instr) (p : Power) => ∃ t, exec c s = .next t ∧ answered t St.ok ∧ t.pw = p ∧ framed [.pw, .regs] ctrl s t
    (s.parkStatus gs = St.ok → accepted (.park mask) { s.pw with parkQ := s.pw.parkQ ++ [.park m] })
    ∧ (s.parkStatus gs ≠ St.ok → refused (.park mask) St.busy)
    ∧ accepted (.unpark mask) { s.pw with unparking := s.pw.unparking ++ gs.filter fun g => s.galParked g && !s.pw.unparking.contains g }
    ∧ (∀ fails : List (BitVec 4 × BitVec 5), gal.toNat ∈ s.pw.unparking → ∃ t, exec (.unparkComplete gal fails) s = .next t
      ∧ t.pw = { s.pw with unparking := s.pw.unparking.filter (· != gal.toNat)
                           parkQ := s.pw.parkQ ++ [.unpark gal.toNat (fails.map fun f => (f.1.toNat, f.2.toNat))] }
      ∧ framed [.pw] [] s t)
    ∧ (∀ fails, gal.toNat ∉ s.pw.unparking → exec (.unparkComplete gal fails) s = .next s)
    ∧ (s.packageOff = true ∨ s.tk.running = false ∨ s.p3Status ≠ St.ok → refused .enterP3 St.busy)
    ∧ (s.packageOff = false → s.tk.running = true → s.p3Status = St.ok → accepted .enterP3 { s.pw with p3Due := true })
    ∧ (s.packageOff = true → exec .enterP4 s = .next s)
    ∧ (s.packageOff = false → s.updateOpen = true → refused .enterP4 St.busy)
    ∧ (s.packageOff = false → s.updateOpen = false → s.tk.running = true → accepted .enterP4 { s.pw with p4Due := true })
    ∧ (s.fld Reg.PWR_STATE 31 29 = 3 → s.updateOpen = false → s.tk.running = false → ∃ t, exec .enterP4 s = .next t
      ∧ t.fld Reg.PWR_STATE 31 29 = 4 ∧ t.pw.alertLow = false ∧ t.mem.hbm = [] ∧ t.mem.host = s.mem.host ∧ t.mem.flash = s.mem.flash
      ∧ t.pending = s.pending)
    ∧ ((∃ g ∈ gs, s.galFenced g = false ∧ s.galParked g = false) → ∃ t, exec (.rstGallery mask) s = .next t
      ∧ t.fld Reg.RST_GALLERY 7 0 = St.busy ∧ framed [.regs] [Reg.RST_GALLERY] s t)
    ∧ ((∀ g ∈ gs, s.galFenced g = true ∨ s.galParked g = true) → ∃ t, exec (.rstGallery mask) s = .next t
      ∧ t.fld Reg.RST_GALLERY 7 0 = St.ok ∧ changesOnly [.regs, .cal] s t
      ∧ ∀ g ∈ gs, ∀ k, 0x100000 * (g + 1) ≤ k → k < 0x100000 * (g + 2) → ∀ r, regLookup k = some r → r.dom = .gallery → t.reg k = regDefault k)
    ∧ (s.fld Reg.PWR_STATE 31 29 ≠ 3 → exec .perstNDeassert s = .next s)
    ∧ (s.fld Reg.PWR_STATE 31 29 = 3 → ∃ t, exec .perstNDeassert s = .next t ∧ t.tk.running = true ∧ t.tk.count = s.tk.count + 1
      ∧ t.pw.hallOn = true ∧ t.pw.hbmRefresh = false ∧ t.fld Reg.PWR_STATE 31 29 = (if s.fld Reg.PWR_STATE 23 16 ≠ 0 then 2 else 0)
      ∧ t.trust = s.wakeKeys.trust
      ∧ (s.sealOpen = true → ∀ c, s.sealedNow = some c → s.boot.cfg.isEmpty = false → c.owner = s.trust.owner → t.trust.keys = resumeAll c.keys)
      ∧ ((s.reg Reg.SEC_STATUS).bit 31 = true ∨ s.boot.cfg.isEmpty = true → t.trust.keys = [])
      ∧ (∀ k < 2, (s.stemAt k).state ≠ 0 → (∃ q ∈ s.faults.poison, ∃ slot proj, q.kind = .stemShard slot proj ∧ slot.toNat = k) → (t.stemAt k).state = 6)
      ∧ (s.faults.poison = [] → t.ls.stems = s.ls.stems)
      ∧ changesOnly ([.running, .tickCount, .trust, .pw, .jtag, .lex, .lexCopies, .reqs, .insts, .stems] ++ eventParts) s t)

/-- A feed that enters the state its voltage gives it shows it with its voltage, and one that is not active tells of a fall alone; a command of another state
changes nothing; the active feed's fall switches to a feed that is OK, counted and told of, or to one in WARN with the feed-warning cap; with no feed OK or
WARN the loss timer runs, and the feed that recovers is active; a REJECTED feed leaves that state by its release alone, at or below 58.0 V (R435 to R441, Table
16-2). -/
def Obligations.FeedsSwitch : Prop :=
  ∀ (feed : BitVec 1) (dv : BitVec 12) (s : State),
    let x := feed.toNat
    let o := 1 - x
    let v := dv.toNat
    let enters := fun (c : Instr) (st : Nat) (e : State → Prop) => ∃ t, exec c s = .next t ∧ t.feedState x = st
      ∧ t.feedState o = s.feedState o ∧ (if x = 0 then t.fld Reg.PWR_FEED_STATUS 23 12 else t.fld Reg.PWR_FEED_STATUS 11 0) = v
      ∧ framed (.pw :: eventParts) (Reg.PWR_FEED_STATUS :: Reg.PWR_FEED_COUNT :: eventRegs) s t ∧ e t
    let told := fun (t : State) (code : Nat) (payload : List Nat) => t.events = s.events ++ [⟨code, none, payload.map wordOf, []⟩]
    let fell := fun (t : State) (st : Nat) => if st < s.feedState x then told t 0x8001 [x, st, v] else t.events = s.events
    let stays := fun (t : State) => t.feedActive = s.feedActive ∧ t.fld Reg.PWR_FEED_COUNT 31 16 = s.fld Reg.PWR_FEED_COUNT 31 16
    let switched := fun (t : State) => t.feedActive = o ∧ t.pw.switchA = (o == 0) ∧ t.pw.switchB = (o == 1)
      ∧ t.fld Reg.PWR_FEED_COUNT 31 16 = satAdd 16 (s.fld Reg.PWR_FEED_COUNT 31 16) 1
    let capAsked := fun (t : State) => t.pw.warnReq = true ∨ t.pw.warnCap = some s.tk.now
    let capped := fun (t : State) => t.pw.warnReq = true ∨ t.pw.warnCap.isSome = true
    let level := s.feedFor x v
    (s.pw.lossTimer = false → s.feedState x ≠ 4 →
    (level = 2 →
      (s.feedActive ≠ x → enters (.feedEntersWarn feed dv) 2 fun t => fell t 2 ∧ stays t)
      ∧ (s.feedActive = x → s.feedState o = 3 → enters (.feedEntersWarn feed dv) 2 fun t => told t 0x8002 [x, o, 0] ∧ switched t)
      ∧ (s.feedActive = x → s.feedState o ≠ 3 → enters (.feedEntersWarn feed dv) 2 fun t => told t 0x8001 [x, 2, v] ∧ stays t ∧ capAsked t))
    ∧ (level = 1 →
      (s.feedActive ≠ x → enters (.feedEntersLow feed dv) 1 fun t => fell t 1 ∧ stays t ∧ (t.pw.lossTimer = !s.feedGood o))
      ∧ (s.feedActive = x → s.feedState o = 3 → enters (.feedEntersLow feed dv) 1 fun t => told t 0x8002 [x, o, 1] ∧ switched t)
      ∧ (s.feedActive = x → s.feedState o = 2 → enters (.feedEntersLow feed dv) 1 fun t => told t 0x8002 [x, o, 1] ∧ switched t ∧ capped t)
      ∧ (s.feedActive = x → s.feedGood o = false → enters (.feedEntersLow feed dv) 1 fun t => told t 0x8001 [x, 1, v] ∧ stays t ∧ t.pw.lossTimer = true))
    ∧ (level = 0 →
      (s.feedActive ≠ x → enters (.feedEntersAbsent feed dv) 0 fun t => t.events = s.events ∧ stays t ∧ (t.pw.lossTimer = !s.feedGood o))
      ∧ (s.feedActive = x → s.feedGood x = true → s.feedState o = 3 → enters (.feedEntersAbsent feed dv) 0 fun t => told t 0x8002 [x, o, 1] ∧ switched t)
      ∧ (s.feedActive = x → s.feedGood x = true → s.feedState o = 2 → enters (.feedEntersAbsent feed dv) 0 fun t => told t 0x8002 [x, o, 1] ∧ switched t ∧ capped t)
      ∧ (s.feedActive = x → s.feedGood x = true → s.feedGood o = false → enters (.feedEntersAbsent feed dv) 0 fun t =>
        told t 0x8001 [x, 0, v] ∧ stays t ∧ t.pw.lossTimer = true)
      ∧ (s.feedActive = x → s.feedGood x = false → enters (.feedEntersAbsent feed dv) 0 fun t => t.events = s.events ∧ stays t
        ∧ (t.pw.lossTimer = !s.feedGood o)))
    ∧ (level = 4 →
      (s.feedActive ≠ x → enters (.feedEntersRejected feed dv) 4 fun t => t.events = s.events ∧ stays t)
      ∧ (s.feedActive = x → s.feedState o ≠ 4 → enters (.feedEntersRejected feed dv) 4 fun t => told t 0x8004 [x, v] ∧ t.feedActive = o)
      ∧ (s.feedActive = x → s.feedState o = 4 → enters (.feedEntersRejected feed dv) 4 fun t => told t 0x8004 [x, v] ∧ t.feedActive = 2
        ∧ t.pw.switchA = false ∧ t.pw.switchB = false))
    ∧ (level = 3 → enters (.feedEntersOk feed dv) 3 fun t => t.events = s.events ∧ t.pw.lossTimer = false
      ∧ t.feedActive = (if s.feedActive = 2 then x else s.feedActive)))
    ∧ (∀ c ∈ [(2, Instr.feedEntersWarn feed dv), (1, .feedEntersLow feed dv), (0, .feedEntersAbsent feed dv), (4, .feedEntersRejected feed dv),
      (3, .feedEntersOk feed dv)], s.feedState x = 4 ∨ level ≠ c.1 → exec c.2 s = .next s)
    ∧ (s.feedState x ≠ 4 ∨ 580 < v → exec (.feedRejectRelease feed dv) s = .next s)
    ∧ (s.pw.lossTimer = false → s.feedState x = 4 → v ≤ 580 → enters (.feedRejectRelease feed dv) level fun t => t.events = s.events)
    ∧ (s.pw.lossTimer = true → s.feedState x ≠ 4 → level = 3 → ∃ t, exec (.feedEntersOk feed dv) s = .next t ∧ t.feedState x = 3 ∧ t.feedActive = x ∧ t.pw.lossTimer = false
      ∧ t.pw.switchA = (x == 0) ∧ t.pw.switchB = (x == 1))
    ∧ (let back := s.feedActive = 1 ∧ s.feedState 0 = 3 ∧ s.fld Reg.PWR_FEED_CTRL 0 0 = 0;
      (back → ∃ t, exec .feedReturn s = .next t ∧ t.pw = { s.pw with returnDue := true } ∧ framed [.pw] [] s t)
      ∧ (¬back → exec .feedReturn s = .next s))
    ∧ (∃ t, exec .feedForce s = .next t ∧ t.fld Reg.PWR_FEED_CTRL 0 0 = 1 ∧ framed [.regs] [Reg.PWR_FEED_CTRL] s t)
    ∧ (∀ at_, s.pw.warnCap = some at_ → at_ + secondUnits ≤ s.tk.now → s.mayStretch = true → ∃ t, exec .feedWarningCapEnd s = .next t
      ∧ t.pw = { s.pw with warnCap := none } ∧ framed [.pw, .regs, .bbx] eventRegs s t)
    ∧ (s.pw.warnCap = none ∨ s.mayStretch = false → exec .feedWarningCapEnd s = .next s)

/-- A power reading is shown with its count; a junction at or above the threshold starts the thermal cap's second with its event; a drive in use that
is removed or loses its link fails with its event, one that is inserted is not used, and a bad one is reported (R291, R292, R444, R447, R503). -/
def Obligations.ReadingsAndDrives : Prop :=
  ∀ s : State,
    (∀ avg25 max25 jmax : BitVec 8, ∀ die : BitVec 4, ∃ t, exec (.powerReadingUpdate avg25 max25 jmax die) s = .next t
      ∧ t.fld Reg.PWR_READING 31 24 = avg25.toNat ∧ t.fld Reg.PWR_READING 23 16 = max25.toNat
      ∧ t.fld Reg.PWR_READING 15 0 = (s.fld Reg.PWR_READING 15 0 + 1) % 65536 ∧ t.fld Reg.PWR_TEMP 31 24 = jmax.toNat
      ∧ t.fld Reg.PWR_TEMP 23 20 = die.toNat ∧ t.fld Reg.PWR_TEMP 15 8 = s.fld Reg.PWR_TEMP 15 8
      ∧ framed [.regs] [Reg.PWR_READING, Reg.PWR_TEMP] s t)
    ∧ (∀ (die : BitVec 4) (temp : BitVec 8),
      (temp.toNat < s.fld Reg.PWR_TEMP 15 8 → exec (.junctionAboveThr die temp) s = .next s)
      ∧ (s.fld Reg.PWR_TEMP 15 8 ≤ temp.toNat → ∃ t, exec (.junctionAboveThr die temp) s = .next t
        ∧ t.pw = { s.pw with thermal := some s.tk.now }
        ∧ t.events = s.events ++ [⟨0x8007, none, [wordOf die.toNat, wordOf temp.toNat], []⟩] ∧ framed (.pw :: eventParts) eventRegs s t))
    ∧ ∀ port : BitVec 3,
      let r := Reg.RES_DRIVE_STATUS port.toNat
      let fault := fun (t : State) (cause : Nat) => ∃ e, t.events = s.events ++ [e] ∧ e.code = 0x3006
        ∧ e.payload.take 2 = [wordOf port.toNat, wordOf cause]
      (∀ c ∈ [Instr.driveRemoved port, .driveLinkLost port],
        (s.fld r 31 30 = 1 → ∃ t, exec c s = .next t ∧ t.fld r 31 30 = 3 ∧ t.fld r 26 24 = 3 ∧ fault t 3
          ∧ framed (.freeCtr :: eventParts) (r :: eventRegs) s t)
        ∧ (s.fld r 31 30 ≠ 1 → exec c s = .next s))
      ∧ ∀ (identify : BitVec 2) (width : BitVec 3) (cap : BitVec 34),
        let cause := if width.toNat = 0 then 3 else if identify.toNat = 1 then 1 else if identify.toNat = 2 then 2 else 0
        (s.fld r 31 30 = 1 ∨ s.fld r 31 30 = 3 ∨ cause = 0 → exec (.driveInserted port identify width cap) s = .next s)
        ∧ (s.fld r 31 30 ≠ 1 → s.fld r 31 30 ≠ 3 → cause ≠ 0 → ∃ t, exec (.driveInserted port identify width cap) s = .next t
          ∧ t.fld r 31 30 = 2 ∧ t.fld r 26 24 = cause ∧ fault t cause ∧ framed (.freeCtr :: eventParts) (r :: eventRegs) s t)

/-! ## The black box, counters, registers -/

/-- BBX_RECORD_WRITTEN writes the oldest record to its place of the MRAM; one that fails its readback puts the black box in FAULT; BBX_INDEX and
BBX_DATA read a record back (R431, R432, R434).  Writes to counters, their owners, HOLD, the monitors and calibration wait for the landing, and
those of an index that the function does not own are dropped (R133, R481 to R489). -/
def Obligations.RecordsAndCountersWritten : Prop :=
  ∀ s : State,
    (∀ r rest, s.fld Reg.BBX_STATUS 31 30 = 1 → s.bbx.queue = r :: rest →
      (rest.length < 64 → ∃ t, exec (.bbxRecordWritten true) s = .next t
        ∧ memRead t.mem.mram (bbxOffset r.seq) (bbxBytes r).length = bbxBytes r
        ∧ sameOutside 0 [(bbxOffset r.seq, (bbxBytes r).length)] s.mem.mram t.mem.mram
        ∧ (s.bbx.lostMark = 0 → t.bbx.queue = rest) ∧ t.bbx.lostMark = 0 ∧ framed [.mram, .bbx, .regs] eventRegs s t)
      ∧ ∃ t, exec (.bbxRecordWritten false) s = .next t ∧ t.fld Reg.BBX_STATUS 31 30 = 3 ∧ t.bbx.queue = rest
        ∧ t.events = s.events ++ [⟨0x7030, none, [1], []⟩] ∧ sameOutside 0 [(bbxOffset r.seq, 256)] s.mem.mram t.mem.mram
        ∧ framed (.mram :: .freeCtr :: eventParts) eventRegs s t)
    ∧ (s.fld Reg.BBX_STATUS 31 30 ≠ 1 ∨ s.bbx.queue = [] → ∀ ok, exec (.bbxRecordWritten ok) s = .next s)
    ∧ (∀ index : BitVec 15, ∃ t, exec (.bbxIndexWrite index) s = .next t ∧ t.reg Reg.BBX_INDEX = wordOf index.toNat
      ∧ t.fld Reg.BBX_STATUS 0 0 = 0 ∧ t.bbx = { s.bbx with reading := true } ∧ framed [.bbx, .regs] [Reg.BBX_INDEX, Reg.BBX_STATUS] s t)
    ∧ (s.bbx.reading = true → s.fld Reg.BBX_STATUS 31 30 = 1 → ∃ t, exec .bbxDataReady s = .next t ∧ t.fld Reg.BBX_STATUS 0 0 = 1
      ∧ t.bbx = { s.bbx with reading := false } ∧ framed [.bbx, .regs] [Reg.BBX_STATUS] s t)
    ∧ (s.bbx.reading = false ∨ s.fld Reg.BBX_STATUS 31 30 ≠ 1 → exec .bbxDataReady s = .next s)
    ∧ (∀ fn : BitVec 6,
      let b := (s.cntSel fn.toNat).1
      let k := (s.cntSel fn.toNat).2
      let mine := (cntBlockExists b && s.ownsCounter fn.toNat k) = true
      (mine → ∀ r v, ∃ t, exec (.cntCfgWrite fn r v) s = .next t ∧ t.cnt = { s.cnt with writes := s.cnt.writes ++ ⟨b, k, some r, v⟩
          :: (if r = .cfg ∧ v.bit 27 then [⟨b, k, none, 0⟩] else []) } ∧ framed [.cnt] [] s t)
      ∧ (mine → ∃ t, exec (.cntClr fn) s = .next t ∧ t.cnt = { s.cnt with writes := s.cnt.writes ++ [⟨b, k, none, 0⟩] } ∧ framed [.cnt] [] s t)
      ∧ (¬mine → (∀ r v, exec (.cntCfgWrite fn r v) s = .next s) ∧ exec (.cntClr fn) s = .next s))
    ∧ (∀ (j : BitVec 2) (v : Word), ∃ t, exec (.cntOwnWrite j v) s = .next t
      ∧ t.cnt = { s.cnt with ownWrites := s.cnt.ownWrites ++ [(j.toNat, v)] } ∧ framed [.cnt] [] s t)
    ∧ (∀ hold, ∃ t, exec (.cntHold hold) s = .next t ∧ t.cnt = { s.cnt with holdDue := some hold } ∧ t.fld Reg.CNT_CTRL 31 31 = b2n hold
      ∧ framed [.cnt, .regs] [Reg.CNT_CTRL] s t)
    ∧ (∀ v, ∃ t, exec (.cntBwCfgWrite v) s = .next t ∧ t.cnt = { s.cnt with bwDue := some v } ∧ framed [.cnt] [] s t)
    ∧ ∀ (gal : BitVec 3) r v, ∃ t, exec (.calConfigWrite gal r v) s = .next t
      ∧ t.cal = { s.cal with writes := s.cal.writes ++ [(gal.toNat, r, v)] } ∧ framed [.cal] [] s t

/-- A read of a LO register answers it and latches its HI half for the function's next read; a virtual function reads 0 where the register is not its
own; a read of CNT_SNAP_TICK_LO latches the snapshot (R11, R328, R484).  A register write acts as the command of its register or of its doorbell page
does, or field by field; an offset that names no register a virtual function sees is ignored (R9, R328, R339, Table 0-3).  While the BARs are not
served no access reaches the device (R405, R456). -/
def Obligations.RegistersReadAndWritten : Prop :=
  ∀ (fn : BitVec 6) (s : State),
    let f := fn.toNat
    let reads := fun (c : Instr) (f : Nat) (lo hi v : Nat) => ∃ t, exec c s = .next t ∧ t.out = s.out ++ [.readData f lo (wordOf v)]
      ∧ t.latched f hi = some (wordOf (v / 0x100000000)) ∧ (∀ j, j ≠ regKey (f + 1) hi → t.latch.lookup j = s.latch.lookup j)
      ∧ framed [.latch, .out] [] s t
    let zero := fun (c : Instr) (lo : Nat) => ∃ t, exec c s = .next t ∧ t.out = s.out ++ [.readData f lo 0] ∧ framed [.out] [] s t
    (s.barServed = false → (∀ off v, exec (.registerWrite fn off v) s = .next s)
      ∧ (∀ c ∈ [Instr.tckCountLoRead fn, .devAcctCycLoRead fn, .errLastTickLoRead fn, .bbxSeqLoRead fn, .cntBwLoRead fn .tx, .cntBwLoRead fn .rx,
          .cntSnapTickLoRead fn], exec c s = .next s)
      ∧ (∀ n, exec (.devEngLoRead fn n) s = .next s) ∧ ∀ gal slot, exec (.galCalElemLoRead fn gal slot) s = .next s)
    ∧ (s.barServed = true →
    reads (.tckCountLoRead fn) f Reg.TCK_COUNT_LO Reg.TCK_COUNT_HI s.tk.count.toNat
    ∧ reads (.devAcctCycLoRead fn) f Reg.DEV_ACCT_CYC_LO Reg.DEV_ACCT_CYC_HI (s.acctView f)
    ∧ (fn = 0 → reads (.errLastTickLoRead fn) 0 Reg.ERR_LAST_TICK_LO Reg.ERR_LAST_TICK_HI (s.reg64 Reg.ERR_LAST_TICK_LO Reg.ERR_LAST_TICK_HI)
      ∧ reads (.bbxSeqLoRead fn) 0 Reg.BBX_SEQ_LO Reg.BBX_SEQ_HI s.bbx.nextSeq.toNat
      ∧ reads (.cntBwLoRead fn .tx) 0 Reg.CNT_BW_TX_LO Reg.CNT_BW_TX_HI s.bwAt.lastTx
      ∧ reads (.cntBwLoRead fn .rx) 0 Reg.CNT_BW_RX_LO Reg.CNT_BW_RX_HI s.bwAt.lastRx
      ∧ (∀ n : BitVec 6, reads (.devEngLoRead fn n) 0 (Reg.DEV_ENG_LO n.toNat) (Reg.DEV_ENG_HI n.toNat) (s.instAt n.toNat).eng)
      ∧ ∀ (gal : BitVec 3) (slot : BitVec 8),
        let lo := Reg.GAL_CAL_ELEM_LO gal.toNat slot.toNat
        let hi := Reg.GAL_CAL_ELEM_HI gal.toNat slot.toNat
        reads (.galCalElemLoRead fn gal slot) 0 lo hi (s.reg64 lo hi))
    ∧ (fn ≠ 0 → zero (.errLastTickLoRead fn) Reg.ERR_LAST_TICK_LO ∧ zero (.bbxSeqLoRead fn) Reg.BBX_SEQ_LO
      ∧ zero (.cntBwLoRead fn .tx) Reg.CNT_BW_TX_LO ∧ zero (.cntBwLoRead fn .rx) Reg.CNT_BW_RX_LO
      ∧ (∀ n : BitVec 6, n ≠ 0 → zero (.devEngLoRead fn n) (Reg.DEV_ENG_LO n.toNat))
      ∧ ∀ gal slot, zero (.galCalElemLoRead fn gal slot) (Reg.GAL_CAL_ELEM_LO gal.toNat slot.toNat))
    ∧ (∃ t, exec (.cntSnapTickLoRead fn) s = .next t ∧ t.out = s.out ++ [.readData f Reg.CNT_SNAP_TICK_LO (wordOf s.cnt.snapTick.toNat)]
      ∧ t.snapTickOf f = s.cnt.snapTick.toNat ∧ framed [.cnt, .out] [] s t)
    ∧ (∀ (off : BitVec 28) (v : Word), f ≠ 0 → doorbellAt f (off.toNat / 4 * 4) = none → vfOffset f (off.toNat / 4 * 4) = none →
      exec (.registerWrite fn off v) s = .next s)
    ∧ (∀ (off : BitVec 28) (v : Word) (page rest : Nat), doorbellAt f (off.toNat / 4 * 4) = some (page, rest) →
      (rest = 0 → exec (.registerWrite fn off v) s
        = exec (.doorbell fn (BitVec.ofNat 14 page) (BitVec.ofNat 16 (v.field 31 16)) (BitVec.ofNat 16 (v.field 15 0))) s)
      ∧ (rest = 8 → exec (.registerWrite fn off v) s = exec (.cqHeadWrite fn (BitVec.ofNat 14 page) (BitVec.ofNat 16 (v.field 15 0))) s)
      ∧ (rest ≠ 0 → rest ≠ 8 → exec (.registerWrite fn off v) s = .next s))
    ∧ (∀ (i : Nat) (off : BitVec 28) (v : Word), i < 6 → off.toNat = Reg.MGQ_ARG i → ∃ t, exec (.registerWrite fn off v) s = .next t
      ∧ t.regC (f + 1) (Reg.MGQ_ARG i) = v ∧ framed [.regs] [regKey (f + 1) (Reg.MGQ_ARG i)] s t)
    ∧ (∀ v : Word, exec (.registerWrite fn (BitVec.ofNat 28 Reg.WIN_HEARTBEAT) v) s = exec (.heartbeatWrite fn v) s)
    ∧ (fn = 0 → ∀ v : Word, exec (.registerWrite fn (BitVec.ofNat 28 Reg.SEC_ZEROISE) v) s = exec (.zeroise v) s
      ∧ exec (.registerWrite fn (BitVec.ofNat 28 Reg.RST_PACKAGE) v) s = exec (.rstPackage v) s
      ∧ exec (.registerWrite fn (BitVec.ofNat 28 Reg.TCK_SYNC_CTRL) v) s = exec (.tckSyncCtrlWrite v) s
      ∧ exec (.registerWrite fn (BitVec.ofNat 28 Reg.CNT_BW_CFG) v) s = exec (.cntBwCfgWrite v) s))

/-! ## The service port, updates, start-up -/

/-- The service port: ENTDAA gives an address and SCL held low takes it; with one, each message gets its one answer and changes only what it
sets; with none, no message does anything; JTAG_TRST and the JTAG instructions select their register (R470 to R472, R503, R506). -/
def Obligations.ServicePortAnswers : Prop :=
  ∀ s : State,
    let sent := fun (c : Instr) (code : Nat) (body : List Nat) => ∃ t, exec c s = .next t ∧ t.out = s.out ++ [.mctp code (body.map byteOf)]
      ∧ framed [.out] [] s t
    let someAnswer := fun (c : Instr) (code : Nat) => ∃ t body, exec c s = .next t ∧ t.out = s.out ++ [.mctp code body]
      ∧ framed [.out, .freeCtr] [] s t
    let jtag := fun (c : Instr) (j : Jtag) => ∃ t, exec c s = .next t ∧ t.jtag = j ∧ t.out = s.out ∧ framed [.jtag] [] s t
    (∀ a : BitVec 7, ∃ t, exec (.entdaa a) s = .next t ∧ t.svc = { s.svc with dynAddr := some a } ∧ framed [.svc] [] s t)
    ∧ (∃ t, exec .svcSclLowTimeout s = .next t ∧ t.svc = { s.svc with dynAddr := none } ∧ framed [.svc] [] s t)
    ∧ (s.svc.dynAddr = none → ∀ (b : BitVec 8) (cs : List (BitVec 16)) (z : Word) (i : BitVec 15),
      ∀ c ∈ [Instr.setEndpointId b, .getEndpointId, .getVersionSupport b, .getMessageTypeSupport, .getVendorDefinedMessageSupport b, .getTid,
        .setTid b, .getPldmVersion b, .getPldmTypes, .getPldmCommands b, .requestUpdate, .passComponentTable cs,
        .updateComponent 1 z, .requestFirmwareData z [], .activateFirmware, .status, .wake, .bbxRead i, .bbxInfo], exec c s = .next s)
    ∧ (s.svc.dynAddr.isSome = true →
      (∀ eid : BitVec 8, (eid ≠ 0 → eid ≠ 0xFF → ∃ t, exec (.setEndpointId eid) s = .next t ∧ t.svc = { s.svc with eid := eid }
          ∧ t.out = s.out ++ [.mctp 1 ([0, 0, eid.toNat, 0].map byteOf)] ∧ framed [.svc, .out] [] s t)
        ∧ (eid = 0 ∨ eid = 0xFF → sent (.setEndpointId eid) 1 [2, 0, s.svc.eid.toNat, 0]))
      ∧ sent .getEndpointId 2 [0, s.svc.eid.toNat, 0, 0]
      ∧ (∀ b, someAnswer (.getVersionSupport b) 4) ∧ (∀ b, someAnswer (.getVendorDefinedMessageSupport b) 6)
      ∧ sent .getMessageTypeSupport 5 ([0, s.messageTypes.length] ++ s.messageTypes)
      ∧ sent .getTid 0x10002 [0, s.svc.tid.toNat]
      ∧ (∀ tid : BitVec 8, (tid ≠ 0 → tid ≠ 0xFF → ∃ t, exec (.setTid tid) s = .next t ∧ t.svc = { s.svc with tid := tid }
          ∧ t.out = s.out ++ [.mctp 0x10001 ([0].map byteOf)] ∧ framed [.svc, .out] [] s t)
        ∧ (tid = 0 ∨ tid = 0xFF → sent (.setTid tid) 0x10001 [2]))
      ∧ (∀ b, someAnswer (.getPldmVersion b) 0x10003)
      ∧ sent .getPldmTypes 0x10004 [0, 0x21, 0, 0, 0, 0, 0, 0, 0]
      ∧ (∀ b, someAnswer (.getPldmCommands b) 0x10005)
      ∧ sent (.getPldmCommands 0) 0x10005 (0 :: commandMap [1, 2, 3, 4, 5])
      ∧ (∃ t, exec .status s = .next t ∧ t.out = s.out ++ [.mctp 0x7E0001 (0 :: ((s.reg Reg.PWR_STATE).bytes ++ (s.reg Reg.RST_STATUS).bytes
          ++ (s.reg Reg.DEV_BOOT_STATUS).bytes ++ (s.reg Reg.DEV_FW_VER).bytes))] ∧ framed [.out] [] s t)
      ∧ (∀ i : BitVec 15, s.fld Reg.BBX_STATUS 31 30 = 1 → ∃ t, exec (.bbxRead i) s = .next t
        ∧ t.out = s.out ++ [.mctp 0x7E0003 (0 :: memRead s.mem.mram (256 * i.toNat) 256)] ∧ framed [.out] [] s t)
      ∧ (s.pw.recovery = true → exec .bbxInfo s = .next s ∧ exec .wake s = .next s)
      ∧ (s.pw.recovery = false → someAnswer .bbxInfo 0x7E0004
        ∧ (s.fld Reg.PWR_STATE 31 29 = 3 → ∃ t, exec .wake s = .next t ∧ t.tk.running = true ∧ t.tk.count = s.tk.count + 1 ∧ t.pw.hallOn = true
          ∧ .mctp 0x7E0002 [0] ∈ t.out)
        ∧ (s.packageOff = true → ∃ t, exec .wake s = .next t ∧ t.svc = { s.svc with wakeReady := true }
          ∧ t.out = s.out ++ [.mctp 0x7E0002 [0]] ∧ framed [.svc, .out] [] s t)
        ∧ (s.fld Reg.PWR_STATE 31 29 ≠ 3 → s.packageOff = false → sent .wake 0x7E0002 [St.busy])))
    ∧ jtag .jtagTrst ⟨true, 1, false⟩ ∧ jtag .bypass ⟨false, 0, false⟩ ∧ jtag .samplePreload ⟨false, 2, false⟩
    ∧ (∃ t, exec .idcode s = .next t ∧ t.jtag = ⟨false, 1, false⟩ ∧ t.out = s.out ++ [.tdo 0x181607B7#32] ∧ framed [.jtag, .out] [] s t)
    ∧ (s.galleriesOff = true → jtag .extest ⟨false, 3, true⟩) ∧ (s.galleriesOff = false → jtag .extest ⟨false, 0, false⟩)

/-- An update: REQUEST_UPDATE opens it, PASS_COMPONENT_TABLE names its components, UPDATE_COMPONENT starts one, REQUEST_FIRMWARE_DATA stores its
bytes in the slot, VERIFY_COMPLETE checks it by Table 17-7, APPLY_COMPLETE ends it, ACTIVATE_FIRMWARE closes the update (R472 to R474). -/
def Obligations.UpdatesProceed : Prop :=
  ∀ s : State, s.svc.dynAddr.isSome = true →
    let upd := Reg.DEV_BOOT_STATUS :: eventRegs
    let told := fun (t : State) (c st code : Nat) => t.updateState = st ∧ t.events = s.events ++ [⟨0x9004, none, [c, st, code].map wordOf, []⟩]
    let parts := [.svc, .out] ++ eventParts
    (s.svc.updating = false → ∃ t, exec .requestUpdate s = .next t ∧ t.svc.updating = true ∧ t.svc.component = none ∧ t.svc.components = []
      ∧ t.out = s.out ++ [.mctp 0x10510 [0, 0, 0, 0]] ∧ framed [.svc, .out] [] s t)
    ∧ (s.svc.updating = true → ∃ t, exec .requestUpdate s = .next t ∧ t.out = s.out ++ [.mctp 0x10510 [0x81]] ∧ framed [.out] [] s t)
    ∧ (s.svc.updating = true → ∀ cs : List (BitVec 16), ∃ t body, exec (.passComponentTable cs) s = .next t
      ∧ t.svc = { s.svc with components := cs.map (·.toNat) } ∧ t.out = s.out ++ [.mctp 0x10513 body] ∧ framed [.svc, .out] [] s t)
    ∧ (s.svc.updating = true → s.updateState = 0 ∨ 3 < s.updateState → ∀ (c : BitVec 16) (size : Word), s.componentKnown c.toNat = true →
      c.toNat ∈ s.svc.components → 1 ≤ size.toNat → size.toNat ≤ (s.updateSlot c.toNat).2 → ∃ t, exec (.updateComponent c size) s = .next t
        ∧ t.svc = { s.svc with component := some c.toNat, size := size.toNat, received := [], verified := false, slot := (s.updateSlot c.toNat).1 }
        ∧ told t c.toNat 1 0 ∧ t.out = s.out ++ [.mctp 0x10514 [0, 0, 0]] ∧ framed parts upd s t)
    ∧ (∀ c (data : List Byte) (off : Word), s.svc.component = some c → s.updateState = 1 → off.toNat = s.svc.received.length →
      let at_ := s.svc.received.length
      let bs := data.take (s.svc.size - at_)
      ∃ t, exec (.requestFirmwareData off data) s = .next t ∧ t.svc = { s.svc with received := s.svc.received ++ bs }
        ∧ memRead t.mem.boot (s.svc.slot + at_) bs.length = bs ∧ sameOutside (s.svc.slot + at_) [(0, bs.length)] s.mem.boot t.mem.boot
        ∧ (at_ + bs.length < s.svc.size → framed [.svc, .bootMem] [] s t)
        ∧ (s.svc.size ≤ at_ + bs.length → told t c 2 0 ∧ t.out = s.out ++ [.mctp 0x10516 [0]] ∧ framed (.bootMem :: parts) upd s t))
    ∧ (∀ c, s.svc.component = some c → s.updateState = 2 →
      (s.componentOk c s.svc.received = true → ∃ t, exec .verifyComplete s = .next t ∧ told t c 3 0 ∧ t.svc = { s.svc with verified := true }
        ∧ t.out = s.out ++ [.mctp 0x10517 [0]] ∧ framed parts upd s t)
      ∧ (s.componentOk c s.svc.received = false → ∃ t, exec .verifyComplete s = .next t ∧ told t c 5 1
        ∧ t.svc = { s.svc with component := none } ∧ t.out = s.out ++ [.mctp 0x10517 [1]] ∧ framed parts upd s t))
    ∧ (∀ c, s.svc.component = some c → s.updateState = 3 → s.pw.recovery = false → ∃ t, exec .applyComplete s = .next t ∧ told t c 4 0
      ∧ t.svc = { s.svc with component := none } ∧ t.out = s.out ++ [.mctp 0x10518 [0]] ∧ framed parts upd s t)
    ∧ (s.svc.component = none → exec .verifyComplete s = .next s ∧ exec .applyComplete s = .next s)
    ∧ (s.svc.updating = true → s.svc.component = none → ∃ t, exec .activateFirmware s = .next t
      ∧ t.svc = { s.svc with updating := false, components := [], received := [] } ∧ t.out = s.out ++ [.mctp 0x1051A [0, 0, 0]]
      ∧ framed [.svc, .out] [] s t)

/-- START_UP where it may begin: with a firmware image that is a candidate, ticks run from 0 and the package is READY, or waits for its link; with none, or
no boot memory, recovery mode with every key cleared.  HOST_LINK_TRAINS, at a rate and a width of Table 12-1, shows the link and makes a package that waited for it READY (R326, R456,
R462, R474). -/
def Obligations.StartUpRuns : Prop :=
  ∀ s : State,
    (s.mayStart = false → ∀ obs, exec (.startUp obs) s = .next s)
    ∧ (s.mayStart = true → ∀ obs : StartObs,
      let s1 := s.keepFlights (((s.startSupplies.setFld Reg.RST_STATUS 31 28 2).bbxScan obs.mramOk obs.mramSmall).identity obs)
      (obs.bootPresent = false ∨ (s1.chooseFw s1.romMinSvn).1 = none → ∃ t, exec (.startUp obs) s = .next t ∧ t.pw.recovery = true ∧ t.tk.running = false
        ∧ t.fld Reg.RST_STATUS 31 28 = 2 ∧ (∀ n, t.keyAt n = KeySlot.empty) ∧ t.trust.copy0 = none ∧ t.trust.copy1 = none ∧ t.pending = s.pending)
      ∧ ∀ fw, obs.bootPresent = true → (s1.chooseFw s1.romMinSvn).1 = some fw → ∃ t, exec (.startUp obs) s = .next t
        ∧ t.tk.running = true ∧ t.tk.count = 0 ∧ t.fld Reg.RST_STATUS 31 28 = (if obs.linkUp then 7 else 6)
        ∧ (obs.linkUp = true → t.hs.linkUp = true ∧ t.pw.alertLow = false) ∧ t.pending = s.pending)
    ∧ ∀ (rate : BitVec 4) (width : BitVec 5) (cxl : Bool),
      let supported := (rate.toNat ∈ [1, 2, 3, 4, 5, 6]) ∧ width.toNat ∈ [1, 2, 4, 8, 16]
      (s.pw.hallOn = false ∨ s.pw.recovery = true ∨ ¬supported → exec (.hostLinkTrains rate width cxl) s = .next s)
      ∧ (s.pw.hallOn = true → s.pw.recovery = false → supported → ∃ t, exec (.hostLinkTrains rate width cxl) s = .next t ∧ t.hs.linkUp = true
        ∧ t.fld Reg.WIN_LINK 31 28 = rate.toNat ∧ t.fld Reg.WIN_LINK 27 23 = width.toNat ∧ t.fld Reg.WIN_LINK 22 22 = b2n cxl
        ∧ t.fld Reg.RST_STATUS 31 28 = (if s.fld Reg.RST_STATUS 31 28 = 6 then 7 else s.fld Reg.RST_STATUS 31 28)
        ∧ t.fld Reg.CLK_STATUS 30 30 = 1
        ∧ framed [.linkUp, .pw, .regs, .bbx] (Reg.WIN_LINK :: Reg.CLK_STATUS :: Reg.RST_STATUS :: eventRegs) s t)
end

