-- ==== Sys2Proof/Laws/Cipher.lean ====
section
/-! SUPPORT. What is sealed opens again: AES-256-GCM, and the segments of the fabric (R319, R320, R402). -/

namespace Sys2Proof.Machine

theorem xorBytes_length (as bs : List Byte) : (xorBytes as bs).length = as.length := by
  induction as generalizing bs with
  | nil => rfl
  | cons a as ih => simp [xorBytes, ih]

theorem xorBytes_twice (as bs : List Byte) : xorBytes (xorBytes as bs) bs = as := by
  induction as generalizing bs with
  | nil => rfl
  | cons a as ih => simp [xorBytes, ih]

theorem gcmStream_length (keys : List (List Byte)) (iv : List Byte) (n c : Nat) (bs : List Byte) (h : bs.length ≤ 16 * n) :
    (gcmStream keys iv n c bs).length = bs.length := by
  induction n generalizing c bs with
  | zero => simp [gcmStream]; omega
  | succ n ih =>
    simp only [gcmStream, List.length_append, xorBytes_length, List.length_take]
    rw [ih _ _ (by simp; omega), List.length_drop]
    omega

/-- Counter mode twice from one counter gives the bytes back. -/
theorem gcmStream_twice (keys : List (List Byte)) (iv : List Byte) (n c : Nat) (bs : List Byte) (h : bs.length ≤ 16 * n) :
    gcmStream keys iv n c (gcmStream keys iv n c bs) = bs := by
  induction n generalizing c bs with
  | zero =>
    have hb : bs = [] := List.eq_nil_of_length_eq_zero (by omega)
    rw [hb]
    rfl
  | succ n ih =>
    have hd : (bs.drop 16).length ≤ 16 * n := by simp; omega
    simp only [gcmStream]
    rcases Nat.lt_or_ge bs.length 16 with hs | hs
    · have hz : bs.drop 16 = [] := List.drop_eq_nil_of_le (by omega)
      have hr : gcmStream keys iv n (c + 1) [] = [] := List.eq_nil_of_length_eq_zero (by simpa using gcmStream_length keys iv n (c + 1) [] (by simp))
      have ht : bs.take 16 = bs := List.take_of_length_le (by omega)
      rw [hz, hr, List.append_nil, ht, List.take_of_length_le (by rw [xorBytes_length]; omega), xorBytes_twice,
        List.drop_eq_nil_of_le (by rw [xorBytes_length]; omega), hr, List.append_nil]
    · have hl : (xorBytes (bs.take 16) (aesBlock keys (iv ++ beBytes 4 c))).length = 16 := by rw [xorBytes_length]; simp; omega
      rw [List.take_left' hl, List.drop_left' hl, xorBytes_twice, ih _ _ hd, List.take_append_drop]

theorem le_ceilDiv (n k : Nat) (h : 0 < k) : n ≤ k * ceilDiv n k := by
  unfold ceilDiv
  have := Nat.div_add_mod (n + k - 1) k
  have := Nat.mod_lt (n + k - 1) h
  omega

/-- What is sealed opens under the same key, initialisation vector and additional data (R402). -/
theorem gcmOpen_gcmSeal (key iv aad pt : List Byte) : gcmOpen key iv aad (gcmSeal key iv aad pt).1 (gcmSeal key iv aad pt).2 = some pt := by
  have h := le_ceilDiv pt.length 16 (by omega)
  simp only [gcmOpen, gcmSeal, if_true, gcmCrypt]
  rw [gcmStream_length _ _ _ _ _ h, gcmStream_twice _ _ _ _ _ h]

/-- A segment opens as it was before it was sealed. -/
@[simp] theorem State.fabOpen_eq (s : State) (d : FabDesc) (fs : List FabSlot) (bs : List Byte) (k : Nat) :
    s.fabOpen d fs bs k = some (fabSegment d bs k).2.2 := by
  simp only [State.fabOpen, State.fabSeal]
  exact gcmOpen_gcmSeal _ _ _ _

theorem fabSegment_bytes (d : FabDesc) (bs : List Byte) (k : Nat) : (fabSegment d bs k).2.2 = (bs.drop (256 * k)).take 256 := by
  unfold fabSegment
  split <;> rfl

theorem take_chunks (bs : List Byte) (n : Nat) : ((List.range n).flatMap fun k => (bs.drop (256 * k)).take 256) = bs.take (256 * n) := by
  induction n with
  | zero => simp
  | succ n ih =>
    rw [List.range_succ, List.flatMap_append, ih, Nat.mul_add]
    simp [List.take_add]

/-- A transfer carries its bytes: what its receiver opens is what was sent (R319, R320). -/
@[simp] theorem State.fabCarried_eq (s : State) (d : FabDesc) (fs : List FabSlot) (bs : List Byte) : s.fabCarried d fs bs = bs := by
  unfold State.fabCarried
  simp only [State.fabOpen_eq, Option.getD_some, fabSegment_bytes, take_chunks]
  exact List.take_of_length_le (le_ceilDiv _ _ (by omega))

end Sys2Proof.Machine
end

