-- ==== Sys2Proof/Laws/Memory.lean ====
section
/-! SUPPORT. The laws of sparse maps and byte memories: a read after a write, the canonical form kept by every operation. -/

namespace Sys2Proof.Machine

variable {β : Type}

/-! ### A read after a write -/

theorem smGet_erase (d : Nat → β) (m : SMap β) (k j : Nat) : smGet d (smErase m k) j = if j = k then d k else smGet d m j := by
  induction m with
  | nil => by_cases h : j = k <;> simp [smErase, smGet, h]
  | cons p m ih =>
    have e : smErase (p :: m) k = if p.1 = k then smErase m k else p :: smErase m k := by
      by_cases h : p.1 = k <;> simp [smErase, h]
    rw [e]
    by_cases h : p.1 = k
    · rw [if_pos h, ih]
      by_cases hj : j = k
      · simp [hj]
      · rw [if_neg hj, if_neg hj]; simp [smGet, h, hj]
    · rw [if_neg h]
      by_cases hj : j = k
      · subst hj; rw [smGet, if_neg (fun x => h x.symm), ih, if_pos rfl, if_pos rfl]
      · simp only [smGet, ih, if_neg hj]

theorem smGet_insert (d : Nat → β) (m : SMap β) (k j : Nat) (v : β) :
    smGet d (smInsert m k v) j = if j = k then v else smGet d m j := by
  induction m with
  | nil => by_cases h : j = k <;> simp [smInsert, smGet, h]
  | cons p m ih =>
    simp only [smInsert]
    by_cases h : k = p.1
    · rw [if_pos h]; by_cases hj : j = k <;> simp [smGet, hj, ← h]
    · rw [if_neg h]
      by_cases hl : k < p.1
      · rw [if_pos hl]; simp only [smGet]
      · rw [if_neg hl]
        by_cases hj : j = k
        · subst hj; rw [smGet, if_neg h, ih, if_pos rfl, if_pos rfl]
        · simp only [smGet, ih, if_neg hj]

variable [DecidableEq β]

theorem smGet_set (d : Nat → β) (m : SMap β) (k j : Nat) (v : β) :
    smGet d (smSet d m k v) j = if j = k then v else smGet d m j := by
  unfold smSet
  by_cases h : v = d k
  · rw [if_pos h, smGet_erase, h]
  · rw [if_neg h, smGet_insert]

@[simp] theorem smGet_set_self (d : Nat → β) (m : SMap β) (k : Nat) (v : β) : smGet d (smSet d m k v) k = v := by
  rw [smGet_set, if_pos rfl]

theorem smGet_set_ne (d : Nat → β) (m : SMap β) {k j : Nat} (v : β) (h : j ≠ k) : smGet d (smSet d m k v) j = smGet d m j := by
  rw [smGet_set, if_neg h]

theorem memByte_put (m : Mem) (a c : Nat) (b : Byte) : memByte (memPut m a b) c = if c = a then b else memByte m c :=
  smGet_set _ _ _ _ _

omit [DecidableEq β] in
theorem smGet_append (d : Nat → β) (m n : SMap β) (k : Nat) :
    smGet d (m ++ n) k = if m.any (fun p => p.1 == k) then smGet d m k else smGet d n k := by
  induction m with
  | nil => rfl
  | cons p m ih =>
    by_cases h : k = p.1
    · simp [smGet, h]
    · have h' : (p.1 == k) = false := by simpa using fun x => h x.symm
      simp only [List.cons_append, smGet, if_neg h, ih, List.any_cons, h', Bool.false_or]

omit [DecidableEq β] in
theorem smGet_filter (d : Nat → β) (m : SMap β) (q : Nat → Bool) (k : Nat) :
    smGet d (m.filter fun p => q p.1) k = if q k then smGet d m k else d k := by
  induction m with
  | nil => simp [smGet]
  | cons p m ih =>
    by_cases hp : q p.1
    · rw [List.filter_cons_of_pos (by simpa using hp)]
      simp only [smGet]
      by_cases h : k = p.1
      · simp [h, hp]
      · rw [if_neg h, ih, if_neg h]
    · rw [List.filter_cons_of_neg (by simpa using hp), ih]
      by_cases h : k = p.1
      · subst h; simp [hp]
      · simp [smGet, h]

omit [DecidableEq β] in
theorem smGet_unlisted (d : Nat → β) (m : SMap β) (k : Nat) (h : (m.any fun p => p.1 == k) = false) : smGet d m k = d k := by
  induction m with
  | nil => rfl
  | cons p m ih =>
    simp only [List.any_cons, Bool.or_eq_false_iff, beq_eq_false_iff_ne] at h
    rw [smGet, if_neg (fun x => h.1 x.symm), ih h.2]

theorem cells_any (bs : List Byte) (a k : Nat) : ((cellsOf a bs).any fun p => p.1 == k) = true → a ≤ k ∧ k < a + bs.length := by
  induction bs generalizing a with
  | nil => simp [cellsOf]
  | cons b bs ih =>
    intro h
    by_cases hb : b = 0
    · rw [cellsOf, if_pos hb] at h
      have := ih (a + 1) h
      simp only [List.length_cons]
      omega
    · rw [cellsOf, if_neg hb, List.any_cons, Bool.or_eq_true] at h
      rcases h with h | h
      · simp only [beq_iff_eq] at h; simp only [List.length_cons]; omega
      · have := ih (a + 1) h
        simp only [List.length_cons]; omega

theorem smGet_cells (bs : List Byte) (a k : Nat) :
    smGet byteDefault (cellsOf a bs) k = if a ≤ k ∧ k < a + bs.length then bs.getD (k - a) 0 else 0 := by
  induction bs generalizing a with
  | nil =>
    rw [if_neg (by simp only [List.length_nil]; omega)]; rfl
  | cons b bs ih =>
    have tail : k ≠ a → smGet byteDefault (cellsOf (a + 1) bs) k =
        if a ≤ k ∧ k < a + (b :: bs).length then (b :: bs).getD (k - a) 0 else 0 := by
      intro h
      rw [ih]
      by_cases hr : a + 1 ≤ k ∧ k < a + 1 + bs.length
      · rw [if_pos hr, if_pos (by simp only [List.length_cons]; omega)]
        have : k - a = (k - (a + 1)) + 1 := by omega
        rw [this]; rfl
      · rw [if_neg hr, if_neg (by simp only [List.length_cons]; omega)]
    by_cases hk : k = a
    · subst hk
      rw [if_pos (by simp only [List.length_cons]; omega)]
      by_cases hb : b = 0
      · rw [cellsOf, if_pos hb, ih, if_neg (by omega)]; simp [hb]
      · rw [cellsOf, if_neg hb, smGet, if_pos rfl]; simp
    · by_cases hb : b = 0
      · rw [cellsOf, if_pos hb]; exact tail hk
      · rw [cellsOf, if_neg hb, smGet, if_neg hk]; exact tail hk

/-- A byte after a run of bytes is written: the run's byte within the run, what it was elsewhere. -/
theorem memByte_write (m : Mem) (a k : Nat) (bs : List Byte) :
    memByte (memWrite m a bs) k = if a ≤ k ∧ k < a + bs.length then bs.getD (k - a) 0 else memByte m k := by
  unfold memByte memWrite
  rw [List.append_assoc, smGet_append]
  have lo := smGet_filter byteDefault m (fun j => decide (j < a)) k
  have hi := smGet_filter byteDefault m (fun j => decide (a + bs.length ≤ j)) k
  have upper : ¬ k < a → smGet byteDefault (cellsOf a bs ++ m.filter fun p => decide (a + bs.length ≤ p.1)) k =
      if a ≤ k ∧ k < a + bs.length then bs.getD (k - a) 0 else smGet byteDefault m k := by
    intro hk
    rw [smGet_append, hi]
    by_cases hr : a ≤ k ∧ k < a + bs.length
    · rw [if_pos hr]
      by_cases hc : (cellsOf a bs).any fun p => p.1 == k
      · rw [if_pos hc, smGet_cells, if_pos hr]
      · rw [if_neg hc, if_neg (by simp only [decide_eq_true_eq]; omega)]
        have hc' : ((cellsOf a bs).any fun p => p.1 == k) = false := by simpa only [Bool.not_eq_true] using hc
        have h0 := smGet_unlisted byteDefault (cellsOf a bs) k hc'
        rw [smGet_cells, if_pos hr] at h0
        exact h0.symm
    · rw [if_neg hr]
      rw [if_neg (fun h => hr (cells_any bs a k h)), if_pos (by simp only [decide_eq_true_eq]; omega)]
  by_cases hk : k < a
  · rw [if_neg (by omega : ¬ (a ≤ k ∧ k < a + bs.length))]
    by_cases hl : (m.filter fun p => decide (p.1 < a)).any fun p => p.1 == k
    · rw [if_pos hl, lo, if_pos (by simpa using hk)]
    · have hl' : ((m.filter fun p => decide (p.1 < a)).any fun p => p.1 == k) = false := by simpa only [Bool.not_eq_true] using hl
      have h0 := smGet_unlisted byteDefault _ k hl'
      rw [lo, if_pos (by simpa using hk)] at h0
      rw [if_neg hl, smGet_append, if_neg (fun h => by have := cells_any bs a k h; omega), hi,
        if_neg (by simp only [decide_eq_true_eq]; omega)]
      exact h0.symm
  · rw [if_neg, upper hk]
    intro h
    simp only [List.any_filter, List.any_eq_true, Bool.and_eq_true, decide_eq_true_eq, beq_iff_eq] at h
    obtain ⟨p, -, h1, h2⟩ := h
    omega

/-- Outside the written run a byte is what it was. -/
theorem memByte_write_out (m : Mem) (a k : Nat) (bs : List Byte) (h : k < a ∨ a + bs.length ≤ k) :
    memByte (memWrite m a bs) k = memByte m k := by
  rw [memByte_write, if_neg (by omega)]

theorem memByte_zero (m : Mem) (a n k : Nat) : memByte (memZero m a n) k = if a ≤ k ∧ k < a + n then 0 else memByte m k := by
  have e : memZero m a n = m.filter fun p => (fun j => decide (j < a) || decide (a + n ≤ j)) p.1 := rfl
  unfold memByte
  rw [e, smGet_filter byteDefault m (fun j => decide (j < a) || decide (a + n ≤ j)) k]
  by_cases h : a ≤ k ∧ k < a + n
  · rw [if_pos h, if_neg (by simp only [Bool.or_eq_true, decide_eq_true_eq]; omega)]; rfl
  · rw [if_neg h, if_pos (by simp only [Bool.or_eq_true, decide_eq_true_eq]; omega)]

/-- The array that `memRead` fills, of a map that was read so far. -/
theorem memRead_size (m : Mem) (a n : Nat) :
    (m.foldr (fun p out => if a ≤ p.1 ∧ p.1 < a + n then Array.set! out (p.1 - a) p.2 else out) (Array.replicate n (0 : Byte))).size = n := by
  induction m with
  | nil => simp
  | cons p m ih =>
    rw [List.foldr_cons]
    split
    · simp only [Array.set!_eq_setIfInBounds, Array.size_setIfInBounds]; exact ih
    · exact ih

@[simp] theorem memRead_length (m : Mem) (a n : Nat) : (memRead m a n).length = n := by
  unfold memRead
  rw [Array.length_toList]
  exact memRead_size m a n

/-- Each byte of a run that is read. -/
theorem memRead_get (m : Mem) (a n i : Nat) (h : i < n) : (memRead m a n)[i]? = some (memByte m (a + i)) := by
  unfold memRead memByte
  rw [Array.getElem?_toList]
  induction m with
  | nil => simp [smGet, byteDefault, h]
  | cons p m ih =>
    rw [List.foldr_cons]
    by_cases hp : a ≤ p.1 ∧ p.1 < a + n
    · rw [if_pos hp, Array.set!_eq_setIfInBounds]
      by_cases hi : a + i = p.1
      · have : p.1 - a = i := by omega
        rw [this, Array.getElem?_setIfInBounds_self_of_lt (by rw [memRead_size]; exact h), smGet, if_pos hi]
      · rw [Array.getElem?_setIfInBounds_ne (by omega), ih, smGet, if_neg hi]
    · rw [if_neg hp, ih, smGet, if_neg (by omega)]

/-- A run read back from where it was written. -/
theorem memRead_write (m : Mem) (a : Nat) (bs : List Byte) : memRead (memWrite m a bs) a bs.length = bs := by
  apply List.ext_getElem?
  intro i
  by_cases h : i < bs.length
  · rw [memRead_get _ _ _ _ h, memByte_write, if_pos (by omega)]
    simp [h]
  · rw [List.getElem?_eq_none (by simp; omega), List.getElem?_eq_none (by omega)]

/-! ### The canonical form -/

omit [DecidableEq β] in
/-- Keys strictly rising and no default listed, as a pairwise statement. -/
theorem pairwise_tail {p : Nat × β} {m : SMap β} (h : (p :: m).Pairwise fun x y => x.1 < y.1) : m.Pairwise fun x y => x.1 < y.1 :=
  (List.pairwise_cons.mp h).2

theorem smWf_iff (d : Nat → β) (m : SMap β) :
    smWf d m = true ↔ (m.Pairwise fun x y => x.1 < y.1) ∧ ∀ p ∈ m, p.2 ≠ d p.1 := by
  induction m with
  | nil => simp [smWf]
  | cons p m ih =>
    cases m with
    | nil => simp [smWf]
    | cons q m =>
      obtain ⟨k, v⟩ := p
      obtain ⟨k', v'⟩ := q
      rw [smWf, Bool.and_eq_true, Bool.and_eq_true, ih, List.pairwise_cons (a := (k, v))]
      simp only [decide_eq_true_eq]
      constructor
      · rintro ⟨⟨hk, hv⟩, hs, hd⟩
        refine ⟨⟨fun x hx => ?_, hs⟩, fun x hx => ?_⟩
        · rcases List.mem_cons.mp hx with rfl | hx
          · exact hk
          · exact Nat.lt_trans hk ((List.pairwise_cons.mp hs).1 x hx)
        · rcases List.mem_cons.mp hx with rfl | hx
          · exact hv
          · exact hd x hx
      · rintro ⟨⟨hl, hs⟩, hd⟩
        exact ⟨⟨hl _ (List.mem_cons_self ..), hd _ (List.mem_cons_self ..)⟩, hs, fun x hx => hd x (List.mem_cons_of_mem _ hx)⟩

theorem smWf_filter (d : Nat → β) (m : SMap β) (q : Nat × β → Bool) (h : smWf d m = true) : smWf d (m.filter q) = true := by
  rw [smWf_iff] at h ⊢
  exact ⟨h.1.sublist List.filter_sublist, fun p hp => h.2 p (List.mem_of_mem_filter hp)⟩

omit [DecidableEq β] in
theorem smInsert_mem (m : SMap β) (k : Nat) (v : β) (p : Nat × β) (h : p ∈ smInsert m k v) : p = (k, v) ∨ p ∈ m := by
  induction m with
  | nil => simpa [smInsert] using h
  | cons q m ih =>
    obtain ⟨k', v'⟩ := q
    rw [smInsert] at h
    split at h
    · rcases List.mem_cons.mp h with h | h
      · exact .inl h
      · exact .inr (List.mem_cons_of_mem _ h)
    · split at h
      · rcases List.mem_cons.mp h with h | h
        · exact .inl h
        · exact .inr h
      · rcases List.mem_cons.mp h with h | h
        · exact .inr (h ▸ List.mem_cons_self ..)
        · rcases ih h with h | h
          · exact .inl h
          · exact .inr (List.mem_cons_of_mem _ h)

theorem smWf_insert (d : Nat → β) (m : SMap β) (k : Nat) (v : β) (h : smWf d m = true) (hv : v ≠ d k) :
    smWf d (smInsert m k v) = true := by
  rw [smWf_iff] at h ⊢
  refine ⟨?_, fun p hp => ?_⟩
  · obtain ⟨hs, -⟩ := h
    induction m with
    | nil => simp [smInsert]
    | cons q m ih =>
      obtain ⟨k', v'⟩ := q
      obtain ⟨hl, ht⟩ := List.pairwise_cons.mp hs
      rw [smInsert]
      split
      · rename_i e
        exact List.pairwise_cons.mpr ⟨fun x hx => e ▸ hl x hx, ht⟩
      · split
        · rename_i e
          refine List.pairwise_cons.mpr ⟨fun x hx => ?_, hs⟩
          rcases List.mem_cons.mp hx with rfl | hx
          · exact e
          · exact Nat.lt_trans e (hl x hx)
        · refine List.pairwise_cons.mpr ⟨fun x hx => ?_, ih ht⟩
          rcases smInsert_mem m k v x hx with rfl | hx
          · simp only; omega
          · exact hl x hx
  · rcases smInsert_mem m k v p hp with rfl | hp
    · exact hv
    · exact h.2 p hp

theorem smWf_set (d : Nat → β) (m : SMap β) (k : Nat) (v : β) (h : smWf d m = true) : smWf d (smSet d m k v) = true := by
  unfold smSet
  split
  · exact smWf_filter d m _ h
  · exact smWf_insert d m k v h ‹_›

theorem memPut_wf (m : Mem) (a : Nat) (b : Byte) (h : Memory.wf m = true) : Memory.wf (memPut m a b) = true :=
  smWf_set byteDefault m a b h

theorem memZero_wf (m : Mem) (a n : Nat) (h : Memory.wf m = true) : Memory.wf (memZero m a n) = true :=
  smWf_filter byteDefault m _ h

theorem cells_mem (bs : List Byte) (a : Nat) (p : Nat × Byte) (h : p ∈ cellsOf a bs) : a ≤ p.1 ∧ p.1 < a + bs.length ∧ p.2 ≠ 0 := by
  induction bs generalizing a with
  | nil => simp [cellsOf] at h
  | cons b bs ih =>
    by_cases hb : b = 0
    · rw [cellsOf, if_pos hb] at h
      obtain ⟨h1, h2, h3⟩ := ih (a + 1) h
      simp only [List.length_cons]
      exact ⟨by omega, by omega, h3⟩
    · rw [cellsOf, if_neg hb] at h
      rcases List.mem_cons.mp h with rfl | h
      · exact ⟨Nat.le_refl _, by simp only [List.length_cons]; omega, hb⟩
      · obtain ⟨h1, h2, h3⟩ := ih (a + 1) h
        simp only [List.length_cons]
        exact ⟨by omega, by omega, h3⟩

theorem cells_sorted (bs : List Byte) (a : Nat) : (cellsOf a bs).Pairwise fun x y => x.1 < y.1 := by
  induction bs generalizing a with
  | nil => simp [cellsOf]
  | cons b bs ih =>
    by_cases hb : b = 0
    · rw [cellsOf, if_pos hb]; exact ih _
    · rw [cellsOf, if_neg hb]
      exact List.pairwise_cons.mpr ⟨fun x hx => (cells_mem bs (a + 1) x hx).1, ih _⟩

/-- Three runs of cells, each in canonical form and below the next. -/
theorem smWf_three (x y z : Mem) (lo hi : Nat) (hx : Memory.wf x = true) (hy : (y.Pairwise fun p q => p.1 < q.1) ∧ ∀ p ∈ y, p.2 ≠ 0)
    (hz : Memory.wf z = true) (bx : ∀ p ∈ x, p.1 < lo) (by' : ∀ p ∈ y, lo ≤ p.1 ∧ p.1 < hi) (bz : ∀ p ∈ z, hi ≤ p.1) (hl : lo ≤ hi) :
    Memory.wf (x ++ y ++ z) = true := by
  unfold Memory.wf at *
  rw [smWf_iff] at hx hz ⊢
  refine ⟨List.pairwise_append.mpr ⟨List.pairwise_append.mpr ⟨hx.1, hy.1, fun p hp q hq => ?_⟩, hz.1, fun p hp q hq => ?_⟩, fun p hp => ?_⟩
  · have := bx p hp; have := by' q hq; omega
  · have := bz q hq
    rcases List.mem_append.mp hp with hp | hp
    · have := bx p hp; omega
    · have := by' p hp; omega
  · rcases List.mem_append.mp hp with hp | hp
    · rcases List.mem_append.mp hp with hp | hp
      · exact hx.2 p hp
      · exact hy.2 p hp
    · exact hz.2 p hp

theorem memWrite_wf (m : Mem) (a : Nat) (bs : List Byte) (h : Memory.wf m = true) : Memory.wf (memWrite m a bs) = true := by
  refine smWf_three _ _ _ a (a + bs.length) (smWf_filter byteDefault m _ h) ⟨cells_sorted bs a, fun p hp => (cells_mem bs a p hp).2.2⟩
    (smWf_filter byteDefault m _ h) (fun p hp => ?_) (fun p hp => ⟨(cells_mem bs a p hp).1, (cells_mem bs a p hp).2.1⟩) (fun p hp => ?_)
    (by omega)
  · simpa using (List.mem_filter.mp hp).2
  · simpa using (List.mem_filter.mp hp).2

theorem memPutWord_wf (m : Mem) (a : Nat) (w : Word) (h : Memory.wf m = true) : Memory.wf (memPutWord m a w) = true :=
  memWrite_wf m a w.bytes h

theorem memCopy_wf (m : Mem) (a b n : Nat) (h : Memory.wf m = true) : Memory.wf (memCopy m a b n) = true := by
  have hr := (smWf_iff byteDefault m).mp h
  refine smWf_three _ _ _ b (b + n) (smWf_filter byteDefault m _ h) ⟨?_, fun p hp => ?_⟩
    (smWf_filter byteDefault m _ h) (fun p hp => ?_) (fun p hp => ?_) (fun p hp => ?_) (by omega)
  · rw [List.pairwise_map]
    refine (hr.1.sublist (List.filter_sublist (p := fun p : Nat × Byte => decide (a ≤ p.1 ∧ p.1 < a + n)))).imp_of_mem
      (fun {p q} hp hq hlt => ?_)
    have hp' := (List.mem_filter.mp hp).2
    have hq' := (List.mem_filter.mp hq).2
    simp only [decide_eq_true_eq] at hp' hq'
    simp only
    omega
  · obtain ⟨q, hq, rfl⟩ := List.mem_map.mp hp
    exact hr.2 q (List.mem_of_mem_filter hq)
  · simpa using (List.mem_filter.mp hp).2
  · obtain ⟨q, hq, rfl⟩ := List.mem_map.mp hp
    have hq' := (List.mem_filter.mp hq).2
    simp only [decide_eq_true_eq] at hq'
    simp only
    omega
  · simpa using (List.mem_filter.mp hp).2

end Sys2Proof.Machine
end

