-- ==== Sys2Proof/Laws/State.lean ====
section
/-! SUPPORT. One lemma per field per update of the state, and what each update's own reader answers after it. -/

namespace Sys2Proof.Machine

variable (s : State)


/-! ### setRegC -/

@[simp] theorem State.setRegC_pending (c off : Nat) (v : Word) : (s.setRegC c off v).pending = s.pending := rfl
@[simp] theorem State.setRegC_latch (c off : Nat) (v : Word) : (s.setRegC c off v).latch = s.latch := rfl
@[simp] theorem State.setRegC_regWrites (c off : Nat) (v : Word) : (s.setRegC c off v).regWrites = s.regWrites := rfl
@[simp] theorem State.setRegC_mem (c off : Nat) (v : Word) : (s.setRegC c off v).mem = s.mem := rfl
@[simp] theorem State.setRegC_flights (c off : Nat) (v : Word) : (s.setRegC c off v).flights = s.flights := rfl
@[simp] theorem State.setRegC_tk (c off : Nat) (v : Word) : (s.setRegC c off v).tk = s.tk := rfl
@[simp] theorem State.setRegC_sync (c off : Nat) (v : Word) : (s.setRegC c off v).sync = s.sync := rfl
@[simp] theorem State.setRegC_events (c off : Nat) (v : Word) : (s.setRegC c off v).events = s.events := rfl
@[simp] theorem State.setRegC_evCount (c off : Nat) (v : Word) : (s.setRegC c off v).evCount = s.evCount := rfl
@[simp] theorem State.setRegC_out (c off : Nat) (v : Word) : (s.setRegC c off v).out = s.out := rfl
@[simp] theorem State.setRegC_hs (c off : Nat) (v : Word) : (s.setRegC c off v).hs = s.hs := rfl
@[simp] theorem State.setRegC_ls (c off : Nat) (v : Word) : (s.setRegC c off v).ls = s.ls := rfl
@[simp] theorem State.setRegC_insts (c off : Nat) (v : Word) : (s.setRegC c off v).insts = s.insts := rfl
@[simp] theorem State.setRegC_images (c off : Nat) (v : Word) : (s.setRegC c off v).images = s.images := rfl
@[simp] theorem State.setRegC_trust (c off : Nat) (v : Word) : (s.setRegC c off v).trust = s.trust := rfl
@[simp] theorem State.setRegC_boot (c off : Nat) (v : Word) : (s.setRegC c off v).boot = s.boot := rfl
@[simp] theorem State.setRegC_svc (c off : Nat) (v : Word) : (s.setRegC c off v).svc = s.svc := rfl
@[simp] theorem State.setRegC_jtag (c off : Nat) (v : Word) : (s.setRegC c off v).jtag = s.jtag := rfl
@[simp] theorem State.setRegC_faults (c off : Nat) (v : Word) : (s.setRegC c off v).faults = s.faults := rfl
@[simp] theorem State.setRegC_bbx (c off : Nat) (v : Word) : (s.setRegC c off v).bbx = s.bbx := rfl
@[simp] theorem State.setRegC_pw (c off : Nat) (v : Word) : (s.setRegC c off v).pw = s.pw := rfl
@[simp] theorem State.setRegC_cnt (c off : Nat) (v : Word) : (s.setRegC c off v).cnt = s.cnt := rfl
@[simp] theorem State.setRegC_cal (c off : Nat) (v : Word) : (s.setRegC c off v).cal = s.cal := rfl
@[simp] theorem State.setRegC_freeCtr (c off : Nat) (v : Word) : (s.setRegC c off v).freeCtr = s.freeCtr := rfl

/-! ### setReg -/

@[simp] theorem State.setReg_pending (off : Nat) (v : Word) : (s.setReg off v).pending = s.pending := rfl
@[simp] theorem State.setReg_latch (off : Nat) (v : Word) : (s.setReg off v).latch = s.latch := rfl
@[simp] theorem State.setReg_regWrites (off : Nat) (v : Word) : (s.setReg off v).regWrites = s.regWrites := rfl
@[simp] theorem State.setReg_mem (off : Nat) (v : Word) : (s.setReg off v).mem = s.mem := rfl
@[simp] theorem State.setReg_flights (off : Nat) (v : Word) : (s.setReg off v).flights = s.flights := rfl
@[simp] theorem State.setReg_tk (off : Nat) (v : Word) : (s.setReg off v).tk = s.tk := rfl
@[simp] theorem State.setReg_sync (off : Nat) (v : Word) : (s.setReg off v).sync = s.sync := rfl
@[simp] theorem State.setReg_events (off : Nat) (v : Word) : (s.setReg off v).events = s.events := rfl
@[simp] theorem State.setReg_evCount (off : Nat) (v : Word) : (s.setReg off v).evCount = s.evCount := rfl
@[simp] theorem State.setReg_out (off : Nat) (v : Word) : (s.setReg off v).out = s.out := rfl
@[simp] theorem State.setReg_hs (off : Nat) (v : Word) : (s.setReg off v).hs = s.hs := rfl
@[simp] theorem State.setReg_ls (off : Nat) (v : Word) : (s.setReg off v).ls = s.ls := rfl
@[simp] theorem State.setReg_insts (off : Nat) (v : Word) : (s.setReg off v).insts = s.insts := rfl
@[simp] theorem State.setReg_images (off : Nat) (v : Word) : (s.setReg off v).images = s.images := rfl
@[simp] theorem State.setReg_trust (off : Nat) (v : Word) : (s.setReg off v).trust = s.trust := rfl
@[simp] theorem State.setReg_boot (off : Nat) (v : Word) : (s.setReg off v).boot = s.boot := rfl
@[simp] theorem State.setReg_svc (off : Nat) (v : Word) : (s.setReg off v).svc = s.svc := rfl
@[simp] theorem State.setReg_jtag (off : Nat) (v : Word) : (s.setReg off v).jtag = s.jtag := rfl
@[simp] theorem State.setReg_faults (off : Nat) (v : Word) : (s.setReg off v).faults = s.faults := rfl
@[simp] theorem State.setReg_bbx (off : Nat) (v : Word) : (s.setReg off v).bbx = s.bbx := rfl
@[simp] theorem State.setReg_pw (off : Nat) (v : Word) : (s.setReg off v).pw = s.pw := rfl
@[simp] theorem State.setReg_cnt (off : Nat) (v : Word) : (s.setReg off v).cnt = s.cnt := rfl
@[simp] theorem State.setReg_cal (off : Nat) (v : Word) : (s.setReg off v).cal = s.cal := rfl
@[simp] theorem State.setReg_freeCtr (off : Nat) (v : Word) : (s.setReg off v).freeCtr = s.freeCtr := rfl

/-! ### setFld -/

@[simp] theorem State.setFld_pending (off hi lo v : Nat) : (s.setFld off hi lo v).pending = s.pending := rfl
@[simp] theorem State.setFld_latch (off hi lo v : Nat) : (s.setFld off hi lo v).latch = s.latch := rfl
@[simp] theorem State.setFld_regWrites (off hi lo v : Nat) : (s.setFld off hi lo v).regWrites = s.regWrites := rfl
@[simp] theorem State.setFld_mem (off hi lo v : Nat) : (s.setFld off hi lo v).mem = s.mem := rfl
@[simp] theorem State.setFld_flights (off hi lo v : Nat) : (s.setFld off hi lo v).flights = s.flights := rfl
@[simp] theorem State.setFld_tk (off hi lo v : Nat) : (s.setFld off hi lo v).tk = s.tk := rfl
@[simp] theorem State.setFld_sync (off hi lo v : Nat) : (s.setFld off hi lo v).sync = s.sync := rfl
@[simp] theorem State.setFld_events (off hi lo v : Nat) : (s.setFld off hi lo v).events = s.events := rfl
@[simp] theorem State.setFld_evCount (off hi lo v : Nat) : (s.setFld off hi lo v).evCount = s.evCount := rfl
@[simp] theorem State.setFld_out (off hi lo v : Nat) : (s.setFld off hi lo v).out = s.out := rfl
@[simp] theorem State.setFld_hs (off hi lo v : Nat) : (s.setFld off hi lo v).hs = s.hs := rfl
@[simp] theorem State.setFld_ls (off hi lo v : Nat) : (s.setFld off hi lo v).ls = s.ls := rfl
@[simp] theorem State.setFld_insts (off hi lo v : Nat) : (s.setFld off hi lo v).insts = s.insts := rfl
@[simp] theorem State.setFld_images (off hi lo v : Nat) : (s.setFld off hi lo v).images = s.images := rfl
@[simp] theorem State.setFld_trust (off hi lo v : Nat) : (s.setFld off hi lo v).trust = s.trust := rfl
@[simp] theorem State.setFld_boot (off hi lo v : Nat) : (s.setFld off hi lo v).boot = s.boot := rfl
@[simp] theorem State.setFld_svc (off hi lo v : Nat) : (s.setFld off hi lo v).svc = s.svc := rfl
@[simp] theorem State.setFld_jtag (off hi lo v : Nat) : (s.setFld off hi lo v).jtag = s.jtag := rfl
@[simp] theorem State.setFld_faults (off hi lo v : Nat) : (s.setFld off hi lo v).faults = s.faults := rfl
@[simp] theorem State.setFld_bbx (off hi lo v : Nat) : (s.setFld off hi lo v).bbx = s.bbx := rfl
@[simp] theorem State.setFld_pw (off hi lo v : Nat) : (s.setFld off hi lo v).pw = s.pw := rfl
@[simp] theorem State.setFld_cnt (off hi lo v : Nat) : (s.setFld off hi lo v).cnt = s.cnt := rfl
@[simp] theorem State.setFld_cal (off hi lo v : Nat) : (s.setFld off hi lo v).cal = s.cal := rfl
@[simp] theorem State.setFld_freeCtr (off hi lo v : Nat) : (s.setFld off hi lo v).freeCtr = s.freeCtr := rfl

/-! ### setFldC -/

@[simp] theorem State.setFldC_pending (c off hi lo v : Nat) : (s.setFldC c off hi lo v).pending = s.pending := rfl
@[simp] theorem State.setFldC_latch (c off hi lo v : Nat) : (s.setFldC c off hi lo v).latch = s.latch := rfl
@[simp] theorem State.setFldC_regWrites (c off hi lo v : Nat) : (s.setFldC c off hi lo v).regWrites = s.regWrites := rfl
@[simp] theorem State.setFldC_mem (c off hi lo v : Nat) : (s.setFldC c off hi lo v).mem = s.mem := rfl
@[simp] theorem State.setFldC_flights (c off hi lo v : Nat) : (s.setFldC c off hi lo v).flights = s.flights := rfl
@[simp] theorem State.setFldC_tk (c off hi lo v : Nat) : (s.setFldC c off hi lo v).tk = s.tk := rfl
@[simp] theorem State.setFldC_sync (c off hi lo v : Nat) : (s.setFldC c off hi lo v).sync = s.sync := rfl
@[simp] theorem State.setFldC_events (c off hi lo v : Nat) : (s.setFldC c off hi lo v).events = s.events := rfl
@[simp] theorem State.setFldC_evCount (c off hi lo v : Nat) : (s.setFldC c off hi lo v).evCount = s.evCount := rfl
@[simp] theorem State.setFldC_out (c off hi lo v : Nat) : (s.setFldC c off hi lo v).out = s.out := rfl
@[simp] theorem State.setFldC_hs (c off hi lo v : Nat) : (s.setFldC c off hi lo v).hs = s.hs := rfl
@[simp] theorem State.setFldC_ls (c off hi lo v : Nat) : (s.setFldC c off hi lo v).ls = s.ls := rfl
@[simp] theorem State.setFldC_insts (c off hi lo v : Nat) : (s.setFldC c off hi lo v).insts = s.insts := rfl
@[simp] theorem State.setFldC_images (c off hi lo v : Nat) : (s.setFldC c off hi lo v).images = s.images := rfl
@[simp] theorem State.setFldC_trust (c off hi lo v : Nat) : (s.setFldC c off hi lo v).trust = s.trust := rfl
@[simp] theorem State.setFldC_boot (c off hi lo v : Nat) : (s.setFldC c off hi lo v).boot = s.boot := rfl
@[simp] theorem State.setFldC_svc (c off hi lo v : Nat) : (s.setFldC c off hi lo v).svc = s.svc := rfl
@[simp] theorem State.setFldC_jtag (c off hi lo v : Nat) : (s.setFldC c off hi lo v).jtag = s.jtag := rfl
@[simp] theorem State.setFldC_faults (c off hi lo v : Nat) : (s.setFldC c off hi lo v).faults = s.faults := rfl
@[simp] theorem State.setFldC_bbx (c off hi lo v : Nat) : (s.setFldC c off hi lo v).bbx = s.bbx := rfl
@[simp] theorem State.setFldC_pw (c off hi lo v : Nat) : (s.setFldC c off hi lo v).pw = s.pw := rfl
@[simp] theorem State.setFldC_cnt (c off hi lo v : Nat) : (s.setFldC c off hi lo v).cnt = s.cnt := rfl
@[simp] theorem State.setFldC_cal (c off hi lo v : Nat) : (s.setFldC c off hi lo v).cal = s.cal := rfl
@[simp] theorem State.setFldC_freeCtr (c off hi lo v : Nat) : (s.setFldC c off hi lo v).freeCtr = s.freeCtr := rfl

/-! ### setReg64 -/

@[simp] theorem State.setReg64_pending (lo hi v : Nat) : (s.setReg64 lo hi v).pending = s.pending := ((s.setReg lo _).setReg_pending _ _).trans (s.setReg_pending _ _)
@[simp] theorem State.setReg64_latch (lo hi v : Nat) : (s.setReg64 lo hi v).latch = s.latch := ((s.setReg lo _).setReg_latch _ _).trans (s.setReg_latch _ _)
@[simp] theorem State.setReg64_regWrites (lo hi v : Nat) : (s.setReg64 lo hi v).regWrites = s.regWrites := ((s.setReg lo _).setReg_regWrites _ _).trans (s.setReg_regWrites _ _)
@[simp] theorem State.setReg64_mem (lo hi v : Nat) : (s.setReg64 lo hi v).mem = s.mem := ((s.setReg lo _).setReg_mem _ _).trans (s.setReg_mem _ _)
@[simp] theorem State.setReg64_flights (lo hi v : Nat) : (s.setReg64 lo hi v).flights = s.flights := ((s.setReg lo _).setReg_flights _ _).trans (s.setReg_flights _ _)
@[simp] theorem State.setReg64_tk (lo hi v : Nat) : (s.setReg64 lo hi v).tk = s.tk := ((s.setReg lo _).setReg_tk _ _).trans (s.setReg_tk _ _)
@[simp] theorem State.setReg64_sync (lo hi v : Nat) : (s.setReg64 lo hi v).sync = s.sync := ((s.setReg lo _).setReg_sync _ _).trans (s.setReg_sync _ _)
@[simp] theorem State.setReg64_events (lo hi v : Nat) : (s.setReg64 lo hi v).events = s.events := ((s.setReg lo _).setReg_events _ _).trans (s.setReg_events _ _)
@[simp] theorem State.setReg64_evCount (lo hi v : Nat) : (s.setReg64 lo hi v).evCount = s.evCount := ((s.setReg lo _).setReg_evCount _ _).trans (s.setReg_evCount _ _)
@[simp] theorem State.setReg64_out (lo hi v : Nat) : (s.setReg64 lo hi v).out = s.out := ((s.setReg lo _).setReg_out _ _).trans (s.setReg_out _ _)
@[simp] theorem State.setReg64_hs (lo hi v : Nat) : (s.setReg64 lo hi v).hs = s.hs := ((s.setReg lo _).setReg_hs _ _).trans (s.setReg_hs _ _)
@[simp] theorem State.setReg64_ls (lo hi v : Nat) : (s.setReg64 lo hi v).ls = s.ls := ((s.setReg lo _).setReg_ls _ _).trans (s.setReg_ls _ _)
@[simp] theorem State.setReg64_insts (lo hi v : Nat) : (s.setReg64 lo hi v).insts = s.insts := ((s.setReg lo _).setReg_insts _ _).trans (s.setReg_insts _ _)
@[simp] theorem State.setReg64_images (lo hi v : Nat) : (s.setReg64 lo hi v).images = s.images := ((s.setReg lo _).setReg_images _ _).trans (s.setReg_images _ _)
@[simp] theorem State.setReg64_trust (lo hi v : Nat) : (s.setReg64 lo hi v).trust = s.trust := ((s.setReg lo _).setReg_trust _ _).trans (s.setReg_trust _ _)
@[simp] theorem State.setReg64_boot (lo hi v : Nat) : (s.setReg64 lo hi v).boot = s.boot := ((s.setReg lo _).setReg_boot _ _).trans (s.setReg_boot _ _)
@[simp] theorem State.setReg64_svc (lo hi v : Nat) : (s.setReg64 lo hi v).svc = s.svc := ((s.setReg lo _).setReg_svc _ _).trans (s.setReg_svc _ _)
@[simp] theorem State.setReg64_jtag (lo hi v : Nat) : (s.setReg64 lo hi v).jtag = s.jtag := ((s.setReg lo _).setReg_jtag _ _).trans (s.setReg_jtag _ _)
@[simp] theorem State.setReg64_faults (lo hi v : Nat) : (s.setReg64 lo hi v).faults = s.faults := ((s.setReg lo _).setReg_faults _ _).trans (s.setReg_faults _ _)
@[simp] theorem State.setReg64_bbx (lo hi v : Nat) : (s.setReg64 lo hi v).bbx = s.bbx := ((s.setReg lo _).setReg_bbx _ _).trans (s.setReg_bbx _ _)
@[simp] theorem State.setReg64_pw (lo hi v : Nat) : (s.setReg64 lo hi v).pw = s.pw := ((s.setReg lo _).setReg_pw _ _).trans (s.setReg_pw _ _)
@[simp] theorem State.setReg64_cnt (lo hi v : Nat) : (s.setReg64 lo hi v).cnt = s.cnt := ((s.setReg lo _).setReg_cnt _ _).trans (s.setReg_cnt _ _)
@[simp] theorem State.setReg64_cal (lo hi v : Nat) : (s.setReg64 lo hi v).cal = s.cal := ((s.setReg lo _).setReg_cal _ _).trans (s.setReg_cal _ _)
@[simp] theorem State.setReg64_freeCtr (lo hi v : Nat) : (s.setReg64 lo hi v).freeCtr = s.freeCtr := ((s.setReg lo _).setReg_freeCtr _ _).trans (s.setReg_freeCtr _ _)

/-! ### count -/

@[simp] theorem State.count_pending (off hi lo n : Nat) : (s.count off hi lo n).pending = s.pending := s.setFld_pending _ _ _ _
@[simp] theorem State.count_latch (off hi lo n : Nat) : (s.count off hi lo n).latch = s.latch := s.setFld_latch _ _ _ _
@[simp] theorem State.count_regWrites (off hi lo n : Nat) : (s.count off hi lo n).regWrites = s.regWrites := s.setFld_regWrites _ _ _ _
@[simp] theorem State.count_mem (off hi lo n : Nat) : (s.count off hi lo n).mem = s.mem := s.setFld_mem _ _ _ _
@[simp] theorem State.count_flights (off hi lo n : Nat) : (s.count off hi lo n).flights = s.flights := s.setFld_flights _ _ _ _
@[simp] theorem State.count_tk (off hi lo n : Nat) : (s.count off hi lo n).tk = s.tk := s.setFld_tk _ _ _ _
@[simp] theorem State.count_sync (off hi lo n : Nat) : (s.count off hi lo n).sync = s.sync := s.setFld_sync _ _ _ _
@[simp] theorem State.count_events (off hi lo n : Nat) : (s.count off hi lo n).events = s.events := s.setFld_events _ _ _ _
@[simp] theorem State.count_evCount (off hi lo n : Nat) : (s.count off hi lo n).evCount = s.evCount := s.setFld_evCount _ _ _ _
@[simp] theorem State.count_out (off hi lo n : Nat) : (s.count off hi lo n).out = s.out := s.setFld_out _ _ _ _
@[simp] theorem State.count_hs (off hi lo n : Nat) : (s.count off hi lo n).hs = s.hs := s.setFld_hs _ _ _ _
@[simp] theorem State.count_ls (off hi lo n : Nat) : (s.count off hi lo n).ls = s.ls := s.setFld_ls _ _ _ _
@[simp] theorem State.count_insts (off hi lo n : Nat) : (s.count off hi lo n).insts = s.insts := s.setFld_insts _ _ _ _
@[simp] theorem State.count_images (off hi lo n : Nat) : (s.count off hi lo n).images = s.images := s.setFld_images _ _ _ _
@[simp] theorem State.count_trust (off hi lo n : Nat) : (s.count off hi lo n).trust = s.trust := s.setFld_trust _ _ _ _
@[simp] theorem State.count_boot (off hi lo n : Nat) : (s.count off hi lo n).boot = s.boot := s.setFld_boot _ _ _ _
@[simp] theorem State.count_svc (off hi lo n : Nat) : (s.count off hi lo n).svc = s.svc := s.setFld_svc _ _ _ _
@[simp] theorem State.count_jtag (off hi lo n : Nat) : (s.count off hi lo n).jtag = s.jtag := s.setFld_jtag _ _ _ _
@[simp] theorem State.count_faults (off hi lo n : Nat) : (s.count off hi lo n).faults = s.faults := s.setFld_faults _ _ _ _
@[simp] theorem State.count_bbx (off hi lo n : Nat) : (s.count off hi lo n).bbx = s.bbx := s.setFld_bbx _ _ _ _
@[simp] theorem State.count_pw (off hi lo n : Nat) : (s.count off hi lo n).pw = s.pw := s.setFld_pw _ _ _ _
@[simp] theorem State.count_cnt (off hi lo n : Nat) : (s.count off hi lo n).cnt = s.cnt := s.setFld_cnt _ _ _ _
@[simp] theorem State.count_cal (off hi lo n : Nat) : (s.count off hi lo n).cal = s.cal := s.setFld_cal _ _ _ _
@[simp] theorem State.count_freeCtr (off hi lo n : Nat) : (s.count off hi lo n).freeCtr = s.freeCtr := s.setFld_freeCtr _ _ _ _

/-! ### bbxShow -/

@[simp] theorem State.bbxShow_pending : (s.bbxShow).pending = s.pending := s.setFld_pending _ _ _ _
@[simp] theorem State.bbxShow_latch : (s.bbxShow).latch = s.latch := s.setFld_latch _ _ _ _
@[simp] theorem State.bbxShow_regWrites : (s.bbxShow).regWrites = s.regWrites := s.setFld_regWrites _ _ _ _
@[simp] theorem State.bbxShow_mem : (s.bbxShow).mem = s.mem := s.setFld_mem _ _ _ _
@[simp] theorem State.bbxShow_flights : (s.bbxShow).flights = s.flights := s.setFld_flights _ _ _ _
@[simp] theorem State.bbxShow_tk : (s.bbxShow).tk = s.tk := s.setFld_tk _ _ _ _
@[simp] theorem State.bbxShow_sync : (s.bbxShow).sync = s.sync := s.setFld_sync _ _ _ _
@[simp] theorem State.bbxShow_events : (s.bbxShow).events = s.events := s.setFld_events _ _ _ _
@[simp] theorem State.bbxShow_evCount : (s.bbxShow).evCount = s.evCount := s.setFld_evCount _ _ _ _
@[simp] theorem State.bbxShow_out : (s.bbxShow).out = s.out := s.setFld_out _ _ _ _
@[simp] theorem State.bbxShow_hs : (s.bbxShow).hs = s.hs := s.setFld_hs _ _ _ _
@[simp] theorem State.bbxShow_ls : (s.bbxShow).ls = s.ls := s.setFld_ls _ _ _ _
@[simp] theorem State.bbxShow_insts : (s.bbxShow).insts = s.insts := s.setFld_insts _ _ _ _
@[simp] theorem State.bbxShow_images : (s.bbxShow).images = s.images := s.setFld_images _ _ _ _
@[simp] theorem State.bbxShow_trust : (s.bbxShow).trust = s.trust := s.setFld_trust _ _ _ _
@[simp] theorem State.bbxShow_boot : (s.bbxShow).boot = s.boot := s.setFld_boot _ _ _ _
@[simp] theorem State.bbxShow_svc : (s.bbxShow).svc = s.svc := s.setFld_svc _ _ _ _
@[simp] theorem State.bbxShow_jtag : (s.bbxShow).jtag = s.jtag := s.setFld_jtag _ _ _ _
@[simp] theorem State.bbxShow_faults : (s.bbxShow).faults = s.faults := s.setFld_faults _ _ _ _
@[simp] theorem State.bbxShow_bbx : (s.bbxShow).bbx = s.bbx := s.setFld_bbx _ _ _ _
@[simp] theorem State.bbxShow_pw : (s.bbxShow).pw = s.pw := s.setFld_pw _ _ _ _
@[simp] theorem State.bbxShow_cnt : (s.bbxShow).cnt = s.cnt := s.setFld_cnt _ _ _ _
@[simp] theorem State.bbxShow_cal : (s.bbxShow).cal = s.cal := s.setFld_cal _ _ _ _
@[simp] theorem State.bbxShow_freeCtr : (s.bbxShow).freeCtr = s.freeCtr := s.setFld_freeCtr _ _ _ _

/-! ### setLatch -/

@[simp] theorem State.setLatch_pending (fn off : Nat) (v : Word) : (s.setLatch fn off v).pending = s.pending := rfl
@[simp] theorem State.setLatch_regs (fn off : Nat) (v : Word) : (s.setLatch fn off v).regs = s.regs := rfl
@[simp] theorem State.setLatch_regWrites (fn off : Nat) (v : Word) : (s.setLatch fn off v).regWrites = s.regWrites := rfl
@[simp] theorem State.setLatch_mem (fn off : Nat) (v : Word) : (s.setLatch fn off v).mem = s.mem := rfl
@[simp] theorem State.setLatch_flights (fn off : Nat) (v : Word) : (s.setLatch fn off v).flights = s.flights := rfl
@[simp] theorem State.setLatch_tk (fn off : Nat) (v : Word) : (s.setLatch fn off v).tk = s.tk := rfl
@[simp] theorem State.setLatch_sync (fn off : Nat) (v : Word) : (s.setLatch fn off v).sync = s.sync := rfl
@[simp] theorem State.setLatch_events (fn off : Nat) (v : Word) : (s.setLatch fn off v).events = s.events := rfl
@[simp] theorem State.setLatch_evCount (fn off : Nat) (v : Word) : (s.setLatch fn off v).evCount = s.evCount := rfl
@[simp] theorem State.setLatch_out (fn off : Nat) (v : Word) : (s.setLatch fn off v).out = s.out := rfl
@[simp] theorem State.setLatch_hs (fn off : Nat) (v : Word) : (s.setLatch fn off v).hs = s.hs := rfl
@[simp] theorem State.setLatch_ls (fn off : Nat) (v : Word) : (s.setLatch fn off v).ls = s.ls := rfl
@[simp] theorem State.setLatch_insts (fn off : Nat) (v : Word) : (s.setLatch fn off v).insts = s.insts := rfl
@[simp] theorem State.setLatch_images (fn off : Nat) (v : Word) : (s.setLatch fn off v).images = s.images := rfl
@[simp] theorem State.setLatch_trust (fn off : Nat) (v : Word) : (s.setLatch fn off v).trust = s.trust := rfl
@[simp] theorem State.setLatch_boot (fn off : Nat) (v : Word) : (s.setLatch fn off v).boot = s.boot := rfl
@[simp] theorem State.setLatch_svc (fn off : Nat) (v : Word) : (s.setLatch fn off v).svc = s.svc := rfl
@[simp] theorem State.setLatch_jtag (fn off : Nat) (v : Word) : (s.setLatch fn off v).jtag = s.jtag := rfl
@[simp] theorem State.setLatch_faults (fn off : Nat) (v : Word) : (s.setLatch fn off v).faults = s.faults := rfl
@[simp] theorem State.setLatch_bbx (fn off : Nat) (v : Word) : (s.setLatch fn off v).bbx = s.bbx := rfl
@[simp] theorem State.setLatch_pw (fn off : Nat) (v : Word) : (s.setLatch fn off v).pw = s.pw := rfl
@[simp] theorem State.setLatch_cnt (fn off : Nat) (v : Word) : (s.setLatch fn off v).cnt = s.cnt := rfl
@[simp] theorem State.setLatch_cal (fn off : Nat) (v : Word) : (s.setLatch fn off v).cal = s.cal := rfl
@[simp] theorem State.setLatch_freeCtr (fn off : Nat) (v : Word) : (s.setLatch fn off v).freeCtr = s.freeCtr := rfl

/-! ### updInst -/

@[simp] theorem State.updInst_pending (n : Nat) (f : Inst → Inst) : (s.updInst n f).pending = s.pending := rfl
@[simp] theorem State.updInst_regs (n : Nat) (f : Inst → Inst) : (s.updInst n f).regs = s.regs := rfl
@[simp] theorem State.updInst_latch (n : Nat) (f : Inst → Inst) : (s.updInst n f).latch = s.latch := rfl
@[simp] theorem State.updInst_regWrites (n : Nat) (f : Inst → Inst) : (s.updInst n f).regWrites = s.regWrites := rfl
@[simp] theorem State.updInst_mem (n : Nat) (f : Inst → Inst) : (s.updInst n f).mem = s.mem := rfl
@[simp] theorem State.updInst_flights (n : Nat) (f : Inst → Inst) : (s.updInst n f).flights = s.flights := rfl
@[simp] theorem State.updInst_tk (n : Nat) (f : Inst → Inst) : (s.updInst n f).tk = s.tk := rfl
@[simp] theorem State.updInst_sync (n : Nat) (f : Inst → Inst) : (s.updInst n f).sync = s.sync := rfl
@[simp] theorem State.updInst_events (n : Nat) (f : Inst → Inst) : (s.updInst n f).events = s.events := rfl
@[simp] theorem State.updInst_evCount (n : Nat) (f : Inst → Inst) : (s.updInst n f).evCount = s.evCount := rfl
@[simp] theorem State.updInst_out (n : Nat) (f : Inst → Inst) : (s.updInst n f).out = s.out := rfl
@[simp] theorem State.updInst_hs (n : Nat) (f : Inst → Inst) : (s.updInst n f).hs = s.hs := rfl
@[simp] theorem State.updInst_ls (n : Nat) (f : Inst → Inst) : (s.updInst n f).ls = s.ls := rfl
@[simp] theorem State.updInst_images (n : Nat) (f : Inst → Inst) : (s.updInst n f).images = s.images := rfl
@[simp] theorem State.updInst_trust (n : Nat) (f : Inst → Inst) : (s.updInst n f).trust = s.trust := rfl
@[simp] theorem State.updInst_boot (n : Nat) (f : Inst → Inst) : (s.updInst n f).boot = s.boot := rfl
@[simp] theorem State.updInst_svc (n : Nat) (f : Inst → Inst) : (s.updInst n f).svc = s.svc := rfl
@[simp] theorem State.updInst_jtag (n : Nat) (f : Inst → Inst) : (s.updInst n f).jtag = s.jtag := rfl
@[simp] theorem State.updInst_faults (n : Nat) (f : Inst → Inst) : (s.updInst n f).faults = s.faults := rfl
@[simp] theorem State.updInst_bbx (n : Nat) (f : Inst → Inst) : (s.updInst n f).bbx = s.bbx := rfl
@[simp] theorem State.updInst_pw (n : Nat) (f : Inst → Inst) : (s.updInst n f).pw = s.pw := rfl
@[simp] theorem State.updInst_cnt (n : Nat) (f : Inst → Inst) : (s.updInst n f).cnt = s.cnt := rfl
@[simp] theorem State.updInst_cal (n : Nat) (f : Inst → Inst) : (s.updInst n f).cal = s.cal := rfl
@[simp] theorem State.updInst_freeCtr (n : Nat) (f : Inst → Inst) : (s.updInst n f).freeCtr = s.freeCtr := rfl

/-! ### setRing -/

@[simp] theorem State.setRing_pending (k : Nat) (r : Ring) : (s.setRing k r).pending = s.pending := rfl
@[simp] theorem State.setRing_regs (k : Nat) (r : Ring) : (s.setRing k r).regs = s.regs := rfl
@[simp] theorem State.setRing_latch (k : Nat) (r : Ring) : (s.setRing k r).latch = s.latch := rfl
@[simp] theorem State.setRing_regWrites (k : Nat) (r : Ring) : (s.setRing k r).regWrites = s.regWrites := rfl
@[simp] theorem State.setRing_mem (k : Nat) (r : Ring) : (s.setRing k r).mem = s.mem := rfl
@[simp] theorem State.setRing_flights (k : Nat) (r : Ring) : (s.setRing k r).flights = s.flights := rfl
@[simp] theorem State.setRing_tk (k : Nat) (r : Ring) : (s.setRing k r).tk = s.tk := rfl
@[simp] theorem State.setRing_sync (k : Nat) (r : Ring) : (s.setRing k r).sync = s.sync := rfl
@[simp] theorem State.setRing_events (k : Nat) (r : Ring) : (s.setRing k r).events = s.events := rfl
@[simp] theorem State.setRing_evCount (k : Nat) (r : Ring) : (s.setRing k r).evCount = s.evCount := rfl
@[simp] theorem State.setRing_out (k : Nat) (r : Ring) : (s.setRing k r).out = s.out := rfl
@[simp] theorem State.setRing_hs_handles (k : Nat) (r : Ring) : (s.setRing k r).hs.handles = s.hs.handles := rfl
@[simp] theorem State.setRing_hs_reqs (k : Nat) (r : Ring) : (s.setRing k r).hs.reqs = s.hs.reqs := rfl
@[simp] theorem State.setRing_hs_mirror (k : Nat) (r : Ring) : (s.setRing k r).hs.mirror = s.hs.mirror := rfl
@[simp] theorem State.setRing_hs_entries (k : Nat) (r : Ring) : (s.setRing k r).hs.entries = s.hs.entries := rfl
@[simp] theorem State.setRing_hs_cmdRecords (k : Nat) (r : Ring) : (s.setRing k r).hs.cmdRecords = s.hs.cmdRecords := rfl
@[simp] theorem State.setRing_hs_readCount (k : Nat) (r : Ring) : (s.setRing k r).hs.readCount = s.hs.readCount := rfl
@[simp] theorem State.setRing_hs_lastRing (k : Nat) (r : Ring) : (s.setRing k r).hs.lastRing = s.hs.lastRing := rfl
@[simp] theorem State.setRing_hs_mgq (k : Nat) (r : Ring) : (s.setRing k r).hs.mgq = s.hs.mgq := rfl
@[simp] theorem State.setRing_hs_resizeQ (k : Nat) (r : Ring) : (s.setRing k r).hs.resizeQ = s.hs.resizeQ := rfl
@[simp] theorem State.setRing_hs_instOps (k : Nat) (r : Ring) : (s.setRing k r).hs.instOps = s.hs.instOps := rfl
@[simp] theorem State.setRing_hs_linkUp (k : Nat) (r : Ring) : (s.setRing k r).hs.linkUp = s.hs.linkUp := rfl
@[simp] theorem State.setRing_hs_immutable (k : Nat) (r : Ring) : (s.setRing k r).hs.immutable = s.hs.immutable := rfl
@[simp] theorem State.setRing_hs_evLost (k : Nat) (r : Ring) : (s.setRing k r).hs.evLost = s.hs.evLost := rfl
@[simp] theorem State.setRing_ls (k : Nat) (r : Ring) : (s.setRing k r).ls = s.ls := rfl
@[simp] theorem State.setRing_insts (k : Nat) (r : Ring) : (s.setRing k r).insts = s.insts := rfl
@[simp] theorem State.setRing_images (k : Nat) (r : Ring) : (s.setRing k r).images = s.images := rfl
@[simp] theorem State.setRing_trust (k : Nat) (r : Ring) : (s.setRing k r).trust = s.trust := rfl
@[simp] theorem State.setRing_boot (k : Nat) (r : Ring) : (s.setRing k r).boot = s.boot := rfl
@[simp] theorem State.setRing_svc (k : Nat) (r : Ring) : (s.setRing k r).svc = s.svc := rfl
@[simp] theorem State.setRing_jtag (k : Nat) (r : Ring) : (s.setRing k r).jtag = s.jtag := rfl
@[simp] theorem State.setRing_faults (k : Nat) (r : Ring) : (s.setRing k r).faults = s.faults := rfl
@[simp] theorem State.setRing_bbx (k : Nat) (r : Ring) : (s.setRing k r).bbx = s.bbx := rfl
@[simp] theorem State.setRing_pw (k : Nat) (r : Ring) : (s.setRing k r).pw = s.pw := rfl
@[simp] theorem State.setRing_cnt (k : Nat) (r : Ring) : (s.setRing k r).cnt = s.cnt := rfl
@[simp] theorem State.setRing_cal (k : Nat) (r : Ring) : (s.setRing k r).cal = s.cal := rfl
@[simp] theorem State.setRing_freeCtr (k : Nat) (r : Ring) : (s.setRing k r).freeCtr = s.freeCtr := rfl

/-! ### setHandle -/

@[simp] theorem State.setHandle_pending (h : Nat) (x : Handle) : (s.setHandle h x).pending = s.pending := rfl
@[simp] theorem State.setHandle_regs (h : Nat) (x : Handle) : (s.setHandle h x).regs = s.regs := rfl
@[simp] theorem State.setHandle_latch (h : Nat) (x : Handle) : (s.setHandle h x).latch = s.latch := rfl
@[simp] theorem State.setHandle_regWrites (h : Nat) (x : Handle) : (s.setHandle h x).regWrites = s.regWrites := rfl
@[simp] theorem State.setHandle_mem (h : Nat) (x : Handle) : (s.setHandle h x).mem = s.mem := rfl
@[simp] theorem State.setHandle_flights (h : Nat) (x : Handle) : (s.setHandle h x).flights = s.flights := rfl
@[simp] theorem State.setHandle_tk (h : Nat) (x : Handle) : (s.setHandle h x).tk = s.tk := rfl
@[simp] theorem State.setHandle_sync (h : Nat) (x : Handle) : (s.setHandle h x).sync = s.sync := rfl
@[simp] theorem State.setHandle_events (h : Nat) (x : Handle) : (s.setHandle h x).events = s.events := rfl
@[simp] theorem State.setHandle_evCount (h : Nat) (x : Handle) : (s.setHandle h x).evCount = s.evCount := rfl
@[simp] theorem State.setHandle_out (h : Nat) (x : Handle) : (s.setHandle h x).out = s.out := rfl
@[simp] theorem State.setHandle_hs_rings (h : Nat) (x : Handle) : (s.setHandle h x).hs.rings = s.hs.rings := rfl
@[simp] theorem State.setHandle_hs_reqs (h : Nat) (x : Handle) : (s.setHandle h x).hs.reqs = s.hs.reqs := rfl
@[simp] theorem State.setHandle_hs_mirror (h : Nat) (x : Handle) : (s.setHandle h x).hs.mirror = s.hs.mirror := rfl
@[simp] theorem State.setHandle_hs_entries (h : Nat) (x : Handle) : (s.setHandle h x).hs.entries = s.hs.entries := rfl
@[simp] theorem State.setHandle_hs_cmdRecords (h : Nat) (x : Handle) : (s.setHandle h x).hs.cmdRecords = s.hs.cmdRecords := rfl
@[simp] theorem State.setHandle_hs_readCount (h : Nat) (x : Handle) : (s.setHandle h x).hs.readCount = s.hs.readCount := rfl
@[simp] theorem State.setHandle_hs_lastRing (h : Nat) (x : Handle) : (s.setHandle h x).hs.lastRing = s.hs.lastRing := rfl
@[simp] theorem State.setHandle_hs_mgq (h : Nat) (x : Handle) : (s.setHandle h x).hs.mgq = s.hs.mgq := rfl
@[simp] theorem State.setHandle_hs_resizeQ (h : Nat) (x : Handle) : (s.setHandle h x).hs.resizeQ = s.hs.resizeQ := rfl
@[simp] theorem State.setHandle_hs_instOps (h : Nat) (x : Handle) : (s.setHandle h x).hs.instOps = s.hs.instOps := rfl
@[simp] theorem State.setHandle_hs_linkUp (h : Nat) (x : Handle) : (s.setHandle h x).hs.linkUp = s.hs.linkUp := rfl
@[simp] theorem State.setHandle_hs_immutable (h : Nat) (x : Handle) : (s.setHandle h x).hs.immutable = s.hs.immutable := rfl
@[simp] theorem State.setHandle_hs_evLost (h : Nat) (x : Handle) : (s.setHandle h x).hs.evLost = s.hs.evLost := rfl
@[simp] theorem State.setHandle_ls (h : Nat) (x : Handle) : (s.setHandle h x).ls = s.ls := rfl
@[simp] theorem State.setHandle_insts (h : Nat) (x : Handle) : (s.setHandle h x).insts = s.insts := rfl
@[simp] theorem State.setHandle_images (h : Nat) (x : Handle) : (s.setHandle h x).images = s.images := rfl
@[simp] theorem State.setHandle_trust (h : Nat) (x : Handle) : (s.setHandle h x).trust = s.trust := rfl
@[simp] theorem State.setHandle_boot (h : Nat) (x : Handle) : (s.setHandle h x).boot = s.boot := rfl
@[simp] theorem State.setHandle_svc (h : Nat) (x : Handle) : (s.setHandle h x).svc = s.svc := rfl
@[simp] theorem State.setHandle_jtag (h : Nat) (x : Handle) : (s.setHandle h x).jtag = s.jtag := rfl
@[simp] theorem State.setHandle_faults (h : Nat) (x : Handle) : (s.setHandle h x).faults = s.faults := rfl
@[simp] theorem State.setHandle_bbx (h : Nat) (x : Handle) : (s.setHandle h x).bbx = s.bbx := rfl
@[simp] theorem State.setHandle_pw (h : Nat) (x : Handle) : (s.setHandle h x).pw = s.pw := rfl
@[simp] theorem State.setHandle_cnt (h : Nat) (x : Handle) : (s.setHandle h x).cnt = s.cnt := rfl
@[simp] theorem State.setHandle_cal (h : Nat) (x : Handle) : (s.setHandle h x).cal = s.cal := rfl
@[simp] theorem State.setHandle_freeCtr (h : Nat) (x : Handle) : (s.setHandle h x).freeCtr = s.freeCtr := rfl

/-! ### updReq -/

@[simp] theorem State.updReq_pending (h : Nat) (f : Request → Request) : (s.updReq h f).pending = s.pending := rfl
@[simp] theorem State.updReq_regs (h : Nat) (f : Request → Request) : (s.updReq h f).regs = s.regs := rfl
@[simp] theorem State.updReq_latch (h : Nat) (f : Request → Request) : (s.updReq h f).latch = s.latch := rfl
@[simp] theorem State.updReq_regWrites (h : Nat) (f : Request → Request) : (s.updReq h f).regWrites = s.regWrites := rfl
@[simp] theorem State.updReq_mem (h : Nat) (f : Request → Request) : (s.updReq h f).mem = s.mem := rfl
@[simp] theorem State.updReq_flights (h : Nat) (f : Request → Request) : (s.updReq h f).flights = s.flights := rfl
@[simp] theorem State.updReq_tk (h : Nat) (f : Request → Request) : (s.updReq h f).tk = s.tk := rfl
@[simp] theorem State.updReq_sync (h : Nat) (f : Request → Request) : (s.updReq h f).sync = s.sync := rfl
@[simp] theorem State.updReq_events (h : Nat) (f : Request → Request) : (s.updReq h f).events = s.events := rfl
@[simp] theorem State.updReq_evCount (h : Nat) (f : Request → Request) : (s.updReq h f).evCount = s.evCount := rfl
@[simp] theorem State.updReq_out (h : Nat) (f : Request → Request) : (s.updReq h f).out = s.out := rfl
@[simp] theorem State.updReq_hs_rings (h : Nat) (f : Request → Request) : (s.updReq h f).hs.rings = s.hs.rings := rfl
@[simp] theorem State.updReq_hs_handles (h : Nat) (f : Request → Request) : (s.updReq h f).hs.handles = s.hs.handles := rfl
@[simp] theorem State.updReq_hs_mirror (h : Nat) (f : Request → Request) : (s.updReq h f).hs.mirror = s.hs.mirror := rfl
@[simp] theorem State.updReq_hs_entries (h : Nat) (f : Request → Request) : (s.updReq h f).hs.entries = s.hs.entries := rfl
@[simp] theorem State.updReq_hs_cmdRecords (h : Nat) (f : Request → Request) : (s.updReq h f).hs.cmdRecords = s.hs.cmdRecords := rfl
@[simp] theorem State.updReq_hs_readCount (h : Nat) (f : Request → Request) : (s.updReq h f).hs.readCount = s.hs.readCount := rfl
@[simp] theorem State.updReq_hs_lastRing (h : Nat) (f : Request → Request) : (s.updReq h f).hs.lastRing = s.hs.lastRing := rfl
@[simp] theorem State.updReq_hs_mgq (h : Nat) (f : Request → Request) : (s.updReq h f).hs.mgq = s.hs.mgq := rfl
@[simp] theorem State.updReq_hs_resizeQ (h : Nat) (f : Request → Request) : (s.updReq h f).hs.resizeQ = s.hs.resizeQ := rfl
@[simp] theorem State.updReq_hs_instOps (h : Nat) (f : Request → Request) : (s.updReq h f).hs.instOps = s.hs.instOps := rfl
@[simp] theorem State.updReq_hs_linkUp (h : Nat) (f : Request → Request) : (s.updReq h f).hs.linkUp = s.hs.linkUp := rfl
@[simp] theorem State.updReq_hs_immutable (h : Nat) (f : Request → Request) : (s.updReq h f).hs.immutable = s.hs.immutable := rfl
@[simp] theorem State.updReq_hs_evLost (h : Nat) (f : Request → Request) : (s.updReq h f).hs.evLost = s.hs.evLost := rfl
@[simp] theorem State.updReq_ls (h : Nat) (f : Request → Request) : (s.updReq h f).ls = s.ls := rfl
@[simp] theorem State.updReq_insts (h : Nat) (f : Request → Request) : (s.updReq h f).insts = s.insts := rfl
@[simp] theorem State.updReq_images (h : Nat) (f : Request → Request) : (s.updReq h f).images = s.images := rfl
@[simp] theorem State.updReq_trust (h : Nat) (f : Request → Request) : (s.updReq h f).trust = s.trust := rfl
@[simp] theorem State.updReq_boot (h : Nat) (f : Request → Request) : (s.updReq h f).boot = s.boot := rfl
@[simp] theorem State.updReq_svc (h : Nat) (f : Request → Request) : (s.updReq h f).svc = s.svc := rfl
@[simp] theorem State.updReq_jtag (h : Nat) (f : Request → Request) : (s.updReq h f).jtag = s.jtag := rfl
@[simp] theorem State.updReq_faults (h : Nat) (f : Request → Request) : (s.updReq h f).faults = s.faults := rfl
@[simp] theorem State.updReq_bbx (h : Nat) (f : Request → Request) : (s.updReq h f).bbx = s.bbx := rfl
@[simp] theorem State.updReq_pw (h : Nat) (f : Request → Request) : (s.updReq h f).pw = s.pw := rfl
@[simp] theorem State.updReq_cnt (h : Nat) (f : Request → Request) : (s.updReq h f).cnt = s.cnt := rfl
@[simp] theorem State.updReq_cal (h : Nat) (f : Request → Request) : (s.updReq h f).cal = s.cal := rfl
@[simp] theorem State.updReq_freeCtr (h : Nat) (f : Request → Request) : (s.updReq h f).freeCtr = s.freeCtr := rfl

/-! ### setLex -/

@[simp] theorem State.setLex_pending (id : Nat) (e : LexEntry) : (s.setLex id e).pending = s.pending := rfl
@[simp] theorem State.setLex_regs (id : Nat) (e : LexEntry) : (s.setLex id e).regs = s.regs := rfl
@[simp] theorem State.setLex_latch (id : Nat) (e : LexEntry) : (s.setLex id e).latch = s.latch := rfl
@[simp] theorem State.setLex_regWrites (id : Nat) (e : LexEntry) : (s.setLex id e).regWrites = s.regWrites := rfl
@[simp] theorem State.setLex_mem (id : Nat) (e : LexEntry) : (s.setLex id e).mem = s.mem := rfl
@[simp] theorem State.setLex_flights (id : Nat) (e : LexEntry) : (s.setLex id e).flights = s.flights := rfl
@[simp] theorem State.setLex_tk (id : Nat) (e : LexEntry) : (s.setLex id e).tk = s.tk := rfl
@[simp] theorem State.setLex_sync (id : Nat) (e : LexEntry) : (s.setLex id e).sync = s.sync := rfl
@[simp] theorem State.setLex_events (id : Nat) (e : LexEntry) : (s.setLex id e).events = s.events := rfl
@[simp] theorem State.setLex_evCount (id : Nat) (e : LexEntry) : (s.setLex id e).evCount = s.evCount := rfl
@[simp] theorem State.setLex_out (id : Nat) (e : LexEntry) : (s.setLex id e).out = s.out := rfl
@[simp] theorem State.setLex_hs (id : Nat) (e : LexEntry) : (s.setLex id e).hs = s.hs := rfl
@[simp] theorem State.setLex_ls_slots (id : Nat) (e : LexEntry) : (s.setLex id e).ls.slots = s.ls.slots := rfl
@[simp] theorem State.setLex_ls_train (id : Nat) (e : LexEntry) : (s.setLex id e).ls.train = s.ls.train := rfl
@[simp] theorem State.setLex_ls_stems (id : Nat) (e : LexEntry) : (s.setLex id e).ls.stems = s.ls.stems := rfl
@[simp] theorem State.setLex_ls_fills (id : Nat) (e : LexEntry) : (s.setLex id e).ls.fills = s.ls.fills := rfl
@[simp] theorem State.setLex_ls_fetched (id : Nat) (e : LexEntry) : (s.setLex id e).ls.fetched = s.ls.fetched := rfl
@[simp] theorem State.setLex_ls_placed (id : Nat) (e : LexEntry) : (s.setLex id e).ls.placed = s.ls.placed := rfl
@[simp] theorem State.setLex_ls_cache (id : Nat) (e : LexEntry) : (s.setLex id e).ls.cache = s.ls.cache := rfl
@[simp] theorem State.setLex_ls_lexCopies (id : Nat) (e : LexEntry) : (s.setLex id e).ls.lexCopies = s.lexCopied id e := rfl
@[simp] theorem State.setLex_insts (id : Nat) (e : LexEntry) : (s.setLex id e).insts = s.insts := rfl
@[simp] theorem State.setLex_images (id : Nat) (e : LexEntry) : (s.setLex id e).images = s.images := rfl
@[simp] theorem State.setLex_trust (id : Nat) (e : LexEntry) : (s.setLex id e).trust = s.trust := rfl
@[simp] theorem State.setLex_boot (id : Nat) (e : LexEntry) : (s.setLex id e).boot = s.boot := rfl
@[simp] theorem State.setLex_svc (id : Nat) (e : LexEntry) : (s.setLex id e).svc = s.svc := rfl
@[simp] theorem State.setLex_jtag (id : Nat) (e : LexEntry) : (s.setLex id e).jtag = s.jtag := rfl
@[simp] theorem State.setLex_faults (id : Nat) (e : LexEntry) : (s.setLex id e).faults = s.faults := rfl
@[simp] theorem State.setLex_bbx (id : Nat) (e : LexEntry) : (s.setLex id e).bbx = s.bbx := rfl
@[simp] theorem State.setLex_pw (id : Nat) (e : LexEntry) : (s.setLex id e).pw = s.pw := rfl
@[simp] theorem State.setLex_cnt (id : Nat) (e : LexEntry) : (s.setLex id e).cnt = s.cnt := rfl
@[simp] theorem State.setLex_cal (id : Nat) (e : LexEntry) : (s.setLex id e).cal = s.cal := rfl
@[simp] theorem State.setLex_freeCtr (id : Nat) (e : LexEntry) : (s.setLex id e).freeCtr = s.freeCtr := rfl

/-! ### setTrain -/

@[simp] theorem State.setTrain_pending (id : Nat) (x : TrainObj) : (s.setTrain id x).pending = s.pending := rfl
@[simp] theorem State.setTrain_regs (id : Nat) (x : TrainObj) : (s.setTrain id x).regs = s.regs := rfl
@[simp] theorem State.setTrain_latch (id : Nat) (x : TrainObj) : (s.setTrain id x).latch = s.latch := rfl
@[simp] theorem State.setTrain_regWrites (id : Nat) (x : TrainObj) : (s.setTrain id x).regWrites = s.regWrites := rfl
@[simp] theorem State.setTrain_mem (id : Nat) (x : TrainObj) : (s.setTrain id x).mem = s.mem := rfl
@[simp] theorem State.setTrain_flights (id : Nat) (x : TrainObj) : (s.setTrain id x).flights = s.flights := rfl
@[simp] theorem State.setTrain_tk (id : Nat) (x : TrainObj) : (s.setTrain id x).tk = s.tk := rfl
@[simp] theorem State.setTrain_sync (id : Nat) (x : TrainObj) : (s.setTrain id x).sync = s.sync := rfl
@[simp] theorem State.setTrain_events (id : Nat) (x : TrainObj) : (s.setTrain id x).events = s.events := rfl
@[simp] theorem State.setTrain_evCount (id : Nat) (x : TrainObj) : (s.setTrain id x).evCount = s.evCount := rfl
@[simp] theorem State.setTrain_out (id : Nat) (x : TrainObj) : (s.setTrain id x).out = s.out := rfl
@[simp] theorem State.setTrain_hs (id : Nat) (x : TrainObj) : (s.setTrain id x).hs = s.hs := rfl
@[simp] theorem State.setTrain_ls_lex (id : Nat) (x : TrainObj) : (s.setTrain id x).ls.lex = s.ls.lex := rfl
@[simp] theorem State.setTrain_ls_lexCopies (id : Nat) (x : TrainObj) : (s.setTrain id x).ls.lexCopies = s.ls.lexCopies := rfl
@[simp] theorem State.setTrain_ls_slots (id : Nat) (x : TrainObj) : (s.setTrain id x).ls.slots = s.ls.slots := rfl
@[simp] theorem State.setTrain_ls_stems (id : Nat) (x : TrainObj) : (s.setTrain id x).ls.stems = s.ls.stems := rfl
@[simp] theorem State.setTrain_ls_fills (id : Nat) (x : TrainObj) : (s.setTrain id x).ls.fills = s.ls.fills := rfl
@[simp] theorem State.setTrain_ls_fetched (id : Nat) (x : TrainObj) : (s.setTrain id x).ls.fetched = s.ls.fetched := rfl
@[simp] theorem State.setTrain_ls_placed (id : Nat) (x : TrainObj) : (s.setTrain id x).ls.placed = s.ls.placed := rfl
@[simp] theorem State.setTrain_ls_cache (id : Nat) (x : TrainObj) : (s.setTrain id x).ls.cache = s.ls.cache := rfl
@[simp] theorem State.setTrain_insts (id : Nat) (x : TrainObj) : (s.setTrain id x).insts = s.insts := rfl
@[simp] theorem State.setTrain_images (id : Nat) (x : TrainObj) : (s.setTrain id x).images = s.images := rfl
@[simp] theorem State.setTrain_trust (id : Nat) (x : TrainObj) : (s.setTrain id x).trust = s.trust := rfl
@[simp] theorem State.setTrain_boot (id : Nat) (x : TrainObj) : (s.setTrain id x).boot = s.boot := rfl
@[simp] theorem State.setTrain_svc (id : Nat) (x : TrainObj) : (s.setTrain id x).svc = s.svc := rfl
@[simp] theorem State.setTrain_jtag (id : Nat) (x : TrainObj) : (s.setTrain id x).jtag = s.jtag := rfl
@[simp] theorem State.setTrain_faults (id : Nat) (x : TrainObj) : (s.setTrain id x).faults = s.faults := rfl
@[simp] theorem State.setTrain_bbx (id : Nat) (x : TrainObj) : (s.setTrain id x).bbx = s.bbx := rfl
@[simp] theorem State.setTrain_pw (id : Nat) (x : TrainObj) : (s.setTrain id x).pw = s.pw := rfl
@[simp] theorem State.setTrain_cnt (id : Nat) (x : TrainObj) : (s.setTrain id x).cnt = s.cnt := rfl
@[simp] theorem State.setTrain_cal (id : Nat) (x : TrainObj) : (s.setTrain id x).cal = s.cal := rfl
@[simp] theorem State.setTrain_freeCtr (id : Nat) (x : TrainObj) : (s.setTrain id x).freeCtr = s.freeCtr := rfl

/-! ### setSlot -/

@[simp] theorem State.setSlot_pending (n : Nat) (a : AffixSlot) : (s.setSlot n a).pending = s.pending := rfl
@[simp] theorem State.setSlot_regs (n : Nat) (a : AffixSlot) : (s.setSlot n a).regs = s.regs := rfl
@[simp] theorem State.setSlot_latch (n : Nat) (a : AffixSlot) : (s.setSlot n a).latch = s.latch := rfl
@[simp] theorem State.setSlot_regWrites (n : Nat) (a : AffixSlot) : (s.setSlot n a).regWrites = s.regWrites := rfl
@[simp] theorem State.setSlot_mem (n : Nat) (a : AffixSlot) : (s.setSlot n a).mem = s.mem := rfl
@[simp] theorem State.setSlot_flights (n : Nat) (a : AffixSlot) : (s.setSlot n a).flights = s.flights := rfl
@[simp] theorem State.setSlot_tk (n : Nat) (a : AffixSlot) : (s.setSlot n a).tk = s.tk := rfl
@[simp] theorem State.setSlot_sync (n : Nat) (a : AffixSlot) : (s.setSlot n a).sync = s.sync := rfl
@[simp] theorem State.setSlot_events (n : Nat) (a : AffixSlot) : (s.setSlot n a).events = s.events := rfl
@[simp] theorem State.setSlot_evCount (n : Nat) (a : AffixSlot) : (s.setSlot n a).evCount = s.evCount := rfl
@[simp] theorem State.setSlot_out (n : Nat) (a : AffixSlot) : (s.setSlot n a).out = s.out := rfl
@[simp] theorem State.setSlot_hs (n : Nat) (a : AffixSlot) : (s.setSlot n a).hs = s.hs := rfl
@[simp] theorem State.setSlot_ls_lex (n : Nat) (a : AffixSlot) : (s.setSlot n a).ls.lex = s.ls.lex := rfl
@[simp] theorem State.setSlot_ls_lexCopies (n : Nat) (a : AffixSlot) : (s.setSlot n a).ls.lexCopies = s.ls.lexCopies := rfl
@[simp] theorem State.setSlot_ls_train (n : Nat) (a : AffixSlot) : (s.setSlot n a).ls.train = s.ls.train := rfl
@[simp] theorem State.setSlot_ls_stems (n : Nat) (a : AffixSlot) : (s.setSlot n a).ls.stems = s.ls.stems := rfl
@[simp] theorem State.setSlot_ls_fills (n : Nat) (a : AffixSlot) : (s.setSlot n a).ls.fills = s.ls.fills := rfl
@[simp] theorem State.setSlot_ls_fetched (n : Nat) (a : AffixSlot) : (s.setSlot n a).ls.fetched = s.ls.fetched := rfl
@[simp] theorem State.setSlot_ls_placed (n : Nat) (a : AffixSlot) : (s.setSlot n a).ls.placed = s.ls.placed := rfl
@[simp] theorem State.setSlot_ls_cache (n : Nat) (a : AffixSlot) : (s.setSlot n a).ls.cache = s.ls.cache := rfl
@[simp] theorem State.setSlot_insts (n : Nat) (a : AffixSlot) : (s.setSlot n a).insts = s.insts := rfl
@[simp] theorem State.setSlot_images (n : Nat) (a : AffixSlot) : (s.setSlot n a).images = s.images := rfl
@[simp] theorem State.setSlot_trust (n : Nat) (a : AffixSlot) : (s.setSlot n a).trust = s.trust := rfl
@[simp] theorem State.setSlot_boot (n : Nat) (a : AffixSlot) : (s.setSlot n a).boot = s.boot := rfl
@[simp] theorem State.setSlot_svc (n : Nat) (a : AffixSlot) : (s.setSlot n a).svc = s.svc := rfl
@[simp] theorem State.setSlot_jtag (n : Nat) (a : AffixSlot) : (s.setSlot n a).jtag = s.jtag := rfl
@[simp] theorem State.setSlot_faults (n : Nat) (a : AffixSlot) : (s.setSlot n a).faults = s.faults := rfl
@[simp] theorem State.setSlot_bbx (n : Nat) (a : AffixSlot) : (s.setSlot n a).bbx = s.bbx := rfl
@[simp] theorem State.setSlot_pw (n : Nat) (a : AffixSlot) : (s.setSlot n a).pw = s.pw := rfl
@[simp] theorem State.setSlot_cnt (n : Nat) (a : AffixSlot) : (s.setSlot n a).cnt = s.cnt := rfl
@[simp] theorem State.setSlot_cal (n : Nat) (a : AffixSlot) : (s.setSlot n a).cal = s.cal := rfl
@[simp] theorem State.setSlot_freeCtr (n : Nat) (a : AffixSlot) : (s.setSlot n a).freeCtr = s.freeCtr := rfl

/-! ### setStem -/

@[simp] theorem State.setStem_pending (n : Nat) (a : StemSlot) : (s.setStem n a).pending = s.pending := rfl
@[simp] theorem State.setStem_regs (n : Nat) (a : StemSlot) : (s.setStem n a).regs = s.regs := rfl
@[simp] theorem State.setStem_latch (n : Nat) (a : StemSlot) : (s.setStem n a).latch = s.latch := rfl
@[simp] theorem State.setStem_regWrites (n : Nat) (a : StemSlot) : (s.setStem n a).regWrites = s.regWrites := rfl
@[simp] theorem State.setStem_mem (n : Nat) (a : StemSlot) : (s.setStem n a).mem = s.mem := rfl
@[simp] theorem State.setStem_flights (n : Nat) (a : StemSlot) : (s.setStem n a).flights = s.flights := rfl
@[simp] theorem State.setStem_tk (n : Nat) (a : StemSlot) : (s.setStem n a).tk = s.tk := rfl
@[simp] theorem State.setStem_sync (n : Nat) (a : StemSlot) : (s.setStem n a).sync = s.sync := rfl
@[simp] theorem State.setStem_events (n : Nat) (a : StemSlot) : (s.setStem n a).events = s.events := rfl
@[simp] theorem State.setStem_evCount (n : Nat) (a : StemSlot) : (s.setStem n a).evCount = s.evCount := rfl
@[simp] theorem State.setStem_out (n : Nat) (a : StemSlot) : (s.setStem n a).out = s.out := rfl
@[simp] theorem State.setStem_hs (n : Nat) (a : StemSlot) : (s.setStem n a).hs = s.hs := rfl
@[simp] theorem State.setStem_ls_lex (n : Nat) (a : StemSlot) : (s.setStem n a).ls.lex = s.ls.lex := rfl
@[simp] theorem State.setStem_ls_lexCopies (n : Nat) (a : StemSlot) : (s.setStem n a).ls.lexCopies = s.ls.lexCopies := rfl
@[simp] theorem State.setStem_ls_slots (n : Nat) (a : StemSlot) : (s.setStem n a).ls.slots = s.ls.slots := rfl
@[simp] theorem State.setStem_ls_train (n : Nat) (a : StemSlot) : (s.setStem n a).ls.train = s.ls.train := rfl
@[simp] theorem State.setStem_ls_fills (n : Nat) (a : StemSlot) : (s.setStem n a).ls.fills = s.ls.fills := rfl
@[simp] theorem State.setStem_ls_fetched (n : Nat) (a : StemSlot) : (s.setStem n a).ls.fetched = s.ls.fetched := rfl
@[simp] theorem State.setStem_ls_placed (n : Nat) (a : StemSlot) : (s.setStem n a).ls.placed = s.ls.placed := rfl
@[simp] theorem State.setStem_ls_cache (n : Nat) (a : StemSlot) : (s.setStem n a).ls.cache = s.ls.cache := rfl
@[simp] theorem State.setStem_insts (n : Nat) (a : StemSlot) : (s.setStem n a).insts = s.insts := rfl
@[simp] theorem State.setStem_images (n : Nat) (a : StemSlot) : (s.setStem n a).images = s.images := rfl
@[simp] theorem State.setStem_trust (n : Nat) (a : StemSlot) : (s.setStem n a).trust = s.trust := rfl
@[simp] theorem State.setStem_boot (n : Nat) (a : StemSlot) : (s.setStem n a).boot = s.boot := rfl
@[simp] theorem State.setStem_svc (n : Nat) (a : StemSlot) : (s.setStem n a).svc = s.svc := rfl
@[simp] theorem State.setStem_jtag (n : Nat) (a : StemSlot) : (s.setStem n a).jtag = s.jtag := rfl
@[simp] theorem State.setStem_faults (n : Nat) (a : StemSlot) : (s.setStem n a).faults = s.faults := rfl
@[simp] theorem State.setStem_bbx (n : Nat) (a : StemSlot) : (s.setStem n a).bbx = s.bbx := rfl
@[simp] theorem State.setStem_pw (n : Nat) (a : StemSlot) : (s.setStem n a).pw = s.pw := rfl
@[simp] theorem State.setStem_cnt (n : Nat) (a : StemSlot) : (s.setStem n a).cnt = s.cnt := rfl
@[simp] theorem State.setStem_cal (n : Nat) (a : StemSlot) : (s.setStem n a).cal = s.cal := rfl
@[simp] theorem State.setStem_freeCtr (n : Nat) (a : StemSlot) : (s.setStem n a).freeCtr = s.freeCtr := rfl

/-! ### setKey -/

@[simp] theorem State.setKey_pending (n : Nat) (k : KeySlot) : (s.setKey n k).pending = s.pending := rfl
@[simp] theorem State.setKey_regs (n : Nat) (k : KeySlot) : (s.setKey n k).regs = s.regs := rfl
@[simp] theorem State.setKey_latch (n : Nat) (k : KeySlot) : (s.setKey n k).latch = s.latch := rfl
@[simp] theorem State.setKey_regWrites (n : Nat) (k : KeySlot) : (s.setKey n k).regWrites = s.regWrites := rfl
@[simp] theorem State.setKey_mem (n : Nat) (k : KeySlot) : (s.setKey n k).mem = s.mem := rfl
@[simp] theorem State.setKey_flights (n : Nat) (k : KeySlot) : (s.setKey n k).flights = s.flights := rfl
@[simp] theorem State.setKey_tk (n : Nat) (k : KeySlot) : (s.setKey n k).tk = s.tk := rfl
@[simp] theorem State.setKey_sync (n : Nat) (k : KeySlot) : (s.setKey n k).sync = s.sync := rfl
@[simp] theorem State.setKey_events (n : Nat) (k : KeySlot) : (s.setKey n k).events = s.events := rfl
@[simp] theorem State.setKey_evCount (n : Nat) (k : KeySlot) : (s.setKey n k).evCount = s.evCount := rfl
@[simp] theorem State.setKey_out (n : Nat) (k : KeySlot) : (s.setKey n k).out = s.out := rfl
@[simp] theorem State.setKey_hs (n : Nat) (k : KeySlot) : (s.setKey n k).hs = s.hs := rfl
@[simp] theorem State.setKey_ls (n : Nat) (k : KeySlot) : (s.setKey n k).ls = s.ls := rfl
@[simp] theorem State.setKey_insts (n : Nat) (k : KeySlot) : (s.setKey n k).insts = s.insts := rfl
@[simp] theorem State.setKey_images (n : Nat) (k : KeySlot) : (s.setKey n k).images = s.images := rfl
@[simp] theorem State.setKey_trust_keyOps (n : Nat) (k : KeySlot) : (s.setKey n k).trust.keyOps = s.trust.keyOps := rfl
@[simp] theorem State.setKey_trust_copy0 (n : Nat) (k : KeySlot) : (s.setKey n k).trust.copy0 = s.trust.copy0 := rfl
@[simp] theorem State.setKey_trust_owner (n : Nat) (k : KeySlot) : (s.setKey n k).trust.owner = s.trust.owner := rfl
@[simp] theorem State.setKey_trust_nextOwner (n : Nat) (k : KeySlot) : (s.setKey n k).trust.nextOwner = s.trust.nextOwner := rfl
@[simp] theorem State.setKey_trust_copy1 (n : Nat) (k : KeySlot) : (s.setKey n k).trust.copy1 = s.trust.copy1 := rfl
@[simp] theorem State.setKey_trust_pufCause (n : Nat) (k : KeySlot) : (s.setKey n k).trust.pufCause = s.trust.pufCause := rfl
@[simp] theorem State.setKey_trust_sessions (n : Nat) (k : KeySlot) : (s.setKey n k).trust.sessions = s.trust.sessions := rfl
@[simp] theorem State.setKey_trust_nonces (n : Nat) (k : KeySlot) : (s.setKey n k).trust.nonces = s.trust.nonces := rfl
@[simp] theorem State.setKey_trust_chunk (n : Nat) (k : KeySlot) : (s.setKey n k).trust.chunk = s.trust.chunk := rfl
@[simp] theorem State.setKey_trust_answers (n : Nat) (k : KeySlot) : (s.setKey n k).trust.answers = s.trust.answers := rfl
@[simp] theorem State.setKey_trust_negotiated (n : Nat) (k : KeySlot) : (s.setKey n k).trust.negotiated = s.trust.negotiated := rfl
@[simp] theorem State.setKey_trust_ideStreams (n : Nat) (k : KeySlot) : (s.setKey n k).trust.ideStreams = s.trust.ideStreams := rfl
@[simp] theorem State.setKey_trust_jobSeeds (n : Nat) (k : KeySlot) : (s.setKey n k).trust.jobSeeds = s.trust.jobSeeds := rfl
@[simp] theorem State.setKey_trust_flightKeys (n : Nat) (k : KeySlot) : (s.setKey n k).trust.flightKeys = s.trust.flightKeys := rfl
@[simp] theorem State.setKey_trust_debugTokens (n : Nat) (k : KeySlot) : (s.setKey n k).trust.debugTokens = s.trust.debugTokens := rfl
@[simp] theorem State.setKey_trust_dik (n : Nat) (k : KeySlot) : (s.setKey n k).trust.dik = s.trust.dik := rfl
@[simp] theorem State.setKey_trust_measured (n : Nat) (k : KeySlot) : (s.setKey n k).trust.measured = s.trust.measured := rfl
@[simp] theorem State.setKey_trust_fwDigest (n : Nat) (k : KeySlot) : (s.setKey n k).trust.fwDigest = s.trust.fwDigest := rfl
@[simp] theorem State.setKey_trust_cfgDigest (n : Nat) (k : KeySlot) : (s.setKey n k).trust.cfgDigest = s.trust.cfgDigest := rfl
@[simp] theorem State.setKey_boot (n : Nat) (k : KeySlot) : (s.setKey n k).boot = s.boot := rfl
@[simp] theorem State.setKey_svc (n : Nat) (k : KeySlot) : (s.setKey n k).svc = s.svc := rfl
@[simp] theorem State.setKey_jtag (n : Nat) (k : KeySlot) : (s.setKey n k).jtag = s.jtag := rfl
@[simp] theorem State.setKey_faults (n : Nat) (k : KeySlot) : (s.setKey n k).faults = s.faults := rfl
@[simp] theorem State.setKey_bbx (n : Nat) (k : KeySlot) : (s.setKey n k).bbx = s.bbx := rfl
@[simp] theorem State.setKey_pw (n : Nat) (k : KeySlot) : (s.setKey n k).pw = s.pw := rfl
@[simp] theorem State.setKey_cnt (n : Nat) (k : KeySlot) : (s.setKey n k).cnt = s.cnt := rfl
@[simp] theorem State.setKey_cal (n : Nat) (k : KeySlot) : (s.setKey n k).cal = s.cal := rfl
@[simp] theorem State.setKey_freeCtr (n : Nat) (k : KeySlot) : (s.setKey n k).freeCtr = s.freeCtr := rfl

/-! ### queueKey -/

@[simp] theorem State.queueKey_pending (o : KeyOp) : (s.queueKey o).pending = s.pending := rfl
@[simp] theorem State.queueKey_regs (o : KeyOp) : (s.queueKey o).regs = s.regs := rfl
@[simp] theorem State.queueKey_latch (o : KeyOp) : (s.queueKey o).latch = s.latch := rfl
@[simp] theorem State.queueKey_regWrites (o : KeyOp) : (s.queueKey o).regWrites = s.regWrites := rfl
@[simp] theorem State.queueKey_mem (o : KeyOp) : (s.queueKey o).mem = s.mem := rfl
@[simp] theorem State.queueKey_flights (o : KeyOp) : (s.queueKey o).flights = s.flights := rfl
@[simp] theorem State.queueKey_tk (o : KeyOp) : (s.queueKey o).tk = s.tk := rfl
@[simp] theorem State.queueKey_sync (o : KeyOp) : (s.queueKey o).sync = s.sync := rfl
@[simp] theorem State.queueKey_events (o : KeyOp) : (s.queueKey o).events = s.events := rfl
@[simp] theorem State.queueKey_evCount (o : KeyOp) : (s.queueKey o).evCount = s.evCount := rfl
@[simp] theorem State.queueKey_out (o : KeyOp) : (s.queueKey o).out = s.out := rfl
@[simp] theorem State.queueKey_hs (o : KeyOp) : (s.queueKey o).hs = s.hs := rfl
@[simp] theorem State.queueKey_ls (o : KeyOp) : (s.queueKey o).ls = s.ls := rfl
@[simp] theorem State.queueKey_insts (o : KeyOp) : (s.queueKey o).insts = s.insts := rfl
@[simp] theorem State.queueKey_images (o : KeyOp) : (s.queueKey o).images = s.images := rfl
@[simp] theorem State.queueKey_trust_keys (o : KeyOp) : (s.queueKey o).trust.keys = s.trust.keys := rfl
@[simp] theorem State.queueKey_trust_copy0 (o : KeyOp) : (s.queueKey o).trust.copy0 = s.trust.copy0 := rfl
@[simp] theorem State.queueKey_trust_owner (o : KeyOp) : (s.queueKey o).trust.owner = s.trust.owner := rfl
@[simp] theorem State.queueKey_trust_nextOwner (o : KeyOp) : (s.queueKey o).trust.nextOwner = s.trust.nextOwner := rfl
@[simp] theorem State.queueKey_trust_copy1 (o : KeyOp) : (s.queueKey o).trust.copy1 = s.trust.copy1 := rfl
@[simp] theorem State.queueKey_trust_pufCause (o : KeyOp) : (s.queueKey o).trust.pufCause = s.trust.pufCause := rfl
@[simp] theorem State.queueKey_trust_sessions (o : KeyOp) : (s.queueKey o).trust.sessions = s.trust.sessions := rfl
@[simp] theorem State.queueKey_trust_nonces (o : KeyOp) : (s.queueKey o).trust.nonces = s.trust.nonces := rfl
@[simp] theorem State.queueKey_trust_chunk (o : KeyOp) : (s.queueKey o).trust.chunk = s.trust.chunk := rfl
@[simp] theorem State.queueKey_trust_answers (o : KeyOp) : (s.queueKey o).trust.answers = s.trust.answers := rfl
@[simp] theorem State.queueKey_trust_negotiated (o : KeyOp) : (s.queueKey o).trust.negotiated = s.trust.negotiated := rfl
@[simp] theorem State.queueKey_trust_ideStreams (o : KeyOp) : (s.queueKey o).trust.ideStreams = s.trust.ideStreams := rfl
@[simp] theorem State.queueKey_trust_jobSeeds (o : KeyOp) : (s.queueKey o).trust.jobSeeds = s.trust.jobSeeds := rfl
@[simp] theorem State.queueKey_trust_flightKeys (o : KeyOp) : (s.queueKey o).trust.flightKeys = s.trust.flightKeys := rfl
@[simp] theorem State.queueKey_trust_debugTokens (o : KeyOp) : (s.queueKey o).trust.debugTokens = s.trust.debugTokens := rfl
@[simp] theorem State.queueKey_trust_dik (o : KeyOp) : (s.queueKey o).trust.dik = s.trust.dik := rfl
@[simp] theorem State.queueKey_trust_measured (o : KeyOp) : (s.queueKey o).trust.measured = s.trust.measured := rfl
@[simp] theorem State.queueKey_trust_fwDigest (o : KeyOp) : (s.queueKey o).trust.fwDigest = s.trust.fwDigest := rfl
@[simp] theorem State.queueKey_trust_cfgDigest (o : KeyOp) : (s.queueKey o).trust.cfgDigest = s.trust.cfgDigest := rfl
@[simp] theorem State.queueKey_boot (o : KeyOp) : (s.queueKey o).boot = s.boot := rfl
@[simp] theorem State.queueKey_svc (o : KeyOp) : (s.queueKey o).svc = s.svc := rfl
@[simp] theorem State.queueKey_jtag (o : KeyOp) : (s.queueKey o).jtag = s.jtag := rfl
@[simp] theorem State.queueKey_faults (o : KeyOp) : (s.queueKey o).faults = s.faults := rfl
@[simp] theorem State.queueKey_bbx (o : KeyOp) : (s.queueKey o).bbx = s.bbx := rfl
@[simp] theorem State.queueKey_pw (o : KeyOp) : (s.queueKey o).pw = s.pw := rfl
@[simp] theorem State.queueKey_cnt (o : KeyOp) : (s.queueKey o).cnt = s.cnt := rfl
@[simp] theorem State.queueKey_cal (o : KeyOp) : (s.queueKey o).cal = s.cal := rfl
@[simp] theorem State.queueKey_freeCtr (o : KeyOp) : (s.queueKey o).freeCtr = s.freeCtr := rfl

/-! ### dropNonce -/

@[simp] theorem State.dropNonce_pending (port : SpdmPort) (session : Nat) (v : BitVec 256) : (s.dropNonce port session v).pending = s.pending := rfl
@[simp] theorem State.dropNonce_regs (port : SpdmPort) (session : Nat) (v : BitVec 256) : (s.dropNonce port session v).regs = s.regs := rfl
@[simp] theorem State.dropNonce_latch (port : SpdmPort) (session : Nat) (v : BitVec 256) : (s.dropNonce port session v).latch = s.latch := rfl
@[simp] theorem State.dropNonce_regWrites (port : SpdmPort) (session : Nat) (v : BitVec 256) : (s.dropNonce port session v).regWrites = s.regWrites := rfl
@[simp] theorem State.dropNonce_mem (port : SpdmPort) (session : Nat) (v : BitVec 256) : (s.dropNonce port session v).mem = s.mem := rfl
@[simp] theorem State.dropNonce_flights (port : SpdmPort) (session : Nat) (v : BitVec 256) : (s.dropNonce port session v).flights = s.flights := rfl
@[simp] theorem State.dropNonce_tk (port : SpdmPort) (session : Nat) (v : BitVec 256) : (s.dropNonce port session v).tk = s.tk := rfl
@[simp] theorem State.dropNonce_sync (port : SpdmPort) (session : Nat) (v : BitVec 256) : (s.dropNonce port session v).sync = s.sync := rfl
@[simp] theorem State.dropNonce_events (port : SpdmPort) (session : Nat) (v : BitVec 256) : (s.dropNonce port session v).events = s.events := rfl
@[simp] theorem State.dropNonce_evCount (port : SpdmPort) (session : Nat) (v : BitVec 256) : (s.dropNonce port session v).evCount = s.evCount := rfl
@[simp] theorem State.dropNonce_out (port : SpdmPort) (session : Nat) (v : BitVec 256) : (s.dropNonce port session v).out = s.out := rfl
@[simp] theorem State.dropNonce_hs (port : SpdmPort) (session : Nat) (v : BitVec 256) : (s.dropNonce port session v).hs = s.hs := rfl
@[simp] theorem State.dropNonce_ls (port : SpdmPort) (session : Nat) (v : BitVec 256) : (s.dropNonce port session v).ls = s.ls := rfl
@[simp] theorem State.dropNonce_insts (port : SpdmPort) (session : Nat) (v : BitVec 256) : (s.dropNonce port session v).insts = s.insts := rfl
@[simp] theorem State.dropNonce_images (port : SpdmPort) (session : Nat) (v : BitVec 256) : (s.dropNonce port session v).images = s.images := rfl
@[simp] theorem State.dropNonce_trust_keys (port : SpdmPort) (session : Nat) (v : BitVec 256) : (s.dropNonce port session v).trust.keys = s.trust.keys := rfl
@[simp] theorem State.dropNonce_trust_keyOps (port : SpdmPort) (session : Nat) (v : BitVec 256) : (s.dropNonce port session v).trust.keyOps = s.trust.keyOps := rfl
@[simp] theorem State.dropNonce_trust_copy0 (port : SpdmPort) (session : Nat) (v : BitVec 256) : (s.dropNonce port session v).trust.copy0 = s.trust.copy0 := rfl
@[simp] theorem State.dropNonce_trust_owner (port : SpdmPort) (session : Nat) (v : BitVec 256) : (s.dropNonce port session v).trust.owner = s.trust.owner := rfl
@[simp] theorem State.dropNonce_trust_nextOwner (port : SpdmPort) (session : Nat) (v : BitVec 256) : (s.dropNonce port session v).trust.nextOwner = s.trust.nextOwner := rfl
@[simp] theorem State.dropNonce_trust_copy1 (port : SpdmPort) (session : Nat) (v : BitVec 256) : (s.dropNonce port session v).trust.copy1 = s.trust.copy1 := rfl
@[simp] theorem State.dropNonce_trust_pufCause (port : SpdmPort) (session : Nat) (v : BitVec 256) : (s.dropNonce port session v).trust.pufCause = s.trust.pufCause := rfl
@[simp] theorem State.dropNonce_trust_sessions (port : SpdmPort) (session : Nat) (v : BitVec 256) : (s.dropNonce port session v).trust.sessions = s.trust.sessions := rfl
@[simp] theorem State.dropNonce_trust_chunk (port : SpdmPort) (session : Nat) (v : BitVec 256) : (s.dropNonce port session v).trust.chunk = s.trust.chunk := rfl
@[simp] theorem State.dropNonce_trust_answers (port : SpdmPort) (session : Nat) (v : BitVec 256) : (s.dropNonce port session v).trust.answers = s.trust.answers := rfl
@[simp] theorem State.dropNonce_trust_negotiated (port : SpdmPort) (session : Nat) (v : BitVec 256) : (s.dropNonce port session v).trust.negotiated = s.trust.negotiated := rfl
@[simp] theorem State.dropNonce_trust_ideStreams (port : SpdmPort) (session : Nat) (v : BitVec 256) : (s.dropNonce port session v).trust.ideStreams = s.trust.ideStreams := rfl
@[simp] theorem State.dropNonce_trust_jobSeeds (port : SpdmPort) (session : Nat) (v : BitVec 256) : (s.dropNonce port session v).trust.jobSeeds = s.trust.jobSeeds := rfl
@[simp] theorem State.dropNonce_trust_flightKeys (port : SpdmPort) (session : Nat) (v : BitVec 256) : (s.dropNonce port session v).trust.flightKeys = s.trust.flightKeys := rfl
@[simp] theorem State.dropNonce_trust_debugTokens (port : SpdmPort) (session : Nat) (v : BitVec 256) : (s.dropNonce port session v).trust.debugTokens = s.trust.debugTokens := rfl
@[simp] theorem State.dropNonce_trust_dik (port : SpdmPort) (session : Nat) (v : BitVec 256) : (s.dropNonce port session v).trust.dik = s.trust.dik := rfl
@[simp] theorem State.dropNonce_trust_measured (port : SpdmPort) (session : Nat) (v : BitVec 256) : (s.dropNonce port session v).trust.measured = s.trust.measured := rfl
@[simp] theorem State.dropNonce_trust_fwDigest (port : SpdmPort) (session : Nat) (v : BitVec 256) : (s.dropNonce port session v).trust.fwDigest = s.trust.fwDigest := rfl
@[simp] theorem State.dropNonce_trust_cfgDigest (port : SpdmPort) (session : Nat) (v : BitVec 256) : (s.dropNonce port session v).trust.cfgDigest = s.trust.cfgDigest := rfl
@[simp] theorem State.dropNonce_boot (port : SpdmPort) (session : Nat) (v : BitVec 256) : (s.dropNonce port session v).boot = s.boot := rfl
@[simp] theorem State.dropNonce_svc (port : SpdmPort) (session : Nat) (v : BitVec 256) : (s.dropNonce port session v).svc = s.svc := rfl
@[simp] theorem State.dropNonce_jtag (port : SpdmPort) (session : Nat) (v : BitVec 256) : (s.dropNonce port session v).jtag = s.jtag := rfl
@[simp] theorem State.dropNonce_faults (port : SpdmPort) (session : Nat) (v : BitVec 256) : (s.dropNonce port session v).faults = s.faults := rfl
@[simp] theorem State.dropNonce_bbx (port : SpdmPort) (session : Nat) (v : BitVec 256) : (s.dropNonce port session v).bbx = s.bbx := rfl
@[simp] theorem State.dropNonce_pw (port : SpdmPort) (session : Nat) (v : BitVec 256) : (s.dropNonce port session v).pw = s.pw := rfl
@[simp] theorem State.dropNonce_cnt (port : SpdmPort) (session : Nat) (v : BitVec 256) : (s.dropNonce port session v).cnt = s.cnt := rfl
@[simp] theorem State.dropNonce_cal (port : SpdmPort) (session : Nat) (v : BitVec 256) : (s.dropNonce port session v).cal = s.cal := rfl
@[simp] theorem State.dropNonce_freeCtr (port : SpdmPort) (session : Nat) (v : BitVec 256) : (s.dropNonce port session v).freeCtr = s.freeCtr := rfl

/-! ### setCtr -/

@[simp] theorem State.setCtr_pending (block k : Nat) (c : Counter) : (s.setCtr block k c).pending = s.pending := rfl
@[simp] theorem State.setCtr_regs (block k : Nat) (c : Counter) : (s.setCtr block k c).regs = s.regs := rfl
@[simp] theorem State.setCtr_latch (block k : Nat) (c : Counter) : (s.setCtr block k c).latch = s.latch := rfl
@[simp] theorem State.setCtr_regWrites (block k : Nat) (c : Counter) : (s.setCtr block k c).regWrites = s.regWrites := rfl
@[simp] theorem State.setCtr_mem (block k : Nat) (c : Counter) : (s.setCtr block k c).mem = s.mem := rfl
@[simp] theorem State.setCtr_flights (block k : Nat) (c : Counter) : (s.setCtr block k c).flights = s.flights := rfl
@[simp] theorem State.setCtr_tk (block k : Nat) (c : Counter) : (s.setCtr block k c).tk = s.tk := rfl
@[simp] theorem State.setCtr_sync (block k : Nat) (c : Counter) : (s.setCtr block k c).sync = s.sync := rfl
@[simp] theorem State.setCtr_events (block k : Nat) (c : Counter) : (s.setCtr block k c).events = s.events := rfl
@[simp] theorem State.setCtr_evCount (block k : Nat) (c : Counter) : (s.setCtr block k c).evCount = s.evCount := rfl
@[simp] theorem State.setCtr_out (block k : Nat) (c : Counter) : (s.setCtr block k c).out = s.out := rfl
@[simp] theorem State.setCtr_hs (block k : Nat) (c : Counter) : (s.setCtr block k c).hs = s.hs := rfl
@[simp] theorem State.setCtr_ls (block k : Nat) (c : Counter) : (s.setCtr block k c).ls = s.ls := rfl
@[simp] theorem State.setCtr_insts (block k : Nat) (c : Counter) : (s.setCtr block k c).insts = s.insts := rfl
@[simp] theorem State.setCtr_images (block k : Nat) (c : Counter) : (s.setCtr block k c).images = s.images := rfl
@[simp] theorem State.setCtr_trust (block k : Nat) (c : Counter) : (s.setCtr block k c).trust = s.trust := rfl
@[simp] theorem State.setCtr_boot (block k : Nat) (c : Counter) : (s.setCtr block k c).boot = s.boot := rfl
@[simp] theorem State.setCtr_svc (block k : Nat) (c : Counter) : (s.setCtr block k c).svc = s.svc := rfl
@[simp] theorem State.setCtr_jtag (block k : Nat) (c : Counter) : (s.setCtr block k c).jtag = s.jtag := rfl
@[simp] theorem State.setCtr_faults (block k : Nat) (c : Counter) : (s.setCtr block k c).faults = s.faults := rfl
@[simp] theorem State.setCtr_bbx (block k : Nat) (c : Counter) : (s.setCtr block k c).bbx = s.bbx := rfl
@[simp] theorem State.setCtr_pw (block k : Nat) (c : Counter) : (s.setCtr block k c).pw = s.pw := rfl
@[simp] theorem State.setCtr_cnt_snapTick (block k : Nat) (c : Counter) : (s.setCtr block k c).cnt.snapTick = s.cnt.snapTick := rfl
@[simp] theorem State.setCtr_cnt_latched (block k : Nat) (c : Counter) : (s.setCtr block k c).cnt.latched = s.cnt.latched := rfl
@[simp] theorem State.setCtr_cnt_writes (block k : Nat) (c : Counter) : (s.setCtr block k c).cnt.writes = s.cnt.writes := rfl
@[simp] theorem State.setCtr_cnt_ownWrites (block k : Nat) (c : Counter) : (s.setCtr block k c).cnt.ownWrites = s.cnt.ownWrites := rfl
@[simp] theorem State.setCtr_cnt_holdDue (block k : Nat) (c : Counter) : (s.setCtr block k c).cnt.holdDue = s.cnt.holdDue := rfl
@[simp] theorem State.setCtr_cnt_holding (block k : Nat) (c : Counter) : (s.setCtr block k c).cnt.holding = s.cnt.holding := rfl
@[simp] theorem State.setCtr_cnt_bw (block k : Nat) (c : Counter) : (s.setCtr block k c).cnt.bw = s.cnt.bw := rfl
@[simp] theorem State.setCtr_cnt_bwDue (block k : Nat) (c : Counter) : (s.setCtr block k c).cnt.bwDue = s.cnt.bwDue := rfl
@[simp] theorem State.setCtr_cnt_bwTicks (block k : Nat) (c : Counter) : (s.setCtr block k c).cnt.bwTicks = s.cnt.bwTicks := rfl
@[simp] theorem State.setCtr_cal (block k : Nat) (c : Counter) : (s.setCtr block k c).cal = s.cal := rfl
@[simp] theorem State.setCtr_freeCtr (block k : Nat) (c : Counter) : (s.setCtr block k c).freeCtr = s.freeCtr := rfl

/-! ### The next free value -/

@[simp] theorem State.free_pending : s.free.2.pending = s.pending := rfl
@[simp] theorem State.free_regs : s.free.2.regs = s.regs := rfl
@[simp] theorem State.free_latch : s.free.2.latch = s.latch := rfl
@[simp] theorem State.free_regWrites : s.free.2.regWrites = s.regWrites := rfl
@[simp] theorem State.free_mem : s.free.2.mem = s.mem := rfl
@[simp] theorem State.free_flights : s.free.2.flights = s.flights := rfl
@[simp] theorem State.free_tk : s.free.2.tk = s.tk := rfl
@[simp] theorem State.free_sync : s.free.2.sync = s.sync := rfl
@[simp] theorem State.free_events : s.free.2.events = s.events := rfl
@[simp] theorem State.free_evCount : s.free.2.evCount = s.evCount := rfl
@[simp] theorem State.free_out : s.free.2.out = s.out := rfl
@[simp] theorem State.free_hs : s.free.2.hs = s.hs := rfl
@[simp] theorem State.free_ls : s.free.2.ls = s.ls := rfl
@[simp] theorem State.free_insts : s.free.2.insts = s.insts := rfl
@[simp] theorem State.free_images : s.free.2.images = s.images := rfl
@[simp] theorem State.free_trust : s.free.2.trust = s.trust := rfl
@[simp] theorem State.free_boot : s.free.2.boot = s.boot := rfl
@[simp] theorem State.free_svc : s.free.2.svc = s.svc := rfl
@[simp] theorem State.free_jtag : s.free.2.jtag = s.jtag := rfl
@[simp] theorem State.free_faults : s.free.2.faults = s.faults := rfl
@[simp] theorem State.free_bbx : s.free.2.bbx = s.bbx := rfl
@[simp] theorem State.free_pw : s.free.2.pw = s.pw := rfl
@[simp] theorem State.free_cnt : s.free.2.cnt = s.cnt := rfl
@[simp] theorem State.free_cal : s.free.2.cal = s.cal := rfl

/-! ### kept -/

@[simp] theorem State.kept_pending (t : State) : (s.kept t).pending = s.pending := rfl
@[simp] theorem State.kept_regs (t : State) : (s.kept t).regs = t.regs := rfl
@[simp] theorem State.kept_latch (t : State) : (s.kept t).latch = t.latch := rfl
@[simp] theorem State.kept_regWrites (t : State) : (s.kept t).regWrites = t.regWrites := rfl
@[simp] theorem State.kept_mem (t : State) : (s.kept t).mem = t.mem := rfl
@[simp] theorem State.kept_flights (t : State) : (s.kept t).flights = s.flights := rfl
@[simp] theorem State.kept_tk_running (t : State) : (s.kept t).tk.running = t.tk.running := rfl
@[simp] theorem State.kept_tk_count (t : State) : (s.kept t).tk.count = s.tk.count := rfl
@[simp] theorem State.kept_tk_replay (t : State) : (s.kept t).tk.replay = t.tk.replay := rfl
@[simp] theorem State.kept_tk_replayNext (t : State) : (s.kept t).tk.replayNext = t.tk.replayNext := rfl
@[simp] theorem State.kept_tk_lateMark (t : State) : (s.kept t).tk.lateMark = t.tk.lateMark := rfl
@[simp] theorem State.kept_tk_now (t : State) : (s.kept t).tk.now = t.tk.now := rfl
@[simp] theorem State.kept_tk_lastStretch (t : State) : (s.kept t).tk.lastStretch = t.tk.lastStretch := rfl
@[simp] theorem State.kept_tk_period (t : State) : (s.kept t).tk.period = t.tk.period := rfl
@[simp] theorem State.kept_tk_seats (t : State) : (s.kept t).tk.seats = t.tk.seats := rfl
@[simp] theorem State.kept_tk_tickStem (t : State) : (s.kept t).tk.tickStem = t.tk.tickStem := rfl
@[simp] theorem State.kept_tk_pend (t : State) : (s.kept t).tk.pend = t.tk.pend := rfl
@[simp] theorem State.kept_tk_lateWindows (t : State) : (s.kept t).tk.lateWindows = t.tk.lateWindows := rfl
@[simp] theorem State.kept_sync (t : State) : (s.kept t).sync = t.sync := rfl
@[simp] theorem State.kept_events (t : State) : (s.kept t).events = t.events := rfl
@[simp] theorem State.kept_evCount (t : State) : (s.kept t).evCount = t.evCount := rfl
@[simp] theorem State.kept_out (t : State) : (s.kept t).out = t.out := rfl
@[simp] theorem State.kept_hs (t : State) : (s.kept t).hs = t.hs := rfl
@[simp] theorem State.kept_ls (t : State) : (s.kept t).ls = t.ls := rfl
@[simp] theorem State.kept_insts (t : State) : (s.kept t).insts = t.insts := rfl
@[simp] theorem State.kept_images (t : State) : (s.kept t).images = t.images := rfl
@[simp] theorem State.kept_trust (t : State) : (s.kept t).trust = t.trust := rfl
@[simp] theorem State.kept_boot (t : State) : (s.kept t).boot = t.boot := rfl
@[simp] theorem State.kept_svc (t : State) : (s.kept t).svc = s.svc := rfl
@[simp] theorem State.kept_jtag (t : State) : (s.kept t).jtag = s.jtag := rfl
@[simp] theorem State.kept_faults (t : State) : (s.kept t).faults = t.faults := rfl
@[simp] theorem State.kept_bbx (t : State) : (s.kept t).bbx = t.bbx := rfl
@[simp] theorem State.kept_pw (t : State) : (s.kept t).pw = t.pw := rfl
@[simp] theorem State.kept_cnt (t : State) : (s.kept t).cnt = t.cnt := rfl
@[simp] theorem State.kept_cal (t : State) : (s.kept t).cal = t.cal := rfl
@[simp] theorem State.kept_freeCtr (t : State) : (s.kept t).freeCtr = t.freeCtr := rfl

/-! ### Reading back -/

@[simp] theorem State.reg_def (off : Nat) : s.regC 0 off = s.reg off := rfl

@[simp] theorem State.regC_setRegC (c off : Nat) (v : Word) : (s.setRegC c off v).regC c off = v := smGet_set_self ..

theorem State.regC_setRegC_ne (c off c' off' : Nat) (v : Word) (h : regKey c' off' ≠ regKey c off) :
    (s.setRegC c off v).regC c' off' = s.regC c' off' := smGet_set_ne _ _ _ h

@[simp] theorem State.reg_setReg (off : Nat) (v : Word) : (s.setReg off v).reg off = v := smGet_set_self ..

theorem State.reg_setReg_ne (off off' : Nat) (v : Word) (h : off' ≠ off) : (s.setReg off v).reg off' = s.reg off' :=
  smGet_set_ne _ _ _ (by unfold regKey; omega)

@[simp] theorem State.reg_setFld (off hi lo v : Nat) : (s.setFld off hi lo v).reg off = (s.reg off).setField hi lo v := smGet_set_self ..

theorem State.reg_setFld_ne (off hi lo v off' : Nat) (h : off' ≠ off) : (s.setFld off hi lo v).reg off' = s.reg off' :=
  smGet_set_ne _ _ _ (by unfold regKey; omega)

@[simp] theorem State.ringAt_setRing (k : Nat) (r : Ring) : (s.setRing k r).ringAt k = r := smGet_set_self ..

theorem State.ringAt_setRing_ne (k j : Nat) (r : Ring) (h : j ≠ k) : (s.setRing k r).ringAt j = s.ringAt j := smGet_set_ne _ _ _ h

@[simp] theorem State.handleAt_setHandle (h : Nat) (x : Handle) : (s.setHandle h x).handleAt h = x := smGet_set_self ..

@[simp] theorem State.lexAt_setLex (id : Nat) (e : LexEntry) : (s.setLex id e).lexAt id = e := smGet_set_self ..

@[simp] theorem State.trainAt_setTrain (id : Nat) (x : TrainObj) : (s.setTrain id x).trainAt id = x := smGet_set_self ..

@[simp] theorem State.slotAt_setSlot (n : Nat) (a : AffixSlot) : (s.setSlot n a).slotAt n = a := smGet_set_self ..

@[simp] theorem State.keyAt_setKey (n : Nat) (k : KeySlot) : (s.setKey n k).keyAt n = k := smGet_set_self ..

@[simp] theorem State.ctr_setCtr (b k : Nat) (c : Counter) : (s.setCtr b k c).ctr b k = c := smGet_set_self ..

@[simp] theorem State.instAt_updInst (n : Nat) (f : Inst → Inst) : (s.updInst n f).instAt n = f (s.instAt n) := smGet_set_self ..

theorem State.instAt_updInst_ne (n j : Nat) (f : Inst → Inst) (h : j ≠ n) : (s.updInst n f).instAt j = s.instAt j := smGet_set_ne _ _ _ h

/-! ### Fields of a word -/

/-- The bits of a word after a field of it is replaced. -/
theorem Word.setField_testBit (w : Word) (hi lo v i : Nat) (h : lo ≤ hi) (h32 : hi < 32) :
    (w.setField hi lo v).toNat.testBit i =
      if lo ≤ i ∧ i ≤ hi then v.testBit (i - lo) else w.toNat.testBit i := by
  unfold Word.setField
  have hw := w.isLt
  generalize hx : w.toNat = x at *
  change (BitVec.ofNat 32 (x - x / 2 ^ lo % 2 ^ (hi + 1 - lo) * 2 ^ lo + v % 2 ^ (hi + 1 - lo) * 2 ^ lo)).toNat.testBit i = _
  generalize hn : hi + 1 - lo = n
  have e1 := Nat.div_add_mod x (2 ^ lo)
  have e2 := Nat.div_add_mod (x / 2 ^ lo) (2 ^ n)
  have l1 : x % 2 ^ lo < 2 ^ lo := Nat.mod_lt _ (Nat.two_pow_pos lo)
  have l3 : v % 2 ^ n < 2 ^ n := Nat.mod_lt _ (Nat.two_pow_pos n)
  have es : x - x / 2 ^ lo % 2 ^ n * 2 ^ lo + v % 2 ^ n * 2 ^ lo = 2 ^ lo * (2 ^ n * (x / 2 ^ lo / 2 ^ n) + v % 2 ^ n) + x % 2 ^ lo := by
    have ex : x = 2 ^ lo * (2 ^ n * (x / 2 ^ lo / 2 ^ n)) + x / 2 ^ lo % 2 ^ n * 2 ^ lo + x % 2 ^ lo := by
      conv_lhs => rw [← e1, ← e2]
      ring
    have ey : 2 ^ lo * (2 ^ n * (x / 2 ^ lo / 2 ^ n) + v % 2 ^ n) = 2 ^ lo * (2 ^ n * (x / 2 ^ lo / 2 ^ n)) + v % 2 ^ n * 2 ^ lo := by ring
    omega
  rw [es, BitVec.toNat_ofNat, Nat.testBit_mod_two_pow, Nat.testBit_two_pow_mul_add _ l1, Nat.testBit_two_pow_mul_add _ l3]
  simp only [Nat.testBit_mod_two_pow, Nat.testBit_div_two_pow]
  by_cases hi32 : i < 32
  · simp only [hi32, decide_true, Bool.true_and]
    by_cases a : i < lo
    · rw [if_pos a, if_neg (by omega)]; simp [a]
    · rw [if_neg a]
      by_cases b : i - lo < n
      · rw [if_pos b, if_pos (by omega)]; simp [b]
      · rw [if_neg b, if_neg (by omega)]
        congr 1; omega
  · simp only [hi32, decide_false, Bool.false_and]
    rw [if_neg (by omega)]
    exact (Nat.testBit_lt_two_pow (Nat.lt_of_lt_of_le hw (Nat.pow_le_pow_right (by omega) (by omega)))).symm

theorem Word.field_testBit (w : Word) (hi lo i : Nat) : (w.field hi lo).testBit i = (decide (i < hi + 1 - lo) && w.toNat.testBit (i + lo)) := by
  unfold Word.field
  rw [Nat.testBit_mod_two_pow, Nat.testBit_div_two_pow]

/-- A field within the word reads back what was written, modulo its width. -/
theorem Word.field_setField (w : Word) (hi lo v : Nat) (h : lo ≤ hi) (h32 : hi < 32) :
    (w.setField hi lo v).field hi lo = v % 2 ^ (hi + 1 - lo) := by
  apply Nat.eq_of_testBit_eq
  intro i
  rw [Word.field_testBit, Word.setField_testBit _ _ _ _ _ h h32, Nat.testBit_mod_two_pow]
  by_cases hi' : i < hi + 1 - lo
  · rw [if_pos (by omega)]; simp
  · simp [hi']

/-- A field that the replaced one does not meet reads as before. -/
theorem Word.field_setField_ne (w : Word) (hi lo v a b : Nat) (h : lo ≤ hi) (h32 : hi < 32) (d : hi < b ∨ a < lo) :
    (w.setField hi lo v).field a b = w.field a b := by
  apply Nat.eq_of_testBit_eq
  intro i
  rw [Word.field_testBit, Word.field_testBit, Word.setField_testBit _ _ _ _ _ h h32]
  by_cases hi' : i < a + 1 - b
  · rw [if_neg (by omega)]
  · simp [hi']

@[simp] theorem State.fld_setFld (off hi lo v : Nat) (h : lo ≤ hi) (h32 : hi < 32) :
    (s.setFld off hi lo v).fld off hi lo = v % 2 ^ (hi + 1 - lo) := by
  unfold State.fld
  rw [State.reg_setFld, Word.field_setField _ _ _ _ h h32]

theorem State.fld_setFld_ne (off hi lo v a b : Nat) (h : lo ≤ hi) (h32 : hi < 32) (d : hi < b ∨ a < lo) :
    (s.setFld off hi lo v).fld off a b = s.fld off a b := by
  unfold State.fld
  rw [State.reg_setFld, Word.field_setField_ne _ _ _ _ _ _ h h32 d]

theorem State.fld_setFld_off (off hi lo v off' a b : Nat) (h : off' ≠ off) : (s.setFld off hi lo v).fld off' a b = s.fld off' a b := by
  unfold State.fld
  rw [State.reg_setFld_ne _ _ _ _ _ _ h]

end Sys2Proof.Machine
end

