-- ==== Sys2Proof/Laws/Frame.lean ====
section
/-! SUPPORT. What each shared operation may change: one frame for each, and how frames compose. -/

namespace Sys2Proof.Machine

variable {ps qs : List Part} {ks js : List Nat} {s t u : State}

/-! ### Frames compose -/

theorem Part.same_refl (p : Part) : p.same s s := by cases p <;> rfl

theorem Part.same_trans {p : Part} (h : p.same s t) (g : p.same t u) : p.same s u := by
  cases p <;> exact Eq.trans g h

theorem changesOnly.refl : changesOnly ps s s := fun p _ => p.same_refl

theorem changesOnly.trans (h : changesOnly ps s t) (g : changesOnly ps t u) : changesOnly ps s u :=
  fun p hp => Part.same_trans (h p hp) (g p hp)

theorem changesOnly.mono (h : changesOnly ps s t) (hs : ∀ p ∈ ps, p ∈ qs) : changesOnly qs s t := fun p hp => h p fun x => hp (hs p x)

theorem regsOnly.refl : regsOnly ks s s := fun _ _ => rfl

theorem regsOnly.trans (h : regsOnly ks s t) (g : regsOnly ks t u) : regsOnly ks s u := fun k hk => (g k hk).trans (h k hk)

theorem regsOnly.mono (h : regsOnly ks s t) (hs : ∀ k ∈ ks, k ∈ js) : regsOnly js s t := fun k hk => h k fun x => hk (hs k x)

theorem regsOnly.of_regs (h : t.regs = s.regs) : regsOnly ks s t := fun k _ => by rw [h]

theorem framed.refl : framed ps ks s s := ⟨.refl, .refl⟩

theorem framed.trans (h : framed ps ks s t) (g : framed ps ks t u) : framed ps ks s u := ⟨h.1.trans g.1, h.2.trans g.2⟩

theorem framed.mono (h : framed ps ks s t) (hp : ∀ p ∈ ps, p ∈ qs) (hk : ∀ k ∈ ks, k ∈ js) : framed qs js s t := ⟨h.1.mono hp, h.2.mono hk⟩

theorem framed.ite {c : Prop} [Decidable c] {a b : State} (h : c → framed ps ks s a) (g : ¬ c → framed ps ks s b) :
    framed ps ks s (if c then a else b) := by
  split
  · exact h ‹_›
  · exact g ‹_›

theorem framed.foldl {α : Type} (f : State → α → State) (l : List α) (h : ∀ v x, framed ps ks v (f v x)) (s : State) :
    framed ps ks s (l.foldl f s) := by
  induction l generalizing s with
  | nil => exact .refl
  | cons x l ih => exact (h s x).trans (ih _)

/-- A fold at the end of a run: the frame reaches past it when each of its steps keeps it. -/
theorem framed.fold {α : Type} {u : State} {f : State → α → State} {l : List α} (h : framed ps ks s u)
    (hf : ∀ v x, framed ps ks v (f v x)) : framed ps ks s (l.foldl f u) := h.trans (.foldl f l hf u)

/-- What `keep` hands on: a frame that names none of what it restores stays. -/
theorem framed.kept (h : framed ps ks s t) : framed ps ks s (s.kept t) := by
  refine ⟨fun p hp => ?_, h.2⟩
  have := h.1 p hp
  cases p <;> first | exact this | rfl

/-- A command that ends in `keep`. -/
theorem keep_frame {o : Host.Outcome State Fault Refusal} (e : o = keep s u) (h : framed ps ks s u) :
    o = .next (s.kept u) ∧ framed ps ks s (s.kept u) := ⟨e, h.kept⟩

theorem regKey_zero (off : Nat) : regKey 0 off = off := by simp [regKey]

theorem regsOnly.reg (h : regsOnly ks s t) {off : Nat} (hk : off ∉ ks) : t.reg off = s.reg off := by
  have := h off hk
  simpa [State.reg, State.regC, regKey_zero] using this

theorem regsOnly.regC (h : regsOnly ks s t) {c off : Nat} (hk : regKey c off ∉ ks) : t.regC c off = s.regC c off := h _ hk

theorem framed.reg (h : framed ps ks s t) {off : Nat} (hk : off ∉ ks) : t.reg off = s.reg off := h.2.reg hk

theorem framed.regC (h : framed ps ks s t) {c off : Nat} (hk : regKey c off ∉ ks) : t.regC c off = s.regC c off := h.2.regC hk

theorem framed.fld (h : framed ps ks s t) {off hi lo : Nat} (hk : off ∉ ks) : t.fld off hi lo = s.fld off hi lo := by
  unfold State.fld; rw [h.reg hk]

@[simp] theorem State.kept_reg (s t : State) (off : Nat) : (s.kept t).reg off = t.reg off := rfl

@[simp] theorem State.kept_regC (s t : State) (c off : Nat) : (s.kept t).regC c off = t.regC c off := rfl

@[simp] theorem State.kept_fld (s t : State) (off hi lo : Nat) : (s.kept t).fld off hi lo = t.fld off hi lo := rfl

@[simp] theorem State.kept_self (s : State) : s.kept s = s := rfl

/-! ### One part replaced -/

theorem framed_pending (s : State) (x : List Instr) : framed [.pending] [] s { s with pending := x } :=
  ⟨fun p hp => by cases p <;> first | (simp at hp; done) | rfl, .of_regs rfl⟩

theorem framed_latch (s : State) (x : SMap Word) : framed [.latch] [] s { s with latch := x } :=
  ⟨fun p hp => by cases p <;> first | (simp at hp; done) | rfl, .of_regs rfl⟩

theorem framed_regWrites (s : State) (x : List (Nat × Word)) : framed [.regWrites] [] s { s with regWrites := x } :=
  ⟨fun p hp => by cases p <;> first | (simp at hp; done) | rfl, .of_regs rfl⟩

theorem framed_sp (s : State) (x : Mem) : framed [.sp] [] s { s with mem := { s.mem with sp := x } } :=
  ⟨fun p hp => by cases p <;> first | (simp at hp; done) | rfl, .of_regs rfl⟩

theorem framed_hbm (s : State) (x : Mem) : framed [.hbm] [] s { s with mem := { s.mem with hbm := x } } :=
  ⟨fun p hp => by cases p <;> first | (simp at hp; done) | rfl, .of_regs rfl⟩

theorem framed_acc (s : State) (x : Mem) : framed [.acc] [] s { s with mem := { s.mem with acc := x } } :=
  ⟨fun p hp => by cases p <;> first | (simp at hp; done) | rfl, .of_regs rfl⟩

theorem framed_scale (s : State) (x : SMap Word) : framed [.scale] [] s { s with mem := { s.mem with scale := x } } :=
  ⟨fun p hp => by cases p <;> first | (simp at hp; done) | rfl, .of_regs rfl⟩

theorem framed_staging (s : State) (x : Mem) : framed [.staging] [] s { s with mem := { s.mem with staging := x } } :=
  ⟨fun p hp => by cases p <;> first | (simp at hp; done) | rfl, .of_regs rfl⟩

theorem framed_host (s : State) (x : Mem) : framed [.host] [] s { s with mem := { s.mem with host := x } } :=
  ⟨fun p hp => by cases p <;> first | (simp at hp; done) | rfl, .of_regs rfl⟩

theorem framed_flash (s : State) (x : Mem) : framed [.flash] [] s { s with mem := { s.mem with flash := x } } :=
  ⟨fun p hp => by cases p <;> first | (simp at hp; done) | rfl, .of_regs rfl⟩

theorem framed_bootMem (s : State) (x : Mem) : framed [.bootMem] [] s { s with mem := { s.mem with boot := x } } :=
  ⟨fun p hp => by cases p <;> first | (simp at hp; done) | rfl, .of_regs rfl⟩

theorem framed_mram (s : State) (x : Mem) : framed [.mram] [] s { s with mem := { s.mem with mram := x } } :=
  ⟨fun p hp => by cases p <;> first | (simp at hp; done) | rfl, .of_regs rfl⟩

theorem framed_ctx (s : State) (x : Mem) : framed [.ctx] [] s { s with mem := { s.mem with ctx := x } } :=
  ⟨fun p hp => by cases p <;> first | (simp at hp; done) | rfl, .of_regs rfl⟩

theorem framed_win (s : State) (x : Mem) : framed [.win] [] s { s with mem := { s.mem with win := x } } :=
  ⟨fun p hp => by cases p <;> first | (simp at hp; done) | rfl, .of_regs rfl⟩

theorem framed_winM (s : State) (x : Mem) : framed [.winM] [] s { s with mem := { s.mem with winM := x } } :=
  ⟨fun p hp => by cases p <;> first | (simp at hp; done) | rfl, .of_regs rfl⟩

theorem framed_obj (s : State) (x : Mem) : framed [.obj] [] s { s with mem := { s.mem with obj := x } } :=
  ⟨fun p hp => by cases p <;> first | (simp at hp; done) | rfl, .of_regs rfl⟩

theorem framed_req (s : State) (x : Mem) : framed [.req] [] s { s with mem := { s.mem with req := x } } :=
  ⟨fun p hp => by cases p <;> first | (simp at hp; done) | rfl, .of_regs rfl⟩

theorem framed_slot (s : State) (x : Mem) : framed [.slot] [] s { s with mem := { s.mem with slot := x } } :=
  ⟨fun p hp => by cases p <;> first | (simp at hp; done) | rfl, .of_regs rfl⟩

theorem framed_hdr (s : State) (x : Mem) : framed [.hdr] [] s { s with mem := { s.mem with hdr := x } } :=
  ⟨fun p hp => by cases p <;> first | (simp at hp; done) | rfl, .of_regs rfl⟩

theorem framed_seen (s : State) (x : Mem) : framed [.seen] [] s { s with mem := { s.mem with seen := x } } :=
  ⟨fun p hp => by cases p <;> first | (simp at hp; done) | rfl, .of_regs rfl⟩

theorem framed_seenM (s : State) (x : Mem) : framed [.seenM] [] s { s with mem := { s.mem with seenM := x } } :=
  ⟨fun p hp => by cases p <;> first | (simp at hp; done) | rfl, .of_regs rfl⟩

theorem framed_flights (s : State) (x : Flights) : framed [.flights] [] s { s with flights := x } :=
  ⟨fun p hp => by cases p <;> first | (simp at hp; done) | rfl, .of_regs rfl⟩

theorem framed_running (s : State) (x : Bool) : framed [.running] [] s { s with tk := { s.tk with running := x } } :=
  ⟨fun p hp => by cases p <;> first | (simp at hp; done) | rfl, .of_regs rfl⟩

theorem framed_tickCount (s : State) (x : BitVec 64) : framed [.tickCount] [] s { s with tk := { s.tk with count := x } } :=
  ⟨fun p hp => by cases p <;> first | (simp at hp; done) | rfl, .of_regs rfl⟩

theorem framed_replay (s : State) (x : Bool) : framed [.replay] [] s { s with tk := { s.tk with replay := x } } :=
  ⟨fun p hp => by cases p <;> first | (simp at hp; done) | rfl, .of_regs rfl⟩

theorem framed_replayNext (s : State) (x : Bool) : framed [.replayNext] [] s { s with tk := { s.tk with replayNext := x } } :=
  ⟨fun p hp => by cases p <;> first | (simp at hp; done) | rfl, .of_regs rfl⟩

theorem framed_lateMark (s : State) (x : Bool) : framed [.lateMark] [] s { s with tk := { s.tk with lateMark := x } } :=
  ⟨fun p hp => by cases p <;> first | (simp at hp; done) | rfl, .of_regs rfl⟩

theorem framed_now (s : State) (x : Nat) : framed [.now] [] s { s with tk := { s.tk with now := x } } :=
  ⟨fun p hp => by cases p <;> first | (simp at hp; done) | rfl, .of_regs rfl⟩

theorem framed_lastStretch (s : State) (x : Option Nat) : framed [.lastStretch] [] s { s with tk := { s.tk with lastStretch := x } } :=
  ⟨fun p hp => by cases p <;> first | (simp at hp; done) | rfl, .of_regs rfl⟩

theorem framed_seats (s : State) (x : List Seat) : framed [.seats] [] s { s with tk := { s.tk with seats := x } } :=
  ⟨fun p hp => by cases p <;> first | (simp at hp; done) | rfl, .of_regs rfl⟩

theorem framed_tickStem (s : State) (x : List Nat) : framed [.tickStem] [] s { s with tk := { s.tk with tickStem := x } } :=
  ⟨fun p hp => by cases p <;> first | (simp at hp; done) | rfl, .of_regs rfl⟩

theorem framed_pend (s : State) (x : List Pend) : framed [.pend] [] s { s with tk := { s.tk with pend := x } } :=
  ⟨fun p hp => by cases p <;> first | (simp at hp; done) | rfl, .of_regs rfl⟩

theorem framed_lateWindows (s : State) (x : List (Nat × Nat)) : framed [.lateWindows] [] s { s with tk := { s.tk with lateWindows := x } } :=
  ⟨fun p hp => by cases p <;> first | (simp at hp; done) | rfl, .of_regs rfl⟩

theorem framed_sync (s : State) (x : Sync) : framed [.sync] [] s { s with sync := x } :=
  ⟨fun p hp => by cases p <;> first | (simp at hp; done) | rfl, .of_regs rfl⟩

theorem framed_events (s : State) (x : List Event) : framed [.events] [] s { s with events := x } :=
  ⟨fun p hp => by cases p <;> first | (simp at hp; done) | rfl, .of_regs rfl⟩

theorem framed_evCount (s : State) (x : SMap Nat) : framed [.evCount] [] s { s with evCount := x } :=
  ⟨fun p hp => by cases p <;> first | (simp at hp; done) | rfl, .of_regs rfl⟩

theorem framed_out (s : State) (x : List Out) : framed [.out] [] s { s with out := x } :=
  ⟨fun p hp => by cases p <;> first | (simp at hp; done) | rfl, .of_regs rfl⟩

theorem framed_rings (s : State) (x : SMap Ring) : framed [.rings] [] s { s with hs := { s.hs with rings := x } } :=
  ⟨fun p hp => by cases p <;> first | (simp at hp; done) | rfl, .of_regs rfl⟩

theorem framed_handles (s : State) (x : SMap Handle) : framed [.handles] [] s { s with hs := { s.hs with handles := x } } :=
  ⟨fun p hp => by cases p <;> first | (simp at hp; done) | rfl, .of_regs rfl⟩

theorem framed_reqs (s : State) (x : List Request) : framed [.reqs] [] s { s with hs := { s.hs with reqs := x } } :=
  ⟨fun p hp => by cases p <;> first | (simp at hp; done) | rfl, .of_regs rfl⟩

theorem framed_entries (s : State) (x : List (Nat × Nat × Entry)) : framed [.entries] [] s { s with hs := { s.hs with entries := x } } :=
  ⟨fun p hp => by cases p <;> first | (simp at hp; done) | rfl, .of_regs rfl⟩

theorem framed_cmdRecords (s : State) (x : List (Nat × BitVec 64 × Record)) : framed [.cmdRecords] [] s { s with hs := { s.hs with cmdRecords := x } } :=
  ⟨fun p hp => by cases p <;> first | (simp at hp; done) | rfl, .of_regs rfl⟩

theorem framed_readCount (s : State) (x : SMap Nat) : framed [.readCount] [] s { s with hs := { s.hs with readCount := x } } :=
  ⟨fun p hp => by cases p <;> first | (simp at hp; done) | rfl, .of_regs rfl⟩

theorem framed_lastRing (s : State) (x : SMap Nat) : framed [.lastRing] [] s { s with hs := { s.hs with lastRing := x } } :=
  ⟨fun p hp => by cases p <;> first | (simp at hp; done) | rfl, .of_regs rfl⟩

theorem framed_mgq (s : State) (x : List Mgq) : framed [.mgq] [] s { s with hs := { s.hs with mgq := x } } :=
  ⟨fun p hp => by cases p <;> first | (simp at hp; done) | rfl, .of_regs rfl⟩

theorem framed_linkUp (s : State) (x : Bool) : framed [.linkUp] [] s { s with hs := { s.hs with linkUp := x } } :=
  ⟨fun p hp => by cases p <;> first | (simp at hp; done) | rfl, .of_regs rfl⟩

theorem framed_immutable (s : State) (x : List (Nat × Nat × Nat)) : framed [.immutable] [] s { s with hs := { s.hs with immutable := x } } :=
  ⟨fun p hp => by cases p <;> first | (simp at hp; done) | rfl, .of_regs rfl⟩

theorem framed_evLost (s : State) (x : List Nat) : framed [.evLost] [] s { s with hs := { s.hs with evLost := x } } :=
  ⟨fun p hp => by cases p <;> first | (simp at hp; done) | rfl, .of_regs rfl⟩

theorem framed_lex (s : State) (x : SMap LexEntry) : framed [.lex] [] s { s with ls := { s.ls with lex := x } } :=
  ⟨fun p hp => by cases p <;> first | (simp at hp; done) | rfl, .of_regs rfl⟩

theorem framed_slots (s : State) (x : SMap AffixSlot) : framed [.slots] [] s { s with ls := { s.ls with slots := x } } :=
  ⟨fun p hp => by cases p <;> first | (simp at hp; done) | rfl, .of_regs rfl⟩

theorem framed_train (s : State) (x : SMap TrainObj) : framed [.train] [] s { s with ls := { s.ls with train := x } } :=
  ⟨fun p hp => by cases p <;> first | (simp at hp; done) | rfl, .of_regs rfl⟩

theorem framed_stems (s : State) (x : List StemSlot) : framed [.stems] [] s { s with ls := { s.ls with stems := x } } :=
  ⟨fun p hp => by cases p <;> first | (simp at hp; done) | rfl, .of_regs rfl⟩

theorem framed_fills (s : State) (x : List Fill) : framed [.fills] [] s { s with ls := { s.ls with fills := x } } :=
  ⟨fun p hp => by cases p <;> first | (simp at hp; done) | rfl, .of_regs rfl⟩

theorem framed_fetched (s : State) (x : SMap Nat) : framed [.fetched] [] s { s with ls := { s.ls with fetched := x } } :=
  ⟨fun p hp => by cases p <;> first | (simp at hp; done) | rfl, .of_regs rfl⟩

theorem framed_insts (s : State) (x : SMap Inst) : framed [.insts] [] s { s with insts := x } :=
  ⟨fun p hp => by cases p <;> first | (simp at hp; done) | rfl, .of_regs rfl⟩

theorem framed_images (s : State) (x : List (Nat × Image)) : framed [.images] [] s { s with images := x } :=
  ⟨fun p hp => by cases p <;> first | (simp at hp; done) | rfl, .of_regs rfl⟩

theorem framed_trust (s : State) (x : Trust) : framed [.trust] [] s { s with trust := x } :=
  ⟨fun p hp => by cases p <;> first | (simp at hp; done) | rfl, .of_regs rfl⟩

theorem framed_boot (s : State) (x : Boot) : framed [.boot] [] s { s with boot := x } :=
  ⟨fun p hp => by cases p <;> first | (simp at hp; done) | rfl, .of_regs rfl⟩

theorem framed_svc (s : State) (x : Service) : framed [.svc] [] s { s with svc := x } :=
  ⟨fun p hp => by cases p <;> first | (simp at hp; done) | rfl, .of_regs rfl⟩

theorem framed_jtag (s : State) (x : Jtag) : framed [.jtag] [] s { s with jtag := x } :=
  ⟨fun p hp => by cases p <;> first | (simp at hp; done) | rfl, .of_regs rfl⟩

theorem framed_faults (s : State) (x : Faults) : framed [.faults] [] s { s with faults := x } :=
  ⟨fun p hp => by cases p <;> first | (simp at hp; done) | rfl, .of_regs rfl⟩

theorem framed_bbx (s : State) (x : Bbx) : framed [.bbx] [] s { s with bbx := x } :=
  ⟨fun p hp => by cases p <;> first | (simp at hp; done) | rfl, .of_regs rfl⟩

theorem framed_pw (s : State) (x : Power) : framed [.pw] [] s { s with pw := x } :=
  ⟨fun p hp => by cases p <;> first | (simp at hp; done) | rfl, .of_regs rfl⟩

theorem framed_cnt (s : State) (x : Counting) : framed [.cnt] [] s { s with cnt := x } :=
  ⟨fun p hp => by cases p <;> first | (simp at hp; done) | rfl, .of_regs rfl⟩

theorem framed_cal (s : State) (x : Cal) : framed [.cal] [] s { s with cal := x } :=
  ⟨fun p hp => by cases p <;> first | (simp at hp; done) | rfl, .of_regs rfl⟩

theorem framed_freeCtr (s : State) (x : Nat) : framed [.freeCtr] [] s { s with freeCtr := x } :=
  ⟨fun p hp => by cases p <;> first | (simp at hp; done) | rfl, .of_regs rfl⟩

theorem framed_hdrM (s : State) (x : Mem) : framed [.hdrM] [] s { s with mem := { s.mem with hdrM := x } } :=
  ⟨fun p hp => by cases p <;> first | (simp at hp; done) | rfl, .of_regs rfl⟩

theorem framed_period (s : State) (x : Option Nat) : framed [.period] [] s { s with tk := { s.tk with period := x } } :=
  ⟨fun p hp => by cases p <;> first | (simp at hp; done) | rfl, .of_regs rfl⟩

theorem framed_mirror (s : State) (x : List HostCopy) : framed [.mirror] [] s { s with hs := { s.hs with mirror := x } } :=
  ⟨fun p hp => by cases p <;> first | (simp at hp; done) | rfl, .of_regs rfl⟩

theorem framed_resizeQ (s : State) (x : List Nat) : framed [.resizeQ] [] s { s with hs := { s.hs with resizeQ := x } } :=
  ⟨fun p hp => by cases p <;> first | (simp at hp; done) | rfl, .of_regs rfl⟩

theorem framed_instOps (s : State) (x : List (Nat × Nat)) : framed [.instOps] [] s { s with hs := { s.hs with instOps := x } } :=
  ⟨fun p hp => by cases p <;> first | (simp at hp; done) | rfl, .of_regs rfl⟩

theorem framed_lexCopies (s : State) (x : List (SMap (List Word))) : framed [.lexCopies] [] s { s with ls := { s.ls with lexCopies := x } } :=
  ⟨fun p hp => by cases p <;> first | (simp at hp; done) | rfl, .of_regs rfl⟩

theorem framed_placed (s : State) (x : List Placed) : framed [.placed] [] s { s with ls := { s.ls with placed := x } } :=
  ⟨fun p hp => by cases p <;> first | (simp at hp; done) | rfl, .of_regs rfl⟩

theorem framed_cache (s : State) (x : SMap Nat) : framed [.cache] [] s { s with ls := { s.ls with cache := x } } :=
  ⟨fun p hp => by cases p <;> first | (simp at hp; done) | rfl, .of_regs rfl⟩

theorem framed_driveMib (s : State) (x : SMap Nat) : framed [.driveMib] [] s { s with ls := { s.ls with driveMib := x } } :=
  ⟨fun p hp => by cases p <;> first | (simp at hp; done) | rfl, .of_regs rfl⟩

/-! ### Registers -/

theorem State.setReg_framed (s : State) (off : Nat) (v : Word) : framed [.regs] [off] s (s.setReg off v) := by
  refine ⟨fun p hp => by cases p <;> first | (simp at hp; done) | rfl, fun k hk => ?_⟩
  simp only [List.mem_singleton] at hk
  exact smGet_set_ne _ _ _ (by rw [regKey_zero]; exact hk)

theorem State.setRegC_framed (s : State) (c off : Nat) (v : Word) : framed [.regs] [regKey c off] s (s.setRegC c off v) := by
  refine ⟨fun p hp => by cases p <;> first | (simp at hp; done) | rfl, fun k hk => ?_⟩
  simp only [List.mem_singleton] at hk
  exact smGet_set_ne _ _ _ hk

theorem State.setFld_framed (s : State) (off hi lo v : Nat) : framed [.regs] [off] s (s.setFld off hi lo v) := s.setReg_framed off _

theorem State.setFldC_framed (s : State) (c off hi lo v : Nat) : framed [.regs] [regKey c off] s (s.setFldC c off hi lo v) := s.setRegC_framed c off _

theorem State.count_framed (s : State) (off hi lo n : Nat) : framed [.regs] [off] s (s.count off hi lo n) := s.setFld_framed off hi lo _

theorem State.setReg64_framed (s : State) (lo hi v : Nat) : framed [.regs] [lo, hi] s (s.setReg64 lo hi v) :=
  ((s.setReg_framed lo _).mono (by simp) (by simp)).trans ((State.setReg_framed _ hi _).mono (by simp) (by simp))

theorem State.countScoped_framed (s : State) (off : Nat) (inst : Option Nat) (n : Nat) :
    framed [.regs] (off :: inst.toList.map fun i => regKey (i + 1) off) s (s.countScoped off inst n) := by
  unfold State.countScoped
  cases inst with
  | none => exact s.count_framed off 31 0 n
  | some i => exact ((s.count_framed off 31 0 n).mono (by simp) (by simp)).trans ((State.setRegC_framed _ (i + 1) off _).mono (by simp) (by simp))

/-! ### Single parts -/

theorem State.setLatch_framed (s : State) (fn off : Nat) (v : Word) : framed [.latch] [] s (s.setLatch fn off v) :=
  ⟨fun p hp => by cases p <;> first | (simp at hp; done) | rfl, .of_regs rfl⟩

theorem State.updInst_framed (s : State) (n : Nat) (f : Inst → Inst) : framed [.insts] [] s (s.updInst n f) :=
  ⟨fun p hp => by cases p <;> first | (simp at hp; done) | rfl, .of_regs rfl⟩

theorem State.setRing_framed (s : State) (k : Nat) (r : Ring) : framed [.rings] [] s (s.setRing k r) :=
  ⟨fun p hp => by cases p <;> first | (simp at hp; done) | rfl, .of_regs rfl⟩

theorem State.setHandle_framed (s : State) (h : Nat) (x : Handle) : framed [.handles] [] s (s.setHandle h x) :=
  ⟨fun p hp => by cases p <;> first | (simp at hp; done) | rfl, .of_regs rfl⟩

theorem State.updReq_framed (s : State) (h : Nat) (f : Request → Request) : framed [.reqs] [] s (s.updReq h f) :=
  ⟨fun p hp => by cases p <;> first | (simp at hp; done) | rfl, .of_regs rfl⟩

theorem State.setLex_framed (s : State) (id : Nat) (e : LexEntry) : framed [.lex, .lexCopies] [] s (s.setLex id e) :=
  ⟨fun p hp => by cases p <;> first | (simp at hp; done) | rfl, .of_regs rfl⟩

theorem State.setTrain_framed (s : State) (id : Nat) (x : TrainObj) : framed [.train] [] s (s.setTrain id x) :=
  ⟨fun p hp => by cases p <;> first | (simp at hp; done) | rfl, .of_regs rfl⟩

theorem State.setSlot_framed (s : State) (n : Nat) (a : AffixSlot) : framed [.slots] [] s (s.setSlot n a) :=
  ⟨fun p hp => by cases p <;> first | (simp at hp; done) | rfl, .of_regs rfl⟩

theorem State.setStem_framed (s : State) (n : Nat) (a : StemSlot) : framed [.stems] [] s (s.setStem n a) :=
  ⟨fun p hp => by cases p <;> first | (simp at hp; done) | rfl, .of_regs rfl⟩

theorem State.setKey_framed (s : State) (n : Nat) (k : KeySlot) : framed [.trust] [] s (s.setKey n k) :=
  ⟨fun p hp => by cases p <;> first | (simp at hp; done) | rfl, .of_regs rfl⟩

theorem State.queueKey_framed (s : State) (o : KeyOp) : framed [.trust] [] s (s.queueKey o) :=
  ⟨fun p hp => by cases p <;> first | (simp at hp; done) | rfl, .of_regs rfl⟩

theorem State.dropNonce_framed (s : State) (port : SpdmPort) (session : Nat) (v : BitVec 256) : framed [.trust] [] s (s.dropNonce port session v) :=
  ⟨fun p hp => by cases p <;> first | (simp at hp; done) | rfl, .of_regs rfl⟩

theorem State.setCtr_framed (s : State) (block k : Nat) (c : Counter) : framed [.cnt] [] s (s.setCtr block k c) :=
  ⟨fun p hp => by cases p <;> first | (simp at hp; done) | rfl, .of_regs rfl⟩

theorem State.free_framed (s : State) : framed [.freeCtr] [] s s.free.2 :=
  ⟨fun p hp => by cases p <;> first | (simp at hp; done) | simp [Part.same], .of_regs (by simp)⟩

/-! ### Events and the black box -/

theorem State.bbxShow_framed (s : State) : framed [.regs] [Reg.BBX_STATUS] s s.bbxShow := s.setFld_framed _ _ _ _

theorem State.bbxPut_framed (s : State) (rclass : Nat) (inst : Option Nat) (code : Nat) (payload : List Word) :
    framed [.regs, .bbx] eventRegs s (s.bbxPut rclass inst code payload) := by
  unfold State.bbxPut
  split
  · exact .refl
  · split
    · exact ((s.count_framed Reg.BBX_LOST 31 0 1).mono (by simp) (by simp [eventRegs])).trans ((framed_bbx _ _).mono (by simp) (by simp))
    · exact ((framed_bbx s _).mono (by simp) (by simp)).trans ((State.bbxShow_framed _).mono (by simp) (by simp [eventRegs]))

theorem State.raiseTo_framed (s : State) (code : Nat) (inst : Option Nat) (payload : List Word) (dests : List Nat) :
    framed eventParts eventRegs s (s.raiseTo code inst payload dests) := by
  unfold State.raiseTo
  have h1 : framed eventParts eventRegs s { s with events := s.events ++ [⟨code, inst, payload, dests⟩] } :=
    ⟨fun p hp => by cases p <;> first | (simp [eventParts] at hp; done) | rfl, .of_regs rfl⟩
  simp only
  split
  · exact h1.trans ((State.bbxPut_framed _ 1 inst code payload).mono (by simp [eventParts]) (by simp))
  · exact h1

@[simp] theorem State.bbxPut_events (s : State) (rclass : Nat) (inst : Option Nat) (code : Nat) (payload : List Word) :
    (s.bbxPut rclass inst code payload).events = s.events := (s.bbxPut_framed rclass inst code payload).1 .events (by simp)

@[simp] theorem State.raiseTo_events (s : State) (code : Nat) (inst : Option Nat) (payload : List Word) (dests : List Nat) :
    (s.raiseTo code inst payload dests).events = s.events ++ [⟨code, inst, payload, dests⟩] := by
  unfold State.raiseTo
  simp only
  split
  · rw [State.bbxPut_events]
  · rfl

theorem State.raisePf_framed (s : State) (code : Nat) (payload : List Word) : framed eventParts eventRegs s (s.raisePf code payload) :=
  s.raiseTo_framed _ _ _ _

theorem State.raiseInst_framed (s : State) (code inst : Nat) (payload : List Word) :
    framed eventParts eventRegs s (s.raiseInst code inst payload) := s.raiseTo_framed _ _ _ _

theorem State.raiseAll_framed (s : State) (code : Nat) (payload : List Word) : framed eventParts eventRegs s (s.raiseAll code payload) :=
  s.raiseTo_framed _ _ _ _

@[simp] theorem State.raisePf_events (s : State) (code : Nat) (payload : List Word) :
    (s.raisePf code payload).events = s.events ++ [⟨code, none, payload, []⟩] := s.raiseTo_events _ _ _ _

@[simp] theorem State.raiseInst_events (s : State) (code inst : Nat) (payload : List Word) :
    (s.raiseInst code inst payload).events = s.events ++ [⟨code, some inst, payload, [inst]⟩] := s.raiseTo_events _ _ _ _

@[simp] theorem State.raiseAll_events (s : State) (code : Nat) (payload : List Word) :
    (s.raiseAll code payload).events = s.events ++ [⟨code, none, payload, List.range 64⟩] := s.raiseTo_events _ _ _ _

/-! ### Counted events -/

theorem State.tally_framed (s : State) (e : CntEv) : framed [.cnt] [] s (s.tally e) := by
  unfold State.tally
  split
  · exact .refl
  · refine framed.foldl _ _ (fun v k => ?_) s
    simp only
    split
    · exact v.setCtr_framed _ _ _
    · exact .refl

theorem State.tallyPlain_framed (s : State) (block event n : Nat) : framed [.cnt] [] s (s.tallyPlain block event n) := s.tally_framed _

theorem State.tallyPort_framed (s : State) (port tx rx : Nat) : framed [.cnt] [] s (s.tallyPort port tx rx) := by
  unfold State.tallyPort
  split
  · exact .refl
  · exact ⟨fun p hp => by cases p <;> first | (simp at hp; done) | rfl, .of_regs rfl⟩

theorem State.tallyCache_framed (s : State) (n tx rx : Nat) : framed [.cnt] [] s (s.tallyCache n tx rx) :=
  (s.tally_framed _).trans (State.tallyPort_framed _ _ _ _)

theorem State.tallyFetch_framed (s : State) (inst : Option Nat) (tier port n : Nat) :
    framed [.cnt] [] s (s.tallyFetch inst tier port n) := by
  unfold State.tallyFetch
  have h1 : framed [.cnt] [] s (if tier ≤ 1 then s.tally ⟨0x101, 1, 7, inst, none, 0xFF, none, n⟩ else s) :=
    framed.ite (fun _ => s.tally_framed _) fun _ => .refl
  simp only
  split
  · exact h1.trans (State.tallyCache_framed _ _ _ _)
  · exact h1.trans ((State.tally_framed _ _).trans (State.tallyPort_framed _ _ _ _))
  · exact h1

theorem State.tallySource_framed (s : State) (inst : Option Nat) (m : Manifest) (x : Shard) (turn n : Nat) :
    framed [.cnt] [] s (s.tallySource inst m x turn n) := by
  unfold State.tallySource
  split
  · exact s.tallyFetch_framed _ _ _ _
  · exact .refl

/-! ### The sealed key table -/

theorem State.seal_framed (s : State) : framed [.trust] [] s s.seal := by
  unfold State.seal
  simp only
  split
  · exact .refl
  · split <;> exact framed_trust _ _

/-- Sealing changes no key, neither the owner in force nor whom it names. -/
@[simp] theorem State.seal_keys (s : State) : s.seal.trust.keys = s.trust.keys := by
  unfold State.seal
  simp only
  split <;> (try split) <;> rfl

@[simp] theorem State.seal_owner (s : State) : s.seal.trust.owner = s.trust.owner := by
  unfold State.seal
  simp only
  split <;> (try split) <;> rfl

/-- After sealing, the copy that counts holds the key table as it is, for the owner in force. -/
theorem State.seal_sealedNow (s : State) (h : s.sealOpen = true) :
    ∃ c, s.seal.sealedNow = some c ∧ c.owner = s.trust.owner ∧ c.next = s.trust.nextOwner ∧ c.keys = s.trust.keys := by
  unfold State.seal
  simp only [h, Bool.not_true, Bool.false_eq_true, if_false]
  split
  · exact ⟨_, if_neg (Nat.not_lt.mpr (Nat.le_succ_of_le (Nat.le_max_right ..))), rfl, rfl, rfl⟩
  · exact ⟨_, if_pos (Nat.lt_succ_of_le (Nat.le_max_left ..)), rfl, rfl, rfl⟩

/-! ### The entry of a feed into a state -/

/-- A feed's entry changes what its own step changes, or nothing. -/
theorem State.feedEntry_framed (s : State) (x st dv : Nat) (h : framed ps ks s t) : framed ps ks s (s.feedEntry x st dv t) := by
  unfold State.feedEntry
  split
  · exact .refl
  · exact h

end Sys2Proof.Machine
end

