-- ==== Sys2Proof/Laws/Ends.lean ====
section
/-! SUPPORT. How every command ends: kept apart from the queue, the flight images, the service port, JTAG and TCK_COUNT, or one of the
few that belong to those. -/

namespace Sys2Proof.Machine

variable {s : State}

/-- A command that ends in `keep`, a refusal or a fault. -/
inductive Kept (s : State) : Host.Outcome State Fault Refusal → Prop
  | next (u : State) : Kept s (keep s u)
  | refused (r : Refusal) : Kept s (.refused r)
  | fault (f : Fault) : Kept s (.fault f)

/-- How any command ends. -/
inductive Ends (s : State) : Host.Outcome State Fault Refusal → Prop
  | kept {o : Host.Outcome State Fault Refusal} : Kept s o → Ends s o
  | run (u : State) : Ends s (keepRun s u)
  | queue (u : State) : Ends s (keepQueue s u)

theorem Kept.ite {c : Prop} [Decidable c] {a b : Host.Outcome State Fault Refusal} (h : Kept s a) (g : Kept s b) :
    Kept s (if c then a else b) := by
  split <;> assumption

theorem Ends.ite {c : Prop} [Decidable c] {a b : Host.Outcome State Fault Refusal} (h : Ends s a) (g : Ends s b) :
    Ends s (if c then a else b) := by
  split <;> assumption

theorem Kept.inv {o : Host.Outcome State Fault Refusal} {t : State} (h : Kept s o) (e : o = .next t) :
    t.pending = s.pending ∧ t.flights = s.flights ∧ t.svc = s.svc ∧ t.jtag = s.jtag ∧ t.tk.count = s.tk.count := by
  cases h with
  | next u => cases e; exact ⟨rfl, rfl, rfl, rfl, rfl⟩
  | refused r => cases e
  | fault f => cases e

theorem Ends.queue_inv {o : Host.Outcome State Fault Refusal} {t : State} (h : Ends s o) (e : o = .next t) : t.pending = s.pending := by
  cases h with
  | kept h => exact (h.inv e).1
  | run u => cases e; rfl
  | queue u => cases e; rfl

theorem Ends.stop (u : State) : Ends s (stopOutcome s u) := .queue (s.orReset u)

theorem Kept.vu (c : Issue) (o : Op) (op : Nat) (x : VuExtra) (d : VuDesc) (ok inside : Bool) (run : State → State) :
    Kept s (vuClause s c o op x d ok inside run) := by
  unfold vuClause
  exact .ite (.next _) (.next _)

theorem Kept.xfer (c : Issue) (op : Nat) (d : XferDesc) (offs : List Nat) (run : State → State) :
    Kept s (xferClause s c op d offs run) := by
  unfold xferClause
  exact .ite (.next _) (.ite (.next _) (.ite (.next _) (.next _)))

/-! ### One by one -/

theorem execCalWindowClose_kept (gal : BitVec 3) : Kept s (execCalWindowClose gal s) := by
 unfold execCalWindowClose
 exact .next _
theorem execBwWindowClose_kept : Kept s (execBwWindowClose s) := by
 unfold execBwWindowClose
 exact .next _
theorem execTickOverrunEnd_kept (cycles : BitVec 32) : Kept s (execTickOverrunEnd cycles s) := by
 unfold execTickOverrunEnd
 exact .next _
theorem execRefresh_kept (stack : BitVec 4) (pc : BitVec 6) (cycle : BitVec 16) : Kept s (execRefresh stack pc cycle s) := by
 unfold execRefresh
 exact .next _
theorem execMm_kept (c : Issue) (d : MmDesc) : Kept s (execMm c d s) := by
 unfold execMm
 exact .ite (.next _) (.next _)
theorem execScaleLoad_kept (c : Issue) (d : ScaleLoadDesc) : Kept s (execScaleLoad c d s) := by
 unfold execScaleLoad
 exact .ite (.next _) (.next _)
theorem execAccSave_kept (c : Issue) (d : AccMoveDesc) : Kept s (execAccSave c d s) := by
 unfold execAccSave
 exact .ite (.next _) (.next _)
theorem execAccRestore_kept (c : Issue) (d : AccMoveDesc) : Kept s (execAccRestore c d s) := by
 unfold execAccRestore
 exact .ite (.next _) (.next _)
theorem execMap_kept (c : Issue) (d : VuDesc) : Kept s (execMap c d s) := by
 unfold execMap
 exact .vu ..
theorem execAdd_kept (c : Issue) (d : VuDesc) : Kept s (execAdd c d s) := by
 unfold execAdd
 exact .vu ..
theorem execSub_kept (c : Issue) (d : VuDesc) : Kept s (execSub c d s) := by
 unfold execSub
 exact .vu ..
theorem execMul_kept (c : Issue) (d : VuDesc) : Kept s (execMul c d s) := by
 unfold execMul
 exact .vu ..
theorem execMax_kept (c : Issue) (d : VuDesc) : Kept s (execMax c d s) := by
 unfold execMax
 exact .vu ..
theorem execMin_kept (c : Issue) (d : VuDesc) : Kept s (execMin c d s) := by
 unfold execMin
 exact .vu ..
theorem execFma_kept (c : Issue) (d : VuDesc) : Kept s (execFma c d s) := by
 unfold execFma
 exact .vu ..
theorem execInfl_kept (c : Issue) (d : VuDesc) (w : InflWords) : Kept s (execInfl c d w s) := by
 unfold execInfl
 exact .vu ..
theorem execSignUpdate_kept (c : Issue) (d : VuDesc) (w : SignWords) : Kept s (execSignUpdate c d w s) := by
 unfold execSignUpdate
 exact .vu ..
theorem execRsum_kept (c : Issue) (d : VuDesc) : Kept s (execRsum c d s) := by
 unfold execRsum
 exact .vu ..
theorem execRsumsq_kept (c : Issue) (d : VuDesc) : Kept s (execRsumsq c d s) := by
 unfold execRsumsq
 exact .vu ..
theorem execRmax_kept (c : Issue) (d : VuDesc) : Kept s (execRmax c d s) := by
 unfold execRmax
 exact .vu ..
theorem execRmin_kept (c : Issue) (d : VuDesc) : Kept s (execRmin c d s) := by
 unfold execRmin
 exact .vu ..
theorem execTopk_kept (c : Issue) (d : VuDesc) : Kept s (execTopk c d s) := by
 unfold execTopk
 exact .vu ..
theorem execXred_kept (c : Issue) (d : VuDesc) (accIn : Bool) : Kept s (execXred c d accIn s) := by
 unfold execXred
 exact .vu ..
theorem execXcomb_kept (c : Issue) (d : VuDesc) (accIn : Bool) : Kept s (execXcomb c d accIn s) := by
 unfold execXcomb
 exact .vu ..
theorem execCompress_kept (c : Issue) (d : VuDesc) (w : RouteWords) : Kept s (execCompress c d w s) := by
 unfold execCompress
 exact .vu ..
theorem execExpand_kept (c : Issue) (d : VuDesc) (w : RouteWords) : Kept s (execExpand c d w s) := by
 unfold execExpand
 exact .vu ..
theorem execSolveSpd_kept (c : Issue) (d : VuDesc) (w : SolveWords) : Kept s (execSolveSpd c d w s) := by
 unfold execSolveSpd
 exact .vu ..
theorem execUpdate_kept (c : Issue) (d : IsuDesc) : Kept s (execUpdate c d s) := by
 unfold execUpdate
 exact .ite (.next _) (.ite (.next _) (.ite (.next _) (.next _)))
theorem execPublish_kept (c : Issue) (d : IsuDesc) : Kept s (execPublish c d s) := by
 unfold execPublish
 exact .ite (.next _) (.ite (.next _) (.ite (.next _) (.next _)))
theorem execRead_kept (c : Issue) (d : XferDesc) : Kept s (execRead c d s) := by
 unfold execRead
 exact .xfer ..
theorem execWrite_kept (c : Issue) (d : XferDesc) : Kept s (execWrite c d s) := by
 unfold execWrite
 exact .xfer ..
theorem execGather_kept (c : Issue) (d : XferDesc) : Kept s (execGather c d s) := by
 unfold execGather
 exact .xfer ..
theorem execWindowFill_kept (c : Issue) (d : XferDesc) : Kept s (execWindowFill c d s) := by
 unfold execWindowFill
 exact .ite (.next _) (.next _)
theorem execSend_kept (c : Issue) (d : FabDesc) : Kept s (execSend c d s) := by
 unfold execSend
 exact .ite (.next _) (.next _)
theorem execParityError_kept (domain : BitVec 4) (gal : BitVec 3) (unit : BitVec 5) (where_ : BitVec 4) (cycle : BitVec 16) : Kept s (execParityError domain gal unit where_ cycle s) := by
 unfold execParityError
 exact .next _
theorem execHbmUncorrectable_kept (stack : BitVec 4) (addr : BitVec 36) (kind : PageKind) (cycle : BitVec 16) : Kept s (execHbmUncorrectable stack addr kind cycle s) := by
 unfold execHbmUncorrectable
 exact .next _
theorem execHbmCorrected_kept (stack : BitVec 4) : Kept s (execHbmCorrected stack s) := by
 unfold execHbmCorrected
 exact .next _
theorem execWindowDeadlineMiss_kept (gal : BitVec 3) (window : BitVec 16) : Kept s (execWindowDeadlineMiss gal window s) := by
 unfold execWindowDeadlineMiss
 exact .next _
theorem execFetchArrival_kept (gal : BitVec 3) (window : BitVec 16) (tier : BitVec 2) (port : BitVec 3) (data : List Byte) : Kept s (execFetchArrival gal window tier port data s) := by
 unfold execFetchArrival
 exact .next _
theorem execShardArrival_kept (obj : ObjRef) (shard : BitVec 12) (data : List Byte) : Kept s (execShardArrival obj shard data s) := by
 unfold execShardArrival
 exact .next _
theorem execShardAttemptTimeout_kept (obj : ObjRef) (shard : BitVec 12) : Kept s (execShardAttemptTimeout obj shard s) := by
 unfold execShardAttemptTimeout
 exact .next _
theorem execObjectActivate_kept (id : BitVec 24) : Kept s (execObjectActivate id s) := by
 unfold execObjectActivate
 exact .next _
theorem execEvictionComplete_kept (id : BitVec 24) : Kept s (execEvictionComplete id s) := by
 unfold execEvictionComplete
 exact .next _
theorem execCheckpointStart_kept (id : BitVec 24) (group : BitVec 8) : Kept s (execCheckpointStart id group s) := by
 unfold execCheckpointStart
 exact .next _
theorem execCheckpointComplete_kept (id : BitVec 24) (ok : Bool) : Kept s (execCheckpointComplete id ok s) := by
 unfold execCheckpointComplete
 exact .next _
theorem execStepApplyStart_kept (id : BitVec 24) : Kept s (execStepApplyStart id s) := by
 unfold execStepApplyStart
 exact .next _
theorem execGateTimeout_kept (id : BitVec 24) : Kept s (execGateTimeout id s) := by
 unfold execGateTimeout
 exact .next _
theorem execTickSync_kept (widthNs intervalNs phaseCycles : BitVec 32) : Kept s (execTickSync widthNs intervalNs phaseCycles s) := by
 unfold execTickSync
 exact .next _
theorem execTckSyncCtrlWrite_kept (value : Word) : Kept s (execTckSyncCtrlWrite value s) := by
 unfold execTckSyncCtrlWrite
 exact .next _
theorem execSyncHoldover_kept : Kept s (execSyncHoldover s) := by
 unfold execSyncHoldover
 exact .next _
theorem execSyncFreerun_kept : Kept s (execSyncFreerun s) := by
 unfold execSyncFreerun
 exact .next _
theorem execSyncOutOfWindow_kept : Kept s (execSyncOutOfWindow s) := by
 unfold execSyncOutOfWindow
 exact .next _
theorem execCreate_kept (ring : BitVec 14) (e : Entry) : Kept s (execCreate ring e s) := by
 unfold execCreate
 exact .next _
theorem execBind_kept (ring : BitVec 14) (e : Entry) : Kept s (execBind ring e s) := by
 unfold execBind
 exact .next _
theorem execAdmit_kept (ring : BitVec 14) (e : Entry) : Kept s (execAdmit ring e s) := by
 unfold execAdmit
 exact .next _
theorem execDestroy_kept (ring : BitVec 14) (e : Entry) : Kept s (execDestroy ring e s) := by
 unfold execDestroy
 exact .next _
theorem execTrainBatch_kept (ring : BitVec 14) (e : Entry) : Kept s (execTrainBatch ring e s) := by
 unfold execTrainBatch
 exact .next _
theorem execTrainStep_kept (ring : BitVec 14) (e : Entry) : Kept s (execTrainStep ring e s) := by
 unfold execTrainStep
 exact .next _
theorem execTrainGate_kept (ring : BitVec 14) (e : Entry) : Kept s (execTrainGate ring e s) := by
 unfold execTrainGate
 exact .next _
theorem execLexCreate_kept (ring : BitVec 14) (e : Entry) : Kept s (execLexCreate ring e s) := by
 unfold execLexCreate
 exact .next _
theorem execLexDelete_kept (ring : BitVec 14) (e : Entry) : Kept s (execLexDelete ring e s) := by
 unfold execLexDelete
 exact .next _
theorem execLexQuery_kept (ring : BitVec 14) (e : Entry) : Kept s (execLexQuery ring e s) := by
 unfold execLexQuery
 exact .next _
theorem execLexConvert_kept (ring : BitVec 14) (e : Entry) : Kept s (execLexConvert ring e s) := by
 unfold execLexConvert
 exact .next _
theorem execAffixClaim_kept (ring : BitVec 14) (e : Entry) : Kept s (execAffixClaim ring e s) := by
 unfold execAffixClaim
 exact .next _
theorem execAffixRelease_kept (ring : BitVec 14) (e : Entry) : Kept s (execAffixRelease ring e s) := by
 unfold execAffixRelease
 exact .next _
theorem execResStore_kept (ring : BitVec 14) (e : Entry) : Kept s (execResStore ring e s) := by
 unfold execResStore
 exact .next _
theorem execResPrefetch_kept (ring : BitVec 14) (e : Entry) : Kept s (execResPrefetch ring e s) := by
 unfold execResPrefetch
 exact .next _
theorem execResEvict_kept (ring : BitVec 14) (e : Entry) : Kept s (execResEvict ring e s) := by
 unfold execResEvict
 exact .next _
theorem execResRetry_kept (ring : BitVec 14) (e : Entry) : Kept s (execResRetry ring e s) := by
 unfold execResRetry
 exact .next _
theorem execNop_kept (ring : BitVec 14) (e : Entry) : Kept s (execNop ring e s) := by
 unfold execNop
 exact .next _
theorem execDoorbell_kept (fn : BitVec 6) (page : BitVec 14) (tail : BitVec 16) (seqLast : BitVec 16) : Kept s (execDoorbell fn page tail seqLast s) := by
 unfold execDoorbell
 exact .next _
theorem execDbTimeoutExpire_kept (ring : BitVec 14) : Kept s (execDbTimeoutExpire ring s) := by
 unfold execDbTimeoutExpire
 exact .next _
theorem execHostReadTimeout_kept (ring : BitVec 14) : Kept s (execHostReadTimeout ring s) := by
 unfold execHostReadTimeout
 exact .next _
theorem execCqHeadWrite_kept (fn : BitVec 6) (page : BitVec 14) (head : BitVec 16) : Kept s (execCqHeadWrite fn page head s) := by
 unfold execCqHeadWrite
 exact .next _
theorem execGlobalObservation_kept (handle : BitVec 16) : Kept s (execGlobalObservation handle s) := by
 unfold execGlobalObservation
 exact .next _
theorem execHostWriteTimeout_kept (handle : BitVec 16) (code : BitVec 32) : Kept s (execHostWriteTimeout handle code s) := by
 unfold execHostWriteTimeout
 exact .next _
theorem execWindowWrite_kept (fn : BitVec 6) (off : BitVec 40) (cxlMem : Bool) (data : List Byte) : Kept s (execWindowWrite fn off cxlMem data s) := by
 unfold execWindowWrite
 exact .next _
theorem execInputWrite_kept (fn : BitVec 6) (off : BitVec 40) (cxlMem : Bool) (data : List Byte) : Kept s (execInputWrite fn off cxlMem data s) := by
 unfold execInputWrite
 exact .next _
theorem execRingCreate_kept (fn : BitVec 6) : Kept s (execRingCreate fn s) := by
 unfold execRingCreate
 exact .next _
theorem execRingDestroy_kept (fn : BitVec 6) : Kept s (execRingDestroy fn s) := by
 unfold execRingDestroy
 exact .next _
theorem execRingResume_kept (fn : BitVec 6) : Kept s (execRingResume fn s) := by
 unfold execRingResume
 exact .next _
theorem execAttach_kept (fn : BitVec 6) : Kept s (execAttach fn s) := by
 unfold execAttach
 exact .next _
theorem execDetach_kept (fn : BitVec 6) : Kept s (execDetach fn s) := by
 unfold execDetach
 exact .next _
theorem execHeartbeatWrite_kept (fn : BitVec 6) (beat : Word) : Kept s (execHeartbeatWrite fn beat s) := by
 unfold execHeartbeatWrite
 exact .next _
theorem execHeartbeatTimeout_kept (fn : BitVec 6) : Kept s (execHeartbeatTimeout fn s) := by
 unfold execHeartbeatTimeout
 exact .next _
theorem execHostLinkReset_kept : Kept s (execHostLinkReset s) := by
 unfold execHostLinkReset
 exact .next _
theorem execInstanceReset_kept (inst : BitVec 6) : Kept s (execInstanceReset inst s) := by
 unfold execInstanceReset
 exact .next _
theorem execPause_kept (inst : BitVec 6) : Kept s (execPause inst s) := by
 unfold execPause
 exact .next _
theorem execInstancePaused_kept (inst : BitVec 6) : Kept s (execInstancePaused inst s) := by
 unfold execInstancePaused
 exact .next _
theorem execFreeze_kept (inst : BitVec 6) : Kept s (execFreeze inst s) := by
 unfold execFreeze
 exact .next _
theorem execThaw_kept (inst : BitVec 6) : Kept s (execThaw inst s) := by
 unfold execThaw
 exact .next _
theorem execSave_kept (inst : BitVec 6) : Kept s (execSave inst s) := by
 unfold execSave
 exact .next _
theorem execSaveComplete_kept (inst : BitVec 6) : Kept s (execSaveComplete inst s) := by
 unfold execSaveComplete
 exact .next _
theorem execRestore_kept (inst : BitVec 6) : Kept s (execRestore inst s) := by
 unfold execRestore
 exact .next _
theorem execRestoreComplete_kept (inst : BitVec 6) : Kept s (execRestoreComplete inst s) := by
 unfold execRestoreComplete
 exact .next _
theorem execLogStart_kept (inst : BitVec 6) : Kept s (execLogStart inst s) := by
 unfold execLogStart
 exact .next _
theorem execLogStop_kept (inst : BitVec 6) : Kept s (execLogStop inst s) := by
 unfold execLogStop
 exact .next _
theorem execLexGateGo_kept (fn : BitVec 6) : Kept s (execLexGateGo fn s) := by
 unfold execLexGateGo
 exact .next _
theorem execLexGateSkip_kept (fn : BitVec 6) : Kept s (execLexGateSkip fn s) := by
 unfold execLexGateSkip
 exact .next _
theorem execStemLoad_kept (slot : BitVec 1) : Kept s (execStemLoad slot s) := by
 unfold execStemLoad
 exact .next _
theorem execStemSwitch_kept (slot : BitVec 1) : Kept s (execStemSwitch slot s) := by
 unfold execStemSwitch
 exact .next _
theorem execStemRolling_kept (slot : BitVec 1) : Kept s (execStemRolling slot s) := by
 unfold execStemRolling
 exact .next _
theorem execStemUnload_kept (slot : BitVec 1) : Kept s (execStemUnload slot s) := by
 unfold execStemUnload
 exact .next _
theorem execStemReady_kept (slot : BitVec 1) : Kept s (execStemReady slot s) := by
 unfold execStemReady
 exact .next _
theorem execStemDrained_kept (slot : BitVec 1) : Kept s (execStemDrained slot s) := by
 unfold execStemDrained
 exact .next _
theorem execStemRetired_kept (slot : BitVec 1) : Kept s (execStemRetired slot s) := by
 unfold execStemRetired
 exact .next _
theorem execKeyProvision_kept (fn : BitVec 6) (session : BitVec 8) (slot : BitVec 16) (epoch : Word) (nonce : BitVec 256) (wrapped mac : List Byte) : Kept s (execKeyProvision fn session slot epoch nonce wrapped mac s) := by
 unfold execKeyProvision
 exact .next _
theorem execKeyRevoke_kept (fn : BitVec 6) (session : BitVec 8) (slot : BitVec 16) (nonce : BitVec 256) (mac : List Byte) : Kept s (execKeyRevoke fn session slot nonce mac s) := by
 unfold execKeyRevoke
 exact .next _
theorem execTenantReport_kept (fn : BitVec 6) (session : BitVec 8) (slot : BitVec 16) (nonce : BitVec 256) (start : BitVec 24) (mac : List Byte) : Kept s (execTenantReport fn session slot nonce start mac s) := by
 unfold execTenantReport
 exact .next _
theorem execEpochRetired_kept (slot : BitVec 16) : Kept s (execEpochRetired slot s) := by
 unfold execEpochRetired
 exact .next _
theorem execEpochKeyDestroy_kept (slot : BitVec 16) : Kept s (execEpochKeyDestroy slot s) := by
 unfold execEpochKeyDestroy
 exact .next _
theorem execForceRetire_kept : Kept s (execForceRetire s) := by
 unfold execForceRetire
 exact .next _
theorem execClear_kept : Kept s (execClear s) := by
 unfold execClear
 exact .next _
theorem execZeroise_kept (key : Word) : Kept s (execZeroise key s) := by
 unfold execZeroise
 exact .next _
theorem execSetTarget_kept (inst : BitVec 6) : Kept s (execSetTarget inst s) := by
 unfold execSetTarget
 exact .next _
theorem execImport_kept (inst : BitVec 6) : Kept s (execImport inst s) := by
 unfold execImport
 exact .next _
theorem execGetVersion_kept (port : SpdmPort) : Kept s (execGetVersion port s) := by
 unfold execGetVersion
 exact .next _
theorem execGetCapabilities_kept (port : SpdmPort) : Kept s (execGetCapabilities port s) := by
 unfold execGetCapabilities
 exact .next _
theorem execNegotiateAlgorithms_kept (port : SpdmPort) (baseAsym baseHash : Word) : Kept s (execNegotiateAlgorithms port baseAsym baseHash s) := by
 unfold execNegotiateAlgorithms
 exact .next _
theorem execGetDigests_kept (port : SpdmPort) : Kept s (execGetDigests port s) := by
 unfold execGetDigests
 exact .next _
theorem execGetCertificate_kept (port : SpdmPort) (slot : BitVec 8) (offset length : BitVec 16) : Kept s (execGetCertificate port slot offset length s) := by
 unfold execGetCertificate
 exact .next _
theorem execChallenge_kept (port : SpdmPort) (slot : BitVec 8) (nonce : BitVec 256) : Kept s (execChallenge port slot nonce s) := by
 unfold execChallenge
 exact .next _
theorem execGetMeasurements_kept (port : SpdmPort) (session index : BitVec 8) (signed : Bool) (nonce : BitVec 256) : Kept s (execGetMeasurements port session index signed nonce s) := by
 unfold execGetMeasurements
 exact .next _
theorem execKeyExchange_kept (port : SpdmPort) (random : BitVec 256) (exchange : List Byte) : Kept s (execKeyExchange port random exchange s) := by
 unfold execKeyExchange
 exact .next _
theorem execFinish_kept (port : SpdmPort) (session : BitVec 8) (verifyData : List Byte) : Kept s (execFinish port session verifyData s) := by
 unfold execFinish
 exact .next _
theorem execHeartbeat_kept (port : SpdmPort) (session : BitVec 8) : Kept s (execHeartbeat port session s) := by
 unfold execHeartbeat
 exact .next _
theorem execKeyUpdate_kept (port : SpdmPort) (session : BitVec 8) (operation : BitVec 8) : Kept s (execKeyUpdate port session operation s) := by
 unfold execKeyUpdate
 exact .next _
theorem execEndSession_kept (port : SpdmPort) (session : BitVec 8) : Kept s (execEndSession port session s) := by
 unfold execEndSession
 exact .next _
theorem execChunkSend_kept (port : SpdmPort) (chunkSeq : BitVec 16) (last : Bool) (data : List Byte) : Kept s (execChunkSend port chunkSeq last data s) := by
 unfold execChunkSend
 exact .next _
theorem execChunkGet_kept (port : SpdmPort) (chunkSeq : BitVec 16) : Kept s (execChunkGet port chunkSeq s) := by
 unfold execChunkGet
 exact .next _
theorem execIdeKm_kept (session : BitVec 8) (stream : BitVec 8) (secure : Bool) : Kept s (execIdeKm session stream secure s) := by
 unfold execIdeKm
 exact .next _
theorem execDoeDiscovery_kept (fn : BitVec 6) (index : BitVec 8) : Kept s (execDoeDiscovery fn index s) := by
 unfold execDoeDiscovery
 exact .next _
theorem execCxlTableAccess_kept (fn : BitVec 6) (entryHandle : BitVec 16) : Kept s (execCxlTableAccess fn entryHandle s) := by
 unfold execCxlTableAccess
 exact .next _
theorem execPark_kept (mask : BitVec 8) : Kept s (execPark mask s) := by
 unfold execPark
 exact .next _
theorem execUnpark_kept (mask : BitVec 8) : Kept s (execUnpark mask s) := by
 unfold execUnpark
 exact .next _
theorem execUnparkComplete_kept (gal : BitVec 3) (fails : List (BitVec 4 × BitVec 5)) : Kept s (execUnparkComplete gal fails s) := by
 unfold execUnparkComplete
 exact .next _
theorem execEnterP3_kept : Kept s (execEnterP3 s) := by
 unfold execEnterP3
 exact .next _
theorem execRstGallery_kept (mask : BitVec 8) : Kept s (execRstGallery mask s) := by
 unfold execRstGallery
 exact .next _
theorem execFeedEntersWarn_kept (feed : BitVec 1) (dv : BitVec 12) : Kept s (execFeedEntersWarn feed dv s) := by
 unfold execFeedEntersWarn
 exact .next _
theorem execFeedEntersLow_kept (feed : BitVec 1) (dv : BitVec 12) : Kept s (execFeedEntersLow feed dv s) := by
 unfold execFeedEntersLow
 exact .next _
theorem execFeedEntersRejected_kept (feed : BitVec 1) (dv : BitVec 12) : Kept s (execFeedEntersRejected feed dv s) := by
 unfold execFeedEntersRejected
 exact .next _
theorem execFeedEntersOk_kept (feed : BitVec 1) (dv : BitVec 12) : Kept s (execFeedEntersOk feed dv s) := by
 unfold execFeedEntersOk
 exact .next _
theorem execFeedEntersAbsent_kept (feed : BitVec 1) (dv : BitVec 12) : Kept s (execFeedEntersAbsent feed dv s) := by
 unfold execFeedEntersAbsent
 exact .next _
theorem execFeedRejectRelease_kept (feed : BitVec 1) (dv : BitVec 12) : Kept s (execFeedRejectRelease feed dv s) := by
 unfold execFeedRejectRelease
 exact .next _
theorem execFeedReturn_kept : Kept s (execFeedReturn s) := by
 unfold execFeedReturn
 exact .next _
theorem execFeedForce_kept : Kept s (execFeedForce s) := by
 unfold execFeedForce
 exact .next _
theorem execFeedWarningCapEnd_kept : Kept s (execFeedWarningCapEnd s) := by
 unfold execFeedWarningCapEnd
 exact .next _
theorem execPowerReadingUpdate_kept (avg25 : BitVec 8) (max25 : BitVec 8) (jmax : BitVec 8) (die : BitVec 4) : Kept s (execPowerReadingUpdate avg25 max25 jmax die s) := by
 unfold execPowerReadingUpdate
 exact .next _
theorem execJunctionAboveThr_kept (die : BitVec 4) (temp : BitVec 8) : Kept s (execJunctionAboveThr die temp s) := by
 unfold execJunctionAboveThr
 exact .next _
theorem execDriveInserted_kept (port : BitVec 3) (identify : BitVec 2) (width : BitVec 3) (capMib : BitVec 34) : Kept s (execDriveInserted port identify width capMib s) := by
 unfold execDriveInserted
 exact .next _
theorem execDriveRemoved_kept (port : BitVec 3) : Kept s (execDriveRemoved port s) := by
 unfold execDriveRemoved
 exact .next _
theorem execDriveLinkLost_kept (port : BitVec 3) : Kept s (execDriveLinkLost port s) := by
 unfold execDriveLinkLost
 exact .next _
theorem execBbxRecordWritten_kept (ok : Bool) : Kept s (execBbxRecordWritten ok s) := by
 unfold execBbxRecordWritten
 exact .next _
theorem execBbxIndexWrite_kept (index : BitVec 15) : Kept s (execBbxIndexWrite index s) := by
 unfold execBbxIndexWrite
 exact .next _
theorem execBbxDataReady_kept : Kept s (execBbxDataReady s) := by
 unfold execBbxDataReady
 exact .next _
theorem execCalConfigWrite_kept (gal : BitVec 3) (reg : CalReg) (value : Word) : Kept s (execCalConfigWrite gal reg value s) := by
 unfold execCalConfigWrite
 exact .next _
theorem execCntOwnWrite_kept (j : BitVec 2) (value : Word) : Kept s (execCntOwnWrite j value s) := by
 unfold execCntOwnWrite
 exact .next _
theorem execCntCfgWrite_kept (fn : BitVec 6) (reg : CntReg) (value : Word) : Kept s (execCntCfgWrite fn reg value s) := by
 unfold execCntCfgWrite
 exact .next _
theorem execCntClr_kept (fn : BitVec 6) : Kept s (execCntClr fn s) := by
 unfold execCntClr
 exact .next _
theorem execCntHold_kept (hold : Bool) : Kept s (execCntHold hold s) := by
 unfold execCntHold
 exact .next _
theorem execCntBwCfgWrite_kept (value : Word) : Kept s (execCntBwCfgWrite value s) := by
 unfold execCntBwCfgWrite
 exact .next _
theorem execCntSnapTickLoRead_kept (fn : BitVec 6) : Kept s (execCntSnapTickLoRead fn s) := by
 unfold execCntSnapTickLoRead
 exact .next _
theorem execTckCountLoRead_kept (fn : BitVec 6) : Kept s (execTckCountLoRead fn s) := by
 unfold execTckCountLoRead
 exact .next _
theorem execGalCalElemLoRead_kept (fn : BitVec 6) (gal : BitVec 3) (slot : BitVec 8) : Kept s (execGalCalElemLoRead fn gal slot s) := by
 unfold execGalCalElemLoRead
 exact .next _
theorem execDevAcctCycLoRead_kept (fn : BitVec 6) : Kept s (execDevAcctCycLoRead fn s) := by
 unfold execDevAcctCycLoRead
 exact .next _
theorem execDevEngLoRead_kept (fn n : BitVec 6) : Kept s (execDevEngLoRead fn n s) := by
 unfold execDevEngLoRead
 exact .next _
theorem execErrLastTickLoRead_kept (fn : BitVec 6) : Kept s (execErrLastTickLoRead fn s) := by
 unfold execErrLastTickLoRead
 exact .next _
theorem execBbxSeqLoRead_kept (fn : BitVec 6) : Kept s (execBbxSeqLoRead fn s) := by
 unfold execBbxSeqLoRead
 exact .next _
theorem execCntBwLoRead_kept (fn : BitVec 6) (reg : BwReg) : Kept s (execCntBwLoRead fn reg s) := by
 unfold execCntBwLoRead
 exact .next _
theorem execHostLinkTrains_kept (rate : BitVec 4) (width : BitVec 5) (cxl : Bool) : Kept s (execHostLinkTrains rate width cxl s) := by
 unfold execHostLinkTrains
 exact .next _

/-- The commands whose meaning leaves the flight images, the service port, JTAG and TCK_COUNT alone. -/
theorem exec_kept (c : Instr) (s : State) (h : c.isKept = true) : Kept s (exec c s) := by
  cases c with
  | landing => exact absurd h Bool.false_ne_true
  | calWindowClose x0 => rw [exec]; exact execCalWindowClose_kept x0
  | bwWindowClose => rw [exec]; exact execBwWindowClose_kept
  | tickOverrunEnd x0 => rw [exec]; exact execTickOverrunEnd_kept x0
  | replayLimit => exact absurd h Bool.false_ne_true
  | refresh x0 x1 x2 => rw [exec]; exact execRefresh_kept x0 x1 x2
  | mm x0 x1 => rw [exec]; exact execMm_kept x0 x1
  | scaleLoad x0 x1 => rw [exec]; exact execScaleLoad_kept x0 x1
  | accSave x0 x1 => rw [exec]; exact execAccSave_kept x0 x1
  | accRestore x0 x1 => rw [exec]; exact execAccRestore_kept x0 x1
  | map x0 x1 => rw [exec]; exact execMap_kept x0 x1
  | add x0 x1 => rw [exec]; exact execAdd_kept x0 x1
  | sub x0 x1 => rw [exec]; exact execSub_kept x0 x1
  | mul x0 x1 => rw [exec]; exact execMul_kept x0 x1
  | max x0 x1 => rw [exec]; exact execMax_kept x0 x1
  | min x0 x1 => rw [exec]; exact execMin_kept x0 x1
  | fma x0 x1 => rw [exec]; exact execFma_kept x0 x1
  | infl x0 x1 x2 => rw [exec]; exact execInfl_kept x0 x1 x2
  | signUpdate x0 x1 x2 => rw [exec]; exact execSignUpdate_kept x0 x1 x2
  | rsum x0 x1 => rw [exec]; exact execRsum_kept x0 x1
  | rsumsq x0 x1 => rw [exec]; exact execRsumsq_kept x0 x1
  | rmax x0 x1 => rw [exec]; exact execRmax_kept x0 x1
  | rmin x0 x1 => rw [exec]; exact execRmin_kept x0 x1
  | topk x0 x1 => rw [exec]; exact execTopk_kept x0 x1
  | xred x0 x1 x2 => rw [exec]; exact execXred_kept x0 x1 x2
  | xcomb x0 x1 x2 => rw [exec]; exact execXcomb_kept x0 x1 x2
  | compress x0 x1 x2 => rw [exec]; exact execCompress_kept x0 x1 x2
  | expand x0 x1 x2 => rw [exec]; exact execExpand_kept x0 x1 x2
  | solveSpd x0 x1 x2 => rw [exec]; exact execSolveSpd_kept x0 x1 x2
  | update x0 x1 => rw [exec]; exact execUpdate_kept x0 x1
  | publish x0 x1 => rw [exec]; exact execPublish_kept x0 x1
  | read x0 x1 => rw [exec]; exact execRead_kept x0 x1
  | write x0 x1 => rw [exec]; exact execWrite_kept x0 x1
  | gather x0 x1 => rw [exec]; exact execGather_kept x0 x1
  | windowFill x0 x1 => rw [exec]; exact execWindowFill_kept x0 x1
  | send x0 x1 => rw [exec]; exact execSend_kept x0 x1
  | parityError x0 x1 x2 x3 x4 => rw [exec]; exact execParityError_kept x0 x1 x2 x3 x4
  | hbmUncorrectable x0 x1 x2 x3 => rw [exec]; exact execHbmUncorrectable_kept x0 x1 x2 x3
  | hbmCorrected x0 => rw [exec]; exact execHbmCorrected_kept x0
  | poisonRepair x0 x1 x2 => exact absurd h Bool.false_ne_true
  | windowDeadlineMiss x0 x1 => rw [exec]; exact execWindowDeadlineMiss_kept x0 x1
  | fetchArrival x0 x1 x2 x3 x4 => rw [exec]; exact execFetchArrival_kept x0 x1 x2 x3 x4
  | shardArrival x0 x1 x2 => rw [exec]; exact execShardArrival_kept x0 x1 x2
  | shardAttemptTimeout x0 x1 => rw [exec]; exact execShardAttemptTimeout_kept x0 x1
  | objectActivate x0 => rw [exec]; exact execObjectActivate_kept x0
  | evictionComplete x0 => rw [exec]; exact execEvictionComplete_kept x0
  | checkpointStart x0 x1 => rw [exec]; exact execCheckpointStart_kept x0 x1
  | checkpointComplete x0 x1 => rw [exec]; exact execCheckpointComplete_kept x0 x1
  | stepApplyStart x0 => rw [exec]; exact execStepApplyStart_kept x0
  | gateTimeout x0 => rw [exec]; exact execGateTimeout_kept x0
  | flightLoad x0 => exact absurd h Bool.false_ne_true
  | flightCopyComplete => exact absurd h Bool.false_ne_true
  | flightAdmissionComplete => exact absurd h Bool.false_ne_true
  | flightSwitchDrain x0 x1 => exact absurd h Bool.false_ne_true
  | flightSwitchImmediate x0 => exact absurd h Bool.false_ne_true
  | flightSwitchApply => exact absurd h Bool.false_ne_true
  | drainTicksExpire => exact absurd h Bool.false_ne_true
  | tickSync x0 x1 x2 => rw [exec]; exact execTickSync_kept x0 x1 x2
  | tckSyncCtrlWrite x0 => rw [exec]; exact execTckSyncCtrlWrite_kept x0
  | syncHoldover => rw [exec]; exact execSyncHoldover_kept
  | syncFreerun => rw [exec]; exact execSyncFreerun_kept
  | syncOutOfWindow => rw [exec]; exact execSyncOutOfWindow_kept
  | create x0 x1 => rw [exec]; exact execCreate_kept x0 x1
  | bind x0 x1 => rw [exec]; exact execBind_kept x0 x1
  | admitReq x0 x1 => rw [exec]; exact execAdmit_kept x0 x1
  | destroy x0 x1 => rw [exec]; exact execDestroy_kept x0 x1
  | trainBatch x0 x1 => rw [exec]; exact execTrainBatch_kept x0 x1
  | trainStep x0 x1 => rw [exec]; exact execTrainStep_kept x0 x1
  | trainGate x0 x1 => rw [exec]; exact execTrainGate_kept x0 x1
  | lexCreate x0 x1 => rw [exec]; exact execLexCreate_kept x0 x1
  | lexDelete x0 x1 => rw [exec]; exact execLexDelete_kept x0 x1
  | lexQuery x0 x1 => rw [exec]; exact execLexQuery_kept x0 x1
  | lexConvert x0 x1 => rw [exec]; exact execLexConvert_kept x0 x1
  | affixClaim x0 x1 => rw [exec]; exact execAffixClaim_kept x0 x1
  | affixRelease x0 x1 => rw [exec]; exact execAffixRelease_kept x0 x1
  | resStore x0 x1 => rw [exec]; exact execResStore_kept x0 x1
  | resPrefetch x0 x1 => rw [exec]; exact execResPrefetch_kept x0 x1
  | resEvict x0 x1 => rw [exec]; exact execResEvict_kept x0 x1
  | resRetry x0 x1 => rw [exec]; exact execResRetry_kept x0 x1
  | nop x0 x1 => rw [exec]; exact execNop_kept x0 x1
  | doorbell x0 x1 x2 x3 => rw [exec]; exact execDoorbell_kept x0 x1 x2 x3
  | dbTimeoutExpire x0 => rw [exec]; exact execDbTimeoutExpire_kept x0
  | hostReadTimeout x0 => rw [exec]; exact execHostReadTimeout_kept x0
  | cqHeadWrite x0 x1 x2 => rw [exec]; exact execCqHeadWrite_kept x0 x1 x2
  | globalObservation x0 => rw [exec]; exact execGlobalObservation_kept x0
  | hostWriteTimeout x0 x1 => rw [exec]; exact execHostWriteTimeout_kept x0 x1
  | windowWrite x0 x1 x2 x3 => rw [exec]; exact execWindowWrite_kept x0 x1 x2 x3
  | inputWrite x0 x1 x2 x3 => rw [exec]; exact execInputWrite_kept x0 x1 x2 x3
  | ringCreate x0 => rw [exec]; exact execRingCreate_kept x0
  | ringDestroy x0 => rw [exec]; exact execRingDestroy_kept x0
  | ringResume x0 => rw [exec]; exact execRingResume_kept x0
  | attach x0 => rw [exec]; exact execAttach_kept x0
  | detach x0 => rw [exec]; exact execDetach_kept x0
  | heartbeatWrite x0 x1 => rw [exec]; exact execHeartbeatWrite_kept x0 x1
  | heartbeatTimeout x0 => rw [exec]; exact execHeartbeatTimeout_kept x0
  | hostLinkReset => rw [exec]; exact execHostLinkReset_kept ..
  | perstNDeassert => exact absurd h Bool.false_ne_true
  | instanceReset x0 => rw [exec]; exact execInstanceReset_kept x0
  | pause x0 => rw [exec]; exact execPause_kept x0
  | instancePaused x0 => rw [exec]; exact execInstancePaused_kept x0
  | freeze x0 => rw [exec]; exact execFreeze_kept x0
  | thaw x0 => rw [exec]; exact execThaw_kept x0
  | save x0 => rw [exec]; exact execSave_kept x0
  | saveComplete x0 => rw [exec]; exact execSaveComplete_kept x0
  | restore x0 => rw [exec]; exact execRestore_kept x0
  | restoreComplete x0 => rw [exec]; exact execRestoreComplete_kept x0
  | logStart x0 => rw [exec]; exact execLogStart_kept x0
  | logStop x0 => rw [exec]; exact execLogStop_kept x0
  | lexGateGo x0 => rw [exec]; exact execLexGateGo_kept x0
  | lexGateSkip x0 => rw [exec]; exact execLexGateSkip_kept x0
  | stemLoad x0 => rw [exec]; exact execStemLoad_kept x0
  | stemSwitch x0 => rw [exec]; exact execStemSwitch_kept x0
  | stemRolling x0 => rw [exec]; exact execStemRolling_kept x0
  | stemUnload x0 => rw [exec]; exact execStemUnload_kept x0
  | stemReady x0 => rw [exec]; exact execStemReady_kept x0
  | stemDrained x0 => rw [exec]; exact execStemDrained_kept x0
  | stemRetired x0 => rw [exec]; exact execStemRetired_kept x0
  | keyProvision x0 x1 x2 x3 x4 x5 x6 => rw [exec]; exact execKeyProvision_kept x0 x1 x2 x3 x4 x5 x6
  | keyRevoke x0 x1 x2 x3 x4 => rw [exec]; exact execKeyRevoke_kept x0 x1 x2 x3 x4
  | tenantReport x0 x1 x2 x3 x4 x5 => rw [exec]; exact execTenantReport_kept x0 x1 x2 x3 x4 x5
  | epochRetired x0 => rw [exec]; exact execEpochRetired_kept x0
  | epochKeyDestroy x0 => rw [exec]; exact execEpochKeyDestroy_kept x0
  | forceRetire => rw [exec]; exact execForceRetire_kept
  | clear => rw [exec]; exact execClear_kept
  | zeroise x0 => rw [exec]; exact execZeroise_kept x0
  | debugUnlock => exact absurd h Bool.false_ne_true
  | setTarget x0 => rw [exec]; exact execSetTarget_kept x0
  | import_ x0 => rw [exec]; exact execImport_kept x0
  | getVersion x0 => rw [exec]; exact execGetVersion_kept x0
  | getCapabilities x0 => rw [exec]; exact execGetCapabilities_kept x0
  | negotiateAlgorithms x0 x1 x2 => rw [exec]; exact execNegotiateAlgorithms_kept x0 x1 x2
  | getDigests x0 => rw [exec]; exact execGetDigests_kept x0
  | getCertificate x0 x1 x2 x3 => rw [exec]; exact execGetCertificate_kept x0 x1 x2 x3
  | challenge x0 x1 x2 => rw [exec]; exact execChallenge_kept x0 x1 x2
  | getMeasurements x0 x1 x2 x3 x4 => rw [exec]; exact execGetMeasurements_kept x0 x1 x2 x3 x4
  | keyExchange x0 x1 x2 => rw [exec]; exact execKeyExchange_kept x0 x1 x2
  | finish x0 x1 x2 => rw [exec]; exact execFinish_kept x0 x1 x2
  | heartbeat x0 x1 => rw [exec]; exact execHeartbeat_kept x0 x1
  | keyUpdate x0 x1 x2 => rw [exec]; exact execKeyUpdate_kept x0 x1 x2
  | endSession x0 x1 => rw [exec]; exact execEndSession_kept x0 x1
  | chunkSend x0 x1 x2 x3 => rw [exec]; exact execChunkSend_kept x0 x1 x2 x3
  | chunkGet x0 x1 => rw [exec]; exact execChunkGet_kept x0 x1
  | ideKm x0 x1 x2 => rw [exec]; exact execIdeKm_kept x0 x1 x2
  | doeDiscovery x0 x1 => rw [exec]; exact execDoeDiscovery_kept x0 x1
  | cxlTableAccess x0 x1 => rw [exec]; exact execCxlTableAccess_kept x0 x1
  | park x0 => rw [exec]; exact execPark_kept x0
  | unpark x0 => rw [exec]; exact execUnpark_kept x0
  | unparkComplete x0 x1 => rw [exec]; exact execUnparkComplete_kept x0 x1
  | enterP3 => rw [exec]; exact execEnterP3_kept
  | enterP4 => exact absurd h Bool.false_ne_true
  | rstPackage x0 => exact absurd h Bool.false_ne_true
  | rstGallery x0 => rw [exec]; exact execRstGallery_kept x0
  | powerOnReset => exact absurd h Bool.false_ne_true
  | startUp x0 => exact absurd h Bool.false_ne_true
  | feedEntersWarn x0 x1 => rw [exec]; exact execFeedEntersWarn_kept x0 x1
  | feedEntersLow x0 x1 => rw [exec]; exact execFeedEntersLow_kept x0 x1
  | feedEntersRejected x0 x1 => rw [exec]; exact execFeedEntersRejected_kept x0 x1
  | feedEntersOk x0 x1 => rw [exec]; exact execFeedEntersOk_kept x0 x1
  | feedEntersAbsent x0 x1 => rw [exec]; exact execFeedEntersAbsent_kept x0 x1
  | feedRejectRelease x0 x1 => rw [exec]; exact execFeedRejectRelease_kept x0 x1
  | feedReturn => rw [exec]; exact execFeedReturn_kept
  | feedForce => rw [exec]; exact execFeedForce_kept
  | feedWarningCapEnd => rw [exec]; exact execFeedWarningCapEnd_kept
  | lossTimerExpire => exact absurd h Bool.false_ne_true
  | powerWindow x0 => exact absurd h Bool.false_ne_true
  | powerReadingUpdate x0 x1 x2 x3 => rw [exec]; exact execPowerReadingUpdate_kept x0 x1 x2 x3
  | junctionAboveThr x0 x1 => rw [exec]; exact execJunctionAboveThr_kept x0 x1
  | thermalShutdown x0 x1 => exact absurd h Bool.false_ne_true
  | clockLost => exact absurd h Bool.false_ne_true
  | driveInserted x0 x1 x2 x3 => rw [exec]; exact execDriveInserted_kept x0 x1 x2 x3
  | driveRemoved x0 => rw [exec]; exact execDriveRemoved_kept x0
  | driveLinkLost x0 => rw [exec]; exact execDriveLinkLost_kept x0
  | bbxRecordWritten x0 => rw [exec]; exact execBbxRecordWritten_kept x0
  | bbxIndexWrite x0 => rw [exec]; exact execBbxIndexWrite_kept x0
  | bbxDataReady => rw [exec]; exact execBbxDataReady_kept
  | calConfigWrite x0 x1 x2 => rw [exec]; exact execCalConfigWrite_kept x0 x1 x2
  | cntOwnWrite x0 x1 => rw [exec]; exact execCntOwnWrite_kept x0 x1
  | cntCfgWrite x0 x1 x2 => rw [exec]; exact execCntCfgWrite_kept x0 x1 x2
  | cntClr x0 => rw [exec]; exact execCntClr_kept x0
  | cntHold x0 => rw [exec]; exact execCntHold_kept x0
  | cntBwCfgWrite x0 => rw [exec]; exact execCntBwCfgWrite_kept x0
  | cntSnapTickLoRead x0 => rw [exec]; exact execCntSnapTickLoRead_kept x0
  | tckCountLoRead x0 => rw [exec]; exact execTckCountLoRead_kept x0
  | galCalElemLoRead x0 x1 x2 => rw [exec]; exact execGalCalElemLoRead_kept x0 x1 x2
  | devAcctCycLoRead x0 => rw [exec]; exact execDevAcctCycLoRead_kept x0
  | devEngLoRead x0 x1 => rw [exec]; exact execDevEngLoRead_kept x0 x1
  | errLastTickLoRead x0 => rw [exec]; exact execErrLastTickLoRead_kept x0
  | bbxSeqLoRead x0 => rw [exec]; exact execBbxSeqLoRead_kept x0
  | cntBwLoRead x0 x1 => rw [exec]; exact execCntBwLoRead_kept x0 x1
  | entdaa x0 => exact absurd h Bool.false_ne_true
  | svcSclLowTimeout => exact absurd h Bool.false_ne_true
  | setEndpointId x0 => exact absurd h Bool.false_ne_true
  | getEndpointId => exact absurd h Bool.false_ne_true
  | getVersionSupport x0 => exact absurd h Bool.false_ne_true
  | getMessageTypeSupport => exact absurd h Bool.false_ne_true
  | getVendorDefinedMessageSupport x0 => exact absurd h Bool.false_ne_true
  | getTid => exact absurd h Bool.false_ne_true
  | setTid x0 => exact absurd h Bool.false_ne_true
  | getPldmVersion x0 => exact absurd h Bool.false_ne_true
  | getPldmTypes => exact absurd h Bool.false_ne_true
  | getPldmCommands x0 => exact absurd h Bool.false_ne_true
  | requestUpdate => exact absurd h Bool.false_ne_true
  | passComponentTable x0 => exact absurd h Bool.false_ne_true
  | updateComponent x0 x1 => exact absurd h Bool.false_ne_true
  | requestFirmwareData x0 x1 => exact absurd h Bool.false_ne_true
  | verifyComplete => exact absurd h Bool.false_ne_true
  | applyComplete => exact absurd h Bool.false_ne_true
  | activateFirmware => exact absurd h Bool.false_ne_true
  | status => exact absurd h Bool.false_ne_true
  | wake => exact absurd h Bool.false_ne_true
  | bbxRead x0 => exact absurd h Bool.false_ne_true
  | bbxInfo => exact absurd h Bool.false_ne_true
  | jtagTrst => exact absurd h Bool.false_ne_true
  | bypass => exact absurd h Bool.false_ne_true
  | idcode => exact absurd h Bool.false_ne_true
  | samplePreload => exact absurd h Bool.false_ne_true
  | extest => exact absurd h Bool.false_ne_true
  | registerWrite x0 x1 x2 => exact absurd h Bool.false_ne_true
  | standbySupplyLost => exact absurd h Bool.false_ne_true
  | hostLinkTrains x0 x1 x2 => rw [exec]; exact execHostLinkTrains_kept x0 x1 x2

end Sys2Proof.Machine
end

