-- ==== Sys2Proof/Laws/Clauses.lean ====
section
/-! SUPPORT. What the clause operations may change, and which bytes they store. -/

namespace Sys2Proof.Machine

variable {ps : List Part} {ks : List Nat} {s t : State}

/-! ### Frames -/

/-- A frame that names no memory leaves all of them. -/
theorem changesOnly.mem (h : changesOnly ps s t) (hp : ∀ p ∈ [Part.sp, .hbm, .acc, .scale, .staging, .host, .flash, .bootMem, .mram, .ctx,
    .win, .winM, .obj, .req, .slot, .hdr, .hdrM, .seen, .seenM], p ∉ ps) : t.mem = s.mem := by
  have a := h .sp (hp _ (by simp)); have b := h .hbm (hp _ (by simp)); have c := h .acc (hp _ (by simp))
  have d := h .scale (hp _ (by simp)); have e := h .staging (hp _ (by simp)); have f := h .host (hp _ (by simp))
  have g := h .flash (hp _ (by simp)); have i := h .bootMem (hp _ (by simp)); have j := h .mram (hp _ (by simp))
  have k := h .ctx (hp _ (by simp)); have l := h .win (hp _ (by simp)); have m := h .winM (hp _ (by simp))
  have n := h .obj (hp _ (by simp)); have o := h .req (hp _ (by simp)); have p := h .slot (hp _ (by simp))
  have q := h .hdr (hp _ (by simp)); have r := h .seen (hp _ (by simp)); have u := h .seenM (hp _ (by simp))
  have v := h .hdrM (hp _ (by simp))
  simp only [Part.same] at *
  change (⟨t.mem.sp, t.mem.hbm, t.mem.acc, t.mem.scale, t.mem.staging, t.mem.host, t.mem.flash, t.mem.boot, t.mem.mram, t.mem.ctx, t.mem.win, t.mem.winM, t.mem.obj, t.mem.req, t.mem.slot, t.mem.hdr, t.mem.hdrM, t.mem.seen, t.mem.seenM⟩ : Mems) = s.mem
  rw [a, b, c, d, e, f, g, i, j, k, l, m, n, o, p, q, v, r, u]

theorem framed.mem (h : framed ps ks s t) (hp : ∀ p ∈ [Part.sp, .hbm, .acc, .scale, .staging, .host, .flash, .bootMem, .mram, .ctx,
    .win, .winM, .obj, .req, .slot, .hdr, .hdrM, .seen, .seenM], p ∉ ps) : t.mem = s.mem := h.1.mem hp

theorem State.spWrite_framed (s : State) (g off : Nat) (bs : List Byte) : framed [.sp] [] s (s.spWrite g off bs) := framed_sp s _

theorem State.opWrite_framed (s : State) (g : Nat) (ctx : Bool) (seat : Option Seat) (off : Nat) (bs : List Byte) :
    framed [.sp, .ctx] [] s (s.opWrite g ctx seat off bs) := by
  unfold State.opWrite
  split
  · split
    · exact (framed_ctx s _).mono (by simp) (by simp)
    · exact .refl
  · exact (s.spWrite_framed g off bs).mono (by simp) (by simp)

theorem State.accWrite_framed (s : State) (g m off : Nat) (bs : List Byte) : framed [.acc] [] s (s.accWrite g m off bs) := framed_acc s _

theorem State.pendPut_framed (s : State) (p : Pend) : framed [.pend] [] s (s.pendPut p) := framed_pend s _

theorem State.tallyClause_framed (s : State) (c : Issue) (block : Nat) : framed [.cnt] [] s (s.tallyClause c block) :=
  (s.tally_framed _).trans (State.tally_framed _ _)

theorem State.tallySp_framed (s : State) (g master event : Nat) (q : Option Seat) (lines : List (Nat × Nat)) :
    framed [.cnt] [] s (s.tallySp g master event q lines) :=
  framed.foldl _ _ (fun v _ => framed.foldl _ _ (fun u _ => u.tally_framed _) v) s

theorem vuWrite_framed (s : State) (g : Nat) (q : Option Seat) (o : VuOperand) (grid : List (List VuOut)) :
    framed [.sp, .ctx] [] s (vuWrite s g q o grid) := by
  unfold vuWrite
  simp only
  split
  · exact framed.foldl _ _ (fun v _ => v.opWrite_framed ..) s
  · exact framed.foldl _ _ (fun v _ => v.opWrite_framed ..) s

theorem vuStatus_framed (s : State) (g : Nat) (d : VuDesc) (w0 w1 : Word) : framed [.sp] [] s (vuStatus s g d w0 w1) := by
  unfold vuStatus
  split
  · exact .refl
  · exact s.spWrite_framed ..

theorem vuCal_framed (s : State) (c : Issue) (d : VuDesc) (outs : List (List VuOut)) : framed [.pend] [] s (vuCal s c d outs) := by
  unfold vuCal
  simp only
  split
  · exact s.pendPut_framed _
  · exact .refl

theorem vuTally_framed (s : State) (c : Issue) (op : Nat) (d : VuDesc) (x : VuExtra) : framed [.cnt] [] s (vuTally s c op d x) := by
  unfold vuTally
  exact (State.tallyClause_framed s c _).trans ((State.tally_framed _ _).trans ((State.tally_framed _ _).trans
    ((State.tallySp_framed ..).trans (State.tallySp_framed ..))))

theorem vuResult_framed (s : State) (c : Issue) (d : VuDesc) (outs : List (List VuOut)) :
    framed [.sp, .ctx, .pend] [] s (vuResult s c d outs) := by
  unfold vuResult
  exact ((vuWrite_framed ..).mono (by simp) (by simp)).trans (((vuCal_framed ..).mono (by simp) (by simp)).trans
    ((vuStatus_framed ..).mono (by simp) (by simp)))

/-- What `vuResult` leaves in the memories. -/
theorem vuResult_mem (s : State) (c : Issue) (d : VuDesc) (outs : List (List VuOut)) :
    (vuResult s c d outs).mem = (vuStatus (vuWrite s c.gal.toNat (s.seatAt c.gal.toNat c.seat.toNat) d.d outs) c.gal.toNat d 0 0).mem := by
  unfold vuResult vuStatus State.spWrite
  simp only
  have h := (vuCal_framed (vuWrite s c.gal.toNat (s.seatAt c.gal.toNat c.seat.toNat) d.d outs) c d outs).mem (by simp)
  split
  · exact h
  · simp only [h]

/-! ### Which bytes stay -/

variable {b : Nat} {rs rs' : List (Nat × Nat)} {m m' m'' : Mem}

theorem sameOutside.refl : sameOutside b rs m m := fun _ _ => rfl

theorem sameOutside.trans (h : sameOutside b rs m m') (h' : sameOutside b rs m' m'') : sameOutside b rs m m'' :=
  fun k hk => (h' k hk).trans (h k hk)

theorem sameOutside.mono (h : sameOutside b rs m m') (hs : ∀ x ∈ rs, x ∈ rs') : sameOutside b rs' m m' :=
  fun k hk => h k fun x hx => hk x (hs x hx)

theorem sameOutside.append (h : sameOutside b rs m m') (h' : sameOutside b rs' m' m'') : sameOutside b (rs ++ rs') m m'' :=
  (h.mono (by simp +contextual)).trans (h'.mono (by simp +contextual))

theorem sameOutside.write (m : Mem) (b off : Nat) (bs : List Byte) : sameOutside b [(off, bs.length)] m (memWrite m (b + off) bs) :=
  fun k hk => memByte_write_out _ _ _ _ (hk (off, bs.length) (by simp))

theorem spKey_add (g off : Nat) : spKey g off = spKey g 0 + off := by simp [spKey]

theorem ctxKey_add (h g half off : Nat) : ctxKey h g half off = ctxKey h g half 0 + off := by simp [ctxKey]

theorem State.spWrite_outside (s : State) (g off : Nat) (bs : List Byte) :
    sameOutside (spKey g 0) [(off, bs.length)] s.mem.sp (s.spWrite g off bs).mem.sp := by
  have h := sameOutside.write s.mem.sp (spKey g 0) off bs
  rw [← spKey_add] at h
  exact h

theorem State.opWrite_curHalf (s : State) (g : Nat) (ctx : Bool) (seat : Option Seat) (off h : Nat) (bs : List Byte) :
    (s.opWrite g ctx seat off bs).curHalf h = s.curHalf h := by
  have := (s.opWrite_framed g ctx seat off bs).1 .reqs (by simp)
  simp only [Part.same] at this
  unfold State.curHalf State.reqAt
  rw [this]

/-- An operand write stores its run in scratchpad, or in the next half of its seat's context. -/
theorem State.opWrite_outside (s : State) (g : Nat) (ctx : Bool) (seat : Option Seat) (off : Nat) (bs : List Byte) :
    sameOutside (spKey g 0) (if ctx then [] else [(off, bs.length)]) s.mem.sp (s.opWrite g ctx seat off bs).mem.sp
    ∧ ctxOutside s (s.opWrite g ctx seat off bs) g seat (if ctx then [(off, bs.length)] else []) := by
  unfold State.opWrite ctxOutside
  cases ctx with
  | false =>
    refine ⟨s.spWrite_outside g off bs, ?_⟩
    cases seat with
    | none => rfl
    | some q => exact .refl
  | true =>
    cases seat with
    | none => exact ⟨.refl, rfl⟩
    | some q =>
      refine ⟨.refl, ?_⟩
      have h := sameOutside.write s.mem.ctx (ctxKey q.handle g (1 - s.curHalf q.handle) 0) off bs
      rw [← ctxKey_add] at h
      exact h

theorem ctxOutside.refl {g : Nat} {q : Option Seat} : ctxOutside s s g q rs := by
  unfold ctxOutside
  cases q with
  | none => rfl
  | some q => exact .refl

theorem ctxOutside.trans {u : State} {g : Nat} {q : Option Seat} (h : ctxOutside s t g q rs) (h' : ctxOutside t u g q rs)
    (e : ∀ h, t.curHalf h = s.curHalf h) : ctxOutside s u g q rs := by
  unfold ctxOutside at *
  cases q with
  | none => exact h'.trans h
  | some q =>
    simp only [e] at h'
    exact sameOutside.trans h h'

theorem ctxOutside.mono {g : Nat} {q : Option Seat} (h : ctxOutside s t g q rs) (hs : ∀ x ∈ rs, x ∈ rs') : ctxOutside s t g q rs' := by
  unfold ctxOutside at *
  cases q with
  | none => exact h
  | some q => exact sameOutside.mono h hs

/-- Operand writes one after another stay within the runs listed. -/
theorem opWrite_fold {α : Type} (g : Nat) (ctx : Bool) (q : Option Seat) (off : α → Nat) (bs : α → List Byte) (rs : List (Nat × Nat))
    (l : List α) (hl : ∀ x ∈ l, (off x, (bs x).length) ∈ rs) (s : State) :
    sameOutside (spKey g 0) (if ctx then [] else rs) s.mem.sp (l.foldl (fun u x => u.opWrite g ctx q (off x) (bs x)) s).mem.sp
    ∧ ctxOutside s (l.foldl (fun u x => u.opWrite g ctx q (off x) (bs x)) s) g q (if ctx then rs else [])
    ∧ ∀ h, (l.foldl (fun u x => u.opWrite g ctx q (off x) (bs x)) s).curHalf h = s.curHalf h := by
  induction l generalizing s with
  | nil => exact ⟨.refl, .refl, fun _ => rfl⟩
  | cons x l ih =>
    obtain ⟨a, b, c⟩ := ih (fun y hy => hl y (by simp [hy])) (s.opWrite g ctx q (off x) (bs x))
    obtain ⟨a', b'⟩ := s.opWrite_outside g ctx q (off x) (bs x)
    have hx := hl x (by simp)
    have e := fun h => s.opWrite_curHalf g ctx q (off x) h (bs x)
    rw [List.foldl_cons]
    refine ⟨?_, ?_, fun h => (c h).trans (e h)⟩
    · refine sameOutside.trans (a'.mono ?_) a
      cases ctx <;> simp [hx]
    · refine ctxOutside.trans (b'.mono ?_) b e
      cases ctx <;> simp [hx]

/-- A grid stored at an operand covers its runs and nothing else. -/
theorem vuWrite_outside (s : State) (g : Nat) (q : Option Seat) (o : VuOperand) (grid : List (List VuOut)) :
    sameOutside (spKey g 0) (spRuns o grid) s.mem.sp (vuWrite s g q o grid).mem.sp
    ∧ ctxOutside s (vuWrite s g q o grid) g q (ctxRuns o grid) := by
  have h := fun (l : List Nat) (hl : ∀ x ∈ l, x < vuLineCount o grid) =>
    opWrite_fold g o.ctx q (fun i => o.off.toNat + i * o.pitch.toNat) (vuLineBytes o grid) (vuRuns o grid) l
      (fun x hx => by simp only [vuRuns, List.mem_map, List.mem_range]; exact ⟨x, hl x hx, rfl⟩) s
  unfold vuWrite spRuns ctxRuns
  simp only
  by_cases ht : o.trn = true
  · rw [if_pos ht]
    have := h (List.range (grid.headD []).length) (fun x hx => by simpa [vuLineCount, ht] using hx)
    simp only [vuLineBytes, ht, if_true] at this
    exact ⟨this.1, this.2.1⟩
  · rw [if_neg ht]
    have := h (List.range grid.length) (fun x hx => by simpa [vuLineCount, ht] using hx)
    simp only [vuLineBytes, ht, Bool.false_eq_true, if_false] at this
    exact ⟨this.1, this.2.1⟩

theorem vuStatus_outside (s : State) (g : Nat) (d : VuDesc) (w0 w1 : Word) :
    sameOutside (spKey g 0) (statusRuns d) s.mem.sp (vuStatus s g d w0 w1).mem.sp := by
  unfold vuStatus statusRuns
  split
  · exact .refl
  · exact s.spWrite_outside g d.statusOff.toNat (w0.bytes ++ w1.bytes)

/-- What `vuResult` answers, whole. -/
theorem vuResult_stores (s : State) (c : Issue) (d : VuDesc) (outs : List (List VuOut)) (more : List Part) :
    storesGrid c d outs more s (vuResult s c d outs) := by
  have w := vuWrite_outside s c.gal.toNat (s.seatAt c.gal.toNat c.seat.toNat) d.d outs
  have st := vuStatus_outside (vuWrite s c.gal.toNat (s.seatAt c.gal.toNat c.seat.toNat) d.d outs) c.gal.toNat d 0 0
  have sf := (vuStatus_framed (vuWrite s c.gal.toNat (s.seatAt c.gal.toNat c.seat.toNat) d.d outs) c.gal.toNat d 0 0).1 .ctx (by simp)
  simp only [Part.same] at sf
  refine ⟨vuResult_mem .., ?_, ?_, (vuResult_framed ..).mono (by simp) (by simp)⟩
  · rw [vuResult_mem]; exact w.1.append st
  · have := w.2
    unfold ctxOutside at *
    rw [vuResult_mem, sf]
    exact this

/-- Counting adds nothing to what a clause stores. -/
theorem storesGrid.count {c : Issue} {d : VuDesc} {outs : List (List VuOut)} {more : List Part} {u : State}
    (h : storesGrid c d outs more s t) (f : framed [.cnt] [] t u) : storesGrid c d outs more s u := by
  have e := f.mem (by simp)
  obtain ⟨a, b, x, y⟩ := h
  refine ⟨e.trans a, by rw [e]; exact b, ?_, y.trans (f.mono (by simp) (by simp))⟩
  unfold ctxOutside at *
  rw [e]; exact x

theorem storesGrid.kept {c : Issue} {d : VuDesc} {outs : List (List VuOut)} {more : List Part}
    (h : storesGrid c d outs more s t) : storesGrid c d outs more s (s.kept t) := ⟨h.1, h.2.1, h.2.2.1, h.2.2.2.kept⟩

/-- A VU clause that is issued, admissible and inside scratchpad runs. -/
theorem vuClause_runs {c : Issue} {o : Op} {op : Nat} {x : VuExtra} {d : VuDesc} {ok inside : Bool} {run : State → State}
    (hr : s.vuReady c o = true) (hc : vuCheck op c.seat.toNat x.accIn d = none) (ho : ok = true) (hv : vuInside op d = true)
    (hi : inside = true) : vuClause s c o op x d ok inside run = .next (s.kept (vuTally (run s) c op d x)) := by
  unfold vuClause
  simp [hr, hc, ho, hv, hi, keep]

/-- Rules with no failure hold one and all. -/
theorem firstFail_none (l : List (Bool × Nat × Nat)) : firstFail l = none ↔ ∀ x ∈ l, x.1 = true := by
  induction l with
  | nil => simp [firstFail]
  | cons x l ih =>
    obtain ⟨ok, n, k⟩ := x
    cases ok <;> simp [firstFail, ih]

/-! ### Each VU clause as it runs -/

variable {c : Issue} {d : VuDesc}

theorem execMap_runs (hr : s.vuReady c (.vu 0x01 false d) = true) (hc : vuCheck 0x1 c.seat.toNat false d = none) (hv : vuInside 0x1 d = true) :
    execMap c d s = .next (s.kept (vuTally { vuResult s c d (mapOuts s c d) with freeCtr := s.freeCtr + 1 } c 0x1 d vuPlain)) := by
  unfold execMap
  exact vuClause_runs hr hc rfl hv rfl

theorem execAdd_runs (hr : s.vuReady c (.vu 0x02 false d) = true) (hc : vuCheck 0x2 c.seat.toNat false d = none) (hv : vuInside 0x2 d = true) :
    execAdd c d s = .next (s.kept (vuTally (vuResult s c d (map2Outs s c d fvAdd)) c 0x2 d vuPlain)) := by
  unfold execAdd
  exact vuClause_runs hr hc rfl hv rfl

theorem execSub_runs (hr : s.vuReady c (.vu 0x03 false d) = true) (hc : vuCheck 0x3 c.seat.toNat false d = none) (hv : vuInside 0x3 d = true) :
    execSub c d s = .next (s.kept (vuTally (vuResult s c d (map2Outs s c d fvSub)) c 0x3 d vuPlain)) := by
  unfold execSub
  exact vuClause_runs hr hc rfl hv rfl

theorem execMul_runs (hr : s.vuReady c (.vu 0x04 false d) = true) (hc : vuCheck 0x4 c.seat.toNat false d = none) (hv : vuInside 0x4 d = true) :
    execMul c d s = .next (s.kept (vuTally (vuResult s c d (map2Outs s c d fvMul)) c 0x4 d vuPlain)) := by
  unfold execMul
  exact vuClause_runs hr hc rfl hv rfl

theorem execMax_runs (hr : s.vuReady c (.vu 0x05 false d) = true) (hc : vuCheck 0x5 c.seat.toNat false d = none) (hv : vuInside 0x5 d = true) :
    execMax c d s = .next (s.kept (vuTally (vuResult s c d (map2Outs s c d fvMax)) c 0x5 d vuPlain)) := by
  unfold execMax
  exact vuClause_runs hr hc rfl hv rfl

theorem execMin_runs (hr : s.vuReady c (.vu 0x06 false d) = true) (hc : vuCheck 0x6 c.seat.toNat false d = none) (hv : vuInside 0x6 d = true) :
    execMin c d s = .next (s.kept (vuTally (vuResult s c d (map2Outs s c d fvMin)) c 0x6 d vuPlain)) := by
  unfold execMin
  exact vuClause_runs hr hc rfl hv rfl

theorem execFma_runs (hr : s.vuReady c (.vu 0x07 false d) = true) (hc : vuCheck 0x7 c.seat.toNat false d = none) (hv : vuInside 0x7 d = true) :
    execFma c d s = .next (s.kept (vuTally (vuResult s c d (fmaOuts s c d)) c 0x7 d vuPlain)) := by
  unfold execFma
  exact vuClause_runs hr hc rfl hv rfl

theorem execRsum_runs (hr : s.vuReady c (.vu 0x10 false d) = true) (hc : vuCheck 0x10 c.seat.toNat false d = none) (hv : vuInside 0x10 d = true) :
    execRsum c d s = .next (s.kept (vuTally (vuResult s c d (reduceOuts s c d fun xs => pairStore d.d.fmt.toNat d.ovf (fastSum xs))) c 0x10 d vuPlain)) := by
  unfold execRsum
  exact vuClause_runs hr hc rfl hv rfl

theorem execRsumsq_runs (hr : s.vuReady c (.vu 0x11 false d) = true) (hc : vuCheck 0x11 c.seat.toNat false d = none) (hv : vuInside 0x11 d = true) :
    execRsumsq c d s = .next (s.kept (vuTally (vuResult s c d (reduceOuts s c d fun xs => pairStore d.d.fmt.toNat d.ovf (fastSum (xs.map fun x => rne32 (fvMul x x))))) c 0x11 d vuPlain)) := by
  unfold execRsumsq
  exact vuClause_runs hr hc rfl hv rfl

theorem execRmax_runs (hr : s.vuReady c (.vu 0x12 false d) = true) (hc : vuCheck 0x12 c.seat.toNat false d = none) (hv : vuInside 0x12 d = true) :
    execRmax c d s = .next (s.kept (vuTally (vuResult s c d (reduceOuts s c d fun xs => vuStore d.d.fmt.toNat d.ovf (xs.foldl fvMax (.inf true)))) c 0x12 d vuPlain)) := by
  unfold execRmax
  exact vuClause_runs hr hc rfl hv rfl

theorem execRmin_runs (hr : s.vuReady c (.vu 0x13 false d) = true) (hc : vuCheck 0x13 c.seat.toNat false d = none) (hv : vuInside 0x13 d = true) :
    execRmin c d s = .next (s.kept (vuTally (vuResult s c d (reduceOuts s c d fun xs => vuStore d.d.fmt.toNat d.ovf (xs.foldl fvMin (.inf false)))) c 0x13 d vuPlain)) := by
  unfold execRmin
  exact vuClause_runs hr hc rfl hv rfl

theorem execInfl_runs {w : InflWords} (hr : s.vuReady c (.infl d w) = true) (hc : vuCheck 0x08 c.seat.toNat false d = none)
    (hv : vuInside 0x08 d = true) (hw : (firstFail (inflRules c.seat.toNat d.rows.toNat w)).isNone = true)
    (hs : inflRead s c d w = true) :
    execInfl c d w s = .next (s.kept (vuTally (vuResult s c d (inflOuts s c d w)) c 0x08 d (inflExtra c.seat.toNat d w))) := by
  unfold execInfl
  exact vuClause_runs hr hc hw hv hs

theorem execXred_runs {accIn : Bool} (hr : s.vuReady c (.vu 0x20 accIn d) = true) (hc : vuCheck 0x20 c.seat.toNat accIn d = none)
    (hv : vuInside 0x20 d = true) :
    execXred c d accIn s = .next (s.kept (vuTally (vuExactSum s c d d.axis.toNat accIn) c 0x20 d { vuPlain with accIn := accIn })) := by
  unfold execXred
  exact vuClause_runs hr hc rfl hv rfl

theorem execXcomb_runs {accIn : Bool} (hr : s.vuReady c (.vu 0x21 accIn d) = true) (hc : vuCheck 0x21 c.seat.toNat accIn d = none)
    (hv : vuInside 0x21 d = true) :
    execXcomb c d accIn s = .next (s.kept (vuTally (vuExactSum s c d 2 accIn) c 0x21 d { vuPlain with accIn := accIn })) := by
  unfold execXcomb
  exact vuClause_runs hr hc rfl hv rfl

theorem vuExactSum_stores (axis : Nat) (accIn : Bool) (more : List Part) :
    storesGrid c d (exactOuts s c d axis accIn) more s (vuExactSum s c d axis accIn) := by
  unfold vuExactSum
  exact (vuResult_stores s c d _ more).count (State.tally_framed _ _)

/-- The end of every VU clause that stores a grid. -/
theorem storesGrid.ends {outs : List (List VuOut)} {more : List Part} {op : Nat} {x : VuExtra} (h : storesGrid c d outs more s t) :
    storesGrid c d outs more s (s.kept (vuTally t c op d x)) := (h.count (vuTally_framed ..)).kept

theorem execTopk_runs (hr : s.vuReady c (.vu 0x14 false d) = true) (hc : vuCheck 0x14 c.seat.toNat false d = none) (hv : vuInside 0x14 d = true)
    (hy : d.y.ctx = true ∨ lineInside (vuLines d.y (vuDestShape 0x14 d).1 (vuDestShape 0x14 d).2) = true) :
    execTopk c d s = .next (s.kept (vuTally (vuResult (vuWrite s c.gal.toNat (s.seatAt c.gal.toNat c.seat.toNat) d.y (topIdxs s c d))
      c d (topVals s c d)) c 0x14 d vuPlain)) := by
  unfold execTopk
  exact vuClause_runs hr hc rfl hv (by simpa [lineInside] using hy)

theorem execExpand_runs {w : RouteWords} (hr : s.vuReady c (.route 0x31 d w) = true) (hc : vuCheck 0x31 c.seat.toNat false d = none)
    (hv : vuInside 0x31 d = true)
    (ho : (firstFail (routingRules 0x31 c.seat.toNat d w)).isNone = true)
    (hi : ((w.expSrc || (d.z.ctx || (routeBuffers d.z.off.toNat d.z.pitch.toNat (d.cols.toNat * vuBytes d.z.fmt.toNat) w).all lineInside)
        && lineInside (routeMap d.rows.toNat w)) && (d.y.ctx || lineInside (vuLines d.y d.rows.toNat w.kc.toNat))) = true) :
    execExpand c d w s = .next (s.kept (vuTally (vuResult s c d (expandOuts s c d w)) c 0x31 d (expandExtra c.seat.toNat d w))) := by
  unfold execExpand
  exact vuClause_runs hr hc ho hv hi

theorem execCompress_runs {w : RouteWords} (hr : s.vuReady c (.route 0x30 d w) = true) (hc : vuCheck 0x30 c.seat.toNat false d = none)
    (hv : vuInside 0x30 d = true) (ho : (firstFail (routingRules 0x30 c.seat.toNat d w)).isNone = true)
    (hi : ((d.d.ctx || (routeBuffers d.d.off.toNat d.d.pitch.toNat (d.cols.toNat * vuBytes d.x.fmt.toNat) w).all lineInside)
        && lineInside (routeMap d.rows.toNat w) && (d.y.ctx || lineInside (vuLines d.y d.rows.toNat w.kc.toNat))) = true) :
    execCompress c d w s = .next (s.kept (vuTally (compressRun c d w s) c 0x30 d (compressExtra d w))) := by
  unfold execCompress
  exact vuClause_runs hr hc ho hv hi

theorem execSolveSpd_runs {w : SolveWords} (hr : s.vuReady c (.solve d w) = true)
    (hc : vuCheck 0x40 c.seat.toNat false { d with rows := BitVec.ofNat 16 w.n.toNat, cols := BitVec.ofNat 16 w.r.toNat } = none)
    (hv : vuInside 0x40 { d with rows := BitVec.ofNat 16 w.n.toNat, cols := BitVec.ofNat 16 w.r.toNat } = true)
    (ho : (firstFail (solveRules d w)).isNone = true)
    (hi : (extentOk false w.wsOff.toNat 0 1 (4 * w.n.toNat * (w.n.toNat + w.r.toNat))
        && (w.lOff == 0xFFFFFFFF || extentOk false w.lOff.toNat 0 1 (4 * w.n.toNat * w.n.toNat))
        && (d.x.ctx || lineInside (vuLines d.x w.n.toNat w.n.toNat))) = true) :
    execSolveSpd c d w s = .next (s.kept (vuTally (solveRun c d w s) c 0x40
      { d with rows := BitVec.ofNat 16 w.n.toNat, cols := BitVec.ofNat 16 w.r.toNat } (solveExtra w))) := by
  unfold execSolveSpd
  exact vuClause_runs hr hc ho hv hi

theorem execSignUpdate_runs {w : SignWords} (hr : s.vuReady c (.sign d w) = true) (hc : vuCheck 0x09 c.seat.toNat false d = none)
    (hv : vuInside 0x09 d = true) (ho : signOk c d w = true)
    (hi : (extentOk false w.recIn.toNat 0 1 (8 * (d.rows.toNat * d.cols.toNat))
        && extentOk false w.recOut.toNat 0 1 (8 * (d.rows.toNat * d.cols.toNat))) = true) :
    execSignUpdate c d w s = .next (s.kept (vuTally (signRun c d w s) c 0x09 d (signExtra d))) := by
  unfold execSignUpdate
  exact vuClause_runs hr hc ho hv hi

/-! ### Runs cut and maps filled -/

theorem memRead_slice (m : Mem) (a n i k : Nat) (h : i + k ≤ n) : ((memRead m a n).drop i).take k = memRead m (a + i) k := by
  apply List.ext_getElem?
  intro j
  by_cases hj : j < k
  · rw [List.getElem?_take_of_lt hj, List.getElem?_drop, memRead_get _ _ _ _ (by omega), memRead_get _ _ _ _ hj, Nat.add_assoc]
  · rw [List.getElem?_eq_none (by simp; omega), List.getElem?_eq_none (by simp; omega)]

theorem numsOf_get (e n : Nat) (bs : List Byte) (i : Nat) (h : i < n) : (numsOf e n bs)[i]? = some (natOfBytes ((bs.drop (e * i)).take e)) := by
  induction n generalizing bs i with
  | zero => omega
  | succ n ih =>
    cases i with
    | zero => simp [numsOf]
    | succ i => simp only [numsOf, List.getElem?_cons_succ]; rw [ih _ _ (by omega), List.drop_drop, Nat.mul_succ, Nat.add_comm (e * i) e]

theorem smGet_fold {β : Type} [DecidableEq β] (d : Nat → β) (f : Nat → β) (key n : Nat) (mp : SMap β) (j : Nat) :
    smGet d ((List.range n).foldl (fun mp i => smSet d mp (key + i) (f i)) mp) j
      = if key ≤ j ∧ j < key + n then f (j - key) else smGet d mp j := by
  induction n with
  | zero => simp
  | succ n ih =>
    rw [List.range_succ, List.foldl_append, List.foldl_cons, List.foldl_nil, smGet_set, ih]
    by_cases h : j = key + n
    · subst h; simp
    · rw [if_neg h]
      by_cases h2 : key ≤ j ∧ j < key + n
      · rw [if_pos h2, if_pos (by omega)]
      · rw [if_neg h2, if_neg (by omega)]

/-! ### Seats and halves stay with the parts they are read from -/

theorem State.seatAt_of (h : t.tk.seats = s.tk.seats) (g n : Nat) : t.seatAt g n = s.seatAt g n := by unfold State.seatAt; rw [h]

theorem State.curHalf_of (h : t.hs.reqs = s.hs.reqs) (n : Nat) : t.curHalf n = s.curHalf n := by
  unfold State.curHalf State.reqAt; rw [h]

/-! ### Frames of the routines -/

theorem compressRun_framed (c : Issue) (d : VuDesc) (w : RouteWords) (s : State) :
    framed [.sp, .ctx, .pend, .cnt, .freeCtr] [] s (compressRun c d w s) := by
  unfold compressRun
  simp only
  refine framed.trans ?_ ((vuStatus_framed ..).mono (by simp) (by simp))
  refine framed.fold (framed.fold (framed.fold (framed.fold (s.free_framed.mono (by simp) (by simp)) fun v _ => ?_)
    fun x _ => (x.spWrite_framed ..).mono (by simp) (by simp)) fun x _ => (x.opWrite_framed ..).mono (by simp) (by simp)) fun x _ => ?_
  · exact framed.fold .refl fun u _ => framed.fold (framed.fold .refl fun x _ => (x.opWrite_framed ..).mono (by simp) (by simp))
      fun x _ => (x.opWrite_framed ..).mono (by simp) (by simp)
  · split
    · exact ((x.pendPut_framed _).mono (by simp) (by simp)).trans (((State.tally_framed _ _).trans (State.tally_framed _ _)).mono
        (by simp) (by simp))
    · exact .refl

theorem solveRun_framed (c : Issue) (d : VuDesc) (w : SolveWords) (s : State) :
    framed [.sp, .ctx, .pend, .freeCtr] [] s (solveRun c d w s) := by
  unfold solveRun
  simp only
  have h1 : framed [.sp, .ctx, .pend, .freeCtr] [] s (s.free.2.spWrite c.gal.toNat w.wsOff.toNat
      (bytesOfNat (4 * w.n.toNat * (w.n.toNat + w.r.toNat)) s.free.1)) :=
    (s.free_framed.mono (by simp) (by simp)).trans ((State.spWrite_framed ..).mono (by simp) (by simp))
  split
  · refine framed.trans (framed.trans h1 ((vuStatus_framed ..).mono (by simp) (by simp))) ((State.pendPut_framed ..).mono (by simp) (by simp))
  · refine framed.trans (framed.trans ?_ ((vuStatus_framed ..).mono (by simp) (by simp))) ((State.pendPut_framed ..).mono (by simp) (by simp))
    split
    · exact framed.trans (framed.trans h1 ((vuWrite_framed ..).mono (by simp) (by simp))) ((vuCal_framed ..).mono (by simp) (by simp))
    · refine framed.fold ?_ fun x _ => (x.spWrite_framed ..).mono (by simp) (by simp)
      exact framed.trans (framed.trans h1 ((vuWrite_framed ..).mono (by simp) (by simp))) ((vuCal_framed ..).mono (by simp) (by simp))

theorem State.areaPut_framed (s : State) (c : Issue) (q : Seat) (norm : Bool) (index off : Nat) (words : List Word) :
    framed [.sp, .ctx, .pend] [] s (s.areaPut c q norm index off words) := by
  unfold State.areaPut
  exact ((s.opWrite_framed ..).mono (by simp) (by simp)).trans ((State.pendPut_framed ..).mono (by simp) (by simp))

theorem State.addNorms_framed (s : State) (c : Issue) (layer normOff group sumOff : Nat) (us : List Updated) :
    framed [.sp, .ctx, .pend] [] s (s.addNorms c layer normOff group sumOff us) := by
  unfold State.addNorms
  split
  · exact .refl
  · exact (s.areaPut_framed ..).trans (State.areaPut_framed ..)

theorem State.addZeros_framed (s : State) (c : Issue) (layer normOff group sumOff : Nat) :
    framed [.sp, .ctx, .pend] [] s (s.addZeros c layer normOff group sumOff) := by
  unfold State.addZeros
  split
  · exact .refl
  · exact (s.areaPut_framed ..).trans (State.areaPut_framed ..)

theorem signRun_framed (c : Issue) (d : VuDesc) (w : SignWords) (s : State) : framed [.sp, .ctx, .pend] [] s (signRun c d w s) := by
  unfold signRun
  simp only
  refine framed.trans (framed.trans ?_ (State.addNorms_framed ..)) ((vuStatus_framed ..).mono (by simp) (by simp))
  split
  · exact (s.spWrite_framed ..).mono (by simp) (by simp)
  · exact framed.trans (framed.trans ((s.spWrite_framed ..).mono (by simp) (by simp)) ((vuWrite_framed ..).mono (by simp) (by simp)))
      ((vuCal_framed ..).mono (by simp) (by simp))

end Sys2Proof.Machine
end

