-- ==== Sys2Proof/Laws/Matrix.lean ====
section
/-! SUPPORT. What the matrix-unit clauses change and where they store. -/

namespace Sys2Proof.Machine

variable {s t : State} {c : Issue} {d : MmDesc} {b : Nat} {rs : List (Nat × Nat)}

/-! ### Frames -/

theorem mmStoreAcc_framed (s : State) (g m : Nat) (d : MmDesc) (r : MmResult) : framed [.acc] [] s (mmStoreAcc s g m d r) := by
  unfold mmStoreAcc
  simp only
  refine framed.fold ?_ fun x _ => x.accWrite_framed ..
  split
  · exact framed.trans (s.accWrite_framed ..) (State.accWrite_framed ..)
  · exact s.accWrite_framed ..

theorem mmStoreRow_framed (s : State) (g : Nat) (d : MmDesc) (q : Option Seat) (i : Nat) (es : List WoElem) :
    framed [.sp, .ctx] [] s (mmStoreRow s g d q i es) := by
  unfold mmStoreRow
  simp only
  split
  · exact .refl
  · split
    · exact framed.trans (s.opWrite_framed ..) (State.opWrite_framed ..)
    · exact s.opWrite_framed ..

theorem mmStore_framed (s : State) (g m : Nat) (d : MmDesc) (seats : List (Option Seat)) (r : MmResult) :
    framed [.sp, .ctx, .acc] [] s (mmStore s g m d seats r) := by
  unfold mmStore
  simp only
  have h := (mmStoreAcc_framed s g m d r).mono (qs := [.sp, .ctx, .acc]) (js := []) (by simp) (by simp)
  split <;> split
  · exact h.fold fun x _ => (mmStoreRow_framed ..).mono (by simp) (by simp)
  · exact h
  · exact (h.fold fun x _ => (mmStoreRow_framed ..).mono (by simp) (by simp)).trans ((State.spWrite_framed ..).mono (by simp) (by simp))
  · exact h.trans ((State.spWrite_framed ..).mono (by simp) (by simp))

theorem mmNote_framed (s : State) (g m : Nat) (d : MmDesc) (seats : List (Option Seat)) (r : MmResult) :
    framed [.pend, .cnt] [] s (mmNote s g m d seats r) := by
  unfold mmNote
  refine framed.fold .refl fun v x => ?_
  split
  · exact .refl
  · refine framed.trans (framed.trans (framed.trans ?_ ((State.tally_framed ..).mono (by simp) (by simp)))
      ((State.tally_framed ..).mono (by simp) (by simp))) ((State.tally_framed ..).mono (by simp) (by simp))
    have p : ∀ (b : Bool) (w : State) (e : Pend), framed [.pend, .cnt] [] v w →
        framed [.pend, .cnt] [] v (if b = true then w.pendPut e else w) := fun b w e h => by
      split
      · exact h.trans ((w.pendPut_framed e).mono (by simp) (by simp))
      · exact h
    exact p _ _ _ (p _ _ _ (p _ _ _ .refl))

theorem mmRun_framed (s : State) (c : Issue) (m : Nat) (d : MmDesc) : framed [.sp, .ctx, .acc, .pend, .cnt] [] s (mmRun s c m d) := by
  unfold mmRun
  exact ((mmStore_framed ..).mono (by simp) (by simp)).trans ((mmNote_framed ..).mono (by simp) (by simp))

theorem mmRun_mem (s : State) (c : Issue) (m : Nat) (d : MmDesc) :
    (mmRun s c m d).mem = (mmStore s c.gal.toNat m d (mmSeats s c.gal.toNat d) (mmCalc s c m d)).mem := by
  unfold mmRun
  exact (mmNote_framed ..).mem (by simp)

/-- An MM that is issued, admissible and inside scratchpad runs. -/
theorem execMm_runs (hr : s.muReady c (.mm d) = true) (hc : mmCheck c.seat.toNat d = none) (hv : (mmInside d && mmInflInside s c d) = true) :
    ∃ t, execMm c d s = .next (s.kept t) ∧ framed [.cnt] [] (mmRun s c (s.physMu c.gal.toNat c.unit.toNat) d) t := by
  unfold execMm
  simp only [hr, hc, hv, Bool.not_true, Bool.false_eq_true, if_false, Option.isSome_none, Bool.or_false, keep]
  exact ⟨_, rfl, ((((State.tallyClause_framed ..).trans (State.tally_framed ..)).trans (State.tally_framed ..)).trans
    (State.tallySp_framed ..)).trans (State.tallySp_framed ..)⟩

/-! ### Which bytes stay -/

/-- A run written that is no longer than the run listed. -/
theorem sameOutside.write_le (m : Mem) (b off n : Nat) (bs : List Byte) (h : bs.length ≤ n) (hm : (off, n) ∈ rs) :
    sameOutside b rs m (memWrite m (b + off) bs) :=
  fun k hk => memByte_write_out _ _ _ _ (by have := hk (off, n) hm; simp only at this; omega)

theorem bytesOfNat_length (n v : Nat) : (bytesOfNat n v).length = n := by
  induction n generalizing v with
  | zero => rfl
  | succ n ih => simp [bytesOfNat, ih]

theorem accEncode_length (acc : Nat) (v : Fv × Fv) : (accEncode acc v).length = accBytes acc := by
  unfold accEncode accBytes
  split <;> simp [bytesOfNat_length]

theorem flatMap_length_le {α β : Type} (f : α → List β) (l : List α) (n k : Nat) (hl : l.length ≤ k) (h : ∀ x ∈ l, (f x).length ≤ n) :
    (l.flatMap f).length ≤ k * n := by
  induction l generalizing k with
  | nil => simp
  | cons x l ih =>
    obtain ⟨k, rfl⟩ : ∃ j, k = j + 1 := ⟨k - 1, by simp at hl; omega⟩
    have := ih k (by simpa using hl) (fun y hy => h y (by simp [hy]))
    have := h x (by simp)
    rw [List.flatMap_cons, List.length_append, Nat.succ_mul]
    omega

theorem numsOf_length (e n : Nat) (bs : List Byte) : (numsOf e n bs).length = n := by
  induction n generalizing bs with
  | zero => rfl
  | succ n ih => simp [numsOf, ih]

theorem cutRows_shape {α : Type} (cols rows : Nat) (l : List α) :
    (cutRows cols rows l).length = rows ∧ ∀ row ∈ cutRows cols rows l, row.length ≤ cols := by
  induction rows generalizing l with
  | zero => simp [cutRows]
  | succ n ih =>
    refine ⟨by simp [cutRows, (ih (l.drop cols)).1], fun row h => ?_⟩
    simp only [cutRows, List.mem_cons] at h
    rcases h with rfl | h
    · simp
    · exact (ih (l.drop cols)).2 row h

theorem tileBytes_length (acc rows cols : Nat) (tl : List (List ((Fv × Fv) × Bool))) (h : tl.length ≤ rows ∧ ∀ row ∈ tl, row.length ≤ cols) :
    (tileBytes acc tl).length ≤ rows * cols * accBytes acc := by
  have := flatMap_length_le (fun row : List ((Fv × Fv) × Bool) => row.flatMap fun x => accEncode acc x.1) tl (cols * accBytes acc) rows h.1
    fun row hr => flatMap_length_le _ row (accBytes acc) cols (h.2 row hr) fun x _ => by rw [accEncode_length]
  rw [← Nat.mul_assoc] at this
  exact this

theorem gradBytes_length (ng : Nat) (blk : List (List ((Fv × Fv) × (Fv × Fv) × Bool))) : (gradBytes ng blk).length ≤ 16384 := by
  refine flatMap_length_le _ (List.range 8) 2048 8 (by simp) fun r _ => ?_
  split
  · refine flatMap_length_le _ _ 16 128 (by simp) fun x _ => ?_
    simp [accEncode_length, accBytes]
  · rw [List.length_replicate]

/-- The bytes of a written element: its own plane's, and the second plane's with WFMT 9. -/
theorem writeOut_length (acc w : Nat) (ovf : Bool) (shift : Nat) (v : Fv × Fv) (c : Option Fv) (infl : Option (Fv × Fv)) :
    (writeOut acc w ovf shift v c infl).bytes.length = (if w = 9 then 2 else wfmtBytes w)
    ∧ (writeOut acc w ovf shift v c infl).pre.length ≤ 2 := by
  unfold writeOut
  split
  · subst w; simp [accEncode_length, accBytes, wfmtBytes]
  · split
    · subst w; simp only; split <;> simp [accEncode_length, accBytes, wfmtBytes]
    · simp only
      split
      · rename_i h
        rcases h with rfl | rfl <;> simp [bytesOfNat_length, wfmtBytes]
      · split
        · subst w; simp [bytesOfNat_length]
        · simp [bytesOfNat_length]

theorem zipTile_shape {α β γ ε : Type} (a : List α) (b : List β) (start : List (List γ)) (f : α → β → γ → ε) {rows cols : Nat}
    (h : start.length ≤ rows ∧ ∀ row ∈ start, row.length ≤ cols) :
    ((a.zip start).map fun ra => (b.zip ra.2).map fun cb => f ra.1 cb.1 cb.2).length ≤ rows
    ∧ ∀ row ∈ ((a.zip start).map fun ra => (b.zip ra.2).map fun cb => f ra.1 cb.1 cb.2), row.length ≤ cols := by
  refine ⟨by simp; omega, fun row hr => ?_⟩
  simp only [List.mem_map] at hr
  obtain ⟨⟨x, y⟩, hx, rfl⟩ := hr
  have := h.2 y (List.of_mem_zip hx).2
  simp; omega

/-- The shapes of what an MM computes. -/
theorem mmCalc_first (s : State) (c : Issue) (m : Nat) (d : MmDesc) :
    (mmCalc s c m d).first.length ≤ (tileShape d.shape.toNat).1 ∧ ∀ row ∈ (mmCalc s c m d).first, row.length ≤ (tileShape d.shape.toNat).2 := by
  unfold mmCalc
  simp only
  refine zipTile_shape _ _ _ _ ?_
  have := @cutRows_shape
  exact ⟨Nat.le_of_eq (this _ _ _).1, (this _ _ _).2⟩

theorem ite_shape {ε : Type} {b : Bool} {l : List (List ε)} {rows cols : Nat} (h : l.length ≤ rows ∧ ∀ row ∈ l, row.length ≤ cols) :
    (if b = true then l else []).length ≤ rows ∧ ∀ row ∈ (if b = true then l else []), row.length ≤ cols := by
  cases b
  · simp
  · exact h

theorem mmCalc_second (s : State) (c : Issue) (m : Nat) (d : MmDesc) :
    (mmCalc s c m d).second.length ≤ (tileShape d.shape.toNat).1 ∧ ∀ row ∈ (mmCalc s c m d).second, row.length ≤ (tileShape d.shape.toNat).2 := by
  unfold mmCalc
  refine ite_shape (zipTile_shape _ _ _ _ ⟨by rw [List.length_replicate], fun row h => ?_⟩)
  rw [List.eq_of_mem_replicate h, List.length_replicate]

theorem mmCalc_armed (s : State) (c : Issue) (m : Nat) (d : MmDesc) (h : (mmCalc s c m d).armed = true) : d.rpl = true := by
  unfold mmCalc at h
  simp only [List.any_eq_true, List.mem_map] at h
  obtain ⟨_, ⟨r, _, rfl⟩, h⟩ := h
  simp only [id_eq, Bool.and_eq_true] at h
  exact h.1.1.1

theorem mmCalc_grads (s : State) (c : Issue) (m : Nat) (d : MmDesc) :
    (mmCalc s c m d).grads.length = if d.infl = 3 then d.gblk.toNat else 0 := by
  unfold mmCalc
  simp only
  split <;> simp

theorem inflEntry_length (s : State) (g base stride ch0 slot : Nat) (filled : Bool) (n : Nat) :
    (inflEntry s g base stride ch0 slot filled n).length = n := by
  unfold inflEntry
  split <;> simp [numsOf_length]

/-- The elements of a row written out: no more than the scales, each of its format's bytes. -/
theorem writeRow_length (acc w : Nat) (ovf : Bool) (shift : Nat) {cols : Nat} (vals : List ((Fv × Fv) × Bool)) (scales : List (Option Fv))
    (ent : List (Option (Fv × Fv))) (h : scales.length = cols) :
    (((vals.zip (scales.zip ent)).map fun x => writeOut acc w ovf shift x.1.1 x.2.1 x.2.2).flatMap (·.bytes)).length ≤
      (if w = 9 then 2 * cols else wfmtBytes w * cols)
    ∧ (((vals.zip (scales.zip ent)).map fun x => writeOut acc w ovf shift x.1.1 x.2.1 x.2.2).flatMap (·.pre)).length ≤ 2 * cols := by
  have hl : ((vals.zip (scales.zip ent)).map fun x => writeOut acc w ovf shift x.1.1 x.2.1 x.2.2).length ≤ cols := by simp; omega
  constructor
  · have := flatMap_length_le (·.bytes) _ (if w = 9 then 2 else wfmtBytes w) cols hl fun x hx => by
      simp only [List.mem_map] at hx
      obtain ⟨y, _, rfl⟩ := hx
      rw [(writeOut_length ..).1]
    rw [Nat.mul_comm] at this
    by_cases h9 : w = 9
    · rw [if_pos h9] at this ⊢; exact this
    · rw [if_neg h9] at this ⊢; exact this
  · have := flatMap_length_le (·.pre) _ 2 cols hl fun x hx => by
      simp only [List.mem_map] at hx
      obtain ⟨y, _, rfl⟩ := hx
      exact (writeOut_length ..).2
    rw [Nat.mul_comm] at this
    exact this

theorem mmCalc_outs (s : State) (c : Issue) (m : Nat) (d : MmDesc) (i : Nat) :
    (((mmCalc s c m d).outs.getD i []).flatMap (·.bytes)).length ≤
        (if d.wfmt.toNat = 9 then 2 * (tileShape d.shape.toNat).2 else wfmtBytes d.wfmt.toNat * (tileShape d.shape.toNat).2)
    ∧ (((mmCalc s c m d).outs.getD i []).flatMap (·.pre)).length ≤ 2 * (tileShape d.shape.toNat).2 := by
  unfold mmCalc
  simp only
  rw [List.getD_eq_getElem?_getD]
  by_cases hw : d.write = true
  swap
  · simp [hw]
  rw [if_pos hw]
  by_cases hi : i < (tileShape d.shape.toNat).1
  swap
  · rw [List.getElem?_eq_none (by simpa using hi)]; simp
  rw [List.getElem?_map, List.getElem?_range hi]
  simp only [Option.map_some, Option.getD_some]
  refine writeRow_length _ _ _ _ _ _ _ ?_
  split
  · simp
  · split
    · simp [numsOf_length]
    · simp

/-! ### Where an MM stores -/

theorem State.accWrite_outside (s : State) (g m off n : Nat) (bs : List Byte) (h : bs.length ≤ n) (hm : (off, n) ∈ rs) :
    sameOutside (accKey g m 0) rs s.mem.acc (s.accWrite g m off bs).mem.acc := by
  have := sameOutside.write_le (rs := rs) s.mem.acc (accKey g m 0) off n bs h hm
  have e : accKey g m off = accKey g m 0 + off := by simp [accKey]
  rw [← e] at this
  exact this

theorem sameOutside.fold {α : Type} {f : State → α → State} {l : List α} {u : State} {proj : State → Mem}
    (h : sameOutside b rs (proj s) (proj u)) (hf : ∀ x ∈ l, ∀ v, sameOutside b rs (proj v) (proj (f v x))) :
    sameOutside b rs (proj s) (proj (l.foldl f u)) := by
  induction l generalizing u with
  | nil => exact h
  | cons x l ih => exact ih (h.trans (hf x (by simp) u)) fun y hy => hf y (by simp [hy])

/-- Accumulator storage stays outside an MM's tiles and gradient blocks. -/
theorem mmStoreAcc_outside (s : State) (c : Issue) (m : Nat) (d : MmDesc) :
    sameOutside (accKey c.gal.toNat m 0) (mmAccRuns d) s.mem.acc (mmStoreAcc s c.gal.toNat m d (mmCalc s c m d)).mem.acc := by
  unfold mmStoreAcc
  simp only
  refine sameOutside.fold (proj := fun v => v.mem.acc) ?_ fun j hj v => ?_
  · have h1 := s.accWrite_outside (rs := mmAccRuns d) c.gal.toNat m (8192 * d.accBase.toNat)
      ((tileShape d.shape.toNat).1 * (tileShape d.shape.toNat).2 * accBytes d.acc.toNat)
      (tileBytes d.acc.toNat (mmCalc s c m d).first) (tileBytes_length _ _ _ _ (mmCalc_first ..)) (by simp [mmAccRuns])
    split
    · rename_i ha
      exact h1.trans (State.accWrite_outside _ _ _ _ ((tileShape d.shape.toNat).1 * (tileShape d.shape.toNat).2 * accBytes d.acc.toNat) _
        (tileBytes_length _ _ _ _ (mmCalc_second ..)) (by simp [mmAccRuns, mmCalc_armed s c m d ha]))
    · exact h1
  · refine State.accWrite_outside _ _ _ _ 16384 _ (gradBytes_length ..) ?_
    simp only [List.mem_range, mmCalc_grads] at hj
    split at hj
    · rename_i h3
      simp only [mmAccRuns, h3, if_true, List.mem_append, List.mem_map, List.mem_range]
      exact .inr ⟨j, hj, rfl⟩
    · omega

/-- Operand writes no longer than the runs listed: scratchpad stays outside them in ABS mode, the contexts of the listed seats in CTX
mode. -/
theorem State.opWrite_le (s : State) (g : Nat) (ctx : Bool) (q : Option Seat) (off n : Nat) (bs : List Byte) (h : bs.length ≤ n)
    (hm : (off, n) ∈ rs) {seats : List (Option Seat)} (hq : q = none ∨ q ∈ seats) :
    sameOutside (spKey g 0) (if ctx then [] else rs) s.mem.sp (s.opWrite g ctx q off bs).mem.sp
    ∧ ctxOutsideAll s (s.opWrite g ctx q off bs) g seats (if ctx then rs else []) := by
  unfold State.opWrite ctxOutsideAll
  cases ctx with
  | false =>
    refine ⟨?_, fun _ _ => rfl⟩
    have := sameOutside.write_le (rs := rs) s.mem.sp (spKey g 0) off n bs h hm
    rw [← spKey_add] at this
    exact this
  | true =>
    cases q with
    | none => exact ⟨.refl, fun _ _ => rfl⟩
    | some q =>
      refine ⟨.refl, fun k hk => ?_⟩
      have hq : some q ∈ seats := by simpa using hq
      have := hk q hq (off, n) (by simpa using hm)
      simp only [if_true]
      refine memByte_write_out _ _ _ _ ?_
      rw [ctxKey_add]
      omega

theorem ctxOutsideAll.refl {g : Nat} {qs : List (Option Seat)} : ctxOutsideAll s s g qs rs := fun _ _ => rfl

theorem ctxOutsideAll.trans {u : State} {g : Nat} {qs : List (Option Seat)} (h : ctxOutsideAll s t g qs rs) (h' : ctxOutsideAll t u g qs rs)
    (e : t.hs.reqs = s.hs.reqs) : ctxOutsideAll s u g qs rs := fun k hk =>
  (h' k fun q hq x hx => by have := hk q hq x hx; rw [State.curHalf_of e]; exact this).trans (h k hk)

theorem mmStoreRow_outside (s : State) (g : Nat) (d : MmDesc) (qs : List (Option Seat)) (q : Option Seat) (hq : q = none ∨ q ∈ qs) (i : Nat)
    (hi : i < (tileShape d.shape.toNat).1) (hw : d.write = true) (es : List WoElem)
    (h1 : (es.flatMap (·.bytes)).length ≤
        (if d.wfmt.toNat = 9 then 2 * (tileShape d.shape.toNat).2 else wfmtBytes d.wfmt.toNat * (tileShape d.shape.toNat).2))
    (h2 : (es.flatMap (·.pre)).length ≤ 2 * (tileShape d.shape.toNat).2) :
    sameOutside (spKey g 0) (if d.dmode then [] else mmDestRuns d) s.mem.sp (mmStoreRow s g d q i es).mem.sp
    ∧ ctxOutsideAll s (mmStoreRow s g d q i es) g qs (if d.dmode then mmDestRuns d else [])
    ∧ (mmStoreRow s g d q i es).hs.reqs = s.hs.reqs := by
  have hr : (if d.dmode then i % 16 else i) < (if d.dmode then 16 else (tileShape d.shape.toNat).1) := by
    split
    · exact Nat.mod_lt _ (by decide)
    · exact hi
  have e9 : d.wfmt = 9 ↔ d.wfmt.toNat = 9 := by
    constructor
    · intro h; rw [h]; rfl
    · intro h; exact BitVec.eq_of_toNat_eq h
  have hf := (mmStoreRow_framed s g d q i es).1 .reqs (by simp)
  rw [← and_assoc]
  refine ⟨?_, hf⟩
  unfold mmStoreRow
  simp only
  by_cases hz : mmQuiet d q = true
  · rw [if_pos hz]; exact ⟨.refl, .refl⟩
  · rw [if_neg hz]
    by_cases h9 : d.wfmt = 9
    · have hn := e9.mp h9
      rw [if_pos hn] at h1
      have m1 : (d.dOff.toNat + (if d.dmode then i % 16 else i) * (32 * d.dPitch.toNat), 2 * (tileShape d.shape.toNat).2) ∈ mmDestRuns d := by
        simp only [mmDestRuns, hw, h9, if_true, List.mem_append, List.mem_map, List.mem_range]
        exact .inl ⟨_, hr, rfl⟩
      have m2 : (d.ypreOff.toNat + (if d.dmode then i % 16 else i) * (32 * d.dPitch.toNat), 2 * (tileShape d.shape.toNat).2) ∈ mmDestRuns d := by
        simp only [mmDestRuns, hw, h9, if_true, List.mem_append, List.mem_map, List.mem_range]
        exact .inr ⟨_, hr, rfl⟩
      have a := s.opWrite_le g d.dmode q _ _ _ h1 m1 hq
      have b := (s.opWrite g d.dmode q (d.dOff.toNat + (if d.dmode then i % 16 else i) * (32 * d.dPitch.toNat)) (es.flatMap (·.bytes))).opWrite_le g d.dmode q _ _ _ h2 m2 hq
      have e := (s.opWrite_framed g d.dmode q (d.dOff.toNat + (if d.dmode then i % 16 else i) * (32 * d.dPitch.toNat)) (es.flatMap (·.bytes))).1 .reqs (by simp)
      rw [if_pos h9]
      exact ⟨a.1.trans b.1, a.2.trans b.2 e⟩
    · have hn := mt e9.mpr h9
      rw [if_neg hn] at h1
      have m1 : (d.dOff.toNat + (if d.dmode then i % 16 else i) * (32 * d.dPitch.toNat), wfmtBytes d.wfmt.toNat * (tileShape d.shape.toNat).2) ∈ mmDestRuns d := by
        simp only [mmDestRuns, hw, h9, if_true, if_false, List.mem_map, List.mem_range]
        exact ⟨_, hr, rfl⟩
      have a := s.opWrite_le g d.dmode q _ _ _ h1 m1 hq
      rw [if_neg h9]
      exact a

/-- The rows of an MM written out one after another. -/
theorem mmStoreRows_outside (g : Nat) (d : MmDesc) (qs : List (Option Seat)) (hw : d.write = true) (s0 : State) (c : Issue) (m : Nat)
    (l : List Nat) (hl : ∀ i ∈ l, i < (tileShape d.shape.toNat).1) (s : State) :
    let u := l.foldl (fun u i => mmStoreRow u g d (qs.getD (i / 16) none) i ((mmCalc s0 c m d).outs.getD i [])) s
    sameOutside (spKey g 0) (if d.dmode then [] else mmDestRuns d) s.mem.sp u.mem.sp
    ∧ ctxOutsideAll s u g qs (if d.dmode then mmDestRuns d else [])
    ∧ u.hs.reqs = s.hs.reqs := by
  induction l generalizing s with
  | nil => exact ⟨.refl, .refl, rfl⟩
  | cons i l ih =>
    have hq : qs.getD (i / 16) none = none ∨ qs.getD (i / 16) none ∈ qs := by
      rw [List.getD_eq_getElem?_getD]
      rcases h : qs[i / 16]? with _ | q
      · exact .inl rfl
      · exact .inr (List.mem_of_getElem? h)
    have o := mmCalc_outs s0 c m d i
    have a := mmStoreRow_outside s g d qs _ hq i (hl i (by simp)) hw _ o.1 o.2
    have b := ih (fun j hj => hl j (by simp [hj])) (mmStoreRow s g d (qs.getD (i / 16) none) i ((mmCalc s0 c m d).outs.getD i []))
    exact ⟨a.1.trans b.1, a.2.1.trans b.2.1 a.2.2, b.2.2.trans a.2.2⟩

/-- Where the bytes of an MM's memories stay. -/
theorem mmRun_outside (s : State) (c : Issue) (m : Nat) (d : MmDesc) :
    sameOutside (spKey c.gal.toNat 0) ((if d.dmode then [] else mmDestRuns d) ++ mmStatusRuns d) s.mem.sp (mmRun s c m d).mem.sp
    ∧ ctxOutsideAll s (mmRun s c m d) c.gal.toNat (mmSeats s c.gal.toNat d) (if d.dmode then mmDestRuns d else [])
    ∧ sameOutside (accKey c.gal.toNat m 0) (mmAccRuns d) s.mem.acc (mmRun s c m d).mem.acc := by
  unfold ctxOutsideAll
  rw [mmRun_mem]
  have fa := mmStoreAcc_framed s c.gal.toNat m d (mmCalc s c m d)
  have oa := mmStoreAcc_outside s c m d
  unfold mmStore
  simp only
  generalize mmStoreAcc s c.gal.toNat m d (mmCalc s c m d) = u at *
  have sp0 : u.mem.sp = s.mem.sp := fa.1 .sp (by simp)
  have cx0 : u.mem.ctx = s.mem.ctx := fa.1 .ctx (by simp)
  have rq0 : u.hs.reqs = s.hs.reqs := fa.1 .reqs (by simp)
  obtain ⟨v, hv, r1, r2, r3⟩ : ∃ v, v = (if d.write = true then (List.range (tileShape d.shape.toNat).1).foldl (fun u i =>
      mmStoreRow u c.gal.toNat d ((mmSeats s c.gal.toNat d).getD (i / 16) none) i ((mmCalc s c m d).outs.getD i [])) u else u)
      ∧ sameOutside (spKey c.gal.toNat 0) (if d.dmode then [] else mmDestRuns d) s.mem.sp v.mem.sp
      ∧ ctxOutsideAll s v c.gal.toNat (mmSeats s c.gal.toNat d) (if d.dmode then mmDestRuns d else [])
      ∧ v.mem.acc = u.mem.acc := by
    refine ⟨_, rfl, ?_⟩
    by_cases hw : d.write = true
    · rw [if_pos hw]
      have h := mmStoreRows_outside c.gal.toNat d (mmSeats s c.gal.toNat d) hw s c m (List.range (tileShape d.shape.toNat).1) (by simp) u
      have f : framed [.sp, .ctx] [] u _ := framed.foldl (fun u i =>
        mmStoreRow u c.gal.toNat d ((mmSeats s c.gal.toNat d).getD (i / 16) none) i ((mmCalc s c m d).outs.getD i []))
        (List.range (tileShape d.shape.toNat).1) (fun v i => mmStoreRow_framed ..) u
      refine ⟨by rw [← sp0]; exact h.1, fun k hk => ?_, f.1 .acc (by simp)⟩
      rw [← cx0]
      exact h.2.1 k (by simpa only [State.curHalf_of rq0] using hk)
    · rw [if_neg hw]
      exact ⟨fun k _ => by rw [sp0], fun k _ => by rw [cx0], rfl⟩
  rw [← hv]
  unfold mmStatusRuns
  by_cases hs : d.statusOff = 0xFFFFFFFF
  · rw [if_pos hs, if_pos hs, List.append_nil]; exact ⟨r1, r2, fun k hk => by rw [r3]; exact oa k hk⟩
  · rw [if_neg hs, if_neg hs]
    refine ⟨r1.append ?_, r2, fun k hk => by rw [← oa k hk, ← r3]; rfl⟩
    have h := v.spWrite_outside c.gal.toNat d.statusOff.toNat (bytesOfNat 4 (groupMask (mmCalc s c m d).sat * 0x1000000
      + groupMask (mmCalc s c m d).rpld * 0x10000 + groupMask (mmCalc s c m d).nonfin * 0x100 + groupMask (mmCalc s c m d).gsat))
    rw [bytesOfNat_length] at h
    exact h

end Sys2Proof.Machine
end

