-- ==== Sys2Proof/Laws/Routines.lean ====
section
/-! SUPPORT. Where the routines of the vector units, the in-stack engines and the transfers store. -/

namespace Sys2Proof.Machine

variable {s t u : State} {g : Nat} {qs : List (Option Seat)} {sp cx sp' cx' : List (Nat × Nat)}

/-- Scratchpad of a gallery stays outside the runs `sp`, the next halves of the contexts of `qs` outside the runs `cx`. -/
def stays (g : Nat) (qs : List (Option Seat)) (sp cx : List (Nat × Nat)) (s t : State) : Prop :=
  sameOutside (spKey g 0) sp s.mem.sp t.mem.sp ∧ ctxOutsideAll s t g qs cx ∧ t.hs.reqs = s.hs.reqs

theorem stays.refl : stays g qs sp cx s s := ⟨.refl, .refl, rfl⟩

theorem stays.trans (h : stays g qs sp cx s t) (h' : stays g qs sp cx t u) : stays g qs sp cx s u :=
  ⟨h.1.trans h'.1, h.2.1.trans h'.2.1 h.2.2, h'.2.2.trans h.2.2⟩

theorem ctxOutsideAll.mono (h : ctxOutsideAll s t g qs cx) (hs : ∀ x ∈ cx, x ∈ cx') : ctxOutsideAll s t g qs cx' :=
  fun k hk => h k fun q hq x hx => hk q hq x (hs x hx)

theorem stays.mono (h : stays g qs sp cx s t) (hs : ∀ x ∈ sp, x ∈ sp') (hc : ∀ x ∈ cx, x ∈ cx') : stays g qs sp' cx' s t :=
  ⟨h.1.mono hs, h.2.1.mono hc, h.2.2⟩

theorem stays.fold {α : Type} {f : State → α → State} {l : List α} (h : stays g qs sp cx s u)
    (hf : ∀ x ∈ l, ∀ v, stays g qs sp cx v (f v x)) : stays g qs sp cx s (l.foldl f u) := by
  induction l generalizing u with
  | nil => exact h
  | cons x l ih => exact ih (h.trans (hf x (by simp) u)) fun y hy => hf y (by simp [hy])

/-- A change that leaves the memories and the requests. -/
theorem stays.of (h : framed ps ks t u) (hm : Part.sp ∉ ps ∧ Part.ctx ∉ ps ∧ Part.reqs ∉ ps) (h' : stays g qs sp cx s t) : stays g qs sp cx s u := by
  have a : u.mem.sp = t.mem.sp := h.1 .sp hm.1
  have b : u.mem.ctx = t.mem.ctx := h.1 .ctx hm.2.1
  have c : u.hs.reqs = t.hs.reqs := h.1 .reqs hm.2.2
  unfold stays ctxOutsideAll at *
  rw [a, b, c]
  exact h'

theorem stays.spWrite {off n : Nat} {bs : List Byte} (h : stays g qs sp cx s u) (hl : bs.length ≤ n) (hm : (off, n) ∈ sp) :
    stays g qs sp cx s (u.spWrite g off bs) := by
  refine h.trans ⟨?_, fun _ _ => rfl, rfl⟩
  have := sameOutside.write_le (rs := sp) u.mem.sp (spKey g 0) off n bs hl hm
  rw [← spKey_add] at this
  exact this

/-- A write within a run listed. -/
theorem stays.spWriteIn {off o n : Nat} {bs : List Byte} (h : stays g qs sp cx s u) (hm : (o, n) ∈ sp) (h1 : o ≤ off)
    (h2 : off + bs.length ≤ o + n) : stays g qs sp cx s (u.spWrite g off bs) := by
  refine h.trans ⟨fun k hk => ?_, fun _ _ => rfl, rfl⟩
  have := hk (o, n) hm
  simp only at this
  refine memByte_write_out _ _ _ _ ?_
  rw [spKey_add]
  omega

theorem stays.ctxWrite {q : Option Seat} {off n : Nat} {bs : List Byte} (h : stays g qs sp cx s u) (hl : bs.length ≤ n) (hm : (off, n) ∈ cx)
    (hq : q = none ∨ q ∈ qs) : stays g qs sp cx s (u.opWrite g true q off bs) := by
  have w := u.opWrite_le (rs := cx) g true q off n bs hl hm hq
  refine h.trans ⟨fun k _ => ?_, w.2, (u.opWrite_framed g true q off bs).1 .reqs (by simp)⟩
  have := w.1 k (by simp)
  exact this

theorem stays.opWrite {ctx : Bool} {q : Option Seat} {off n : Nat} {bs : List Byte} (h : stays g qs sp cx s u) (hl : bs.length ≤ n)
    (hm : if ctx = true then (off, n) ∈ cx else (off, n) ∈ sp) (hq : q = none ∨ q ∈ qs) : stays g qs sp cx s (u.opWrite g ctx q off bs) := by
  cases ctx with
  | true => exact h.ctxWrite hl (by simpa using hm) hq
  | false => exact h.spWrite hl (by simpa using hm)

/-- A grid stored by rows (or columns) of bounded length. -/
theorem stays.vuWrite {q : Option Seat} {o : VuOperand} {grid : List (List VuOut)} {rows cols : Nat} (h : stays g qs sp cx s u)
    (hr : grid.length ≤ rows ∧ ∀ row ∈ grid, row.length ≤ cols ∧ ∀ x ∈ row, x.bytes.length ≤ vuBytes o.fmt.toNat)
    (hq : q = none ∨ q ∈ qs) (hs : o.ctx = false → ∀ x ∈ lineRuns o rows cols, x ∈ sp) (hc : o.ctx = true → ∀ x ∈ lineRuns o rows cols, x ∈ cx) :
    stays g qs sp cx s (vuWrite u g q o grid) := by
  have put : ∀ (v : State) (i : Nat) (es : List VuOut), i < (if o.trn then cols else rows) →
      (es.flatMap (·.bytes)).length ≤ (if o.trn then rows else cols) * vuBytes o.fmt.toNat →
      stays g qs sp cx v (v.opWrite g o.ctx q (o.off.toNat + i * o.pitch.toNat) (es.flatMap (·.bytes))) := fun v i es hi hl => by
    refine stays.refl.opWrite hl ?_ hq
    have hm : (o.off.toNat + i * o.pitch.toNat, (if o.trn then rows else cols) * vuBytes o.fmt.toNat) ∈ lineRuns o rows cols := by
      simp only [lineRuns, List.mem_map, List.mem_range]; exact ⟨i, hi, rfl⟩
    cases hb : o.ctx with
    | true => simpa using hc hb _ hm
    | false => simpa using hs hb _ hm
  have empty : ∀ x ∈ ([] : List VuOut), x.bytes.length ≤ vuBytes o.fmt.toNat := by simp
  unfold Sys2Proof.Machine.vuWrite
  simp only
  by_cases ht : o.trn = true
  · rw [if_pos ht]
    simp only [ht, if_true] at put
    refine h.fold fun j hj v => put v j _ ?_ ?_
    · have : (grid.headD []).length ≤ cols := by
        cases grid with
        | nil => simp
        | cons r _ => exact (hr.2 r (by simp)).1
      simp only [List.mem_range] at hj; omega
    · refine flatMap_length_le _ _ (vuBytes o.fmt.toNat) rows (by simpa using hr.1) fun x hx => ?_
      simp only [List.mem_map] at hx
      obtain ⟨row, hrow, rfl⟩ := hx
      rw [List.getD_eq_getElem?_getD]
      rcases hj2 : row[j]? with _ | x
      · simp
      · exact (hr.2 row hrow).2 x (List.mem_of_getElem? hj2)
  · rw [if_neg ht]
    simp only [ht, Bool.false_eq_true, if_false] at put
    refine h.fold fun i hi v => put v i _ ?_ ?_
    · simp only [List.mem_range] at hi; have := hr.1; omega
    · rw [List.getD_eq_getElem?_getD]
      rcases h2 : grid[i]? with _ | row
      · simp
      · have := hr.2 row (List.mem_of_getElem? h2)
        exact flatMap_length_le _ row _ cols this.1 this.2

theorem stays.vuStatus {d : VuDesc} {w0 w1 : Word} (h : stays g qs sp cx s u) (hm : ∀ x ∈ statusRuns d, x ∈ sp) :
    stays g qs sp cx s (vuStatus u g d w0 w1) := by
  unfold Sys2Proof.Machine.vuStatus
  by_cases hd : d.statusOff = 0xFFFFFFFF
  · rw [if_pos hd]; exact h
  · rw [if_neg hd]
    exact h.spWrite (n := 8) (by simp [Word.bytes]) (hm _ (by rw [statusRuns, if_neg hd]; simp))

/-! ### COMPRESS -/

theorem vuGrid_row (s : State) (g : Nat) (q : Option Seat) (o : VuOperand) (rows cols : Nat) :
    ∀ row ∈ vuGrid s g q o rows cols, row.length = cols := by
  unfold vuGrid
  simp only
  have wide : ∀ (c r : Nat) (l : Nat → Nat → List Nat), (∀ i n, (l i n).length = n) →
      ∀ row ∈ ((if o.trn = true then (List.range r).map fun i => ((List.range c).map fun j => l j r).map fun x => natAt x i
        else (List.range r).map fun i => l i c).map fun row => if c = cols then row else List.replicate cols (natAt row 0)),
        row.length = cols := fun c r l hl row hr => by
    simp only [List.mem_map] at hr
    obtain ⟨x, hx, rfl⟩ := hr
    by_cases hc : c = cols
    · rw [if_pos hc]
      split at hx <;> simp only [List.mem_map] at hx <;> obtain ⟨i, _, rfl⟩ := hx
      · simp [hc]
      · rw [hl, hc]
    · rw [if_neg hc]; simp
  have h1 : (if o.bcast.toNat = 1 ∨ o.bcast.toNat = 3 then 1 else rows) = 1 ∨ (if o.bcast.toNat = 1 ∨ o.bcast.toNat = 3 then 1 else rows) = rows := by
    split
    · exact .inl rfl
    · exact .inr rfl
  generalize (if o.bcast.toNat = 1 ∨ o.bcast.toNat = 3 then 1 else rows) = r at h1 ⊢
  generalize (if o.bcast.toNat = 2 ∨ o.bcast.toNat = 3 then 1 else cols) = c
  have w := wide c r (fun i n => numsOf (vuBytes o.fmt.toNat) n (s.opRead g o.ctx q (o.off.toNat + i * o.pitch.toNat) (n * vuBytes o.fmt.toNat)))
    (fun i n => numsOf_length ..)
  intro row hr
  by_cases hb : r = rows
  · rw [if_pos hb] at hr; exact w row hr
  · rw [if_neg hb] at hr
    rw [List.eq_of_mem_replicate hr]
    refine w _ ?_
    obtain rfl : r = 1 := by omega
    by_cases ht : o.trn = true <;> simp [ht]

theorem rowBytesOf_length (fmt : Nat) (row : List Nat) (cols : Nat) (h : row.length ≤ cols) : (rowBytesOf fmt row).length ≤ cols * vuBytes fmt :=
  flatMap_length_le _ _ _ _ h fun x _ => by rw [bytesOfNat_length]

theorem mapRow (free : Nat) (w : RouteWords) (choices : List Choice) (i : Nat) :
    ((List.range w.kc.toNat).flatMap fun k => (mapWord free w choices i k).bytes).length ≤ 4 * w.kc.toNat := by
  rw [Nat.mul_comm]
  exact flatMap_length_le _ _ 4 _ (by simp) fun k _ => by simp [Word.bytes]

theorem compressRun_stays (c : Issue) (d : VuDesc) (w : RouteWords) (s : State) :
    stays c.gal.toNat (routeSeats s c w) (compressSpRuns d w) (compressCtxRuns d w) s (compressRun c d w s) := by
  unfold compressRun
  simp only
  have hq : ∀ j, s.free.2.seatAt c.gal.toNat (w.slices.getD j 0x3FF#16).toNat = none
      ∨ s.free.2.seatAt c.gal.toNat (w.slices.getD j 0x3FF#16).toNat ∈ routeSeats s c w := fun j => by
    rw [List.getD_eq_getElem?_getD]
    rcases h : w.slices[j]? with _ | x
    · left; simp [State.seatAt]
    · right
      simp only [Option.getD_some, routeSeats, List.mem_cons, List.mem_map]
      exact .inr ⟨x, List.mem_of_getElem? h, rfl⟩
  have hs : ∀ (want : Choice → Bool), (match (allotAll w (vuGrid s.free.2 c.gal.toNat (s.free.2.seatAt c.gal.toNat c.seat.toNat) d.y d.rows.toNat w.kc.toNat)).find? want with
      | some x => rowBytesOf d.x.fmt.toNat ((vuGrid s.free.2 c.gal.toNat (s.free.2.seatAt c.gal.toNat c.seat.toNat) d.x d.rows.toNat d.cols.toNat).getD x.token [])
      | none => List.replicate (d.cols.toNat * vuBytes d.x.fmt.toNat) 0).length ≤ d.cols.toNat * vuBytes d.x.fmt.toNat := fun want => by
    split
    · refine rowBytesOf_length _ _ _ ?_
      rw [List.getD_eq_getElem?_getD]
      rcases h : (vuGrid s.free.2 c.gal.toNat (s.free.2.seatAt c.gal.toNat c.seat.toNat) d.x d.rows.toNat d.cols.toNat)[_]? with _ | row
      · simp
      · exact Nat.le_of_eq (vuGrid_row _ _ _ _ _ _ row (List.mem_of_getElem? h))
    · simp
  refine stays.vuStatus ?_ (fun x hx => by simp [compressSpRuns, hx])
  refine stays.fold ?_ fun x _ v => ?_
  · refine stays.fold (stays.fold (stays.fold (stays.of s.free_framed (by simp) .refl) fun e he v => stays.fold .refl fun j hj v => ?_)
      fun i hi v => ?_) fun j _ v => ?_
    · simp only [List.mem_range] at he hj
      refine stays.fold (stays.fold .refl fun p hp v => ?_) fun p hp v => ?_
      · simp only [List.mem_range] at hp
        have hm : (d.d.off.toNat + e * w.bufStride.toNat + (16 * w.cap16.toNat * j + p) * d.d.pitch.toNat,
            d.cols.toNat * vuBytes d.x.fmt.toNat) ∈ compressBufRuns d w := by
          simp only [compressBufRuns, List.mem_flatMap, List.mem_map, List.mem_range]
          refine ⟨e, he, 16 * w.cap16.toNat * j + p, ?_, rfl⟩
          have : 16 * w.cap16.toNat * (j + 1) ≤ 16 * w.cap16.toNat * w.slices.length := Nat.mul_le_mul_left _ hj
          rw [Nat.mul_succ] at this
          omega
        refine stays.refl.opWrite (hs _) ?_ (.inr (by simp [routeSeats, State.seatAt]))
        cases hb : d.d.ctx <;> simp only [compressSpRuns, compressCtxRuns, hb, if_true, if_false, Bool.false_eq_true, List.mem_append] <;> tauto
      · simp only [List.mem_range] at hp
        refine stays.refl.ctxWrite (hs _) ?_ (hq j)
        simp only [compressCtxRuns, List.mem_append, List.mem_flatMap, List.mem_map, List.mem_range]
        exact .inl (.inl ⟨e, he, p, hp, rfl⟩)
    · simp only [List.mem_range] at hi
      refine stays.refl.spWriteIn (o := w.mapOff.toNat) (n := 4 * w.kc.toNat * d.rows.toNat) (by simp [compressSpRuns])
        (Nat.le_add_right _ _) ?_
      have hl := mapRow s.free.1 w (allotAll w (vuGrid s.free.2 c.gal.toNat (s.free.2.seatAt c.gal.toNat c.seat.toNat) d.y d.rows.toNat w.kc.toNat)) i
      have : 4 * w.kc.toNat * (i + 1) ≤ 4 * w.kc.toNat * d.rows.toNat := Nat.mul_le_mul_left _ hi
      rw [Nat.mul_succ] at this
      omega
    · refine stays.refl.ctxWrite (n := 4 * w.kc.toNat * d.rows.toNat) ?_ (by simp [compressCtxRuns]) (hq j)
      rw [Nat.mul_comm (4 * w.kc.toNat)]
      refine flatMap_length_le _ _ _ _ ?_ fun i _ => mapRow _ w _ i
      exact Nat.le_trans (List.length_filter_le _ _) (by simp)
  · split
    · exact stays.of ((State.tally_framed _ _).trans (State.tally_framed _ _)) (by simp) (stays.of (v.pendPut_framed _) (by simp) .refl)
    · exact .refl

/-! ### SOLVE_SPD and SIGN_UPDATE -/

theorem imageBytes_length (a : XAcc) : (imageBytes a).length ≤ 64 := by
  refine flatMap_length_le _ _ 4 16 ?_ fun x _ => by simp [Word.bytes]
  unfold xImage
  simp only [List.length_append, List.length_map, List.length_range, List.length_cons, List.length_nil]
  exact Nat.le_refl _

theorem vuStore_length (fmt : Nat) (ovf : Bool) (v : Fv) : (vuStore fmt ovf v).bytes.length ≤ vuBytes fmt := by
  unfold vuStore
  simp only
  split <;> first | exact imageBytes_length _ | simp [bytesOfNat_length, vuBytes]

theorem solveUp_length (cols : List (List Fv)) (order i : Nat) (ys xs : List Fv) : (solveUp cols order i ys xs).length = i + xs.length := by
  induction i generalizing xs with
  | zero => simp [solveUp]
  | succ i ih => simp only [solveUp]; rw [ih]; simp; omega

theorem stays.vuCal {c : Issue} {d : VuDesc} {outs : List (List VuOut)} (h : stays g qs sp cx s u) : stays g qs sp cx s (vuCal u c d outs) :=
  stays.of (vuCal_framed ..) (by simp) h

theorem solveOuts_shape (n r fmt : Nat) (ovf : Bool) (f : Nat → List Fv) :
    ((List.range n).map fun i => ((List.range r).map f).map fun x => vuStore fmt ovf (x.getD i pz)).length ≤ n
    ∧ ∀ row ∈ ((List.range n).map fun i => ((List.range r).map f).map fun x => vuStore fmt ovf (x.getD i pz)),
      row.length ≤ r ∧ ∀ x ∈ row, x.bytes.length ≤ vuBytes fmt := by
  refine ⟨by simp, fun row hr => ?_⟩
  simp only [List.mem_map] at hr
  obtain ⟨i, _, rfl⟩ := hr
  refine ⟨by simp, fun x hx => ?_⟩
  simp only [List.mem_map] at hx
  obtain ⟨y, _, rfl⟩ := hx
  exact vuStore_length _ _ _

theorem solveRun_stays (c : Issue) (d : VuDesc) (w : SolveWords) (s : State) :
    stays c.gal.toNat [s.seatAt c.gal.toNat c.seat.toNat] (solveSpRuns d w) (if d.d.ctx then lineRuns d.d w.n.toNat w.r.toNat else []) s
      (solveRun c d w s) := by
  unfold solveRun
  simp only
  have hcx : d.d.ctx = true → ∀ x ∈ lineRuns d.d w.n.toNat w.r.toNat, x ∈ (if d.d.ctx then lineRuns d.d w.n.toNat w.r.toNat else []) :=
    fun hc x hx => by simpa [hc] using hx
  generalize (if d.d.ctx then lineRuns d.d w.n.toNat w.r.toNat else []) = cx at hcx
  have h1 : stays c.gal.toNat [s.seatAt c.gal.toNat c.seat.toNat] (solveSpRuns d w) cx s
      (s.free.2.spWrite c.gal.toNat w.wsOff.toNat (bytesOfNat (4 * w.n.toNat * (w.n.toNat + w.r.toNat)) s.free.1)) :=
    (stays.of s.free_framed (by simp) .refl).spWrite (n := 4 * w.n.toNat * (w.n.toNat + w.r.toNat))
      (by rw [bytesOfNat_length]) (by simp [solveSpRuns])
  have hs : ∀ x ∈ statusRuns d, x ∈ solveSpRuns d w := fun x hx => by simp [solveSpRuns, hx]
  have hd : ∀ (outs : List (List VuOut)), (outs.length ≤ w.n.toNat ∧ ∀ row ∈ outs, row.length ≤ w.r.toNat ∧ ∀ x ∈ row, x.bytes.length ≤ vuBytes d.d.fmt.toNat) →
      stays c.gal.toNat [s.seatAt c.gal.toNat c.seat.toNat] (solveSpRuns d w) cx s
        (vuCal (vuWrite (s.free.2.spWrite c.gal.toNat w.wsOff.toNat (bytesOfNat (4 * w.n.toNat * (w.n.toNat + w.r.toNat)) s.free.1))
          c.gal.toNat (s.free.2.seatAt c.gal.toNat c.seat.toNat) d.d outs) c d outs) := fun outs ho =>
    (h1.vuWrite ho (.inr (by simp; rfl)) (fun hc x hx => by simp [solveSpRuns, hc, hx]) hcx).vuCal
  split
  · exact stays.of (State.pendPut_framed _ _) (by simp) (h1.vuStatus hs)
  · refine stays.of (State.pendPut_framed _ _) (by simp) (stays.vuStatus ?_ hs)
    by_cases hL : w.lOff = 0xFFFFFFFF
    · rw [if_pos hL]; exact hd _ (solveOuts_shape ..)
    · rw [if_neg hL]
      refine stays.fold (hd _ (solveOuts_shape ..)) fun i hi v => stays.refl.spWrite (n := 4 * (i + 1)) ?_ ?_
      · rw [Nat.mul_comm]
        exact flatMap_length_le _ _ 4 _ (by simp) fun k _ => by simp [Word.bytes]
      · simp only [List.mem_range] at hi
        simp only [solveSpRuns, hL, if_false, List.mem_append, List.mem_map, List.mem_range]
        exact .inl (.inr ⟨i, hi, rfl⟩)

theorem recordBytes_length (u : Updated) : (recordBytes u).length = 8 := by simp [recordBytes, bytesOfNat_length]

theorem updateAll_length (r : StepRegs) (gs recs : List Nat) : (updateAll r gs recs).length ≤ recs.length := by simp [updateAll]

theorem stays.areaPut {c : Issue} {q : Seat} {norm : Bool} {index off : Nat} {ws : List Word} (h : stays c.gal.toNat qs sp cx s u)
    (hm : (off, if norm then 192 else 64) ∈ cx) (hq : some q ∈ qs) : stays c.gal.toNat qs sp cx s (u.areaPut c q norm index off ws) := by
  refine stays.of (State.pendPut_framed _ _) (by simp) (h.ctxWrite ?_ hm (.inr hq))
  have fw : ∀ (l : List Word) (n : Nat), l.length ≤ n → (l.flatMap Word.bytes).length ≤ n * 4 :=
    fun l n hl => flatMap_length_le _ _ 4 _ hl fun x _ => by simp [Word.bytes]
  cases norm with
  | true =>
    refine fw _ 48 ?_
    simp only [if_true, List.length_append, List.length_take, List.length_drop, List.length_cons, List.length_nil]
    omega
  | false =>
    refine fw _ 16 ?_
    simp only [Bool.false_eq_true, if_false, List.length_append, List.length_take, List.length_cons, List.length_nil]
    omega

theorem stays.addNorms {c : Issue} {layer normOff group sumOff : Nat} {us : List Updated} (h : stays c.gal.toNat qs sp cx s u)
    (hm : ∀ x ∈ areaRuns layer normOff group sumOff, x ∈ cx) (hq : u.seatAt c.gal.toNat c.seat.toNat = none ∨ u.seatAt c.gal.toNat c.seat.toNat ∈ qs) :
    stays c.gal.toNat qs sp cx s (u.addNorms c layer normOff group sumOff us) := by
  unfold State.addNorms
  split
  · exact h
  · rename_i q hqs
    have hq : some q ∈ qs := by simpa [hqs] using hq
    exact (h.areaPut (hm _ (by simp [areaRuns])) hq).areaPut (hm _ (by simp [areaRuns])) hq

theorem stays.addZeros {c : Issue} {layer normOff group sumOff : Nat} (h : stays c.gal.toNat qs sp cx s u)
    (hm : ∀ x ∈ areaRuns layer normOff group sumOff, x ∈ cx) (hq : u.seatAt c.gal.toNat c.seat.toNat = none ∨ u.seatAt c.gal.toNat c.seat.toNat ∈ qs) :
    stays c.gal.toNat qs sp cx s (u.addZeros c layer normOff group sumOff) := by
  unfold State.addZeros
  split
  · exact h
  · rename_i q hqs
    have hq : some q ∈ qs := by simpa [hqs] using hq
    exact (h.areaPut (hm _ (by simp [areaRuns])) hq).areaPut (hm _ (by simp [areaRuns])) hq

theorem signRun_stays (c : Issue) (d : VuDesc) (w : SignWords) (s : State) (hf : d.d.fmt = 15 ∨ d.d.fmt = 2) :
    stays c.gal.toNat [s.seatAt c.gal.toNat c.seat.toNat] (signSpRuns d w)
      ((if d.d.fmt ≠ 15 ∧ d.d.ctx = true then lineRuns d.d d.rows.toNat d.cols.toNat else [])
        ++ areaRuns w.layer.toNat w.normOff.toNat w.group.toNat w.sumOff.toNat) s (signRun c d w s) := by
  unfold signRun
  simp only
  generalize hus : updateAll _ _ _ = us
  have hl : us.length ≤ d.rows.toNat * d.cols.toNat := by
    rw [← hus]; exact Nat.le_trans (updateAll_length ..) (by rw [numsOf_length])
  have h1 : stays c.gal.toNat [s.seatAt c.gal.toNat c.seat.toNat] (signSpRuns d w)
      ((if d.d.fmt ≠ 15 ∧ d.d.ctx = true then lineRuns d.d d.rows.toNat d.cols.toNat else [])
        ++ areaRuns w.layer.toNat w.normOff.toNat w.group.toNat w.sumOff.toNat) s
      (s.spWrite c.gal.toNat w.recOut.toNat (us.flatMap recordBytes)) := by
    refine stays.refl.spWrite (n := 8 * (d.rows.toNat * d.cols.toNat)) ?_ (by simp [signSpRuns])
    rw [Nat.mul_comm 8]
    exact flatMap_length_le _ _ 8 _ hl fun u _ => by rw [recordBytes_length]
  refine stays.vuStatus ?_ fun x hx => by simp [signSpRuns, hx]
  by_cases h15 : d.d.fmt = 15
  · rw [if_pos h15]
    exact h1.addNorms (fun x hx => by simp [hx]) (.inr (by simp; rfl))
  · rw [if_neg h15]
    refine stays.addNorms ?_ (fun x hx => by simp [hx]) (.inr ?_)
    · have h2 : d.d.fmt = 2 := hf.resolve_left h15
      refine stays.vuCal (h1.vuWrite (rows := d.rows.toNat) (cols := d.cols.toNat) ⟨by simp, fun row hr => ?_⟩ (.inr (by simp))
        (fun hc x hx => by
          have e : ¬(d.d.fmt = 15 ∨ d.d.ctx = true) := by simp only [hc, Bool.false_eq_true, or_false]; exact h15
          simp only [signSpRuns, if_neg e, List.mem_append]; exact .inl (.inr hx))
        (fun hc x hx => by rw [if_pos ⟨h15, hc⟩, List.mem_append]; exact .inl hx))
      simp only [List.mem_map] at hr
      obtain ⟨i, _, rfl⟩ := hr
      refine ⟨by simp, fun x hx => ?_⟩
      simp only [List.mem_map] at hx
      obtain ⟨y, _, rfl⟩ := hx
      rw [h2]; simp [bytesOfNat_length, vuBytes]
    · have e : ∀ grid, (vuWrite (s.spWrite c.gal.toNat w.recOut.toNat (us.flatMap recordBytes)) c.gal.toNat
          (s.seatAt c.gal.toNat c.seat.toNat) d.d grid).tk.seats = s.tk.seats := fun grid =>
        (vuWrite_framed (s.spWrite c.gal.toNat w.recOut.toNat (us.flatMap recordBytes)) c.gal.toNat
          (s.seatAt c.gal.toNat c.seat.toNat) d.d grid).1 .seats (by simp)
      rw [State.seatAt_of ((vuCal_framed ..).1 .seats (by simp)), State.seatAt_of (e _)]; simp

end Sys2Proof.Machine
end

