-- ==== Sys2Proof/WellFormed.lean ====
section
/-! DEFINITION. Which commands are well formed: the operand ranges that the field widths of `Instr` alone do not
give.  A command that is not well formed is one the manual gives no device to receive it: a unit past the built
ones, a gallery pair past the four. -/

namespace Sys2Proof

/-- A clause names a unit that its kind has: 16 MUs, 4 VUs, 2 ISUs to a gallery (Table 1-1). -/
def Issue.wf (c : Issue) (units : Nat) : Bool := decide (c.unit.toNat < units)

/-- A submission entry has at most the 12 operand words 4 to 15 (Table 12-4). -/
def Entry.wf (e : Entry) : Bool := decide (e.ops.length ≤ 12)

/-- A fabric descriptor names one of the four paths of Table 11-1. -/
def FabDesc.wf (d : FabDesc) : Bool := decide (d.path.toNat ≤ 3)

/-- The operand ranges of each command; `true` where the operands' widths say all there is to say. -/
def Instr.wf : Instr → Bool
  | .mm c _ | .scaleLoad c _ | .accSave c _ | .accRestore c _ => c.wf 16
  | .map c _ | .add c _ | .sub c _ | .mul c _ | .max c _ | .min c _ | .fma c _ | .infl c _ _ | .signUpdate c _ _
  | .rsum c _ | .rsumsq c _ | .rmax c _ | .rmin c _ | .topk c _ | .xred c _ _ | .xcomb c _ _ | .compress c _ _
  | .expand c _ _ | .solveSpd c _ _ => c.wf 4
  | .update c _ | .publish c _ => c.wf 2
  | .send _ d => d.wf
  | .flightLoad p | .flightSwitchDrain p _ | .flightSwitchImmediate p => decide (p.toNat ≤ 4)
  | .create _ e | .bind _ e | .admitReq _ e | .destroy _ e | .trainBatch _ e | .trainStep _ e | .trainGate _ e
  | .lexCreate _ e | .lexDelete _ e | .lexQuery _ e | .lexConvert _ e | .affixClaim _ e | .affixRelease _ e
  | .resStore _ e | .resPrefetch _ e | .resEvict _ e | .resRetry _ e | .nop _ e => e.wf
  | .parityError d _ _ _ _ => decide (d.toNat < 10)
  | _ => true

end Sys2Proof
end

