-- ==== Sys2Proof/Tests/Slice0.lean ====
section
/-! SUPPORT.  Small states that meet the hypotheses of the statements, clause by clause and at boundary values of their ranges, and checks of one step
against values worked out by hand from the manual.  Every theorem is decided by evaluation. -/

open Sys2Proof Sys2Proof.Machine
namespace Sys2Proof.Tests

set_option Elab.async false

/-! ### Well-formed commands: a term that each check refuses, beside one that it lets through -/

/-- A clause on a unit of gallery 0 for a seat of the U-stream. -/
def clause (unit seat : Nat) : Issue := ⟨0, BitVec.ofNat 4 unit, BitVec.ofNat 10 seat, 0xFFFF, 2, 0⟩

/-- An entry with operand words 4 on. -/
def entry (ops : List Word) : Entry := ⟨0, 0, 0, 0, 0, ops⟩

/-- A fabric descriptor of 64 bytes on a path. -/
def fabOn (path : Nat) : FabDesc := ⟨false, false, if path = 1 then 1 else 0, 0, 0, 64, BitVec.ofNat 3 path, 0, if path = 1 then 0 else 1, 0, []⟩

theorem test_wf_units : (Instr.accSave (clause 15 0) ⟨0, 1, 0⟩).wf = true ∧ (Instr.update (clause 1 1) ⟨false, 0, 0, 0, 0, 0, 1, 0, 0, 0, 0, false⟩).wf = true
    ∧ (Instr.update (clause 2 1) ⟨false, 0, 0, 0, 0, 0, 1, 0, 0, 0, 0, false⟩).wf = false
    ∧ (Instr.publish (clause 2 1) ⟨false, 0, 0, 0, 0, 0, 1, 0, 0, 0, 0, false⟩).wf = false := by decide +kernel

theorem test_wf_fabric : (Instr.send (clause 0 0) (fabOn 3)).wf = true ∧ (Instr.send (clause 0 0) (fabOn 4)).wf = false := by decide +kernel

theorem test_wf_pairs : (Instr.flightLoad 4).wf = true ∧ (Instr.flightLoad 5).wf = false ∧ (Instr.flightSwitchDrain 5 0).wf = false
    ∧ (Instr.flightSwitchImmediate 7).wf = false := by decide +kernel

theorem test_wf_entries : (Instr.nop 0 (entry (List.replicate 12 0))).wf = true ∧ (Instr.nop 0 (entry (List.replicate 13 0))).wf = false := by decide +kernel

theorem test_wf_domains : (Instr.parityError 9 0 0 0 0).wf = true ∧ (Instr.parityError 10 0 0 0 0).wf = false := by decide +kernel

theorem test_wf_vu_units : (Instr.fma (clause 3 0) ⟨false, false, 0, 0, 0, 1, 1, 0, ⟨0, 0, false, false, 0, 0⟩, ⟨0, 0, false, false, 0, 0⟩,
      ⟨0, 0, false, false, 0, 0⟩, ⟨0, 0, false, false, 0, 0⟩⟩).wf = true
    ∧ (Instr.fma (clause 4 0) ⟨false, false, 0, 0, 0, 1, 1, 0, ⟨0, 0, false, false, 0, 0⟩, ⟨0, 0, false, false, 0, 0⟩,
      ⟨0, 0, false, false, 0, 0⟩, ⟨0, 0, false, false, 0, 0⟩⟩).wf = false := by decide +kernel

/-! ### A running program of one clause -/

/-- Units of gallery 0 in service: an MU, a VU and an ISU. -/
def unitRegs : List (Nat × Word) :=
  [(regKey 0 (Reg.GAL_MU_STATUS 0 0), 0x40000000), (regKey 0 (Reg.GAL_VU_STATUS 0 0), 0x40000000), (regKey 0 (Reg.GAL_ISU_STATUS 0 0), 0x40000000)]

/-- Reset with ticks running and registers given. -/
def ticking (regs : List (Nat × Word)) : State :=
  { State.reset with regs := regs.foldl (fun m p => smSet regDefault m p.1 p.2) State.reset.regs, tk := { State.reset.tk with running := true } }

/-- A version 3 image of one program with one U-stream clause of a KIND on unit 0 of gallery 0, its descriptor at the start of the pool. -/
def imageOf (kind seat window : Nat) (ws : List Word) (hbm : List HbmSlot) (fab : List FabSlot) : Flight :=
  { contract := 3, descVer := 3, programs := 1, periodQ := 20, galMask := 1, flightId := 7
    progs := [⟨0, 0, 1, [⟨0, [], [], [⟨0, kind, 0, 0, 0, seat, 0, window, 0⟩]⟩], fab, hbm, [], []⟩]
    templates := [], routes := [], variants := [], partitions := [], pool := ws.flatMap Word.bytes, digest := [] }

/-- A seat of gallery 0 that handle 5 of instance 1 fills. -/
def seat1 : Seat := ⟨0, 1, 0, 5, 1, 1, false, false, false, 2, 0⟩

/-- Reset with that image running, units in service and seat 1 filled. -/
def runsOf (kind seat window : Nat) (ws : List Word) (hbm : List HbmSlot) (fab : List FabSlot) : State :=
  let s := ticking unitRegs
  { s with
    flights := { s.flights with v3 := { FlightSlots.empty with active := some (imageOf kind seat window ws hbm fab) } }
    tk := { s.tk with seats := [seat1] } }

/-- The operation that the clause's descriptor spells. -/
def opOf (s : State) : Op :=
  match s.flights.v3.active with
  | some f => match f.progs with
    | p :: _ => match p.blocks with
      | ⟨_, _, _, k :: _⟩ :: _ => (p.descOf f.pool 0 2 0 k).1
      | _ => .bad 0
    | _ => .bad 0
  | none => .bad 0

/-- An operand of a VU descriptor: FMT, PITCH and offset (Table 7-1). -/
def operand (off fmt pitch : Nat) : List Word := [wordOf off, wordOf (fmt * 0x10000000 + pitch)]

/-- No operand. -/
def absent : List Word := operand 0 15 0

/-- A VU descriptor of rows × cols without status. -/
def vuWords (op axis func rows cols : Nat) (x y z d rest : List Word) : List Word :=
  [wordOf (op * 0x1000000 + axis * 0x1000 + func * 0x100), wordOf (rows * 0x10000 + cols), 0xFFFFFFFF] ++ x ++ y ++ z ++ d ++ [0, 0, 0, 0, 0] ++ rest

/-- The command answers a next state of which a test holds. -/
def gives (o : Host.Outcome State Fault Refusal) (p : State → Bool) : Bool :=
  match o with
  | .next t => p t
  | _ => false

/-! ### Matrix units -/

/-- A 16 × 128 tile of FP32 sums of BF16 operands with K = 32, no row group seated. -/
def mmWords : List Word :=
  [0x00180000, 0x10001000, 0, 0x10000, 0x00400100, 0x00010000, 0, 0x20000, 0x04001000, 0, 0, 0, 0, 0, 0, 0xFFFFFFFF, 0x3FFFFFFF, 0x3FFFFFFF, 0x3FFFFC00,
    0, 0, 0, 0, 0]

theorem witness_matrixMultiply : (match opOf (runsOf 0 0x3FF 0xFFFF mmWords [] []) with
    | .mm d => (runsOf 0 0x3FF 0xFFFF mmWords [] []).muReady (clause 0 0x3FF) (.mm d) && (mmCheck 0x3FF d).isNone && mmInside d
        && mmInflInside (runsOf 0 0x3FF 0xFFFF mmWords [] []) (clause 0 0x3FF) d
    | _ => false) = true := by decide +kernel

/-- SCALE_LOAD of the last register from the last line of scratchpad. -/
def scaleWords : List Word := [0x10000000, 0xFFF00001, 0x0BFFFFC0] ++ List.replicate 21 0

/-- ACC_SAVE (2) and ACC_RESTORE (3) of the last 8 KiB, to and from the end of scratchpad. -/
def accWords (op : Nat) : List Word := [wordOf (op * 0x10000000), 0xFC080000, 0x0BFFE000] ++ List.replicate 21 0

theorem witness_matrixMoves : (match opOf (runsOf 0 0x3FF 0xFFFF scaleWords [] []) with
      | .scaleLoad d => (runsOf 0 0x3FF 0xFFFF scaleWords [] []).muReady (clause 0 0x3FF) (.scaleLoad d) && d.reg0 == 4095 && d.count == 1
          && d.srcOff.toNat + 4 * d.count.toNat == spSize - 60
      | _ => false) = true
    ∧ ∀ op ∈ [2, 3], (match opOf (runsOf 0 0x3FF 0xFFFF (accWords op) [] []) with
      | .accMove o d => (runsOf 0 0x3FF 0xFFFF (accWords op) [] []).muReady (clause 0 0x3FF) (.accMove o d) && o == op && accMoveOk d
          && d.spOff.toNat + 8192 * d.len.toNat == spSize
      | _ => false) = true := by decide +kernel

/-! ### Vector units -/

def xAt : List Word := operand 0 0 64
def yAt : List Word := operand 0x100 0 64
def zAt : List Word := operand 0x200 0 64

/-- A destination row whose eight bytes are the last of scratchpad. -/
def dEnd : List Word := operand (spSize - 8) 0 64

/-- A vector descriptor with one, two or three sources of 1 × 2 FP32. -/
def vecWords (op func : Nat) : List Word :=
  vuWords op 0 func 1 2 xAt (if op = 1 then absent else yAt) (if op = 7 then zAt else absent) dEnd (List.replicate 16 0)

theorem witness_vectorElementwise : (∀ op ∈ [1, 2, 3, 4, 5, 6, 7], (match opOf (runsOf 1 1 0xFFFF (vecWords op (if op = 1 then 12 else 0)) [] []) with
      | .vu o a d => (runsOf 1 1 0xFFFF (vecWords op (if op = 1 then 12 else 0)) [] []).vuReady (clause 0 1) (.vu o a d) && o == op && !a
          && (vuCheck op 1 false d).isNone && vuInside op d
      | _ => false) = true)
    ∧ (match opOf (runsOf 1 1 0xFFFF (vuWords 8 0 0 1 2 xAt absent absent dEnd ([0x300, 0x00010000] ++ List.replicate 14 0)) [] []) with
      | .infl d w => (runsOf 1 1 0xFFFF (vuWords 8 0 0 1 2 xAt absent absent dEnd ([0x300, 0x00010000] ++ List.replicate 14 0)) [] []).vuReady (clause 0 1)
            (.infl d w) && (vuCheck 8 1 false d).isNone && vuInside 8 d && (firstFail (inflRules 1 1 w)).isNone
          && inflRead (runsOf 1 1 0xFFFF [] [] []) (clause 0 1) d w
      | _ => false) = true := by decide +kernel

/-- A reduction of a row of two elements to one at the end of scratchpad. -/
def redWords (op : Nat) (accIn : Bool) : List Word :=
  vuWords op (if op = 0x21 then 2 else 1) 0 1 2 xAt absent (if accIn then operand 0x400 9 64 else absent) (operand (spSize - 64) 0 64)
    ([if accIn then 1 else 0] ++ List.replicate 15 0)

theorem witness_vectorReductions : (∀ op ∈ [0x10, 0x11, 0x12, 0x13, 0x20, 0x21], (match opOf (runsOf 1 1 0xFFFF (redWords op false) [] []) with
      | .vu o a d => (runsOf 1 1 0xFFFF (redWords op false) [] []).vuReady (clause 0 1) (.vu o a d) && o == op && !a
          && (vuCheck op 1 false d).isNone && vuInside op d
      | _ => false) = true)
    ∧ ∀ op ∈ [0x20, 0x21], (match opOf (runsOf 1 1 0xFFFF (redWords op true) [] []) with
      | .vu o a d => (runsOf 1 1 0xFFFF (redWords op true) [] []).vuReady (clause 0 1) (.vu o a d) && o == op && a
          && (vuCheck op 1 true d).isNone && vuInside op d
      | _ => false) = true := by decide +kernel

/-- TOPK of the greatest of two elements. -/
def topWords : List Word := vuWords 0x14 1 1 1 2 xAt (operand 0x500 10 64) absent dEnd (List.replicate 16 0)

/-- COMPRESS (0x30) and EXPAND (0x31) of one token of seat slot 1, one choice, one expert, one slice: the map after the descriptor in the pool. -/
def routeWords (op : Nat) (src : Bool) : List Word :=
  vuWords op 0 0 1 2 xAt (operand 0x600 (if op = 0x30 then 10 else 0) 64)
    (if op = 0x30 then absent else operand 0x8000 0 64) (operand (if op = 0x30 then 0x8000 else 0x2000) 0 64)
    ([0x01010000, 0x00010001, 0x4000, 0x10000, 0x700, 0x780, 128, 0x04000000, 132, if src then 0x80000000 else 0] ++ List.replicate 6 0 ++ [1, 1])

theorem witness_vectorSelections : (match opOf (runsOf 1 1 0xFFFF topWords [] []) with
      | .vu o a d => (runsOf 1 1 0xFFFF topWords [] []).vuReady (clause 0 1) (.vu o a d) && o == 0x14 && !a && (vuCheck 0x14 1 false d).isNone
          && vuInside 0x14 d && lineInside (vuLines d.y (vuDestShape 0x14 d).1 (vuDestShape 0x14 d).2)
      | _ => false) = true
    ∧ ∀ src ∈ [false, true], (match opOf (runsOf 1 1 0xFFFF (routeWords 0x31 src) [] []) with
      | .route o d w => (runsOf 1 1 0xFFFF (routeWords 0x31 src) [] []).vuReady (clause 0 1) (.route o d w) && o == 0x31 && w.expSrc == src
          && (vuCheck 0x31 1 false d).isNone && vuInside 0x31 d && (firstFail (routingRules 0x31 1 d w)).isNone
          && (routeBuffers d.z.off.toNat d.z.pitch.toNat (d.cols.toNat * vuBytes d.z.fmt.toNat) w).all lineInside
          && lineInside (routeMap d.rows.toNat w) && lineInside (vuLines d.y d.rows.toNat w.kc.toNat)
      | _ => false) = true := by decide +kernel

/-- SOLVE_SPD of one equation, without damping and without L. -/
def solveWords : List Word := vuWords 0x40 0 0 0 0 xAt yAt absent (operand 0x900 0 64)
  ([0x00010001, 0, 0, 0x3F800000, 0xA00, 0xFFFFFFFF] ++ List.replicate 10 0)

/-- SIGN_UPDATE of one parameter with no serving copies. -/
def signWords : List Word := vuWords 9 0 0 1 1 xAt absent absent absent ([0xB00, 0xC00, 0, 0, 0, 0x100] ++ List.replicate 10 0)

theorem witness_vectorRoutines : (match opOf (runsOf 1 1 0xFFFF (routeWords 0x30 false) [] []) with
      | .route o d w => (runsOf 1 1 0xFFFF (routeWords 0x30 false) [] []).vuReady (clause 0 1) (.route o d w) && o == 0x30
          && (vuCheck 0x30 1 false d).isNone && vuInside 0x30 d && (firstFail (routingRules 0x30 1 d w)).isNone
          && (routeBuffers d.d.off.toNat d.d.pitch.toNat (d.cols.toNat * vuBytes d.x.fmt.toNat) w).all lineInside
          && lineInside (routeMap d.rows.toNat w) && lineInside (vuLines d.y d.rows.toNat w.kc.toNat)
      | _ => false) = true
    ∧ (match opOf (runsOf 1 1 0xFFFF solveWords [] []) with
      | .solve d w =>
        let d' := { d with rows := BitVec.ofNat 16 w.n.toNat, cols := BitVec.ofNat 16 w.r.toNat }
        (runsOf 1 1 0xFFFF solveWords [] []).vuReady (clause 0 1) (.solve d w) && (vuCheck 0x40 1 false d').isNone && vuInside 0x40 d'
          && (firstFail (solveRules d w)).isNone && extentOk false w.wsOff.toNat 0 1 (4 * w.n.toNat * (w.n.toNat + w.r.toNat))
          && w.lOff == 0xFFFFFFFF && lineInside (vuLines d.x w.n.toNat w.n.toNat)
      | _ => false) = true
    ∧ (match opOf (runsOf 1 1 0xFFFF signWords [] []) with
      | .sign d w => (runsOf 1 1 0xFFFF signWords [] []).vuReady (clause 0 1) (.sign d w) && (vuCheck 9 1 false d).isNone && vuInside 9 d
          && signOk (clause 0 1) d w && extentOk false w.recIn.toNat 0 1 8 && extentOk false w.recOut.toNat 0 1 8
      | _ => false) = true := by decide +kernel

theorem witness_vectorStoresReadBack : (let o : VuOperand := ⟨0x40, 0, false, false, 0, 8⟩
    let grid := [[vuStore 0 false (.fin false 1 0), vuStore 0 false (.fin false 3 0)]]
    o.ctx = false ∧ o.trn = false ∧ ∀ i < grid.length, (vuLineBytes o grid i).length ≤ o.pitch.toNat) := by decide +kernel

/-! ### In-stack engines, transfers and the fabric -/

/-- The slot entry that names the clause. -/
def named : List HbmSlot := [⟨0, 0, 0, 0, 0, 1, 2, 0, 0⟩]

/-- UPDATE (1) or PUBLISH (2) of one parameter, its records at the end of the stack's space. -/
def isuWords (op : Nat) (affix : Bool) : List Word :=
  [wordOf (op * 0x10000000 + if affix then 0x08000000 else 0), 1, 0x3EFFFFFF, 0, 0x100, 0x200, 0, 0x100] ++ List.replicate 8 0

theorem witness_inStackUpdates : (∀ op ∈ [1, 2], (match opOf (runsOf 2 1 0xFFFF (isuWords op false) named []) with
      | .isu o d => (runsOf 2 1 0xFFFF (isuWords op false) named []).isuReady (clause 0 1) (.isu o d) && o == op && isuOk (clause 0 1) d
          && (runsOf 2 1 0xFFFF (isuWords op false) named []).isuSpace (clause 0 1) d == .stack 0 && isuInside (.stack 0) (64 * d.recIn64.toNat) 8
          && isuInside (.stack 0) (64 * d.recOut64.toNat) 8 && isuInside (.stack 0) (64 * d.gAddr64.toNat) 4
          && isuInside (.stack 0) (64 * d.pub64.toNat) 2
      | _ => false) = true)
    ∧ ∀ op ∈ [1, 2], (match opOf (runsOf 2 1 0xFFFF (isuWords op true) [] []) with
      | .isu o d => (runsOf 2 1 0xFFFF (isuWords op true) [] []).isuReady (clause 0 1) (.isu o d) && isuOk (clause 0 1) d
          && (runsOf 2 1 0xFFFF (isuWords op true) [] []).isuSpace (clause 0 1) d == .nowhere
      | _ => false) = true := by decide +kernel

/-- A transfer of one row of 64 bytes whose scratchpad row is the last 64 bytes: OP, HMODE and OBJ. -/
def xferWords (op hmode obj : Nat) : List Word :=
  [wordOf (op * 0x10000000 + hmode * 0x4000000 + obj * 0x100000), 64, 0x00010000, 0x40, 0, 0, wordOf (spSize - 64), 64, 0x100, 0x00030000] ++ List.replicate 6 0

/-- The state with a fill of window 3 whose row has arrived. -/
def withFill (s : State) (d : XferDesc) (there : Bool) : State :=
  { s with ls := { s.ls with fills := [⟨0, 3, 1, 5, d, 8, 0, 0, if there then List.replicate 64 0xAB else [], there⟩] } }

theorem witness_transfersIn : (∀ op ∈ [1, 3], (match opOf (runsOf 3 1 0xFFFF (xferWords op 0 0) named []) with
      | .xfer o d => (runsOf 3 1 0xFFFF (xferWords op 0 0) named []).issued 3 (clause 0 1) (.xfer o d) && (xferCheck op 1 d).isNone && d.named
          && xferInside op d && (runsOf 3 1 0xFFFF (xferWords op 0 0) named []).memInside 0 d (xRowOffs d)
          && (runsOf 3 1 0xFFFF (xferWords op 0 0) named []).memInside 0 d ((runsOf 3 1 0xFFFF (xferWords op 0 0) named []).gatherOffs (clause 0 1) d)
      | _ => false) = true)
    ∧ (∀ op ∈ [1, 2, 3], (match opOf (runsOf 3 1 0xFFFF (xferWords op 0 0) [] []) with
      | .xfer o d => (runsOf 3 1 0xFFFF (xferWords op 0 0) [] []).issued 3 (clause 0 1) (.xfer o d) && (xferCheck op 1 d).isNone && !d.named
      | _ => false) = true) := by decide +kernel

theorem witness_transfersOut : (∀ h ∈ [(0, 0), (1, 0), (2, 4)], (match opOf (runsOf 3 1 0xFFFF (xferWords 2 h.1 h.2) named []) with
      | .xfer o d => (runsOf 3 1 0xFFFF (xferWords 2 h.1 h.2) named []).issued 3 (clause 0 1) (.xfer o d) && o == 2 && (xferCheck 2 1 d).isNone && d.named
          && xferInside 2 d && (runsOf 3 1 0xFFFF (xferWords 2 h.1 h.2) named []).memInside 0 d (xRowOffs d)
      | _ => false) = true) := by decide +kernel

theorem witness_windowFill : (match opOf (runsOf 4 1 3 (xferWords 4 1 0) [] []) with
    | .xfer o d =>
      let c : Issue := { clause 0 1 with window := 3 }
      (runsOf 4 1 3 (xferWords 4 1 0) [] []).issued 4 c (.xfer o d) && o == 4 && d.drops.isEmpty && windowOk 1 d && xferInside 4 d
        && ((withFill (runsOf 4 1 3 (xferWords 4 1 0) [] []) d true).windowRows 0 d).isSome
        && ((withFill (runsOf 4 1 3 (xferWords 4 1 0) [] []) d false).windowRows 0 d).isNone
    | _ => false) = true := by decide +kernel

/-- SEND of 64 bytes from the start of a scratchpad to offset 64, and a slot entry of the path that names it. -/
def sendWords (ctx : Bool) (dkind : Nat) : List Word := [wordOf (0x10000000 + (if ctx then 0x04000000 else 0) + dkind * 0x1000000), 0, 64, 64, 0, 0, 0, 0]
def slotOn (path dst : Nat) : List FabSlot := [⟨100, path, 0, dst, 2, 1, 0, 2, 0, 0, 0⟩]

/-- What a SEND on a path needs. -/
def sends (ctx : Bool) (path dst : Nat) : Bool :=
  let s := runsOf (if path = 3 then 5 else 4) 1 0xFFFF (sendWords ctx (if path = 1 then 1 else 0)) [] (slotOn path dst)
  match opOf s with
  | .fab d => s.sendReady (clause 0 1) d && sendOk (clause 0 1) d && sendInside d && d.drops.isEmpty && d.path.toNat == path && !s.galFenced d.dst.toNat
  | _ => false

theorem witness_sendDelivers : sends false 0 5 = true ∧ sends true 0 5 = true ∧ sends false 1 0 = true ∧ sends false 3 1 = true := by decide +kernel

/-! ### The queue, the clock and its windows -/

theorem witness_stepRunsFront : ∃ s : State, s.pending = [Instr.bbxInfo, .clockLost] ∧ step s = exec .bbxInfo { s with pending := [.clockLost] } :=
  ⟨{ State.reset with pending := [.bbxInfo, .clockLost] }, rfl, rfl⟩

theorem witness_commandsConfined : State.reset.pending = [] ∧ (Instr.syncHoldover).isKept = true ∧ gives (exec .syncHoldover State.reset) (fun t => t.pending.isEmpty) = true := by
  decide +kernel

theorem witness_overrunsAndRefreshes : (ticking []).tk.running = true := by decide +kernel

/-- Ticks of an open monitor window of one tick, and of gallery 0's calibration window of one. -/
def windowsAt (bw cal : Nat) : State :=
  let s := ticking [(regKey 0 (Reg.GAL_CAL_WINDOW 0), 1), (regKey 0 (Reg.GAL_CAL_CFG 0 255), 0xFF000000)]
  { s with cnt := { s.cnt with bwTicks := bw }, cal := { s.cal with ticks := [cal, 0, 0, 0, 0, 0, 0, 0] } }

theorem witness_windowsClose : (windowsAt 0 0).bwFull = false ∧ (windowsAt 1 0).bwFull = true ∧ (windowsAt 0 0).calFull 0 = false
    ∧ (windowsAt 0 1).calFull 0 = true ∧ (windowsAt 0 1).calTouched 0 255 = false
    ∧ ((windowsAt 0 1).reg (Reg.GAL_CAL_CFG 0 255)).bit 31 = true ∧ ((windowsAt 0 1).reg (Reg.GAL_CAL_CFG 0 255)).field 30 24 = 0x7F := by decide +kernel

/-! ### Exact sums and counters -/

/-- 1.0, −1.0 and the smallest subnormal. -/
def sumWords : List Word := [0x3F800000, 0xBF800000, 0x00000001]

theorem witness_exactSumsCommute : sumWords.Perm sumWords.reverse ∧ sumWords.length ≤ 2 ^ 42
    ∧ sumWords.map (fun w => fpDecode fp32 w.toNat) = [(false, 2 ^ 23, -23), (true, 2 ^ 23, -23), (false, 1, -149)].map (fun t => Fv.fin t.1 t.2.1 t.2.2) :=
  ⟨(List.reverse_perm _).symm, by decide, by decide +kernel⟩

theorem test_exactSum_keeps_the_small : ([0x7F7FFFFF, 0x00000001, 0xFF7FFFFF].foldl (fun a (w : Word) => xAdd a (fpDecode fp32 w.toNat)) xEmpty).value = 1 := by
  decide +kernel

/-- Counter 0 of block 0, WRAP_EV and COMMIT set or not, at its last value. -/
def counterAt (cfg : Word) (shadow : Nat) : State :=
  { ticking [] with cnt := { State.reset.cnt with ctrs := [(0, { Counter.fresh with cfg := cfg, value := 2 ^ 64 - 1, shadow := shadow })] } }

theorem witness_counterShadowsAdd : (let s := counterAt 0x50000000 1
      (s.ctr 0 0).cfg.bit 30 = true ∧ (cntCfgInForce (s.cntOwner 0) (s.ctr 0 0).cfg).bit 28 = true
        ∧ ((s.addShadow 0 0 false).ctr 0 0).value = 0 ∧ ((s.addShadow 0 0 false).events.map (·.code)) = [0xA001])
    ∧ ((counterAt 0x40000000 0).addShadow 0 0 false).events = [] ∧ (((counterAt 0x40000000 1).addShadow 0 0 true).ctr 0 0).value = 2 ^ 64 - 1 := by decide +kernel

/-! ### Faults -/

/-- Two faults of MU 0 of gallery 0 lie in the window. -/
def faulted : State :=
  let s := ticking unitRegs
  { s with tk := { s.tk with count := 1000 }, faults := { s.faults with log := [(0, 0, 0, 999), (0, 0, 0, 1)] } }

theorem witness_parityErrorsRecorded : (ticking []).blockLive 0 0 0 = false ∧ faulted.blockLive 0 0 0 = true ∧ faulted.faultWindow 0 0 0 = 2
    ∧ faulted.lateCycle 0 = false ∧ faulted.lateCycle 0xFFFF = true ∧ (0, 0, 0, faulted.tk.count) ∉ faulted.faults.log
    ∧ gives (exec (.parityError 0 0 0 0 0) faulted) (fun t => t.tk.replay && t.faults.fences.any fun f => f.domain == 0 && f.gal == 0 && f.unit == 0) = true
    ∧ gives (exec (.parityError 0 0 0 0 0xFFFF) faulted) (fun t => !t.tk.replay && t.tk.replayNext) = true := by decide +kernel

/-- Page 0 of stack 15 is poisoned, of a kind; its frame is withheld or not. -/
def poisoned (kind : PageKind) (withheld : Bool) : State :=
  { ticking [] with faults := { State.reset.faults with poison := [⟨15, 0, kind⟩], withheld := if withheld then [(7, 0)] else [] } }

theorem witness_hbmErrors : (ticking []).galFenced 7 = false ∧ (ticking []).pagePoisoned 15 0 = false ∧ (poisoned .freeFrame false).pagePoisoned 15 0 = true
    ∧ gives (exec (.hbmUncorrectable 15 0 .freeFrame 0) (ticking [])) (fun t => t.tk.replay && t.fld (Reg.ERR_HBM_UE 15) 31 0 == 1) = true := by decide +kernel

theorem witness_poisonRepaired : (ticking []).pagePoisoned 15 0 = false
    ∧ (poisoned .freeFrame false).faults.poison.find? (fun q => q.stack == 15 && q.page == 0) = some ⟨15, 0, .freeFrame⟩
    ∧ (poisoned .freeFrame false).pageWithheld ⟨15, 0, .freeFrame⟩ = false ∧ (poisoned .freeFrame true).pageWithheld ⟨15, 0, .freeFrame⟩ = true
    ∧ (poisoned .lexiconCopy false).pageWithheld ⟨15, 0, .lexiconCopy⟩ = false ∧ copyKind .lexiconCopy = true
    ∧ gives (exec (.poisonRepair 15 0 true) (poisoned .freeFrame false)) (fun t => !t.pagePoisoned 15 0) = true
    ∧ gives (exec (.poisonRepair 15 0 false) (poisoned .lexiconCopy false)) (fun t => t.pagePoisoned 15 0 && t.faults.withheld == [(7, 0)]) = true := by decide +kernel

/-! ### Residency: shards, objects, windows -/

/-- 64 bytes of 0, and their SHA-256 digest F5A5FD42 D16A2030 2798EF6E D309979B 43003D23 20D9F0E8 EA9831A9 2759FB4B as words of its bytes. -/
def zeros : List Byte := List.replicate 64 0
def zeroDigest : List Word := [0x42FDA5F5, 0x30206AD1, 0x6EEF9827, 0x9B9709D3, 0x233D0043, 0xE8F0D920, 0xA93198EA, 0x4BFB5927]

theorem test_sha256_of_zeros : sha256Words zeros = zeroDigest := by decide +kernel

/-- A shard of those bytes at the start of its part on a gallery, with one source. -/
def shardOf (home : Nat) : Shard :=
  { shard := 0, home := home, srcCount := 1, tiered := true, coding := 0, layout := 0, quant := 0, targetOff := 0, bytes := 64, stored := 64, k32 := 1,
    cols := 1, scaleOff := 0, cbOff := 0, srcFirst := 0, digest := zeroDigest }

/-- Its manifest, with a source of a type. -/
def manOf (home type : Nat) : Manifest := ⟨1, [shardOf home], [⟨type, 0⟩]⟩

/-- How far its fetch is. -/
def progress (attempts : Nat) (verified : Bool) : ShardState :=
  { shard := 0, attempts := attempts, verified := verified, digest := if verified then zeroDigest else [], cause := 0, inFlight := false, epoch := 0,
    since := 0, got := 0, near := false }

/-- An object of instance 1 in serving form. -/
def objOf (state home type attempts : Nat) (verified : Bool) : LexEntry :=
  { LexEntry.free with kind := 1, state := state, inst := 1, pages := 1, man := some (manOf home type), shards := [progress attempts verified] }

/-- Objects 0 and 1, and the host link up. -/
def objects (e0 e1 : LexEntry) (now : Nat) : State :=
  let s := ticking [(regKey 0 (Reg.RES_INST_CFG 1), 0x01000000)]
  { s with hs := { s.hs with linkUp := true }, ls := { s.ls with lex := [(0, e0), (1, e1)] }, tk := { s.tk with now := now } }

/-- Object 1 is under fetch, object 0 of the same bytes resident on another gallery. -/
def nearCopy : State := objects (objOf 2 0 2 0 true) (objOf 1 1 2 0 false) 0

/-- Object 1 is under fetch after some attempts, from a source of a type, whose bytes are no encrypted page. -/
def farSource (type attempts now : Nat) : State := objects LexEntry.free (objOf 1 1 type attempts false) now

/-- The digest of 64 bytes of FF, which no codebook may hold. -/
def onesDigest : List Word := [0x18E76786, 0x0D9E4E29, 0x0006D3F1, 0x20EB3EBA, 0xAD4A761F, 0x7472AD2D, 0xA2E44386, 0xF7D1E185]

/-- Stem slot 0 loads a projection in a code, its one shard not yet there, from a source of a type. -/
def stemLoads (code type : Nat) (verified : Bool) (state : Nat) : State :=
  let ones : Manifest := ⟨1, [{ shardOf 0 with digest := onesDigest }], [⟨type, 0⟩]⟩
  let s := ticking [(regKey 0 (Reg.RES_INST_CFG 1), 0x01000000)]
  let p : StemProj := { layer := 0, proj := 0, expert := 0, gal := 0, outCh := 0, inCh32 := 0, code := code, sgn := false, exp := false, codeOff := 0,
                        scaleOff := 0, cbOff := 0, digest := [], man := some (if code = 7 then ones else manOf 0 type), page := 0 }
  { s with hs := { s.hs with linkUp := true }
           mem := { s.mem with staging := if code = 7 then memWrite [] 0 (List.replicate 64 0xFF) else [] }
           ls := { s.ls with stems := [{ StemSlot.empty with state := state, projs := [p], shards := [(0, progress 0 verified)] }, StemSlot.empty] } }

theorem witness_shardsArriveVerified : nearCopy.fetching 1 0 = some (manOf 1 2, shardOf 1, progress 0 false)
    ∧ (nearCopy.attemptCharge 1 (manOf 1 2) (shardOf 1) (progress 0 false)).isSome = true
    ∧ nearCopy.attempt 1 (manOf 1 2) (shardOf 1) (progress 0 false) = .good zeros [] 0
    ∧ gives (exec (.shardArrival (.lex 1) 0 (nearCopy.brought (.lex 1) 0)) nearCopy) (fun t => (t.lexAt 1).shards.all (·.verified)) = true
    ∧ (let s := farSource 0 0 0
      let starved := { s with ls := { s.ls with fetched := [(1, 65536)] } }
      starved.fetching 1 0 = some (manOf 1 0, shardOf 1, progress 0 false)
        ∧ (starved.attemptCharge 1 (manOf 1 0) (shardOf 1) (progress 0 false)).isNone = true)
    ∧ (ticking []).fetching 1 0 = none ∧ (ticking []).brought (.lex 1) 0 ≠ zeros := by decide +kernel

theorem witness_shardsArriveVerified_stem : ∀ code ∈ [0, 7],
    let s := stemLoads code 2 false 1
    (match s.stemFetching 0 0 0 with
      | some (j, m, x, st) => st.attempts == 0 && (match s.stemAttempt 0 j m x st with
        | .good bs _ _ => (((s.progWrite x.home (s.stemBase 0 + 64 * x.targetOff) bs).updStemShard 0 0 0 fun y =>
            { y with verified := true, digest := sha256Words bs }).stemCodebookOk 0 0 j m) == (code == 0)
        | .bad _ => false)
      | none => false) = true := by decide +kernel

theorem witness_failedAttemptsRetry : (∀ a ∈ [0, 2, 3], (farSource 2 a 2000000).fetching 1 0 = some (manOf 1 2, shardOf 1, progress a false)
      ∧ (farSource 2 a 2000000).overdue 1 64 0 = true ∧ (farSource 2 a 0).overdue 1 64 0 = false
      ∧ ((farSource 2 a 0).attemptCharge 1 (manOf 1 2) (shardOf 1) (progress a false)).isSome = true
      ∧ (farSource 2 a 0).attempt 1 (manOf 1 2) (shardOf 1) (progress a false) = .bad 2)
    ∧ (ticking []).fetching 1 0 = none := by decide +kernel

/-- The header of object 1's record in serving form without layers (Table 8-3): magic, FORMAT, 4,096 bytes, its id. -/
def recordWords : List Word := [0x4E49464B, 0x00010000, 4096, 0x100]

/-- Object 1 complete, with that header or with none; with a group whose only checkpoint cannot be read; and being evicted. -/
def complete (hdr : Bool) (pins : Nat) : State :=
  let t := objects LexEntry.free { objOf 1 8 2 0 true with pins := pins } 0
  let s := { t with boot := { t.boot with fw := [0, 0, 0, 0, 0, 0x00000101] } }
  if hdr then s.hdrWrite 4096 (recordWords.flatMap Word.bytes) else s
def lostCkpt : State :=
  let s := objects LexEntry.free { objOf 1 8 2 0 true with converted := true } 0
  { s with ls := { s.ls with train := [(1, { TrainObj.blank with groups := [parseGroup (List.replicate 16 0)], ckptCopies := [0, 0x100000], ckptNext := [1], ckptValid := [(0, 0)] })] } }
def evicted (due : Nat) : State := objects LexEntry.free { objOf 4 0 2 0 true with evictDue := some due, evictCause := 1 } 0

theorem witness_objectsComeAndGo : ((ticking []).lexAt 1).complete = false ∧ ((complete true 0).lexAt 1).complete = true
    ∧ (∀ pins ∈ [0, 1], ((complete true pins).lexAt 1).pins = pins ∧ (match (complete true pins).ckptRefetch 1 with
        | some s1 => s1.recordCheck 1 == none
        | none => false) = true)
    ∧ (match (complete false 0).ckptRefetch 1 with
        | some s1 => s1.recordCheck 1 == some 1
        | none => false) = true
    ∧ (∀ r ∈ (complete true 0).hs.reqs, 1 ∉ r.waits) ∧ (lostCkpt.lexAt 1).complete = true ∧ (lostCkpt.ckptRefetch 1).isNone = true
    ∧ ((evicted 0).lexAt 1).evictDue = some 0 ∧ ((evicted 0).lexAt 1).state = 4 ∧ 0 ≤ (evicted 0).tk.count.toNat
    ∧ gives (exec (.evictionComplete 1) (evicted 0)) (fun t => (t.lexAt 1).state == 0 && t.events.map (·.code) == [0x3004]) = true
    ∧ gives (exec (.objectActivate 1) (complete true 1)) (fun t => (t.lexAt 1).state == 3 && t.events.map (·.code) == [0x3001]) = true := by decide +kernel

/-- A request of instance 1 on handle 5, SEATED, on ring 0. -/
def request (op : Nat) : Request := { newRequest 5 1 0 op Handle.free (entry []) with state := 2, lexId := some 1 }

/-- A fill of window 3 of gallery 0 from the tiered projection of stem slot 0, its data not yet there, the data of a source in hall staging (type 2) or
host memory (type 0); and the bytes that instance 1 has fetched in this tick. -/
def filling (type fetched : Nat) (present : Bool) : State :=
  let s := stemLoads 0 type true 3
  let d : XferDesc := ⟨1, false, 0, 64, 1, 0, 0, 64, 0, 64, 0, 3, 0, false, []⟩
  { s with hs := { s.hs with reqs := [request Op.admitReq] }
           ls := { s.ls with fills := [⟨0, 3, 1, 5, d, 5, 0, 0, if present then zeros else [], present⟩], fetched := [(1, fetched)] } }

theorem witness_windowsLateAndFilled : ((filling 2 0 false).fillOf 0 3).any (·.present) = false ∧ ((filling 2 0 true).fillOf 0 3).any (·.present) = true
    ∧ (ticking []).fillOf 0 3 = none
    ∧ (∀ x ∈ [(2, 2), (0, 0)], (match (filling x.1 0 false).fillOf 0 3 with
      | some f => (filling x.1 0 false).fillSource f == some (x.2, zeros)
          && decide ((filling x.1 0 false).bufferHeld 1 + f.bytes ≤ (filling x.1 0 false).bufferShare 1)
      | none => false) = true)
    ∧ gives (exec (.fetchArrival 0 3 0 0 zeros) (filling 0 0 false)) (fun t => (t.fillOf 0 3).any (·.present)) = true
    ∧ gives (exec (.fetchArrival 0 3 0 0 zeros) (filling 0 65536 false)) (fun t => !(t.fillOf 0 3).any (·.present)) = true := by decide +kernel

/-! ### Training -/

/-- A training object 1 of instance 1 of one group, in a state of its step. -/
def training (st hold : Nat) (x : TrainObj → TrainObj) : State :=
  let s := objects LexEntry.free { objOf 2 0 2 0 true with form := 1 } 0
  { s with ls := { s.ls with train := [(1, x { TrainObj.blank with state := st, holdLeft := hold, step := 3, groups := [parseGroup (List.replicate 16 0)] })] } }

/-- A checkpoint of group 0 is queued, or active from plane 0 with no bytes left to write. -/
def ckpt (active : Bool) : State := training 0 0 fun x =>
  { x with ckptCopies := [0, 0x100000], ckptNext := [0], ckptQueue := [0], ckptActive := if active then some (0, 0) else none }

theorem witness_checkpointsStartAndEnd : ((ckpt true).trainAt 1).ckptActive.isSome = true ∧ ((ckpt false).trainAt 1).ckptActive = none
    ∧ 0 ∈ ((ckpt false).trainAt 1).ckptQueue ∧ ((ckpt false).trainAt 1).ckptCopies ≠ [] ∧ ((ckpt true).trainAt 1).ckptActive = some (0, 0)
    ∧ (ckpt true).covered ((ckpt true).lexAt 1).inst (.checkpoint 1) ((ckpt true).trainAt 1).ckptLeft = true
    ∧ gives (exec (.checkpointStart 1 0) (ckpt false)) (fun t => (t.trainAt 1).ckptActive == some (0, 0)) = true
    ∧ gives (exec (.checkpointComplete 1 false) (ckpt true)) (fun t => t.events.map (·.code) == [0x3060]) = true := by decide +kernel

theorem witness_stepsStartAndSkip : (let s := training 1 0 id
      (s.trainAt 1).state = 1 ∧ s.batchesDone 1 = true ∧ s.planeFree 1 = true ∧ (s.trainAt 1).cur ≤ 1)
    ∧ (let s := { training 1 0 id with hs := { (training 1 0 id).hs with reqs := [request Op.trainBatch] } }
      s.batchesDone 1 = false)
    ∧ ((training 4 0 id).trainAt 1).state = 4 ∧ ((training 4 0 id).trainAt 1).holdLeft = 0 ∧ ((training 4 1 id).trainAt 1).holdLeft ≠ 0
    ∧ gives (exec (.stepApplyStart 1) (training 1 0 id)) (fun t => (t.trainAt 1).state == 2) = true
    ∧ gives (exec (.gateTimeout 1) (training 4 0 id)) (fun t => (t.trainAt 1).state == 0 && t.events.map (·.code) == [0x2013]) = true := by decide +kernel

/-- Function 1's gate registers name step 4 of object 1, the last of its range of two. -/
def gating (st base : Nat) : State :=
  let s := training st 3 id
  { s with regs := [(regKey 0 (Reg.LEX_RANGE_BASE 1), wordOf base), (regKey 0 (Reg.LEX_RANGE_COUNT 1), 2), (regKey 2 Reg.LEX_GATE_ID, 1),
      (regKey 2 Reg.LEX_GATE_STEP, 4)].foldl (fun m p => smSet regDefault m p.1 p.2) s.regs }

theorem witness_gateCommands : (let s := gating 4 0
      (s.lexAt 1).kind ≠ 0 ∧ s.fld (Reg.LEX_RANGE_BASE 1) 23 0 ≤ 1 ∧ 1 < s.fld (Reg.LEX_RANGE_BASE 1) 23 0 + s.fld (Reg.LEX_RANGE_COUNT 1) 24 0
        ∧ (s.trainAt 1).state = 4 ∧ (s.trainAt 1).number % 0x100000000 = (s.regC 2 Reg.LEX_GATE_STEP).toNat)
    ∧ gives (exec (.lexGateGo 1) (gating 4 0)) (fun t => (t.trainAt 1).gate == some 1) = true
    ∧ gives (exec (.lexGateSkip 1) (gating 4 0)) (fun t => (t.trainAt 1).gate == some 2) = true
    ∧ ¬(gating 4 2).fld (Reg.LEX_RANGE_BASE 1) 23 0 ≤ 1 ∧ ((gating 1 0).trainAt 1).state ≠ 4
    ∧ gives (exec (.lexGateGo 1) (gating 1 0)) (fun t => (t.regC 2 Reg.LEX_GATE_CMD).field 7 0 == St.badField) = true := by decide +kernel

/-! ### Flights -/

/-- Ticks running in power state P0, with more registers. -/
def powered (regs : List (Nat × Word)) : State := ticking ((regKey 0 Reg.PWR_STATE, 0) :: unitRegs ++ regs)

/-- FLT_ADMIT_STATUS.STATE. -/
def admitIs (st : Nat) : Nat × Word := (regKey 0 Reg.FLT_ADMIT_STATUS, wordOf (st * 0x10000000))

/-- A load of PAIR 4 in progress: the bytes copied, the checks ended. -/
def loading (st : Nat) (copied checked : Bool) : State :=
  let s := powered [admitIs st]
  { s with flights := { s.flights with load := some ⟨4, 0x1000, 64, [], copied, checked⟩ } }

/-- An image staged in pair 3's slots (PAIR 4), beside an image in the version 3 slots or none, and a switch of it that has waited some landings. -/
def staged (v3 : Bool) (w : Option Switch) : State :=
  let s := powered [admitIs 3]
  let f := { imageOf 0 0x3FF 0xFFFF [] [] [] with contract := 4 }
  { s with flights := { s.flights with
      v3 := if v3 then { FlightSlots.empty with active := some (imageOf 0 0x3FF 0xFFFF [] [] []) } else FlightSlots.empty
      pairs := [FlightSlots.empty, FlightSlots.empty, FlightSlots.empty, { FlightSlots.empty with staged := some f }]
      switches := w.toList } }

theorem witness_flightsLoadAndAdmit : (loading 1 false false).admitState = 1 ∧ (loading 2 true false).admitState = 2 ∧ (powered []).admitState = 0
    ∧ (powered []).switchOf 4 = none ∧ ((staged true (some ⟨4, false, 0, 0, false⟩)).switchOf 4).isSome = true
    ∧ (admitImage 4 64 [] []).isSome = true ∧ (powered []).flights.load = none
    ∧ gives (exec (.flightLoad 4) (powered [])) (fun t => t.admitState == 1) = true
    ∧ gives (exec .flightCopyComplete (loading 1 false false)) (fun t => t.flights.load.any (·.copied)) = true
    ∧ gives (exec .flightAdmissionComplete (loading 2 true false)) (fun t => t.flights.load.any (·.checked)) = true
    ∧ (loading 1 true false).loadStep.admitState = 2 ∧ (loading 2 true true).loadStep.admitState = 4 := by decide +kernel

theorem witness_flightsSwitch : (staged true none).switchOf 4 = none ∧ (staged true none).admitState = 3
    ∧ ((staged true none).slotsOf 4).staged.isSome = true ∧ (staged true none).changesContract 4 = true ∧ (staged false none).changesContract 4 = false
    ∧ (∀ w ∈ [(⟨4, false, 2, 2, false⟩ : Switch), ⟨4, true, 0, 0, false⟩, ⟨4, false, 0, 0, true⟩],
        w.now = true ∨ (staged false (some w)).switchDue w = true ∨ w.drainOver = true)
    ∧ (let s := { staged false none with hs := { (staged false none).hs with reqs := [request Op.admitReq] } }
      let w : Switch := ⟨4, false, 2, 1, false⟩
      w.drainOver = false ∧ (s.switchDue w = true ∨ s.switchDue w = false))
    ∧ (let w : Switch := ⟨4, true, 0, 0, false⟩
      let t := (staged false (some w)).switchOne true w
      (t.slotsOf 4).active.isSome = true ∧ (t.slotsOf 4).staged.isNone = true ∧ t.switchOf 4 = none
        ∧ (((staged false (some w)).switchOne false w).slotsOf 4).active.isNone = true) := by decide +kernel

/-! ### Landings, stops and resets -/

/-- The same with a stop of a cause, P4 or P3 waiting for the landing. -/
def waiting (cause : Option Nat) (p4 p3 : Bool) : State :=
  let s := powered []
  { s with pw := { s.pw with stopCause := cause, p4Due := p4, p3Due := p3, hallOn := true } }

theorem witness_landingsRun : State.reset.tk.running = false
    ∧ (∀ x ∈ [(some 15, false, false), (none, true, false), (none, false, true), (none, false, false)],
      let s := waiting x.1 x.2.1 x.2.2
      let s1 := s.keepFlights (s.saveWindow.endDeleted.phaseAB)
      let sw := (s1.advance.keepFlights s1.advance.actionsFirst.placeFrames).switchLanding true
      let s2 := sw.keepFlights sw.actionsRest
      s.tk.running = true ∧ s1.pw.stopCause = x.1 ∧ s2.pw.p4Due = x.2.1 ∧ s2.pw.p3Due = x.2.2 ∧ s2.fld Reg.ERR_REPLAY 31 24 < 8)
    ∧ gives (exec .landing (waiting none false false)) (fun t => t.tk.count == 1) = true
    ∧ gives (exec .landing (waiting (some 15) false false)) (fun t => !t.tk.running && t.fld Reg.RST_CAUSE 31 28 == 15) = true := by decide +kernel

theorem witness_stopsBegin : (powered []).pw.stopCause = none ∧ (powered []).packageOff = false
    ∧ 8 ≤ (powered [(regKey 0 Reg.ERR_REPLAY, 0x08000000)]).fld Reg.ERR_REPLAY 31 24 ∧ (powered []).fld Reg.ERR_REPLAY 31 24 < 8
    ∧ (waiting none false false).fld Reg.PWR_STATE 31 29 ≠ 3 ∧ (powered []).tk.running = true
    ∧ gives (exec (.powerWindow 5601) (powered [])) (fun t => t.pw.stopCause == some 7) = true
    ∧ gives (exec (.powerWindow 5600) (powered [])) (fun t => t.pw.stopCause == none) = true
    ∧ gives (exec (.thermalShutdown 0 115) (powered [])) (fun t => t.pw.stopCause == some 3) = true
    ∧ gives (exec (.thermalShutdown 0 114) (powered [])) (fun t => t.pw.stopCause == none) = true
    ∧ gives (exec (.rstPackage 0x52535450) (powered [])) (fun t => t.pw.stopCause == some 1) = true
    ∧ gives (exec .clockLost (powered [])) (fun t => t.pw.stopCause == some 6) = true
    ∧ (let s := { powered [] with pw := { (powered []).pw with lossTimer := true } }
      s.pw.lossTimer = true ∧ gives (exec .lossTimerExpire s) (fun t => t.pw.stopCause == some 2) = true) := by decide +kernel

theorem witness_resetsKeep : (let s := { State.reset with regs := smSet regDefault [] (regKey 0 Reg.PWR_STATE) 0x60000000 }
      s.fld Reg.PWR_STATE 31 29 = 3 ∧ gives (exec (.rstPackage 0x52535450) s) (fun t => t.fld Reg.RST_CAUSE 31 28 == 8) = true)
    ∧ gives (exec .powerOnReset { powered [] with mem := { Mems.empty with boot := [(5, 1)], hbm := [(5, 1)] } }) (fun t =>
        t.mem.boot == [(5, 1)] && t.mem.hbm == [] && !t.tk.running) = true := by decide +kernel

theorem witness_clausesNotIssuedIdle : (∀ d : MmDesc, (ticking []).muReady (clause 0 1) (.mm d) = false)
    ∧ (match opOf (runsOf 1 1 0xFFFF (vecWords 2 0) [] []) with
      | .vu _ _ d => let far := { d with d := { d.d with off := 0xBFFFFFC } }
        (vuCheck 2 1 false d).isNone && vuInside 2 d && !vuInside 2 far
      | _ => false) = true
    ∧ (let s := runsOf 1 1 0xFFFF (vuWords 2 0 0 1 4 xAt yAt absent (operand (spSize - 8) 0 64) (List.replicate 16 0)) [] []
      match opOf s with
      | .vu 2 false d => s.vuReady (clause 0 1) (.vu 2 false d) && (vuCheck 2 1 false d).isNone && !vuInside 2 d
      | _ => false) = true
    ∧ (let s := runsOf 3 1 0xFFFF [0x10000000, 64, 0x00020000, 0x40, 0, 0, wordOf (spSize - 64), 64, 0x100, 0x00030000, 0, 0, 0, 0, 0, 0] named []
      match opOf s with
      | .xfer 1 d => s.issued 3 (clause 0 1) (.xfer 1 d) && (xferCheck 1 1 d).isNone && d.named && !xferInside 1 d
      | _ => false) = true :=
  ⟨fun _ => rfl, by decide +kernel, by decide +kernel, by decide +kernel⟩

/-! ### Tick-sync -/

/-- Tick-sync in a state with pulses accepted in a row, measured from or not. -/
def syncing (st accepted : Nat) (measured : Bool) : State :=
  let s := powered [(regKey 0 Reg.TCK_PERIOD, 20), (regKey 0 Reg.TCK_SYNC_CTRL, 0x40010000), (regKey 0 Reg.TCK_SYNC_STATUS, wordOf (st * 0x20000000))]
  { s with sync := { s.sync with accepted := accepted, measured := measured } }

theorem witness_syncPulses : (∀ st < 6, (syncing st 0 false).syncState = st)
    ∧ (let e := (syncing 2 8 true).syncNs
      (syncing 2 8 true).syncFits e = true ∧ (syncing 2 8 true).syncFits (e * 2001 / 2000) = true ∧ (syncing 2 8 true).syncFits (e * 2001 / 2000 + 1) = false
        ∧ (syncing 1 7 true).syncFits e = true ∧ e < 2 ^ 32
        ∧ gives (exec (.tickSync 40 (BitVec.ofNat 32 e) 25) (syncing 1 7 true)) (fun t => t.syncState == 1) = true
        ∧ gives (exec (.tickSync 39 (BitVec.ofNat 32 e) 0) (syncing 1 7 true)) (fun t => t.sync.accepted == 7) = true) := by decide +kernel

theorem witness_syncControls : ((powered []).reg Reg.DEV_BOOT_STATUS).bit 12 = false
    ∧ ((powered [(regKey 0 Reg.DEV_BOOT_STATUS, 0x1000)]).reg Reg.DEV_BOOT_STATUS).bit 12 = true
    ∧ (powered []).syncState = 0 ∧ (powered []).fld Reg.TCK_STRETCH 8 0 ≤ 256 ∧ 256 < (powered [(regKey 0 Reg.TCK_STRETCH, 257)]).fld Reg.TCK_STRETCH 8 0
    ∧ (syncing 1 0 false).windowEventDue = true
    ∧ (let s := { syncing 1 0 false with sync := { (syncing 1 0 false).sync with lastWindowEvent := some 0 } }
      s.windowEventDue = false)
    ∧ gives (exec .syncHoldover (syncing 2 8 true)) (fun t => t.syncState == 3) = true
    ∧ gives (exec .syncFreerun (syncing 3 8 true)) (fun t => t.syncState == 4) = true
    ∧ gives (exec (.tckSyncCtrlWrite 0x40010000) (powered [])) (fun t => t.syncState == 1) = true := by decide +kernel

/-! ### The host side -/

/-- Instance 1 with rings 0 to 7 and handles 0 to 15, attached (1), detached (2) or neither; a window of 64 MiB at 0; ring 0 of 32 entries in the
window with a completion queue after it. -/
def hosting (attach : Nat) (r : Ring → Ring) : State :=
  let s := powered [(regKey 0 (Reg.WIN_RINGS 1), 0x40), (regKey 0 (Reg.WIN_HANDLES 1), 8), (regKey 2 Reg.WIN_ATTACH_STATE, wordOf (attach * 0x40000000)),
    (regKey 0 (Reg.WIN_RANGE 1), 0x20), (regKey 0 (Reg.WIN_INST_CFG 1), 0x02010001), (regKey 0 Reg.RST_STATUS, 0x70000000)]
  { s with hs := { s.hs with linkUp := true, rings := [(0, r { Ring.free with state := 1, inst := 1, depthLog2 := 5, cqAddr := 0x800 })] } }

/-- An entry with a handle and operand words 4 on. -/
def entryOn (handle : Word) (ops : List Word) : Entry := ⟨0, 0, handle, 0, 0, ops⟩

theorem witness_entriesSubmitted : ((hosting 1 id).ringAt 0).state ≠ 0 ∧ ((hosting 1 id).ringAt 0).kind = 0 ∧ ((hosting 1 id).ringAt 16383).state = 0
    ∧ gives (exec (.nop 0 (entryOn 0 [])) (hosting 1 id)) (fun t => (t.ringAt 0).tail == 1 && memRead t.mem.win 0 4 == ((entryWords 0x30 (entryOn 0 [])).flatMap Word.bytes).take 4) = true
    ∧ gives (exec (.nop 0 { entryOn 0 [] with seq := 30 }) (hosting 2 id)) (fun t => (t.ringAt 0).tail == 0) = true := by decide +kernel

/-- Handle 3 of instance 1 in a state. -/
def handling (st : Nat) : State :=
  let s := hosting 1 id
  { s with hs := { s.hs with handles := [(0, { Handle.free with state := 1 }), (3, { Handle.free with state := st })] } }

theorem witness_entriesTakeEffect : ((handling 1).ringAt 0).state ≠ 0 ∧ (handling 1).badField 1 0x30 { entryOn 0 [] with rsv0 := 1 } = some 16
    ∧ (handling 1).badField 1 0x30 (entryOn 0 []) = none ∧ (handling 1).badField 1 0x01 (entryOn 0 []) = none
    ∧ (handling 1).badField 1 0x04 (entryOn 3 []) = none ∧ (handling 1).handleOf 1 3 = some 3 ∧ (handling 1).handleOf 1 16 = none ∧ namesHandle 0x04 = true
    ∧ (handling 1).handleCount 1 = 16 ∧ ((handling 1).handleAt 1).state = 0 ∧ ((handling 1).handleAt 0).state ≠ 0
    ∧ ((handling 1).takeEffect 0 0x01 (entryOn 0 [])).hs.handles.lookup 1 = some { Handle.free with state := 1 }
    ∧ (let e := entryOn 3 [0, 0x05000001]
      (entryOp e 5).bit 0 = true ∧ (handling 1).handleOf 1 3 = some 3 ∧ ((handling 1).takeEffect 0 0x04 (entryOn 3 [])).hs.handles.lookup 3
        = some { Handle.free with state := 1, freeing := true }) := by decide +kernel

theorem witness_doorbellsMoveTail : (hosting 1 id).pageRing 1 8 = none ∧ (hosting 1 id).barServed = true ∧ (ticking []).barServed = false ∧ (hosting 1 id).pageRing 1 7 = some 7 ∧ (hosting 1 id).pageRing 1 0 = some 0
    ∧ (hosting 2 id).attachState 1 = 2 ∧ (hosting 1 id).attachState 1 ≠ 2 ∧ ((hosting 1 id).ringAt 0).depth = 32
    ∧ gives (exec (.doorbell 1 0 0 31) (hosting 1 fun r => { r with tail := 5 })) (fun t => (t.ringAt 0).tail == 0) = true
    ∧ gives (exec (.doorbell 1 0 31 30) (hosting 1 id)) (fun t => (t.ringAt 0).tail == 31) = true
    ∧ gives (exec (.doorbell 1 0 32 31) (hosting 1 id)) (fun t => (t.ringAt 0).tail == 0 && t.events.map (·.code) == [0x4002]) = true := by decide +kernel

theorem witness_mismatchesHaltRings : ((hosting 1 fun r => { r with sqHost := true, tail := 1 }).ringAt 0).ahead = true ∧ ((hosting 1 id).ringAt 0).ahead = false
    ∧ (hosting 1 id).fld (Reg.WIN_INST_CFG 1) 29 24 = 2
    ∧ gives (exec (.dbTimeoutExpire 0) (hosting 1 fun r => { r with mismatch := some 2, tail := 1 })) (fun t => (t.ringAt 0).state == 2) = true
    ∧ gives (exec (.dbTimeoutExpire 0) (hosting 1 fun r => { r with mismatch := some 1, tail := 1 })) (fun t => (t.ringAt 0).state == 1) = true := by
  decide +kernel

theorem witness_cqHeadMoves : (hosting 1 id).pageRing 1 0 = some 0 ∧ (hosting 1 id).barServed = true ∧ (ticking []).barServed = false
    ∧ gives (exec (.cqHeadWrite 1 0 31) (hosting 1 fun r => { r with cqPos := 31 })) (fun t => (t.ringAt 0).cqHead == 31) = true
    ∧ gives (exec (.cqHeadWrite 1 0 0) (hosting 1 fun r => { r with cqPos := 32 })) (fun t => (t.ringAt 0).cqHead == 32) = true
    ∧ gives (exec (.cqHeadWrite 1 0 32) (hosting 1 fun r => { r with cqPos := 31 })) (fun t => (t.ringAt 0).cqHead == 0) = true
    ∧ gives (exec (.cqHeadWrite 1 0 2) (hosting 1 fun r => { r with cqPos := 1 })) (fun t => (t.ringAt 0).cqHead == 0) = true := by decide +kernel

/-- A completion record of ST_OK whose host data is not yet visible, on handle 5's request, which is DONE. -/
def observing (visible : Bool) : State :=
  let s := hosting 1 id
  let x : Record := ⟨0, 3, 0, 5, 0, 3, 0, 0, 0, 0, 64, []⟩
  { s with hs := { s.hs with reqs := [{ request Op.admitReq with state := 3, record := some x, dataVisible := visible }]
                             handles := [(5, { Handle.free with state := 3 })] } }

theorem witness_hostDataCompletes : ((observing false).reqAt 5).any (fun r => r.record.isSome && !r.dataVisible) = true
    ∧ ((observing true).reqAt 5).any (fun r => r.record.isSome && r.dataVisible) = true ∧ (hosting 1 id).reqAt 5 = none
    ∧ ((observing false).ringAt 0).state ≠ 0 ∧ ((observing false).ringAt 0).held = [] ∧ ((observing false).ringAt 0).room = true
    ∧ (observing false).cqOpen ((observing false).ringAt 0) = true
    ∧ gives (exec (.globalObservation 5) (observing false)) (fun t => (t.ringAt 0).cqPos == 1 && (t.handleAt 5).state == 2 && t.hs.reqs.isEmpty) = true
    ∧ gives (exec (.hostWriteTimeout 5 7) (observing false)) (fun t => (t.ringAt 0).cqPos == 1 && t.events.map (·.code) == [0x4006]) = true := by decide +kernel

/-- The input page 1 of handle 5's request is immutable. -/
def inputs : State :=
  let s := hosting 1 id
  { s with hs := { s.hs with immutable := [(5, 0x1000, 64)], reqs := [request Op.admitReq] } }

theorem witness_hostWritesReachTheWindow : inputs.winOwner 0x1FC0 = some 1 ∧ inputs.winOwner 0x7FFFFFFFFF = none ∧ (inputs.immutableBy 0x1FC0).map (·.handle) = [5]
    ∧ inputs.immutableBy 0x2000 = [] ∧ inputs.barServed = true ∧ (ticking []).barServed = false ∧ inputs.winAbs 1 0x2000 = 0x2000 ∧ (inputs.reqAt 5).isSome = true
    ∧ gives (exec (.windowWrite 1 0x203F true [0xAB]) inputs) (fun t => memByte t.mem.win 0x203F == 0xAB && memByte t.mem.winM 0x203F == 0xAB) = true
    ∧ gives (exec (.inputWrite 1 0x1FFF true [0xAB]) inputs) (fun t => memByte t.mem.win 0x1FFF == 0 && t.events.map (·.code) == [0x4005]) = true := by
  decide +kernel

/-- Function 1's queue busy with a command or idle, its ring 0 in a state. -/
def managing (busy : Bool) (attach ring : Nat) : State :=
  let s := hosting attach fun r => { r with state := ring }
  { s with regs := smSet regDefault s.regs (regKey 2 Reg.MGQ_STATUS) (if busy then 0x40000000 else 0) }

theorem witness_managementDecided : ((managing true 0 1).regC 2 Reg.MGQ_STATUS).field 31 30 = 1 ∧ ((managing false 0 1).regC 2 Reg.MGQ_STATUS).field 31 30 ≠ 1
    ∧ (managing false 0 2).ringCount 1 = 8 ∧ (∀ st < 3, ((managing false 0 st).ringAt 0).state = st)
    ∧ (managing false 0 1).ideBlocks = false ∧ (∀ a < 3, (managing false a 1).attachState 1 = a)
    ∧ ((managing false 0 2).mgqStep ⟨1, 3, [0]⟩).hs.rings.map (fun p => p.2.state) = [1]
    ∧ ((managing false 0 1).mgqStep ⟨1, 4, [7, 0]⟩).attachState 1 = 1 ∧ ((managing false 1 1).mgqStep ⟨1, 5, []⟩).attachState 1 = 2 := by decide +kernel

theorem witness_attachmentIsLost : (let s := { hosting 1 id with tk := { (hosting 1 id).tk with now := 1024000 } }
      s.beatDue 1 = true ∧ s.attachState 1 = 1 ∧ gives (exec (.heartbeatTimeout 1) s) (fun t => t.attachState 1 == 2) = true)
    ∧ (hosting 1 id).beatDue 1 = false ∧ (hosting 1 id).fld (Reg.WIN_INST_CFG 0) 15 0 = 0 ∧ (hosting 1 id).frozen 1 = false
    ∧ gives (exec (.heartbeatWrite 1 9) (hosting 1 id)) (fun t => t.regC 2 Reg.WIN_HEARTBEAT == 9) = true := by decide +kernel

/-! ### Instances -/

/-- Instance 1 in a state of Table 13-4, its image to be restored read or not, with an image at its place or none. -/
def instance1 (st : Nat) (restored : Bool) (img : Option Image) : State :=
  let s := hosting 1 id
  { s with regs := smSet regDefault s.regs (regKey 0 (Reg.DEV_INST_STATE 1)) (wordOf (st * 0x10000000))
           insts := [(1, { Inst.fresh with restored := restored, migKey := some 9 })]
           images := (img.map fun i => ((0 : Nat), i)).toList }

/-- The image that a save of the frozen instance gives. -/
def imageSaved : Image := { (instance1 4 false none).saveImage 1 with valid := true }

theorem witness_instancesChangeState : (∀ st < 6, (instance1 st false none).instState 1 = st) ∧ (instance1 1 false none).dirtyOf 1 = []
    ∧ ((instance1 1 false none).hs.reqs.any fun r => r.inst == 1) = false
    ∧ (({ instance1 1 false none with hs := { (hosting 1 id).hs with reqs := [request Op.admitReq] } } : State).hs.reqs.any fun r => r.inst == 1) = true
    ∧ ((instance1 5 true none).images.find? fun p => p.1 == (instance1 5 true none).migPlace 1) = none
    ∧ ((instance1 5 true (some imageSaved)).images.find? fun p => p.1 == (instance1 5 true (some imageSaved)).migPlace 1) = some (0, imageSaved)
    ∧ ((instance1 5 true none).instAt 1).stopped = false ∧ (instance1 5 true (some imageSaved)).imageStatus 1 imageSaved = St.ok
    ∧ gives (exec (.instancePaused 1) (instance1 1 false none)) (fun t => t.instState 1 == 2) = true
    ∧ gives (exec (.saveComplete 1) (instance1 4 false none)) (fun t => t.instState 1 == 3 && t.images.length == 1) = true
    ∧ ((instance1 5 true (some imageSaved)).restoreStep 1).instState 1 = 3 := by decide +kernel

/-! ### Stems -/

/-- The image of a stem of one layer and one INT4 projection of 1 × 32 (Tables 8-1 and 8-2), with its manifest of one shard (Tables 10-3 and 10-4). -/
def stemWords : List Word :=
  [0x5453464B, 0x00010000, 128, 0x00010001, 0x00010000, 64, 0, 5, 0, 0, 0, 0, 0, 0, 0, 0]
    ++ [0, 0xFFFF0000, 0x00010001, 0x68000000, 0, 1, 0xFFFFFFFF, 0, 0xEBDAE876, 0x64145A85, 0x7636C19D, 0x1FE53802, 0xA024A748, 0x13C0E4E8, 0xEB5033C3,
      0x62EF960C]
    ++ [0x4E4D464B, 0x00010001, 0x03000000, 0x00010000, 0, 0, 0, 0] ++ [0x00002000, 0, 64, 64, 0, 0, 0xFFFFFFFF, 0] ++ zeroDigest ++ [0x20000000, 0, 0, 0]

/-- Stem slots 0 and 1 in states, both holding that stem, its image in the window, slots of a number of MiB. -/
def stems (st0 st1 mib : Nat) (inPlace verified : Bool) : State :=
  let s := powered [(regKey 0 Reg.LEX_STEM_LEN, 240), (regKey 0 (Reg.LEX_STEM_SIZE 0), wordOf mib), (regKey 0 (Reg.LEX_STEM_BASE 1), 0x100),
    (regKey 0 (Reg.LEX_STEM_SEL 0), 0xFFFFFFFF), (regKey 0 (Reg.LEX_STEM_SEL 1), 0xFFFFFFFF)]
  let img := stemWords.flatMap Word.bytes
  let t := (parseStem img).getD StemSlot.empty
  let slot := fun (st : Nat) => if st = 0 then StemSlot.empty
    else { t with state := st, inPlace := inPlace, next := some img, shards := (stemShards 0 t).map fun x => (x.1, { x.2 with verified := verified }) }
  { s with mem := { s.mem with win := memWrite [] 0 img }, ls := { s.ls with stems := [slot st0, slot st1] } }

/-- The same with another stem in slot 0, of other code offsets. -/
def otherLayout (st1 : Nat) : State :=
  let s := stems 3 st1 1 false true
  { s with ls := { s.ls with stems := s.ls.stems.modify 0 fun t => { t with projs := t.projs.map fun p => { p with codeOff := 4 } } } }

theorem witness_stemSlotsChangeState_load : (parseStem (stems 0 0 1 false true).stemImage).isSome = true ∧ (parseStem (ticking []).stemImage) = none
    ∧ ((stems 0 0 1 false true).stemAt 0).state = 0 ∧ ((stems 2 0 1 false true).stemAt 0).state ≠ 0
    ∧ (∀ mib < 2, (match (parseStem (stems 0 0 mib false true).stemImage).bind ((stems 0 0 mib false true).placeStem none) with
      | some y => (stems 0 0 mib false true).stemFits 0 y == (mib == 1)
      | none => false) = true)
    ∧ gives (exec (.stemLoad 0) (stems 0 0 1 false true)) (fun t => (t.stemAt 0).state == 1 && (t.stemAt 0).shards.length == 1) = true := by decide +kernel

theorem witness_stemSlotsChangeState_switch : (let s := stems 3 2 1 false true
      (s.stemAt 0).state = 3 ∧ (s.stemAt 1).state = 2 ∧ s.stemBusy = false ∧ stemLayout (s.stemAt 0) = stemLayout (s.stemAt 1)
        ∧ gives (exec (.stemSwitch 0) s) (fun t => (t.stemAt 1).switching) = true)
    ∧ (stems 3 5 1 false true).stemBusy = true
    ∧ stemLayout ((otherLayout 2).stemAt 0) ≠ stemLayout ((otherLayout 2).stemAt 1) ∧ (otherLayout 2).stemBusy = false
    ∧ (let s := stems 3 0 1 false true
      (s.stemAt 0).state = 3 ∧ s.stemBusy = false ∧ (match parseStem s.stemImage with
        | some x => stemLayout x == stemLayout (s.stemAt 0) && (s.placeStem (some 0) x).isSome
            && stemLayout x != stemLayout ((otherLayout 0).stemAt 0)
        | none => false) = true
        ∧ gives (exec (.stemRolling 0) s) (fun t => (t.stemAt 0).state == 5) = true) := by decide +kernel

theorem witness_stemSlotsChangeState_events : (∀ st ∈ [2, 3, 6], (let s := stems st 0 1 false true
      (st = 3 → s.boundTo 0 = false ∧ (∀ n < 64, s.stemSel n ≠ 0) ∧ (s.stemAt 1).switching = false)
        ∧ gives (exec (.stemUnload 0) s) (fun t => (t.stemAt 0).state == 0) = true))
    ∧ (let s := stems 1 0 1 false true
      (s.stemAt 0).state = 1 ∧ (s.stemAt 0).inPlace = false ∧ (∀ p ∈ (s.stemAt 0).shards, p.2.verified = true)
        ∧ gives (exec (.stemReady 0) s) (fun t => (t.stemAt 0).state == 2) = true)
    ∧ (∃ p ∈ ((stems 1 0 1 false false).stemAt 0).shards, p.2.verified = false) ∧ ((stems 1 0 1 true true).stemAt 0).inPlace = true
    ∧ (let s := stems 5 0 1 false true
      (∀ r ∈ s.hs.reqs, r.live = true → r.stem = 0 → stemWait 0 ∈ r.waits)
        ∧ (((s.stemAt 0).next.bind parseStem).bind (s.placeStem (some 0))).isSome = true
        ∧ gives (exec (.stemDrained 0) s) (fun t => (t.stemAt 0).state == 1 && (t.stemAt 0).inPlace) = true)
    ∧ (let s := stems 4 0 1 false true
      s.boundTo 0 = false ∧ gives (exec (.stemRetired 0) s) (fun t => (t.stemAt 0).state == 0 && t.events.map (·.code) == [0x3042]) = true) := by
  decide +kernel

/-! ### Keys and sessions -/

/-- Session 2 of function 1, with key slot 16 of its range ACTIVE in epoch 3, and a nonce of it. -/
def keyed (st : Nat) (condemned : List (Word × BitVec 256)) : State :=
  let s := hosting 1 id
  { s with regs := [(regKey 0 (Reg.SEC_KEYRANGE 1), 0x00100010), (regKey 0 Reg.RST_STATUS, 0x70000000)].foldl (fun m p => smSet regDefault m p.1 p.2) s.regs
           pw := { s.pw with hallOn := true }
           trust := { s.trust with keys := [(16, { KeySlot.empty with state := st, cur := if st = 0 then 0 else 3, keyCur := if st = 0 then 0 else 77, condemned := condemned })]
                                   sessions := [⟨.doe 1, 2, true, 5, 0⟩, ⟨.doe 0, 1, true, 5, 0⟩, ⟨.doe 1, 3, false, 5, 0⟩]
                                   nonces := [⟨.doe 1, 2, 8, 0⟩] } }

/-- The MAC that a tenant's request of an opcode on that slot carries. -/
def tenantMac (op : Nat) : List Byte := hmac (reportKey 77 16 3) (tenantMessage op 16 3 0)

theorem witness_tenantRequestsAnswered : ((keyed 1 []).sessionAt (.doe 1) 2).isSome = true ∧ ((keyed 1 []).sessionAt (.doe 1) 3).isSome = false
    ∧ (keyed 1 []).keysOpen = true ∧ (keyed 1 []).keyInRange 1 16 = true ∧ (keyed 1 []).keyInRange 1 31 = true ∧ (keyed 1 []).keyInRange 1 32 = false
    ∧ (keyed 1 []).provisionChecks (.doe 1) 2 16 4 9 [] [] = .inl St.auth ∧ (keyed 2 []).provisionChecks (.doe 1) 2 17 0 8 [] [] = .inl St.badField
    ∧ ((keyed 1 []).keyAhead 16).state ≠ 0 ∧ ((keyed 1 []).keyAhead 17).state = 0 ∧ (let s := keyed 1 []
      let b := { s with regs := smSet regDefault s.regs (regKey 0 Reg.SEC_STATUS) 0x40000000 }
      b.keysOpen = false) := by decide +kernel

theorem witness_tenantRequestsAnswered_macs : macOk ((keyed 1 []).keyAt 16) 2 16 3 0 (tenantMac 2) = true
    ∧ macOk ((keyed 1 []).keyAt 16) 3 16 3 0 (tenantMac 2) = false ∧ macOk ((keyed 1 []).keyAt 16) 3 16 3 0 (tenantMac 3) = true
    ∧ macOk ((keyed 1 []).keyAt 16) 2 16 3 0 [] = false := by decide +kernel

theorem witness_keysEnd : ((keyed 2 []).keyAt 16).state = 2 ∧ (keyed 2 []).pagesUnder 16 0 = 0 ∧ (keyed 2 []).readsUnder 16 0 = 0
    ∧ ((keyed 1 []).keyAt 16).state ≠ 2 ∧ (∃ c ∈ ((keyed 1 [(2, 9)]).keyAt 16).condemned, (keyed 1 [(2, 9)]).readsUnder 16 c.1 = 0)
    ∧ ((keyed 1 []).keyAt 16).condemned = [] ∧ (keyed 1 []).trust.debugTokens = false
    ∧ unwrapUnder ((hosting 1 id).aperture Reg.SEC_MIG_WRAPPED 96) ((hosting 1 id).trust.nonces.filter (hosting 1 id).nonceLive) = none
    ∧ gives (exec (.epochRetired 16) (keyed 2 [])) (fun t => (t.keyAt 16).state == 1 && t.events.map (·.code) == [0x6002]) = true
    ∧ gives (exec (.epochKeyDestroy 16) (keyed 1 [(2, 9)])) (fun t => (t.keyAt 16).condemned == []) = true := by decide +kernel

theorem witness_attestationAnswers : (ticking []).spdmServed (.doe 1) = false ∧ (keyed 1 []).spdmServed (.doe 1) = true ∧ (keyed 1 []).spdmServed .service = true
    ∧ asymChoice 8 ≠ 0 ∧ asymChoice 4 ≠ 0 ∧ asymChoice 3 = 0 ∧ ((keyed 1 []).pufFail = false)
    ∧ (let s := keyed 1 []
      let p := { s with regs := smSet regDefault s.regs (regKey 0 Reg.SEC_STATUS) 0x80000000 }
      p.pufFail = true ∧ p.spdmServed (.doe 1) = true)
    ∧ (((keyed 1 []).trust.chunk.find? fun c => c.1 == SpdmPort.doe 1).map (·.2.1)).getD 0 = (0 : BitVec 16).toNat
    ∧ (keyed 1 []).doeServed = true ∧ (ticking []).doeServed = false
    ∧ (let s := { keyed 1 [] with trust := { (keyed 1 []).trust with answers := [(.doe 1, [1, 2, 3])] } }
      (s.trust.answers.find? fun a => a.1 == SpdmPort.doe 1) = some (.doe 1, [1, 2, 3])) := by decide +kernel

theorem witness_attestationAnswers_chunk : (0 : BitVec 16).toNat * chunkBytes < [1, 2, 3].length := by simp

/-- Four sessions of function 1, its limit. -/
def fullPort : State := { keyed 1 [] with trust := { (keyed 1 []).trust with sessions := (List.range 4).map fun i => ⟨.doe 1, i, true, 5, 0⟩ } }

theorem witness_sessionsLive : (keyed 1 []).spdmServed (.doe 1) = true ∧ ((keyed 1 []).trust.sessions.filter fun x => x.port == .doe 1).length < sessionLimit (.doe 1)
    ∧ sessionLimit (.doe 1) ≤ (fullPort.trust.sessions.filter fun x => x.port == .doe 1).length ∧ fullPort.spdmServed (.doe 1) = true
    ∧ ((keyed 1 []).trust.sessions.find? fun x => x.port == .doe 1 && x.id == 3 && !x.established) = some ⟨.doe 1, 3, false, 5, 0⟩
    ∧ ((keyed 1 []).sessionAt (.doe 1) 2) = some ⟨.doe 1, 2, true, 5, 0⟩ ∧ (keyed 1 []).sessionAt (.doe 1) 9 = none
    ∧ ((keyed 1 []).sessionAt (.doe 0) 1).isSome = true
    ∧ gives (exec (.endSession (.doe 1) 2) (keyed 1 [])) (fun t => t.trust.sessions.length == 2 && t.trust.nonces.isEmpty) = true
    ∧ gives (exec (.ideKm 1 4 true) (keyed 1 [])) (fun t => t.trust.ideStreams == [(4, true)]) = true := by decide +kernel

/-- A proof that is the session's MAC, and one that is not. -/
theorem witness_sessionsLive_finish : (∃ proof : List Byte, Config.mac (5 : BitVec 256).toNat [byteOf 3] = proof)
    ∧ ∃ proof : List Byte, Config.mac (5 : BitVec 256).toNat [byteOf 3] ≠ proof :=
  ⟨⟨_, rfl⟩, ⟨0 :: Config.mac (5 : BitVec 256).toNat [byteOf 3], fun h => by simpa using congrArg List.length h⟩⟩

/-! ### Power -/

/-- Power state P3 with the hall off and no tick. -/
def standby : State :=
  { State.reset with regs := [(regKey 0 Reg.PWR_STATE, 0x60000000)].foldl (fun m p => smSet regDefault m p.1 p.2) State.reset.regs }

/-- Gallery 7 is parked, or fenced. -/
def withoutG7 (parked : Bool) : State :=
  powered [if parked then (regKey 0 Reg.PWR_STATE, 0x00800000) else (regKey 0 Reg.ERR_GAL_FENCE, 0x10000000)]

theorem witness_powerStatesRequested : (powered []).parkStatus (galsOf 0x80) = St.ok ∧ (powered []).parkStatus (galsOf 0x11) ≠ St.ok
    ∧ (let s := { powered [] with pw := { (powered []).pw with unparking := [7] } }
      (7 : BitVec 3).toNat ∈ s.pw.unparking ∧ gives (exec (.unparkComplete 7 [(0, 31)]) s) (fun t => t.pw.parkQ == [.unpark 7 [(0, 31)]]) = true)
    ∧ (powered []).packageOff = false ∧ (powered []).p3Status = St.ok ∧ (powered []).updateOpen = false ∧ (powered []).tk.running = true
    ∧ (let s := { powered [] with svc := { (powered []).svc with updating := true } }
      s.updateOpen = true ∧ s.p3Status ≠ St.ok)
    ∧ (let s := { powered [] with regs := smSet regDefault [] (regKey 0 Reg.PWR_STATE) 0x80000000 }
      s.packageOff = true)
    ∧ standby.fld Reg.PWR_STATE 31 29 = 3 ∧ standby.updateOpen = false ∧ standby.tk.running = false ∧ (∃ g ∈ galsOf 1, (powered []).galFenced g = false ∧ (powered []).galParked g = false)
    ∧ (∀ parked : Bool, ∀ g ∈ galsOf 0x80, (withoutG7 parked).galFenced g = true ∨ (withoutG7 parked).galParked g = true)
    ∧ gives (exec .perstNDeassert standby) (fun t => t.tk.running && t.tk.count == 1 && t.pw.hallOn) = true
    ∧ gives (exec .enterP4 standby) (fun t => t.fld Reg.PWR_STATE 31 29 == 4 && !t.pw.alertLow) = true := by decide +kernel

/-- Feeds in states, one active, the loss timer running or not. -/
def feeds (a b active : Nat) (timer : Bool) : State :=
  let s := powered [(regKey 0 Reg.PWR_FEED_STATUS, wordOf (active * 0x40000000 + a * 0x8000000 + b * 0x1000000))]
  { s with pw := { s.pw with lossTimer := timer } }

theorem witness_feedsSwitch : (∀ a < 5, ∀ b < 5, ∀ x < 3, (feeds a b x false).feedState 0 = a ∧ (feeds a b x false).feedState 1 = b ∧ (feeds a b x false).feedActive = x
      ∧ (feeds a b x false).pw.lossTimer = false)
    ∧ (feeds 3 3 0 false).feedGood 1 = true ∧ (feeds 3 1 0 false).feedGood 1 = false
    ∧ gives (exec (.feedEntersLow 0 370) (feeds 3 3 0 false)) (fun t => t.feedActive == 1 && t.events.map (·.code) == [0x8002]) = true
    ∧ gives (exec (.feedEntersLow 0 370) (feeds 3 2 0 false)) (fun t => t.feedActive == 1 && (t.pw.warnReq || t.pw.warnCap.isSome)) = true
    ∧ gives (exec (.feedEntersLow 0 370) (feeds 3 1 0 false)) (fun t => t.pw.lossTimer && t.events.map (·.code) == [0x8001]) = true
    ∧ gives (exec (.feedEntersAbsent 0 100) (feeds 3 3 0 false)) (fun t => t.feedActive == 1 && t.events.map (·.code) == [0x8002]) = true
    ∧ gives (exec (.feedEntersAbsent 0 100) (feeds 3 2 0 false)) (fun t => t.feedActive == 1 && (t.pw.warnReq || t.pw.warnCap.isSome)) = true
    ∧ gives (exec (.feedEntersAbsent 0 100) (feeds 3 1 0 false)) (fun t => t.pw.lossTimer && t.events.map (·.code) == [0x8001]) = true
    ∧ gives (exec (.feedEntersAbsent 0 100) (feeds 1 1 0 false)) (fun t => t.pw.lossTimer && t.events.isEmpty && t.feedActive == 0) = true
    ∧ gives (exec (.feedEntersWarn 0 425) (feeds 3 1 0 false)) (fun t => t.feedActive == 0 && t.events.map (·.code) == [0x8001]) = true
    ∧ gives (exec (.feedEntersRejected 0 700) (feeds 3 4 0 false)) (fun t => t.feedActive == 2 && t.events.map (·.code) == [0x8004]) = true
    ∧ (∀ x ∈ [(425, 2), (440, 3), (370, 1), (199, 0), (601, 4), (600, 3)], (feeds 3 3 0 false).feedFor 0 x.1 = x.2) ∧ (feeds 2 3 0 false).feedFor 0 440 = 2
    ∧ gives (exec (.feedEntersWarn 0 370) (feeds 3 1 0 false)) (fun t => t == feeds 3 1 0 false) = true
    ∧ gives (exec (.feedEntersOk 1 480) (feeds 1 1 0 true)) (fun t => t.feedActive == 1 && !t.pw.lossTimer) = true
    ∧ gives (exec .feedReturn (feeds 3 3 1 false)) (fun t => t.pw.returnDue) = true
    ∧ (let s := { feeds 3 3 0 false with pw := { (feeds 3 3 0 false).pw with warnCap := some 0 }, tk := { (feeds 3 3 0 false).tk with now := secondUnits } }
      s.pw.warnCap = some 0 ∧ 0 + secondUnits ≤ s.tk.now ∧ s.mayStretch = true ∧ { s with tk := { s.tk with lastStretch := some 1 } }.mayStretch = false) := by
  decide +kernel

/-- Drive 7 in use, empty or failed. -/
def drive7 (st : Nat) : State := powered [(regKey 0 (Reg.RES_DRIVE_STATUS 7), wordOf (st * 0x40000000)), (regKey 0 Reg.PWR_TEMP, 0x00005A00)]

theorem witness_readingsAndDrives : (drive7 0).fld Reg.PWR_TEMP 15 8 = 90
    ∧ gives (exec (.junctionAboveThr 0 90) (drive7 0)) (fun t => t.pw.thermal == some 0 && t.events.map (·.code) == [0x8007]) = true
    ∧ gives (exec (.junctionAboveThr 0 89) (drive7 0)) (fun t => t.pw.thermal == none) = true
    ∧ (∀ st < 4, (drive7 st).fld (Reg.RES_DRIVE_STATUS 7) 31 30 = st) := by decide +kernel

/-! ### The black box, counters, registers -/

/-- The black box runs with a record waiting. -/
def recording (n : Nat) : State :=
  let s := powered [(regKey 0 Reg.BBX_STATUS, 0x40000000), (regKey 2 Reg.CNT_SEL, 0x010B000F), (regKey 1 Reg.CNT_SEL, 0x001E0000)]
  { s with bbx := { s.bbx with queue := (List.range n).map fun i => ⟨BitVec.ofNat 64 (32767 + i), 9, 2, 0xFF, 0, []⟩, reading := true } }

theorem witness_recordsAndCountersWritten : (recording 1).fld Reg.BBX_STATUS 31 30 = 1 ∧ (recording 1).bbx.queue ≠ [] ∧ (recording 64).bbx.queue.length = 64
    ∧ (recording 0).bbx.queue = [] ∧ (recording 0).bbx.reading = true ∧ (powered []).bbx.reading = false ∧ (powered []).fld Reg.BBX_STATUS 31 30 ≠ 1
    ∧ bbxOffset 32767 = 256 * 32767 ∧ bbxOffset 32768 = 0
    ∧ cntBlockExists ((recording 0).cntSel 1).1 = true ∧ cntBlockExists ((recording 0).cntSel 0).1 = false
    ∧ (let s := { recording 0 with regs := smSet regDefault (recording 0).regs (regKey 0 (Reg.CNT_OWN 3)) 0x01000000 }
      s.ownsCounter 1 15 = true ∧ s.ownsCounter 0 15 = false ∧ s.ownsCounter 0 14 = (s.cntOwner 14 == 0 || s.cntOwner 14 == 0x7F)) := by
  decide +kernel

theorem witness_registersReadAndWritten : vfOffset 1 (0x20000 / 4 * 4) = none ∧ (BitVec.ofNat 28 (Reg.MGQ_ARG 5)).toNat = Reg.MGQ_ARG 5
    ∧ (powered []).barServed = false ∧ (hosting 1 id).barServed = true ∧ doorbellAt 1 (0x401008 / 4 * 4) = some (1, 8)
    ∧ doorbellAt 1 (0x7FFFFC / 4 * 4) = some (1023, 0xFFC) ∧ doorbellAt 1 (0x800000 / 4 * 4) = none ∧ doorbellAt 0 (0x4000000 / 4 * 4) = some (0, 0)
    ∧ gives (exec (.tckCountLoRead 0) { hosting 1 id with tk := { (powered []).tk with count := 0x500000007 } }) (fun t =>
        t.out == [.readData 0 Reg.TCK_COUNT_LO 7] && t.latched 0 Reg.TCK_COUNT_HI == some 5) = true
    ∧ gives (exec (.bbxSeqLoRead 1) (hosting 1 id)) (fun t => t.out == [.readData 1 Reg.BBX_SEQ_LO 0]) = true
    ∧ gives (exec (.registerWrite 1 (BitVec.ofNat 28 (Reg.MGQ_ARG 5)) 9) (hosting 1 id)) (fun t => t.regC 2 (Reg.MGQ_ARG 5) == 9) = true := by decide +kernel

/-! ### The service port, updates, start-up -/

/-- The service port with an address, in a state of the package. -/
def served (pwr : Word) : State :=
  let s := powered [(regKey 0 Reg.PWR_STATE, pwr), (regKey 0 Reg.BBX_STATUS, 0x40000000)]
  { s with svc := { s.svc with dynAddr := some 9 } }

theorem witness_servicePortAnswers : (powered []).svc.dynAddr = none ∧ (served 0).svc.dynAddr.isSome = true ∧ (served 0).fld Reg.BBX_STATUS 31 30 = 1
    ∧ (served 0).pw.recovery = false ∧ { served 0 with pw := { (served 0).pw with recovery := true } }.pw.recovery = true
    ∧ (served 0x60000000).fld Reg.PWR_STATE 31 29 = 3 ∧ (served 0x80000000).packageOff = true ∧ (served 0).packageOff = false
    ∧ (served 0x80000000).galleriesOff = true ∧ { served 0 with regs := smSet regDefault (served 0).regs (regKey 0 Reg.RST_STATUS) 0x70000000 }.galleriesOff = false
    ∧ gives (exec (.setEndpointId 0xFE) (served 0)) (fun t => t.svc.eid == 0xFE && t.out == [.mctp 1 [0, 0, 0xFE, 0]]) = true
    ∧ gives (exec (.setEndpointId 0xFF) (served 0)) (fun t => t.svc.eid == 0) = true
    ∧ gives (exec .idcode (served 0)) (fun t => t.out == [.tdo 0x181607B7]) = true := by decide +kernel

/-- An update in a state with the flight image as its component, some bytes of which have come. -/
def updating (st : Nat) (comp : Option Nat) (got : List Byte) : State :=
  let s := served 0
  { s with regs := smSet regDefault s.regs (regKey 0 Reg.DEV_BOOT_STATUS) (wordOf (st * 0x100))
           svc := { s.svc with updating := true, components := [3], component := comp, size := 3, received := got, slot := 0x1100000 } }

theorem witness_updatesProceed : (served 0).svc.updating = false ∧ (updating 0 none []).svc.updating = true ∧ (updating 0 none []).updateState = 0
    ∧ (updating 4 none []).updateState = 4 ∧ (updating 0 none []).componentKnown 3 = true ∧ (3 : BitVec 16).toNat ∈ (updating 0 none []).svc.components
    ∧ ((updating 0 none []).updateSlot 3).2 = 0xA00000 ∧ (updating 1 (some 3) []).updateState = 1 ∧ (updating 2 (some 3) [1, 2, 3]).updateState = 2
    ∧ (updating 2 (some 3) [1, 2, 3]).componentOk 3 [1, 2, 3] = false ∧ (updating 3 (some 3) []).updateState = 3 ∧ (updating 3 (some 3) []).pw.recovery = false
    ∧ gives (exec (.updateComponent 3 0xA00000) (updating 0 none [])) (fun t => t.updateState == 1 && t.svc.size == 0xA00000) = true
    ∧ gives (exec (.updateComponent 3 0xA00001) (updating 0 none [])) (fun t => t.updateState == 0) = true
    ∧ gives (exec (.requestFirmwareData 1 [8, 9]) (updating 1 (some 3) [7])) (fun t => t.updateState == 2 && memRead t.mem.boot 0x1100001 2 == [8, 9]) = true
    ∧ gives (exec (.requestFirmwareData 1 [8]) (updating 1 (some 3) [7])) (fun t => t.updateState == 1 && t.svc.received == [7, 8]) = true
    ∧ gives (exec .verifyComplete (updating 2 (some 3) [1, 2, 3])) (fun t => t.updateState == 5 && t.svc.component == none) = true
    ∧ gives (exec .applyComplete (updating 3 (some 3) [])) (fun t => t.updateState == 4) = true := by decide +kernel

/-- A feed is OK after reset. -/
def fed : State := { State.reset with regs := smSet regDefault [] (regKey 0 Reg.PWR_FEED_STATUS) 0x18000000
                                      pw := { State.reset.pw with stopping := true } }

theorem witness_startUpRuns : State.reset.mayStart = false ∧ fed.mayStart = true
    ∧ (let s := { powered [(regKey 0 Reg.RST_STATUS, 0x60000000)] with pw := { (powered []).pw with hallOn := true } }
      s.pw.hallOn = true ∧ s.pw.recovery = false ∧ gives (exec (.hostLinkTrains 6 16 true) s) (fun t => t.hs.linkUp && t.fld Reg.RST_STATUS 31 28 == 7) = true)
    ∧ (powered []).pw.hallOn = false := by decide +kernel

/-! ### Admission of an image -/

/-- The header and directory (Tables 2-2 and 2-3) of a version 3 image of one program without clauses, PERIOD_Q 19, one
less than Table 2-2 allows, and its tick program. -/
def imageHead : List Word :=
  [0x544C464B, 0x00030001, 0x00000340, 0x00010013, 0x000000FF, 7, 0, 0x00080001, 0, 0, 0, 0, 0, 0, 0, 0, 0x01000000, 0x000000C0, 0x00000040,
    0, 0x02000000, 0x00000100, 0, 0, 0x03000000, 0x00000100, 0, 0, 0x04000000, 0x00000100, 0, 0, 0x05000000, 0x00000100, 0, 0, 0x06000000,
    0x00000100, 0, 0, 0x08000000, 0x00000100, 0x000000C0, 0, 0x09000000, 0x000001C0, 0x00000180, 0, 0, 0, 0, 0, 0, 0, 0, 0, 0, 0, 0, 0, 0,
    0, 0, 0]

/-- The digests of the tick program, 64 bytes of 0, and of five empty sections, worked out outside the model. -/
def imageDigests : List Word :=
  zeroDigest ++ (List.replicate 5 [0x42C4B0E3, 0x141CFC98, 0xC8F4FB9A, 0x24B96F99, 0xE441AE27, 0x4C939B64, 0x1B9995A4, 0x55B85278]).flatten

/-- The signature of the signed message (R42) under a key made for this test, worked out outside the model, and the key's modulus, highest byte first. -/
def imageSignature : List Word :=
  [0x2092DE08, 0xE273AEC5, 0xCD109CC9, 0x8CDAEAA3, 0x9F16DDE6, 0x3AF506C8, 0x115F6D46, 0x760DBAC1, 0x620377F5, 0x214424B0, 0xB5B4B52C,
    0xE893AF39, 0x9AE2CF2C, 0xD5C547F8, 0x5B3572EF, 0x846BE148, 0x0F684EF3, 0x9627204B, 0x9D218AF9, 0x15BE26A7, 0x6CED2139, 0x0466D7D2,
    0xE0F493FB, 0xA38F0E9B, 0x91DD1E31, 0x2E6E990D, 0x1727D1BB, 0xFBE3C8C1, 0x61DBFC3E, 0x55100EA5, 0x70CE01E9, 0x6BE2B45C, 0x20DAEEF6,
    0x929A0D61, 0xA642A870, 0x2DE1650F, 0xF703A22C, 0x560ABD64, 0x4E9A9B95, 0xFAB725CD, 0x59D22ECC, 0x2D82296C, 0x7422FBF2, 0x19130B34,
    0x57A08315, 0x4EF6031C, 0x3FB670EE, 0x5C5EA317, 0x50668586, 0x6EB8830B, 0x4039C779, 0xB76457ED, 0x05ADC5EE, 0x66788922, 0x339ECE15,
    0xCE4EF22B, 0x06055E28, 0xCF8336A8, 0x588963C6, 0xF40174A1, 0x515949F6, 0x4C43F719, 0x5D7D2EFF, 0x923C4D33, 0x6D53155A, 0xDC304F40,
    0x39FFBF5B, 0x8816227A, 0x2AE4E292, 0x96D497D7, 0x9B319B72, 0xF6F2C1A9, 0x33CEDFB4, 0x7CC20735, 0xF73A5ED0, 0x342F3C31, 0x66180AB4,
    0x04EC018A, 0x075A5716, 0xC12E4505, 0x47B31C9E, 0x2F2E3F28, 0xD5311B96, 0x1DF5CACE, 0xA2FA95AB, 0x9D96F9D1, 0x6E1C7F13, 0x6C945202,
    0x979B27C9, 0x7AB2A11B, 0xD8D1CA4E, 0x6042C3F4, 0x33304E22, 0x2A60C9CA, 0xEAF51456, 0x1877D5AC]

def imageKey : List Word :=
  [0x8D19EAA0, 0x8B90DBEF, 0x47BFDC95, 0x96EB6CC7, 0x0998F0AB, 0xA7BD93AD, 0x9147976D, 0x963244F1, 0x9F9E15FB, 0x7D0AD690, 0x6AB5C91F,
    0x05F1A495, 0x209F1F86, 0xED149E2A, 0xD6F4B526, 0x3C0F2645, 0x1EA334BE, 0xD69E8157, 0x0880906B, 0x17BAE4D0, 0x05691717, 0xEED28790,
    0xD55B3765, 0xBAF0B368, 0x14B8F4EA, 0x6B2B3397, 0xC152BC28, 0x22FBF660, 0x1B787EBF, 0xD04CE3E7, 0x369829F2, 0xC3A82360, 0x144DC7F6,
    0x5BC1ED02, 0xEE45A3C6, 0x0DA530A6, 0x608BDA41, 0x1303EA1A, 0x80BCE5CD, 0xF1915D51, 0x6602F22C, 0x52BFF6B7, 0x46BEAA23, 0xBBEE5116,
    0x22616A9B, 0x48871174, 0x96AA97D4, 0x4DBADC13, 0x8352A147, 0xFD2ED00B, 0x28A66729, 0x7B654A28, 0x3DAA75C8, 0xCB71D774, 0x7EBC9D0D,
    0x73D7DDD9, 0x5894AC4B, 0x18A2EC10, 0xBF9B68C1, 0x5ADD04AC, 0x2981BDE9, 0xC3D52AD2, 0xD85C5FA4, 0x22049B9D, 0x651AA2F3, 0x0822E82E,
    0x60BCF029, 0x3C9B479D, 0x73056D08, 0xAA07A9D3, 0x99299A5A, 0x7D5B66D8, 0xE13D439E, 0xD0BB3972, 0x7F072665, 0xBA5A0D40, 0xF3A7DE94,
    0x3CDA0C5E, 0xE8868A8C, 0xC5A21EA3, 0xB453A568, 0x958D5633, 0xFD90DC09, 0xDA90E7F7, 0x1170A873, 0xCEBC340E, 0x10D02E21, 0x0DE5FEB7,
    0x56B5E397, 0x4739DCC5, 0x508DAB21, 0xEC162A0F, 0xB8F8C89E, 0x7B74A77F, 0x447FF117, 0xB5A975BB]

/-- The image, its digests and its signature those or others. -/
def imageBytes (dig sig : List Word) : List Byte := (imageHead ++ dig ++ sig).flatMap Word.bytes

/-- The key as bytes. -/
def imageKeys : List (List Byte) := [imageKey.flatMap Word.bytes]

/-- Bounds, digests and signature are right, so that admission comes to check 0x07, which PERIOD_Q fails. -/
theorem test_admission_reaches_fields : admitImage 0 832 imageKeys (imageBytes imageDigests imageSignature) = some ⟨7, 0, 0, 0, 0, 0, 19, 80⟩ := by decide +kernel

/-- A wrong signature fails check 0x06, a wrong digest check 0x05, a wrong length check 0x01. -/
theorem test_admission_refuses : ((admitImage 0 832 imageKeys (imageBytes imageDigests (imageSignature.set 95 0))).map (·.check)) = some 6
    ∧ ((admitImage 0 832 imageKeys (imageBytes (imageDigests.set 0 0) imageSignature)).map fun f => (f.check, f.entry)) = some (5, 0)
    ∧ ((admitImage 0 831 imageKeys (imageBytes imageDigests imageSignature)).map (·.check)) = some 1 := by decide +kernel

theorem witness_updatesProceed_verified : (let s := updating 2 (some 3) (imageBytes imageDigests imageSignature)
      { s with trust := { s.trust with flightKeys := imageKeys } }.componentOk 3 (imageBytes imageDigests imageSignature)) = true := by decide +kernel

/-! ### Further clauses -/

/-- A page of stem slot 0's projection is poisoned; its shard has come again, or not. -/
def poisonedStem (verified : Bool) : State :=
  let s := stemLoads 0 2 verified 3
  { s with faults := { s.faults with poison := [⟨15, 0, .stemShard 0 0⟩] } }

theorem witness_poisonRepaired_stem : (poisonedStem false).stemWhole 0 0 = false ∧ (poisonedStem true).stemWhole 0 0 = true
    ∧ gives (exec (.poisonRepair 15 0 true) (poisonedStem false)) (fun t => t.pagePoisoned 15 0) = true
    ∧ gives (exec (.poisonRepair 15 0 true) (poisonedStem true)) (fun t => !t.pagePoisoned 15 0) = true := by decide +kernel

theorem witness_shardsArriveVerified_failed : (ticking []).stemFetching 0 0 0 = none ∧ (stemLoads 0 2 false 1).brought (.stem 0 0) 0 = zeros
    ∧ gives (exec (.shardArrival (.stem 0 0) 0 [1]) (stemLoads 0 2 false 1)) (fun t => t.events.map (·.code) == [0x3003] && t.mem.hbm == []) = true
    ∧ gives (exec (.shardArrival (.stem 0 0) 0 ((stemLoads 7 2 false 1).brought (.stem 0 0) 0)) (stemLoads 7 2 false 1)) (fun t =>
        t.events.map (fun e => e.payload.drop 3) == [[4]]) = true := by decide +kernel

theorem witness_failedAttemptsRetry_lost : (farSource 2 0 0).brought (.lex 1) 0 ≠ [1]
    ∧ gives (exec (.shardArrival (.lex 1) 0 [1]) (farSource 2 0 0)) (fun t => (t.lexAt 1).shards.map (·.attempts) == [1]) = true := by decide +kernel

theorem witness_objectsComeAndGo_later : gives (exec (.evictionComplete 1) (evicted 9)) (fun t => t == evicted 9) = true := by decide +kernel

theorem witness_flightsLoadAndAdmit_pair : 4 < (7 : BitVec 3).toNat ∧ (powered []).switchOf 7 = none ∧ (powered []).admitState ≠ 1 ∧ (powered []).admitState ≠ 2 := by
  decide +kernel

/-- A power loss as the black box writes its one record. -/
theorem witness_resetsKeep_torn : (recording 1).fld Reg.BBX_STATUS 31 30 = 1 ∧ (recording 1).bbx.queue = [⟨32767, 9, 2, 0xFF, 0, []⟩]
    ∧ (∀ r ∈ (recording 1).bbx.queue, (bbxBytes r).length = 256) ∧ (recording 0).bbx.queue = [] := by decide +kernel

theorem witness_instancesChangeState_waits : (let s := instance1 4 false none
      let t := { s with insts := [(1, { Inst.fresh with imgLeft := 0x10000000000 })] }
      s.covered 1 (.image 1) (s.instAt 1).imgLeft = true ∧ t.instState 1 = 4 ∧ t.covered 1 (.image 1) (t.instAt 1).imgLeft = false
        ∧ gives (exec (.saveComplete 1) t) (fun u => u == t) = true) := by decide +kernel

/-- An owner's block in force, a sealed copy of its key table. -/
def owned (owner : List Word) : State :=
  let s := { standby with boot := { standby.boot with cfg := [1] } }
  { s with trust := { s.trust with owner := [1], copy0 := some ⟨1, owner, [], [(16, { KeySlot.empty with state := 1, cur := 3 })]⟩ } }

theorem witness_powerStatesRequested_wakes : (owned [1]).sealOpen = true ∧ (owned [1]).sealedNow.isSome = true ∧ (owned [1]).boot.cfg.isEmpty = false
    ∧ standby.boot.cfg.isEmpty = true ∧ standby.faults.poison = []
    ∧ gives (exec .perstNDeassert (owned [1])) (fun t => (t.keyAt 16).state == 1 && (t.keyAt 16).cur == 3) = true
    ∧ gives (exec .perstNDeassert standby) (fun t => t.trust.keys == []) = true
    ∧ (let s := { standby with ls := (poisonedStem true).ls, faults := (poisonedStem true).faults }
      (s.stemAt 0).state ≠ 0 ∧ gives (exec .perstNDeassert s) (fun t => (t.stemAt 0).state == 6) = true) := by decide +kernel

theorem witness_keysEnd_sealed : (let s := keyed 2 []
      let t := { s with trust := { s.trust with owner := [1] } }
      t.sealOpen = true ∧ KeyOp.forceRetire 16 ∉ t.trust.keyOps
        ∧ gives (exec (.epochRetired 16) t) (fun u => u.sealedNow.map (·.keys) == some u.trust.keys) = true) := by decide +kernel

theorem witness_startUpRuns_rates : gives (exec (.hostLinkTrains 7 16 true) { powered [] with pw := { (powered []).pw with hallOn := true } }) (fun t => !t.hs.linkUp) = true := by
  decide +kernel

/-! ### What is left -/

theorem witness_admittedFlightsStay : flightsAdmitted (powered []) ∧ step (powered []) = .next (powered []) := by
  refine ⟨fun x hx => ?_, rfl⟩
  have h : x = FlightSlots.empty := by
    rcases hx with h | h
    · exact h
    · simpa [powered, ticking, State.reset] using h
  subst h
  exact ⟨fun _ h => by simp [FlightSlots.empty] at h, fun _ h => by simp [FlightSlots.empty] at h⟩

/-- A SEND one flit of which its receiver drops, and one to a fenced gallery. -/
theorem witness_sendDelivers_drops : (let s := runsOf 4 1 0xFFFF (sendWords false 0) [] (slotOn 0 5)
      match opOf s with
      | .fab d =>
        let e := { d with drops := [(0, 1)] }
        s.sendReady (clause 0 1) e && sendOk (clause 0 1) e && sendInside e && e.path != 1 && !e.dmodeCtx && !s.galFenced 5
          && decide (0 < ceilDiv e.bytes.toNat (flitBytes e.path.toNat))
          && gives (exec (.send (clause 0 1) e) s) (fun t => t.tk.replay && t.events.map (·.code) == [0x7080])
          && { s with regs := smSet regDefault s.regs (regKey 0 Reg.ERR_GAL_FENCE) 0x00100000 }.galFenced 5
          && { s with regs := smSet regDefault s.regs (regKey 0 Reg.ERR_GAL_FENCE) 0x00100000 }.sendReady (clause 0 1) d
      | _ => false) = true := by decide +kernel

end Sys2Proof.Tests
end

section
/-! SUPPORT. Exact sums (R183, R184, R188): any sum into the accumulator is one closed form of its inputs, their
total, from which order and grouping have gone. -/

namespace Sys2Proof.Machine

/-- What an input adds to the accumulator's value, in units of 2^-149: the specials add only their flags. -/
@[simp] def fvUnits : Fv → Int
  | .fin neg m e => xUnits neg m e
  | _ => 0

/-- Whether an input is −0 (NEGZ of Table 6-1). -/
@[simp] def fvNegZero : Fv → Bool
  | .fin neg m _ => neg && m == 0
  | _ => false

/-- The exact sum of the inputs, in units of 2^-149. -/
def unitSum (vs : List Fv) : Int := (vs.map fvUnits).sum

/-- The accumulator that holds all of `vs`: each field from the inputs as a whole. -/
def xTotal (vs : List Fv) : XAcc where
  value := unitSum vs
  anyIn := !vs.isEmpty
  ovr := false
  negz := !vs.isEmpty && vs.all fvNegZero
  ninf := decide (.inf true ∈ vs)
  pinf := decide (.inf false ∈ vs)
  nanIn := decide (.nan ∈ vs)
  inputs := min vs.length (2 ^ 32 - 1)

/-- The sum stays within the 320 bits: no carry reaches the sign bit (R183). -/
def sumFits (vs : List Fv) : Prop := |unitSum vs| < 2 ^ 319

/-! ### The rules of the total -/

@[simp] theorem unitSum_append (us vs : List Fv) : unitSum (us ++ vs) = unitSum us + unitSum vs := by
  simp [unitSum]

theorem xTotal_nil : xTotal [] = xEmpty := rfl

theorem xTotal_perm {us vs : List Fv} (h : us.Perm vs) : xTotal us = xTotal vs := by
  have hsum : unitSum us = unitSum vs := (h.map fvUnits).sum_eq
  have hnil : us.isEmpty = vs.isEmpty := h.isEmpty_eq
  have hall : us.all fvNegZero = vs.all fvNegZero := h.all_eq
  simp only [xTotal, hsum, hnil, hall, h.mem_iff, h.length_eq]

/-! ### Joining and adding within the range -/

theorem xWrap_of_abs_lt {v : Int} (h : |v| < 2 ^ 319) : xWrap v = (v, false) :=
  if_pos ⟨(abs_lt.mp h).1.le, (abs_lt.mp h).2⟩

theorem xTotal_negz_or_not_anyIn (vs : List Fv) : ((xTotal vs).negz || !(xTotal vs).anyIn) = vs.all fvNegZero := by
  cases vs with
  | nil => rfl
  | cons v vs => simp [xTotal]

theorem satAdd_min (bits m n : Nat) :
    satAdd bits (min m (2 ^ bits - 1)) (min n (2 ^ bits - 1)) = min (m + n) (2 ^ bits - 1) := by
  unfold satAdd
  omega

theorem xJoin_xTotal {us vs : List Fv} (h : sumFits (us ++ vs)) : xJoin (xTotal us) (xTotal vs) = xTotal (us ++ vs) := by
  have hwrap : xWrap ((xTotal us).value + (xTotal vs).value) = (unitSum (us ++ vs), false) := by
    simpa [xTotal] using xWrap_of_abs_lt h
  have hinputs : satAdd 32 (xTotal us).inputs (xTotal vs).inputs = (xTotal (us ++ vs)).inputs := by
    simpa only [xTotal, List.length_append] using satAdd_min 32 us.length vs.length
  have hempty : (us ++ vs).isEmpty = (us.isEmpty && vs.isEmpty) := by cases us <;> rfl
  simp only [xJoin, hwrap, hinputs, xTotal_negz_or_not_anyIn]
  simp [xTotal, hempty, Bool.and_comm, Bool.decide_or]

/-- An input is joined as the total of itself alone, where the value before it is in range. -/
theorem xAdd_eq_xJoin {a : XAcc} (h : xWrap a.value = (a.value, false)) (v : Fv) : xAdd a v = xJoin a (xTotal [v]) := by
  cases v with
  | nan => simp [xAdd, xJoin, xTotal, unitSum, h]
  | inf neg => cases neg <;> simp [xAdd, xJoin, xTotal, unitSum, h]
  | fin neg m e => simp [xAdd, xJoin, xTotal, unitSum, xNegz, Bool.and_comm]

theorem xAdd_xTotal {vs : List Fv} {v : Fv} (hvs : sumFits vs) (h : sumFits (vs ++ [v])) :
    xAdd (xTotal vs) v = xTotal (vs ++ [v]) :=
  (xAdd_eq_xJoin (a := xTotal vs) (xWrap_of_abs_lt hvs) v).trans (xJoin_xTotal h)

/-- Additions one after another leave the total, where no sum of the first inputs leaves the range. -/
theorem foldl_xAdd_xEmpty (vs : List Fv) (h : ∀ us, us <+: vs → sumFits us) : vs.foldl xAdd xEmpty = xTotal vs := by
  induction vs using List.reverseRecOn with
  | nil => exact xTotal_nil.symm
  | append_singleton vs v ih =>
    have hvs : vs <+: vs ++ [v] := List.prefix_append vs [v]
    rw [List.foldl_append, ih fun us hus => h us (hus.trans hvs)]
    exact xAdd_xTotal (h vs hvs) (h _ List.prefix_rfl)

/-! ### FP32 words stay in range (R183) -/

theorem fpDecode_fp32 (bits : Nat) : fpDecode fp32 bits =
    if 0x7F7FFFFF < bits % 2 ^ 31 then
      if bits % 2 ^ 31 = 0x7F800000 then .inf (decide (bits / 2 ^ 31 % 2 = 1)) else .nan
    else if bits % 2 ^ 31 / 2 ^ 23 = 0 then .fin (decide (bits / 2 ^ 31 % 2 = 1)) (bits % 2 ^ 31 % 2 ^ 23) (-149)
    else .fin (decide (bits / 2 ^ 31 % 2 = 1)) (bits % 2 ^ 31 % 2 ^ 23 + 2 ^ 23) (-149 + (bits % 2 ^ 31 / 2 ^ 23 : Nat) - 1) :=
  rfl

theorem fpDecode_fp32_fin {bits m : Nat} {neg : Bool} {e : Int} (h : fpDecode fp32 bits = .fin neg m e) :
    m < 2 ^ 24 ∧ -149 ≤ e ∧ e ≤ 104 := by
  rw [fpDecode_fp32] at h
  split at h
  case isTrue => split at h <;> cases h
  case isFalse hfinite => split at h <;> (cases h; omega)

theorem abs_sInt (neg : Bool) (m : Nat) : |sInt neg m| = m := by
  cases neg <;> simp [sInt]

/-- A finite FP32 value in units is below 2^24 times 2^253. -/
theorem abs_fvUnits_fp32_lt (bits : Nat) : |fvUnits (fpDecode fp32 bits)| < 2 ^ 277 := by
  cases hv : fpDecode fp32 bits with
  | nan => exact (abs_zero (α := Int)).trans_lt (pow_pos two_pos 277)
  | inf neg => exact (abs_zero (α := Int)).trans_lt (pow_pos two_pos 277)
  | fin neg m e =>
    obtain ⟨hm, hlo, hhi⟩ := fpDecode_fp32_fin hv
    have hexp : (e + 149).toNat ≤ 253 := by omega
    calc |fvUnits (.fin neg m e)| = (m : Int) * 2 ^ (e + 149).toNat := by
          rw [fvUnits, xUnits, if_pos (by omega), abs_mul, abs_sInt, abs_pow, abs_two]
      _ ≤ m * 2 ^ 253 := by gcongr; norm_num
      _ < 2 ^ 24 * 2 ^ 253 := by gcongr; exact_mod_cast hm
      _ = 2 ^ 277 := (pow_add 2 24 253).symm

theorem abs_unitSum_le {vs : List Fv} {b : Int} (h : ∀ v ∈ vs, |fvUnits v| ≤ b) : |unitSum vs| ≤ vs.length * b := by
  induction vs with
  | nil => simp [unitSum]
  | cons v vs ih =>
    obtain ⟨hv, hvs⟩ := List.forall_mem_cons.mp h
    calc |unitSum (v :: vs)| = |fvUnits v + unitSum vs| := by simp [unitSum]
      _ ≤ |fvUnits v| + |unitSum vs| := abs_add_le _ _
      _ ≤ b + vs.length * b := add_le_add hv (ih hvs)
      _ = (v :: vs).length * b := by push_cast [List.length_cons]; ring

/-- The decoded values of FP32 words. -/
def f32s (ws : List Word) : List Fv := ws.map f32

theorem f32s_append (ws vs : List Word) : f32s (ws ++ vs) = f32s ws ++ f32s vs := List.map_append

/-- R183: 2^42 FP32 words stay in range. -/
theorem sumFits_f32s {ws : List Word} (h : ws.length ≤ 2 ^ 42) : sumFits (f32s ws) := by
  have hb : ∀ v ∈ f32s ws, |fvUnits v| ≤ 2 ^ 277 - 1 := by
    intro v hv
    obtain ⟨w, -, rfl⟩ := List.mem_map.mp hv
    exact Int.le_sub_one_of_lt (abs_fvUnits_fp32_lt w.toNat)
  have hlen : ((f32s ws).length : Int) ≤ 2 ^ 42 := by
    rw [f32s, List.length_map]
    exact_mod_cast h
  calc |unitSum (f32s ws)| ≤ (f32s ws).length * (2 ^ 277 - 1) := abs_unitSum_le hb
    _ ≤ 2 ^ 42 * (2 ^ 277 - 1) := mul_le_mul_of_nonneg_right hlen (Int.sub_nonneg_of_le (one_le_pow₀ one_le_two))
    _ < 2 ^ 42 * 2 ^ 277 := mul_lt_mul_of_pos_left (Int.sub_one_lt_of_le le_rfl) (pow_pos two_pos 42)
    _ = 2 ^ 319 := (pow_add 2 42 277).symm

/-- R183 and R184: FP32 words added one after another to the empty accumulator leave their total. -/
theorem foldl_xAdd_f32 {ws : List Word} (h : ws.length ≤ 2 ^ 42) :
    ws.foldl (fun a w => xAdd a (fpDecode fp32 w.toNat)) xEmpty = xTotal (f32s ws) := by
  have hfits : ∀ us, us <+: f32s ws → sumFits us := by
    intro us hus
    obtain ⟨vs, hvs, rfl⟩ := List.prefix_map_iff.mp hus
    exact sumFits_f32s (hvs.length_le.trans h)
  rw [← foldl_xAdd_xEmpty (f32s ws) hfits, f32s, List.foldl_map]
  rfl

theorem unitSum_map_fin (terms : List (Bool × Nat × Int)) :
    unitSum (terms.map fun t => .fin t.1 t.2.1 t.2.2) = (terms.map fun t => xUnits t.1 t.2.1 t.2.2).sum := by
  rw [unitSum, List.map_map]
  rfl

/-- A pair of FMT 8 adds its two words, the one at the lower address first. -/
theorem xAddElem_pair (a : XAcc) (hi lo : Word) : xAddElem 8 a (hi.toNat + 0x100000000 * lo.toNat)
    = xAdd (xAdd a (fpDecode fp32 hi.toNat)) (fpDecode fp32 lo.toNat) := by
  have hhi : hi.toNat < 0x100000000 := hi.isLt
  have hmod : (hi.toNat + 0x100000000 * lo.toNat) % 0x100000000 = hi.toNat := by omega
  have hdiv : (hi.toNat + 0x100000000 * lo.toNat) / 0x100000000 = lo.toNat := by omega
  rw [xAddElem, hmod, hdiv]

/-- Settles O5: a sum of FP32 words is the total of their values, and the total knows neither order nor grouping. -/
theorem exactSumsCommute : Obligations.ExactSumsCommute := by
  dsimp only [Obligations.ExactSumsCommute]
  refine ⟨fun ws vs hperm hlen => ?_, fun ws terms hlen hterms => ?_, fun ws vs hlen => ?_, xAddElem_pair⟩
  · rw [foldl_xAdd_f32 hlen, foldl_xAdd_f32 (hperm.length_eq ▸ hlen)]
    exact xTotal_perm (hperm.map f32)
  · rw [foldl_xAdd_f32 hlen]
    exact (congrArg unitSum hterms).trans (unitSum_map_fin terms)
  · have happend : (ws ++ vs).length ≤ 2 ^ 42 := by rwa [List.length_append]
    have hfits : sumFits (f32s ws ++ f32s vs) := f32s_append ws vs ▸ sumFits_f32s happend
    rw [foldl_xAdd_f32 (by omega), foldl_xAdd_f32 (by omega), foldl_xAdd_f32 happend, f32s_append]
    exact xJoin_xTotal hfits

end Sys2Proof.Machine
end

section
/-! SUPPORT. The errors of an HBM stack (R414, R418, R420, R421): what a corrected and an uncorrectable one change. -/

namespace Sys2Proof.Machine

variable {s : State}

/-! ### What recording a fault changes -/

/-- A saturating count reads back advanced. -/
theorem State.fld_count (s : State) (off hi lo n : Nat) (h : lo ≤ hi) (h32 : hi < 32) :
    (s.count off hi lo n).fld off hi lo = satAdd (hi + 1 - lo) (s.fld off hi lo) n := by
  have hlt : satAdd (hi + 1 - lo) (s.fld off hi lo) n < 2 ^ (hi + 1 - lo) :=
    (min_le_right _ _).trans_lt (Nat.sub_one_lt (Nat.two_pow_pos _).ne')
  rw [State.count, State.fld_setFld _ _ _ _ _ h h32, Nat.mod_eq_of_lt hlt]

theorem State.markReplay_framed (s : State) (cycle : Nat) : framed [.replay, .replayNext] [] s (s.markReplay cycle) := by
  unfold State.markReplay
  refine .ite (fun _ => .refl) fun _ => .ite (fun _ => ?_) fun _ => ?_
  · exact (framed_replayNext s true).mono (by simp) (by simp)
  · exact (framed_replay s true).mono (by simp) (by simp)

/-- R414: a late cycle marks the next tick, any other the tick itself. -/
theorem State.markReplay_marks (cycle : Nat) (h : s.tk.running = true) :
    if s.lateCycle cycle then (s.markReplay cycle).tk.replayNext = true else (s.markReplay cycle).tk.replay = true := by
  unfold State.markReplay
  cases hl : s.lateCycle cycle <;> simp [h]

theorem State.faultShow_framed (s : State) (domain g unit place cycle : Nat) :
    framed [.regs, .bbx] ([Reg.ERR_LAST, Reg.ERR_LAST_TICK_LO, Reg.ERR_LAST_TICK_HI] ++ eventRegs) s
      (s.faultShow domain g unit place cycle) := by
  unfold State.faultShow
  exact (((s.setReg_framed Reg.ERR_LAST _).mono (by simp) (by simp)).trans
    ((State.setReg64_framed _ Reg.ERR_LAST_TICK_LO Reg.ERR_LAST_TICK_HI _).mono (by simp) (by simp))).trans
    ((State.bbxPut_framed _ 2 none 0 _).mono (by simp) fun _ hk => List.mem_append_right _ hk)

theorem State.queueFence_framed (s : State) (domain g unit cycle : Nat) :
    framed [.faults] [] s (s.queueFence domain g unit cycle) := by
  unfold State.queueFence
  exact .ite (fun _ => .refl) fun _ => framed_faults s _

/-- Queueing a fence touches the queue of fences alone. -/
@[simp] theorem State.queueFence_bursts (s : State) (domain g unit cycle : Nat) :
    (s.queueFence domain g unit cycle).faults.bursts = s.faults.bursts := by
  unfold State.queueFence
  split <;> rfl

@[simp] theorem State.queueFence_toPoison (s : State) (domain g unit cycle : Nat) :
    (s.queueFence domain g unit cycle).faults.toPoison = s.faults.toPoison := by
  unfold State.queueFence
  split <;> rfl

theorem State.recordFault_framed (s : State) (domain g unit cycle : Nat) :
    framed [.faults] [] s (s.recordFault domain g unit cycle) := by
  unfold State.recordFault
  refine .ite (fun _ => .refl) fun _ => .ite (fun _ => ?_) fun _ => framed_faults s _
  exact (framed_faults s _).trans (State.queueFence_framed _ _ _ _ _)

/-- A block's fault touches the log and the queue of fences alone. -/
@[simp] theorem State.recordFault_bursts (s : State) (domain g unit cycle : Nat) :
    (s.recordFault domain g unit cycle).faults.bursts = s.faults.bursts := by
  unfold State.recordFault
  dsimp only
  split
  · rfl
  · split
    · exact State.queueFence_bursts _ _ _ _ _
    · rfl

@[simp] theorem State.recordFault_toPoison (s : State) (domain g unit cycle : Nat) :
    (s.recordFault domain g unit cycle).faults.toPoison = s.faults.toPoison := by
  unfold State.recordFault
  dsimp only
  split
  · rfl
  · split
    · exact State.queueFence_toPoison _ _ _ _ _
    · rfl

/-! ### An uncorrectable error of a live page -/

/-- The stack's distinct bursts of ticks t − 999 to t, this one the last (R418). -/
def State.hbmBursts (s : State) (st burst : Nat) : List (Nat × Nat × BitVec 64) :=
  (s.faults.bursts.filter fun b => decide (s.tk.count.toNat < b.2.2.toNat + 1000)).filter
    (fun b => !(b.1 == st && b.2.1 == burst)) ++ [(st, burst, s.tk.count)]

/-- The pages that wait to be poisoned, this one among them once (R421). -/
def State.hbmToPoison (s : State) (st page : Nat) (kind : PageKind) (cycle : Nat) : List (Poison × Bool) :=
  if s.faults.toPoison.any fun p => p.1.stack == st && p.1.page == page then s.faults.toPoison
  else s.faults.toPoison ++ [(⟨st, page, kind⟩, s.lateCycle cycle)]

/-- The replay marked, the fault shown and the stack's ERR_HBM_UE advanced. -/
def State.hbmCounted (s : State) (st cycle : Nat) : State :=
  ((s.markReplay cycle).faultShow 8 (st / 2) (st % 2) 0 cycle).count (Reg.ERR_HBM_UE st) 31 0 1

/-- The burst remembered and the page queued for its poison. -/
def State.hbmQueued (s : State) (st burst page : Nat) (kind : PageKind) (cycle : Nat) : State :=
  { s.hbmCounted st cycle with
    faults := { (s.hbmCounted st cycle).faults with
      bursts := s.hbmBursts st burst, toPoison := s.hbmToPoison st page kind cycle } }

/-- All that an uncorrectable error does: the stack records its fault, and its distinct bursts fence it too (R418). -/
def State.hbmFault (s : State) (st burst page : Nat) (kind : PageKind) (cycle : Nat) : State :=
  let u := (s.hbmQueued st burst page kind cycle).recordFault 8 (st / 2) (st % 2) cycle
  if 16 ≤ (s.hbmBursts st burst).countP (fun b => b.1 == st) then u.queueFence 8 (st / 2) (st % 2) cycle else u

section
variable (stack : BitVec 4) (addr : BitVec 36) (kind : PageKind) (cycle : BitVec 16)

theorem exec_hbmUncorrectable_dead
    (h : s.galFenced (stack.toNat / 2) = true ∨ s.pagePoisoned stack.toNat (addr.toNat / 4096) = true) :
    exec (.hbmUncorrectable stack addr kind cycle) s = .next s := by
  rw [exec, execHbmUncorrectable, if_pos h, keep, State.kept_self]

theorem exec_hbmUncorrectable_live (hg : s.galFenced (stack.toNat / 2) = false)
    (hp : s.pagePoisoned stack.toNat (addr.toNat / 4096) = false) :
    exec (.hbmUncorrectable stack addr kind cycle) s
      = keep s (s.hbmFault stack.toNat (addr.toNat / 64) (addr.toNat / 4096) kind cycle.toNat) := by
  have h : ¬(s.galFenced (stack.toNat / 2) = true ∨ s.pagePoisoned stack.toNat (addr.toNat / 4096) = true) := by
    simp [hg, hp]
  rw [exec, execHbmUncorrectable, if_neg h]
  rfl

end

variable (st burst page cycle : Nat) (kind : PageKind)

theorem State.mem_hbmBursts (s : State) : (st, burst, s.tk.count) ∈ s.hbmBursts st burst := by
  simp [State.hbmBursts]

/-- The page waits for its poison, whether it did before or not. -/
theorem State.exists_mem_hbmToPoison (s : State) :
    ∃ p ∈ s.hbmToPoison st page kind cycle, p.1.stack = st ∧ p.1.page = page := by
  unfold State.hbmToPoison
  split
  next hq => simpa using hq
  next => exact ⟨_, List.mem_append_right _ (List.mem_singleton_self _), rfl, rfl⟩

/-- After what the fault shows and counts, only the faults' own lists change. -/
theorem State.hbmFault_framed_counted (s : State) :
    framed [.faults] [] (s.hbmCounted st cycle) (s.hbmFault st burst page kind cycle) := by
  have hq : framed [.faults] [] (s.hbmCounted st cycle)
      ((s.hbmQueued st burst page kind cycle).recordFault 8 (st / 2) (st % 2) cycle) :=
    (framed_faults (s.hbmCounted st cycle) _).trans (State.recordFault_framed _ _ _ _ _)
  exact .ite (fun _ => hq.trans (State.queueFence_framed _ _ _ _ _)) fun _ => hq

@[simp] theorem State.hbmFault_bursts (s : State) :
    (s.hbmFault st burst page kind cycle).faults.bursts = s.hbmBursts st burst := by
  unfold State.hbmFault
  dsimp only
  split <;> simp [State.hbmQueued]

@[simp] theorem State.hbmFault_toPoison (s : State) :
    (s.hbmFault st burst page kind cycle).faults.toPoison = s.hbmToPoison st page kind cycle := by
  unfold State.hbmFault
  dsimp only
  split <;> simp [State.hbmQueued]

/-- The registers that showing and counting the fault may change. -/
def hbmRegs (st : Nat) : List Nat :=
  [Reg.ERR_LAST, Reg.ERR_LAST_TICK_LO, Reg.ERR_LAST_TICK_HI, Reg.ERR_HBM_UE st] ++ eventRegs

theorem State.hbmCounted_framed (s : State) :
    framed [.replay, .replayNext, .regs, .bbx] (hbmRegs st) s (s.hbmCounted st cycle) :=
  (((s.markReplay_framed cycle).mono (by simp) (by simp)).trans
    ((State.faultShow_framed _ 8 (st / 2) (st % 2) 0 cycle).mono (by simp) (by simp +contextual [hbmRegs]))).trans
    ((State.count_framed _ (Reg.ERR_HBM_UE st) 31 0 1).mono (by simp) (by simp [hbmRegs]))

theorem State.hbmFault_framed (s : State) :
    framed [.replay, .replayNext, .faults, .regs, .bbx] (hbmRegs st) s (s.hbmFault st burst page kind cycle) :=
  ((s.hbmCounted_framed st cycle).mono (by simp) (by simp)).trans
    ((s.hbmFault_framed_counted st burst page cycle kind).mono (by simp) (by simp))

/-- No register that a fault shows itself in is the count of a stack. -/
theorem ERR_HBM_UE_notMem_shown (h : st < 16) :
    Reg.ERR_HBM_UE st ∉ [Reg.ERR_LAST, Reg.ERR_LAST_TICK_LO, Reg.ERR_LAST_TICK_HI] ++ eventRegs := by
  simp [eventRegs, Reg.ERR_HBM_UE, Reg.ERR_LAST, Reg.ERR_LAST_TICK_LO, Reg.ERR_LAST_TICK_HI, Reg.BBX_STATUS, Reg.BBX_LOST]
  omega

theorem State.hbmFault_fld_ue (s : State) (h : st < 16) :
    (s.hbmFault st burst page kind cycle).fld (Reg.ERR_HBM_UE st) 31 0
      = satAdd 32 (s.fld (Reg.ERR_HBM_UE st) 31 0) 1 := by
  rw [(s.hbmFault_framed_counted st burst page cycle kind).fld (by simp), State.hbmCounted,
    State.fld_count _ _ _ _ _ (by omega) (by omega),
    (State.faultShow_framed _ _ _ _ _ _).fld (ERR_HBM_UE_notMem_shown st h), (s.markReplay_framed cycle).fld (by simp)]

/-- What comes after the mark leaves the marks alone. -/
theorem State.hbmFault_marks (h : s.tk.running = true) :
    if s.lateCycle cycle then (s.hbmFault st burst page kind cycle).tk.replayNext = true
    else (s.hbmFault st burst page kind cycle).tk.replay = true := by
  have hlater : changesOnly [.faults, .regs, .bbx] (s.markReplay cycle) (s.hbmFault st burst page kind cycle) :=
    (((State.faultShow_framed _ 8 (st / 2) (st % 2) 0 cycle).1.mono (by simp)).trans
      ((State.count_framed _ (Reg.ERR_HBM_UE st) 31 0 1).1.mono (by simp))).trans
      ((s.hbmFault_framed_counted st burst page cycle kind).1.mono (by simp))
  have hreplay : (s.hbmFault st burst page kind cycle).tk.replay = (s.markReplay cycle).tk.replay :=
    hlater .replay (by simp)
  have hnext : (s.hbmFault st burst page kind cycle).tk.replayNext = (s.markReplay cycle).tk.replayNext :=
    hlater .replayNext (by simp)
  rw [hreplay, hnext]
  exact State.markReplay_marks cycle h

/-! ### A corrected error -/

/-- R420: the stack's ERR_HBM_CE, and the counters that select the event. -/
theorem exec_hbmCorrected (stack : BitVec 4) (s : State) :
    ∃ t, exec (.hbmCorrected stack) s = .next t
      ∧ t.fld (Reg.ERR_HBM_CE stack.toNat) 31 0 = satAdd 32 (s.fld (Reg.ERR_HBM_CE stack.toNat) 31 0) 1
      ∧ framed [.regs, .cnt] [Reg.ERR_HBM_CE stack.toNat] s t := by
  have htally := State.tallyPlain_framed (s.count (Reg.ERR_HBM_CE stack.toNat) 31 0 1)
    (0x20 * (stack.toNat / 2) + 28 + stack.toNat % 2) 5 1
  refine ⟨_, rfl, ?_, framed.kept ?_⟩
  · rw [State.kept_fld, htally.fld (by simp), State.fld_count _ _ _ _ _ (by omega) (by omega)]
  · exact ((s.count_framed _ 31 0 1).mono (by simp) (by simp)).trans (htally.mono (by simp) (by simp))

/-- Settles O19: a corrected error only counts; an uncorrectable one of a live page counts, marks, remembers and queues. -/
theorem hbmErrors : Obligations.HbmErrors := by
  refine fun stack s => ⟨exec_hbmCorrected stack s, fun addr kind cycle => ⟨exec_hbmUncorrectable_dead _ _ _ _, fun hg hp => ?_⟩⟩
  refine ⟨_, exec_hbmUncorrectable_live stack addr kind cycle hg hp, ?_, fun hrun => ?_, ?_, ?_, (s.hbmFault_framed ..).kept⟩
  · exact s.hbmFault_fld_ue _ _ _ _ _ stack.isLt
  · exact State.hbmFault_marks _ _ _ _ _ hrun
  · exact ⟨_, by rw [State.kept_faults, State.hbmFault_bursts]; exact s.mem_hbmBursts _ _, rfl, rfl⟩
  · rw [State.kept_faults, State.hbmFault_toPoison]
    exact s.exists_mem_hbmToPoison _ _ _ _

end Sys2Proof.Machine
end

section
/-! SUPPORT. Phase E of one counter (R483, R487, R491): its shadow added or discarded, and the event of a wrap. -/

namespace Sys2Proof.Machine

variable (s : State) (b k : Nat) (replayed : Bool)

/-- A counter at the end of phase E: the shadow is spent, and the value has taken it up unless it is discarded (R483). -/
def Counter.landed (c : Counter) (discarded : Bool) : Counter :=
  { c with value := if discarded then c.value else (c.value + c.shadow) % 2 ^ 64, shadow := 0 }

/-- COMMIT discards the counts of a replayed tick (R483). -/
def State.shadowDiscarded : Bool := replayed && (cntCfgInForce (s.cntOwner k) (s.ctr b k).cfg).bit 30

/-- A shadow that is added carries past 64 bits, on a counter with WRAP_EV (R487). -/
abbrev State.wrapSignalled : Prop :=
  s.shadowDiscarded b k replayed = false ∧ 2 ^ 64 ≤ (s.ctr b k).value + (s.ctr b k).shadow ∧ (s.ctr b k).cfg.bit 28 = true

/-- EV_CNT_WRAP of a counter, for its owner (R491). -/
def State.wrapEvent : Event :=
  let owner := s.cntOwner k
  ⟨0xA001, if owner = 0x7F then none else some owner, [b, k, s.tk.count.toNat].map wordOf, if owner = 0x7F then [] else [owner]⟩

/-- The state with the counter at the end of its phase E, before any event. -/
def State.shadowLanded : State := s.setCtr b k ((s.ctr b k).landed (s.shadowDiscarded b k replayed))

/-! ### What phase E does: the two cases -/

variable {s b k replayed}

theorem State.addShadow_of_wrapSignalled (h : s.wrapSignalled b k replayed) :
    s.addShadow b k replayed = (s.shadowLanded b k replayed).raiseTo (s.wrapEvent b k).code (s.wrapEvent b k).inst
      (s.wrapEvent b k).payload (s.wrapEvent b k).dests := by
  obtain ⟨hadd, hsum, hev⟩ := h
  have hraised : ¬((s.ctr b k).value + (s.ctr b k).shadow < 2 ^ 64 ∨ (!(s.ctr b k).cfg.bit 28) = true) :=
    not_or.mpr ⟨hsum.not_gt, by simp [hev]⟩
  rw [State.shadowLanded, hadd]
  exact (if_neg (Bool.eq_false_iff.mp hadd)).trans (if_neg hraised)

theorem State.addShadow_of_not_wrapSignalled (h : ¬s.wrapSignalled b k replayed) :
    s.addShadow b k replayed = s.shadowLanded b k replayed := by
  rw [State.shadowLanded]
  cases hd : s.shadowDiscarded b k replayed with
  | true => exact if_pos hd
  | false =>
    have hquiet : (s.ctr b k).value + (s.ctr b k).shadow < 2 ^ 64 ∨ (!(s.ctr b k).cfg.bit 28) = true := by
      simpa [State.wrapSignalled, hd, imp_iff_not_or] using h
    exact (if_neg (Bool.eq_false_iff.mp hd)).trans (if_pos hquiet)

/-! ### Its counters, its events and its frame -/

theorem State.ctr_setCtr_ne (s : State) (c : Counter) {b k b' k' : Nat} (h : 16 * b' + k' ≠ 16 * b + k) :
    (s.setCtr b k c).ctr b' k' = s.ctr b' k' := smGet_set_ne _ _ _ h

@[simp] theorem State.raiseTo_ctr (s : State) (code : Nat) (inst : Option Nat) (payload : List Word) (dests : List Nat) (b k : Nat) :
    (s.raiseTo code inst payload dests).ctr b k = s.ctr b k := by
  have hcnt : (s.raiseTo code inst payload dests).cnt = s.cnt := (s.raiseTo_framed ..).1 .cnt (by simp [eventParts])
  rw [State.ctr, hcnt, State.ctr]

variable (s b k replayed)

/-- The event of a wrap leaves every counter alone. -/
theorem State.addShadow_ctr (b' k' : Nat) : (s.addShadow b k replayed).ctr b' k' = (s.shadowLanded b k replayed).ctr b' k' := by
  by_cases h : s.wrapSignalled b k replayed
  · rw [State.addShadow_of_wrapSignalled h, State.raiseTo_ctr]
  · rw [State.addShadow_of_not_wrapSignalled h]

theorem State.addShadow_ctr_self :
    (s.addShadow b k replayed).ctr b k = (s.ctr b k).landed (s.shadowDiscarded b k replayed) := by
  rw [State.addShadow_ctr, State.shadowLanded, State.ctr_setCtr]

theorem State.addShadow_ctr_ne {b' k' : Nat} (h : 16 * b' + k' ≠ 16 * b + k) :
    (s.addShadow b k replayed).ctr b' k' = s.ctr b' k' := by
  rw [State.addShadow_ctr, State.shadowLanded, State.ctr_setCtr_ne s _ h]

theorem State.addShadow_events :
    (s.addShadow b k replayed).events = s.events ++ if s.wrapSignalled b k replayed then [s.wrapEvent b k] else [] := by
  split
  next h => rw [State.addShadow_of_wrapSignalled h, State.raiseTo_events, State.shadowLanded, State.setCtr_events]
  next h => rw [State.addShadow_of_not_wrapSignalled h, State.shadowLanded, State.setCtr_events, List.append_nil]

theorem State.addShadow_framed : framed (.cnt :: eventParts) eventRegs s (s.addShadow b k replayed) := by
  have hctr : framed (.cnt :: eventParts) eventRegs s (s.shadowLanded b k replayed) :=
    (s.setCtr_framed b k _).mono (by simp) (by simp)
  by_cases h : s.wrapSignalled b k replayed
  · rw [State.addShadow_of_wrapSignalled h]
    exact hctr.trans ((State.raiseTo_framed ..).mono (fun _ => List.mem_cons_of_mem _) fun _ => id)
  · rwa [State.addShadow_of_not_wrapSignalled h]

/-- Settles O6: the counter is as landed, the events gain that of a signalled wrap, and the other counters and parts stay. -/
theorem counterShadowsAdd : Obligations.CounterShadowsAdd := by
  intro s b k replayed c owner t counts dests
  have hself : t.ctr b k = c.landed (s.shadowDiscarded b k replayed) := s.addShadow_ctr_self b k replayed
  refine ⟨?_, fun hcounts => ?_, fun hcounts => ?_, s.addShadow_events b k replayed, fun _ _ => s.addShadow_ctr_ne b k replayed,
    s.addShadow_framed b k replayed⟩
  · rw [hself, Counter.landed]
  · have hadd : s.shadowDiscarded b k replayed = false := hcounts
    rw [hself, hadd]
    rfl
  · have hdiscard : s.shadowDiscarded b k replayed = true := Bool.eq_true_of_not_eq_false hcounts
    rw [hself, hdiscard]
    rfl

end Sys2Proof.Machine
end

section
/-! SUPPORT. The queue and the flight images: how each command that `Laws/Ends` leaves open ends (R45 to R54, log entry 3). -/

namespace Sys2Proof

/-- The commands that change the flight images: loads, switches, landings, start-up and the losses of the supply. -/
def Instr.ownsFlights : Instr → Bool
  | .landing | .flightLoad _ | .flightCopyComplete | .flightAdmissionComplete | .flightSwitchDrain _ _ | .flightSwitchImmediate _
  | .flightSwitchApply | .drainTicksExpire | .powerOnReset | .startUp _ | .standbySupplyLost => true
  | _ => false

/-- REGISTER_WRITE stands for other commands. -/
def Instr.isRegisterWrite : Instr → Bool
  | .registerWrite _ _ _ => true
  | _ => false

end Sys2Proof

namespace Sys2Proof.Machine

set_option Elab.async false

variable {s : State}

/-! ### A register write acts as another command -/

/-- An outcome that leaves the flight images alone or is that of another command, at most after FLT_LOAD_CTRL is written. -/
def ActsAsOther (s : State) (o : Host.Outcome State Fault Refusal) : Prop :=
  (∃ u, o = keep s u) ∨ ∃ (c : Instr) (u : State), c.isRegisterWrite = false ∧ o = exec c u
    ∧ (u = s ∨ ∃ v, u = s.setFld Reg.FLT_LOAD_CTRL 2 0 v)

theorem ActsAsOther.keep (u : State) : ActsAsOther s (Machine.keep s u) := .inl ⟨u, rfl⟩

theorem ActsAsOther.exec (c : Instr) (h : c.isRegisterWrite = false) : ActsAsOther s (Machine.exec c s) :=
  .inr ⟨c, s, h, rfl, .inl rfl⟩

theorem ActsAsOther.ite {c : Prop} [Decidable c] {a b : Host.Outcome State Fault Refusal} (h : ActsAsOther s a) (g : ActsAsOther s b) :
    ActsAsOther s (if c then a else b) := by
  split <;> assumption

theorem ActsAsOther.ite_some {c : Prop} [Decidable c] {a b : Option (Host.Outcome State Fault Refusal)}
    (h : ∀ o, a = some o → ActsAsOther s o) (g : ∀ o, b = some o → ActsAsOther s o) :
    ∀ o, (if c then a else b) = some o → ActsAsOther s o := by
  split <;> assumption

theorem ActsAsOther.some {a : Host.Outcome State Fault Refusal} (h : ActsAsOther s a) : ∀ o, some a = some o → ActsAsOther s o :=
  fun _ e => Option.some.inj e ▸ h

theorem goWrite_actsAsOther (s : State) (off : Nat) (v : Word) : ∀ o, s.goWrite off v = some o → ActsAsOther s o := by
  unfold State.goWrite
  refine .ite_some (.some (.ite (.keep s) ?_)) ?_
  · split
    · exact .exec (.pause _) rfl
    · exact .exec (.freeze _) rfl
    · exact .exec (.thaw _) rfl
    · exact .exec (.save _) rfl
    · exact .exec (.restore _) rfl
    · exact .exec (.logStart _) rfl
    · exact .exec (.logStop _) rfl
    · exact .keep s
  refine .ite_some (.some (.ite (.keep s) ?_)) ?_
  · dsimp only
    split
    · exact .exec (.stemLoad _) rfl
    · exact .exec (.stemSwitch _) rfl
    · exact .exec (.stemRolling _) rfl
    · exact .exec (.stemUnload _) rfl
    · exact .keep s
  refine .ite_some (.some (.ite (.keep s) ?_)) ?_
  · split
    · exact .exec .forceRetire rfl
    · exact .exec .clear rfl
    · exact .keep s
  refine .ite_some (.some (.ite (.keep s) ?_)) ?_
  · split
    · exact .exec (.setTarget _) rfl
    · exact .exec (.import_ _) rfl
    · exact .keep s
  refine .ite_some (.some (.ite (.keep s) ?_)) ?_
  · dsimp only
    split
    · exact .exec (.unpark _) rfl
    · exact .exec (.park _) rfl
    · exact .exec .enterP3 rfl
    · exact .exec .enterP4 rfl
    · exact .keep s
  refine .ite_some (.some (.ite (.exec .debugUnlock rfl) (.keep s))) ?_
  refine .ite_some (.some (.exec (.zeroise v) rfl)) ?_
  refine .ite_some (.some (.exec (.rstPackage v) rfl)) ?_
  refine .ite_some (.some (.ite (.exec (.rstGallery _) rfl) (.keep s))) ?_
  by_cases hload : off = Reg.FLT_LOAD_CTRL
  · subst hload
    rw [if_pos rfl]
    exact .some (.ite (.inr ⟨.flightLoad _, _, rfl, rfl, .inr ⟨_, rfl⟩⟩) (.keep _))
  · rw [if_neg hload]
    refine .ite_some (.some (.ite (.keep s) (.ite ?_ ?_))) (fun _ => nofun)
    · exact .exec (.flightSwitchImmediate _) rfl
    · exact .exec (.flightSwitchDrain _ _) rfl

theorem execRegisterWrite_actsAsOther (fn : BitVec 6) (off : BitVec 28) (v : Word) (s : State) :
    ActsAsOther s (execRegisterWrite fn off v s) := by
  unfold execRegisterWrite
  refine .ite (.keep s) ?_
  split
  next x _ =>
    unfold State.pageWrite
    exact .ite (.exec (.doorbell _ _ _ _) rfl) (.ite (.exec (.cqHeadWrite _ _ _) rfl) (.keep s))
  next =>
    refine .ite (.keep s) (.ite (.keep _) (.ite (.keep _) (.ite (.exec (.heartbeatWrite _ _) rfl) ?_)))
    split
    next => exact .keep _
    next =>
      refine .ite (.keep _) ?_
      split
      next o h => exact goWrite_actsAsOther s _ _ o h
      next => exact .keep _

/-! ### How the commands end -/

/-- An outcome that leaves the flight images as they were, or resets them. -/
inductive SparesFlights (s : State) : Host.Outcome State Fault Refusal → Prop
  | kept {o : Host.Outcome State Fault Refusal} : Kept s o → SparesFlights s o
  | run (u : State) : SparesFlights s (keepRun s u)
  | stop (u : State) : SparesFlights s (stopOutcome s u)

theorem exec_sparesFlights (c : Instr) (s : State) (howns : c.ownsFlights = false) (hwrite : c.isRegisterWrite = false) :
    SparesFlights s (exec c s) := by
  by_cases hkept : c.isKept = true
  · exact .kept (exec_kept c s hkept)
  cases c
  case poisonRepair => exact .stop _
  case replayLimit => exact .stop _
  case enterP4 => exact .stop _
  case rstPackage => exact .stop _
  case debugUnlock => exact .stop _
  case lossTimerExpire => exact .stop _
  case powerWindow => exact .stop _
  case thermalShutdown => exact .stop _
  case clockLost => exact .stop _
  case perstNDeassert => exact .run _
  case entdaa => exact .run _
  case svcSclLowTimeout => exact .run _
  case setEndpointId => exact .run _
  case getEndpointId => exact .run _
  case getVersionSupport => exact .run _
  case getMessageTypeSupport => exact .run _
  case getVendorDefinedMessageSupport => exact .run _
  case getTid => exact .run _
  case setTid => exact .run _
  case getPldmVersion => exact .run _
  case getPldmTypes => exact .run _
  case getPldmCommands => exact .run _
  case requestUpdate => exact .run _
  case passComponentTable => exact .run _
  case updateComponent => exact .run _
  case requestFirmwareData => exact .run _
  case verifyComplete => exact .run _
  case applyComplete => exact .run _
  case activateFirmware => exact .run _
  case status => exact .run _
  case wake => exact .run _
  case bbxRead => exact .run _
  case bbxInfo => exact .run _
  case jtagTrst => exact .run _
  case bypass => exact .run _
  case idcode => exact .run _
  case samplePreload => exact .run _
  case extest => exact .run _
  case landing => exact Bool.noConfusion howns
  case flightLoad => exact Bool.noConfusion howns
  case flightCopyComplete => exact Bool.noConfusion howns
  case flightAdmissionComplete => exact Bool.noConfusion howns
  case flightSwitchDrain => exact Bool.noConfusion howns
  case flightSwitchImmediate => exact Bool.noConfusion howns
  case flightSwitchApply => exact Bool.noConfusion howns
  case drainTicksExpire => exact Bool.noConfusion howns
  case powerOnReset => exact Bool.noConfusion howns
  case startUp => exact Bool.noConfusion howns
  case standbySupplyLost => exact Bool.noConfusion howns
  case registerWrite => exact Bool.noConfusion hwrite
  all_goals exact absurd rfl hkept

theorem SparesFlights.pending {o : Host.Outcome State Fault Refusal} {t : State} (h : SparesFlights s o) (e : o = .next t) :
    t.pending = s.pending := by
  cases h with
  | kept h => exact (h.inv e).1
  | run u => exact (Ends.run u).queue_inv e
  | stop u => exact (Ends.stop u).queue_inv e

theorem exec_ownsFlights_ends (c : Instr) (s : State) (howns : c.ownsFlights = true) : Ends s (exec c s) := by
  cases c
  case landing => exact .queue _
  case flightLoad => exact .queue _
  case flightCopyComplete => exact .queue _
  case flightAdmissionComplete => exact .queue _
  case flightSwitchDrain => exact .queue _
  case flightSwitchImmediate => exact .queue _
  case flightSwitchApply => exact .queue _
  case drainTicksExpire => exact .queue _
  case powerOnReset => exact .queue _
  case startUp => exact .queue _
  case standbySupplyLost => exact .queue _
  all_goals exact Bool.noConfusion howns

theorem exec_pending (c : Instr) (s t : State) (hwrite : c.isRegisterWrite = false) (e : exec c s = .next t) : t.pending = s.pending := by
  cases howns : c.ownsFlights with
  | false => exact (exec_sparesFlights c s howns hwrite).pending e
  | true => exact (exec_ownsFlights_ends c s howns).queue_inv e

theorem exec_eq_execRegisterWrite {c : Instr} (h : c.isRegisterWrite = true) (s : State) :
    ∃ fn off v, exec c s = execRegisterWrite fn off v s := by
  cases c
  case registerWrite fn off v => exact ⟨fn, off, v, rfl⟩
  all_goals exact Bool.noConfusion h

/-- No command touches the queue. -/
theorem exec_pending_all (c : Instr) (s t : State) (e : exec c s = .next t) : t.pending = s.pending := by
  cases hwrite : c.isRegisterWrite with
  | false => exact exec_pending c s t hwrite e
  | true =>
    obtain ⟨fn, off, v, hexec⟩ := exec_eq_execRegisterWrite hwrite s
    rcases execRegisterWrite_actsAsOther fn off v s with ⟨u, hu⟩ | ⟨c, u, hc, hu, hus⟩
    · exact ((Kept.next u).inv (hu.symm.trans (hexec.symm.trans e))).1
    · have hpend : u.pending = s.pending := by
        rcases hus with rfl | ⟨v, rfl⟩
        · rfl
        · exact State.setFld_pending ..
      exact (exec_pending c u t hc (hu.symm.trans (hexec.symm.trans e))).trans hpend

/-- Settles O1: a step runs the front command on the state with the rest of the queue. -/
theorem stepRunsFront : Obligations.StepRunsFront := by
  intro c s rest h
  rw [step, h]

/-- Settles O2: every outcome hands the queue on, and the commands of `Instr.isKept` end in `keep`. -/
theorem commandsConfined : Obligations.CommandsConfined := by
  refine ⟨fun s h => by rw [step, h], exec_pending_all, fun c s t h e => ?_⟩
  obtain ⟨-, hflights, hsvc, hjtag, hcount⟩ := (exec_kept c s h).inv e
  exact ⟨hflights, hsvc, hjtag, hcount⟩

end Sys2Proof.Machine
end

section
/-! SUPPORT. Frames widened and chained, and the frames of the ring engine, of posting and of publishing (R330 to R351). -/

namespace Sys2Proof.Machine

set_option Elab.async false

variable {ps qs : List Part} {ks js : List Nat} {s t u : State}

/-! ### Frames widened and chained -/

theorem framed.widen (h : framed ps ks s t) (hp : ∀ p ∈ ps, p ∈ qs := by simp) (hk : ∀ k ∈ ks, k ∈ js := by simp) : framed qs js s t :=
  h.mono hp hk

/-- A run within a frame goes on by a step of a narrower one. -/
theorem framed.seq (h : framed qs js s t) (g : framed ps ks t u) (hp : ∀ p ∈ ps, p ∈ qs := by simp) (hk : ∀ k ∈ ks, k ∈ js := by simp) :
    framed qs js s u := h.trans (g.mono hp hk)

theorem changesOnly.widen (h : changesOnly ps s t) (hp : ∀ p ∈ ps, p ∈ qs := by simp) : changesOnly qs s t := h.mono hp

theorem changesOnly.seq (h : changesOnly qs s t) (g : changesOnly ps t u) (hp : ∀ p ∈ ps, p ∈ qs := by simp) : changesOnly qs s u :=
  h.trans (g.mono hp)

theorem changesOnly.ite {c : Prop} [Decidable c] {a b : State} (h : c → changesOnly ps s a) (g : ¬c → changesOnly ps s b) :
    changesOnly ps s (if c then a else b) := by
  split
  · exact h ‹_›
  · exact g ‹_›

theorem changesOnly.foldl {α : Type} (f : State → α → State) (l : List α) (h : ∀ v x, changesOnly ps v (f v x)) (s : State) :
    changesOnly ps s (l.foldl f s) := by
  induction l generalizing s with
  | nil => exact .refl
  | cons x l ih => exact (h s x).trans (ih _)

theorem changesOnly.kept (h : changesOnly ps s t) : changesOnly ps s (s.kept t) := by
  intro p hp
  have hsame := h p hp
  cases p <;> first | exact hsame | rfl

theorem changesOnly.flights (h : changesOnly ps s t) (hp : Part.flights ∉ ps := by simp) : t.flights = s.flights := h .flights hp

theorem changesOnly.setReg (h : changesOnly qs s t) {off : Nat} {v : Word} (hp : Part.regs ∈ qs := by simp [eventParts]) :
    changesOnly qs s (t.setReg off v) :=
  h.seq (t.setReg_framed off v).1 (by simpa using hp)

theorem changesOnly.setFld (h : changesOnly qs s t) {off hi lo v : Nat} (hp : Part.regs ∈ qs := by simp [eventParts]) :
    changesOnly qs s (t.setFld off hi lo v) :=
  h.seq (t.setFld_framed off hi lo v).1 (by simpa using hp)

theorem changesOnly.setReg64 (h : changesOnly qs s t) {lo hi v : Nat} (hp : Part.regs ∈ qs := by simp [eventParts]) :
    changesOnly qs s (t.setReg64 lo hi v) :=
  h.seq (t.setReg64_framed lo hi v).1 (by simpa using hp)

theorem changesOnly.raisePf (h : changesOnly qs s t) {code : Nat} {payload : List Word}
    (hp : ∀ p ∈ eventParts, p ∈ qs := by simp +contextual [eventParts]) : changesOnly qs s (t.raisePf code payload) :=
  h.seq (t.raisePf_framed code payload).1 hp

theorem changesOnly.raiseInst (h : changesOnly qs s t) {code inst : Nat} {payload : List Word}
    (hp : ∀ p ∈ eventParts, p ∈ qs := by simp +contextual [eventParts]) : changesOnly qs s (t.raiseInst code inst payload) :=
  h.seq (t.raiseInst_framed code inst payload).1 hp

/-! ### The window and host memory -/

theorem State.winWrite_framed (s : State) (off : Nat) (bs : List Byte) : framed [.win, .winM] [] s (s.winWrite off bs) :=
  ⟨fun p hp => by cases p <;> first | (simp at hp; done) | rfl, .of_regs rfl⟩

theorem State.logPages_framed (s : State) (n a len : Nat) (win : Bool) : framed [.insts] [] s (s.logPages n a len win) :=
  .ite (fun _ => s.updInst_framed n _) fun _ => .refl

theorem State.winPut_framed (s : State) (n off : Nat) (bs : List Byte) : framed [.win, .winM, .insts] [] s (s.winPut n off bs) :=
  (s.winWrite_framed off bs).widen.seq (State.logPages_framed ..)

theorem State.hostPut_framed (s : State) (n a : Nat) (bs : List Byte) : framed [.host, .insts, .cnt] [] s (s.hostPut n a bs) :=
  ((framed_host s _).widen.seq (State.logPages_framed ..)).seq (State.tallyCache_framed ..)

theorem State.placePut_framed (s : State) (n : Nat) (host : Bool) (a : Nat) (bs : List Byte) :
    framed [.host, .win, .winM, .insts, .cnt] [] s (s.placePut n host a bs) :=
  .ite (fun _ => (s.hostPut_framed n a bs).widen) fun _ => (s.winPut_framed n a bs).widen

/-! ### Reading entries -/

/-- The parts that the reading of entries may change. -/
def readParts : List Part := [.rings, .readCount, .entries, .lastRing, .cnt]

/-- The entry taken stands in the ring engine's records. -/
theorem framed_taken (s : State) (es : List (Nat × Nat × Entry)) (n m : SMap Nat) :
    framed [.entries, .readCount, .lastRing] [] s { s with hs := { s.hs with entries := es, readCount := n, lastRing := m } } :=
  ⟨fun p hp => by cases p <;> first | (simp at hp; done) | rfl, .of_regs rfl⟩

theorem State.takeEntry_framed {k : Nat} (h : s.takeEntry k = some t) : framed readParts [] s t := by
  unfold State.takeEntry at h
  dsimp only at h
  split at h
  · cases h
  next ws _ =>
    split at h
    · cases h
    · cases h
      refine .ite (fun _ => framed.seq (framed.seq ?_ (State.tally_framed ..) (by simp [readParts])) (State.tallyCache_framed ..)
        (by simp [readParts])) fun _ => .seq ?_ (State.tally_framed ..) (by simp [readParts])
      all_goals exact ((s.setRing_framed k _).widen (qs := readParts) (by simp [readParts])).seq (framed_taken _ _ _ _) (by simp [readParts])

theorem State.readRing_framed (k fuel : Nat) (s : State) : framed readParts [] s (s.readRing k fuel) := by
  induction fuel generalizing s with
  | zero => exact .refl
  | succ fuel ih =>
    rw [State.readRing]
    refine .ite (fun _ => .refl) fun _ => ?_
    split
    next s1 h => exact (State.takeEntry_framed h).trans (ih s1)
    next => exact (s.setRing_framed k _).widen (by simp [readParts])

theorem State.readRings_framed (s : State) (n : Nat) : framed readParts [] s (s.readRings n) :=
  .ite (fun _ => .refl) fun _ => .foldl _ _ (fun v k => v.readRing_framed k _) s

/-! ### Posting records and events -/

/-- The parts that a record posted in a completion queue may change. -/
def putParts : List Part := [.rings, .host, .win, .winM, .insts, .cnt]

theorem State.cqPut_framed (s : State) (k : Nat) (ws : List Word) : framed putParts [] s (s.cqPut k ws) :=
  (((s.placePut_framed ..).widen (by simp [putParts])).seq (State.setRing_framed ..) (by simp [putParts])).seq (State.tally_framed ..)
    (by simp [putParts])

theorem State.untrack_framed (s : State) (h : Nat) : framed [.reqs, .immutable, .handles] [] s (s.untrack h) :=
  ⟨fun p hp => by cases p <;> first | (simp at hp; done) | rfl, .of_regs rfl⟩

/-- The parts that held records posted may change. -/
def postParts : List Part := [.rings, .reqs, .handles, .immutable, .host, .win, .winM, .insts, .cnt]

theorem State.postOne_framed {k : Nat} (h : s.postOne k = some t) : framed postParts [] s t := by
  unfold State.postOne at h
  dsimp only at h
  split at h
  · cases h
  next x rest _ =>
    split at h
    · cases h
    · have hput : framed postParts [] s
          ((s.setRing k { s.ringAt k with held := rest }).cqPut k (complWords x (s.ringAt k).phase)) :=
        ((s.setRing_framed k _).widen (by simp [postParts])).seq (State.cqPut_framed ..) (by simp [postParts, putParts])
      cases h
      split
      · exact hput.seq (State.untrack_framed ..) (by simp [postParts])
      · exact hput

theorem State.postHeld_framed (k fuel : Nat) (s : State) : framed postParts [] s (s.postHeld k fuel) := by
  induction fuel generalizing s with
  | zero => exact .refl
  | succ fuel ih =>
    rw [State.postHeld]
    split
    next s1 h => exact (State.postOne_framed h).trans (ih s1)
    next => exact .refl

theorem State.postEvents_framed (s : State) (k : Nat) : framed putParts [] s (s.postEvents k) :=
  .ite (fun _ => .refl) fun _ =>
    ((s.setRing_framed k _).widen (by simp [putParts])).fold fun v ws => v.cqPut_framed k ws

/-- The parts that the publishing of events may change. -/
def publishParts : List Part := [.events, .evCount, .evLost, .out, .regs] ++ putParts

theorem State.publishTo_changes (s : State) (fn : Nat) (e : Event) : changesOnly publishParts s (s.publishTo fn e) := by
  have hcount : changesOnly publishParts s { s with evCount := smModify (fun _ => 0) s.evCount fn (fun c => (c + 1) % 0x100000000) } :=
    (framed_evCount s _).1.widen (by simp [publishParts])
  have hlose : ∀ u : State, changesOnly publishParts u
      (let v := u.countScoped Reg.WIN_EV_LOST (some fn) 1
       { v with hs := { v.hs with evLost := if v.hs.evLost.contains fn then v.hs.evLost else v.hs.evLost ++ [fn] } }) := fun u =>
    ((u.countScoped_framed ..).1.widen (by simp [publishParts])).seq (framed_evLost _ _).1 (by simp [publishParts])
  unfold State.publishTo
  dsimp only
  split
  · exact hcount.trans (hlose _)
  · refine .ite (fun _ => hcount.trans (hlose _)) fun _ => ?_
    exact ((hcount.seq (State.setRing_framed ..).1 (by simp [publishParts, putParts])).seq (State.postEvents_framed ..).1
      (by simp +contextual [publishParts])).seq (framed_evLost _ _).1 (by simp [publishParts])

theorem State.publish_changes (s : State) : changesOnly publishParts s s.publish := by
  unfold State.publish
  refine changesOnly.seq (changesOnly.trans (changesOnly.foldl _ _ (fun v e => ?_) s) (changesOnly.foldl _ _ (fun v p => ?_) _))
    (framed_events _ _).1 (by simp [publishParts])
  · exact .foldl _ _ (fun w fn => w.publishTo_changes fn e) v
  · have hset := (v.setRing_framed p.1 { v.ringAt p.1 with posted := false }).1.widen (qs := publishParts) (by simp [publishParts, putParts])
    exact .ite (fun _ => .refl) fun _ => .ite (fun _ => hset) fun _ => hset.seq (framed_out _ _).1 (by simp [publishParts])

end Sys2Proof.Machine
end

section
/-! SUPPORT. The images in the flight slots: every operation on them keeps the images that passed admission (R45 to R54). -/

namespace Sys2Proof.Machine

set_option Elab.async false

variable {s t u : State}

/-! ### Admitted slots -/

/-- Both images of a slot pair passed admission. -/
def slotAdmitted (x : FlightSlots) : Prop := (∀ f, x.active = some f → admitted f) ∧ ∀ f, x.staged = some f → admitted f

theorem flightsAdmitted_iff : flightsAdmitted s ↔ slotAdmitted s.flights.v3 ∧ ∀ x ∈ s.flights.pairs, slotAdmitted x :=
  ⟨fun h => ⟨h _ (.inl rfl), fun x hx => h x (.inr hx)⟩, fun ⟨hv, hp⟩ x hx => hx.elim (fun e => e ▸ hv) (hp x)⟩

theorem slotAdmitted_empty : slotAdmitted FlightSlots.empty := ⟨fun _ => nofun, fun _ => nofun⟩

theorem slotAdmitted.advance {x : FlightSlots} (h : slotAdmitted x) : slotAdmitted x.advance := by
  unfold FlightSlots.advance
  split
  · exact h
  · exact ⟨h.1, h.2⟩

theorem slotAdmitted.retire {x : FlightSlots} (h : slotAdmitted x) : slotAdmitted x.retire := by
  unfold FlightSlots.retire
  split
  · exact ⟨fun _ => nofun, h.1⟩
  · exact ⟨fun _ => nofun, h.2⟩

theorem flightsAdmitted.of_eq (h : flightsAdmitted s) (e : t.flights = s.flights) : flightsAdmitted t := by
  unfold flightsAdmitted
  rwa [e]

theorem flightsAdmitted_reset : flightsAdmitted State.reset := by
  refine flightsAdmitted_iff.mpr ⟨slotAdmitted_empty, fun x hx => ?_⟩
  have hempty : x = FlightSlots.empty := by simpa [State.reset] using hx
  exact hempty ▸ slotAdmitted_empty

theorem flightsAdmitted.orReset (h : flightsAdmitted s) (t : State) : flightsAdmitted (s.orReset t) := by
  by_cases hreset : t.flights = State.reset.flights
  · exact flightsAdmitted_reset.of_eq (if_pos hreset)
  · exact h.of_eq (if_neg hreset)

theorem flightsAdmitted.slotsOf (h : flightsAdmitted s) (p : Nat) : slotAdmitted (s.slotsOf p) := by
  unfold State.slotsOf
  split
  · exact (flightsAdmitted_iff.mp h).1
  · unfold State.pairSlots
    rw [List.getD_eq_getElem?_getD]
    rcases hx : s.flights.pairs[p - 1]? with _ | x
    · exact slotAdmitted_empty
    · exact (flightsAdmitted_iff.mp h).2 x (List.mem_of_getElem? hx)

theorem flightsAdmitted.pairSlots (h : flightsAdmitted s) (p : Nat) : slotAdmitted (s.pairSlots p) := h.slotsOf (p + 1)

theorem flightsAdmitted.setSlots (h : flightsAdmitted s) (p : Nat) {x : FlightSlots} (hx : slotAdmitted x) :
    flightsAdmitted (s.setSlots p x) := by
  unfold State.setSlots
  dsimp only
  split
  · exact flightsAdmitted_iff.mpr ⟨hx, (flightsAdmitted_iff.mp h).2⟩
  · refine flightsAdmitted_iff.mpr ⟨(flightsAdmitted_iff.mp h).1, fun y hy => ?_⟩
    obtain ⟨q, -, rfl⟩ := List.mem_map.mp hy
    split
    · exact hx
    · exact h.pairSlots q

/-! ### Operations that leave the flight images -/

@[simp] theorem State.keepFlights_flights (s t : State) : (s.keepFlights t).flights = s.flights := rfl

theorem flightsAdmitted.keepFlights (h : flightsAdmitted s) (t : State) : flightsAdmitted (s.keepFlights t) :=
  h.of_eq (s.keepFlights_flights t)

theorem flightsAdmitted.setLoad (h : flightsAdmitted s) (l : Option Load) : flightsAdmitted (s.setLoad l) :=
  flightsAdmitted_iff.mpr (flightsAdmitted_iff.mp h)

theorem flightsAdmitted.setSwitches (h : flightsAdmitted s) (ws : List Switch) :
    flightsAdmitted { s with flights := { s.flights with switches := ws } } :=
  flightsAdmitted_iff.mpr (flightsAdmitted_iff.mp h)

theorem flightsAdmitted.setTicks (h : flightsAdmitted s) (k : Ticks) : flightsAdmitted { s with tk := k } := h.of_eq rfl

theorem flightsAdmitted.setReg (h : flightsAdmitted s) (off : Nat) (v : Word) : flightsAdmitted (s.setReg off v) :=
  h.of_eq (State.setReg_flights ..)

theorem flightsAdmitted.setFld (h : flightsAdmitted s) (off hi lo v : Nat) : flightsAdmitted (s.setFld off hi lo v) :=
  h.of_eq (State.setFld_flights ..)

@[simp] theorem State.raisePf_flights (s : State) (code : Nat) (payload : List Word) : (s.raisePf code payload).flights = s.flights :=
  (s.raisePf_framed code payload).1.flights (by simp [eventParts])

theorem State.reportRefusal_changes (s : State) (f : Fail) : changesOnly eventParts s (s.reportRefusal f) :=
  changesOnly.refl.setFld.setFld.setReg.setReg.setReg.setReg.raisePf

@[simp] theorem State.reportRefusal_flights (s : State) (f : Fail) : (s.reportRefusal f).flights = s.flights :=
  (s.reportRefusal_changes f).flights (by simp [eventParts])

@[simp] theorem State.applyPeriod_flights (s : State) : s.applyPeriod.flights = s.flights := by
  unfold State.applyPeriod
  split <;> simp

theorem State.calCloseSlot_changes (s : State) (g n : Nat) : changesOnly (.cal :: eventParts) s (s.calCloseSlot g n) := by
  have hcopy : ∀ sat lo : Nat, changesOnly (.cal :: eventParts) s
      (((s.setReg (Reg.GAL_CAL_SAT g n) (wordOf sat)).setReg64 (Reg.GAL_CAL_ELEM_LO g n) (Reg.GAL_CAL_ELEM_HI g n) lo).calRestart g n) :=
    fun sat lo => (((s.setReg_framed _ _).1.widen (by simp [eventParts])).seq (State.setReg64_framed ..).1 (by simp [eventParts])).seq
      (framed_cal _ _).1
  unfold State.calCloseSlot
  dsimp only
  refine .ite (fun _ => .refl) fun _ => .ite (fun _ => .ite (fun _ => ?_) fun _ => ?_) fun _ => hcopy _ _
  · exact (hcopy _ _).seq (State.raisePf_framed ..).1 (by simp +contextual)
  · exact (hcopy _ _).seq (State.raiseInst_framed ..).1 (by simp +contextual)

theorem State.setCalTicks_framed (s : State) (g n : Nat) : framed [.cal] [] s (s.setCalTicks g n) := framed_cal s _

theorem State.calClose_changes (s : State) (g : Nat) : changesOnly (.cal :: eventParts) s (s.calClose g) :=
  (changesOnly.foldl _ _ (fun u n => .ite (fun _ => .refl) fun _ => u.calCloseSlot_changes g n) s).seq (framed_cal _ _).1

theorem State.calApply_changes (s : State) (w : Nat × CalReg × Word) : changesOnly (.cal :: eventParts) s (s.calApply w) := by
  unfold State.calApply
  split
  · exact (((s.setReg_framed _ _).1.widen (by simp [eventParts])).seq (framed_cal _ _).1).seq (framed_cal _ _).1
  · exact ((s.setReg_framed _ _).1.widen (by simp [eventParts])).seq (framed_cal _ _).1

theorem State.calE_changes (s : State) (replayed : Bool) : changesOnly (.cal :: eventParts) s (s.calE replayed) := by
  unfold State.calE
  refine changesOnly.seq (changesOnly.trans (.ite (fun _ => .refl) fun _ => .foldl _ _ (fun u g => ?_) s)
    (.foldl _ _ State.calApply_changes _)) (framed_cal _ _).1
  exact .ite (fun _ => .refl) fun _ => .ite
    (fun _ => ((u.setCalTicks_framed g _).1.widen).trans (State.calClose_changes _ _)) fun _ => (u.setCalTicks_framed g _).1.widen

theorem State.mapBw_framed (s : State) (f : BwMon → BwMon) : framed [.cnt] [] s (s.mapBw f) := framed_cnt s _

theorem State.bwClose_framed (s : State) : framed (.cnt :: eventParts) eventRegs s s.bwClose := by
  have hclose : framed (.cnt :: eventParts) eventRegs s { s.mapBw BwMon.close with
      cnt := { (s.mapBw BwMon.close).cnt with bwTicks := 0 } } := ((s.mapBw_framed _).widen).seq (framed_cnt _ _)
  exact .ite (fun _ => hclose.seq (State.raisePf_framed ..) (by simp +contextual)) fun _ => hclose

theorem State.bwTick_framed (s : State) : framed (.cnt :: eventParts) eventRegs s s.bwTick := by
  have htick : framed (.cnt :: eventParts) eventRegs s { s.mapBw BwMon.endTick with
      cnt := { (s.mapBw BwMon.endTick).cnt with bwTicks := (s.mapBw BwMon.endTick).cnt.bwTicks + 1 } } :=
    ((s.mapBw_framed _).widen).seq (framed_cnt _ _)
  exact .ite (fun _ => htick.trans (State.bwClose_framed _)) fun _ => htick

theorem State.mapCtrs_framed (s : State) (f : Nat → Counter → Counter) : framed [.cnt] [] s (s.mapCtrs f) :=
  .foldl _ _ (fun u _ => u.setCtr_framed ..) s

theorem State.snapshot_framed (s : State) : framed [.cnt] [] s s.snapshot := (s.mapCtrs_framed _).trans (framed_cnt _ _)

theorem State.changeOwner_changes (s : State) (k o : Nat) : changesOnly [.cnt, .regs] s (s.changeOwner k o) :=
  .ite (fun _ => .refl) fun _ => ((s.setFld_framed _ _ _ _).1.widen).seq (framed_cnt _ _).1

theorem State.bwApply_changes (s : State) : changesOnly [.cnt, .regs] s s.bwApply := by
  unfold State.bwApply
  split
  · exact .refl
  · exact (((s.setReg_framed _ _).1.widen).seq (State.mapBw_framed _ _).1).seq (framed_cnt _ _).1

theorem State.applyCntWrite_framed (s : State) (w : CntWrite) : framed [.cnt] [] s (s.applyCntWrite w) := State.setCtr_framed ..

theorem State.applyCntWrites_changes (s : State) : changesOnly [.cnt, .regs] s s.applyCntWrites := by
  have howners := changesOnly.foldl (ps := [.cnt, .regs]) _ s.ownChanges (fun u p => u.changeOwner_changes p.1 p.2) s
  have hwrites := fun u : State => framed.foldl State.applyCntWrite u.cnt.writes State.applyCntWrite_framed u
  exact (howners.seq (hwrites _).1).seq (framed_cnt _ _).1

theorem State.countE_changes (s : State) (replayed : Bool) : changesOnly (.cnt :: eventParts) s (s.countE replayed) := by
  have hcount : changesOnly (.cnt :: eventParts) s (if s.cnt.holding then s else (s.addShadows replayed).bwTick) :=
    .ite (fun _ => .refl) fun _ => (changesOnly.foldl _ _ (fun u k => (State.addShadow_framed ..).1) s).trans (State.bwTick_framed _).1
  have happly := fun v : State => ((hcount.seq (State.applyCntWrites_changes _) (by simp [eventParts])).seq (State.bwApply_changes _)
    (by simp [eventParts]))
  unfold State.countE
  dsimp only
  refine .ite (fun _ => ?_) fun _ => .seq ?_ (State.snapshot_framed _).1
  all_goals
    split
    · exact (happly s).seq (framed_cnt _ _).1
    · exact happly s

theorem State.logEntry_changes (s : State) (n : Nat) (x : Nat × Bool) :
    changesOnly ([.host, .insts, .cnt] ++ eventParts) s (s.logEntry n x) := by
  unfold State.logEntry
  dsimp only
  refine .ite (fun _ => .ite (fun _ => .refl) fun _ => ?_) fun _ => ?_
  · exact ((s.setFld_framed _ _ _ _).1.widen (by simp [eventParts])).seq (State.raiseInst_framed ..).1 (by simp +contextual)
  · exact ((((framed_host s _).1.widen).seq (State.tallyCache_framed ..).1).seq (State.setReg_framed ..).1 (by simp [eventParts])).seq
      (State.updInst_framed ..).1

theorem State.logStep_changes (s : State) : changesOnly ([.host, .insts, .cnt] ++ eventParts) s s.logStep := by
  refine .foldl _ _ (fun u n => .ite (fun _ => .refl) fun _ => ?_) s
  exact (changesOnly.foldl _ _ (fun v x => v.logEntry_changes n x) u).seq (State.updInst_framed ..).1

end Sys2Proof.Machine
end

section
/-! SUPPORT. Every step keeps the images that passed admission (R45 to R54). -/

namespace Sys2Proof.Machine

set_option Elab.async false

variable {s t u : State}

/-! ### Loads and switches -/

theorem flightsAdmitted.putStaged (h : flightsAdmitted u) (p : Nat) {f : Flight} (hf : admitted f) (code : Nat) (ws : List Word) :
    flightsAdmitted ((u.setSlots p { u.slotsOf p with staged := some f }).raisePf code ws) := by
  have hslot : slotAdmitted { u.slotsOf p with staged := some f } := ⟨(h.slotsOf p).1, fun _ hg => Option.some.inj hg ▸ hf⟩
  exact (h.setSlots p hslot).of_eq (State.raisePf_flights ..)

theorem flightsAdmitted.stage (h : flightsAdmitted s) (p : Nat) {f : Flight} (hf : admitted f) : flightsAdmitted (s.stage p f) := by
  unfold State.stage
  dsimp only
  have hshown := h.setFld Reg.FLT_ADMIT_STATUS 31 28 3 |>.setFld Reg.FLT_ADMIT_STATUS 15 8 0
  split
  · exact ((hshown.setFld _ _ _ _).of_eq (State.raisePf_flights ..)).putStaged p hf _ _
  · exact (hshown.setFld _ _ _ _).putStaged p hf _ _

theorem flightsAdmitted.loadStep (h : flightsAdmitted s) : flightsAdmitted s.loadStep := by
  unfold State.loadStep
  split
  · exact h
  · split
    · exact h.setFld _ _ _ _
    · split
      · dsimp only
        split
        · exact (h.setLoad none).keepFlights _
        next l _ _ _ hpass => exact (h.setLoad none).stage _ ⟨_, _, _, _, hpass, rfl⟩
      · exact h

theorem flightsAdmitted.dropSwitch (h : flightsAdmitted s) (p : Nat) : flightsAdmitted (s.dropSwitch p) :=
  (h.setSwitches _).keepFlights _

theorem flightsAdmitted.activateStaged (h : flightsAdmitted s) (p : Nat) {f : Flight} (hf : admitted f) :
    flightsAdmitted (s.activateStaged p f) := by
  unfold State.activateStaged
  dsimp only
  have hset : flightsAdmitted (s.setSlots p { FlightSlots.empty with active := some f, staged := (s.slotsOf p).active }) :=
    h.setSlots p ⟨fun g hg => Option.some.inj hg ▸ hf, (h.slotsOf p).1⟩
  obtain ⟨hv, hp⟩ := flightsAdmitted_iff.mp hset
  refine flightsAdmitted.keepFlights (flightsAdmitted.setSwitches ?_ _) _
  split
  · exact hset
  · split
    · refine flightsAdmitted_iff.mpr ⟨hv, fun x hx => ?_⟩
      obtain ⟨y, hy, rfl⟩ := List.mem_map.mp hx
      exact (hp y hy).retire
    · exact flightsAdmitted_iff.mpr ⟨hv.retire, hp⟩

theorem flightsAdmitted.applySwitch (h : flightsAdmitted s) (p : Nat) : flightsAdmitted (s.applySwitch p) := by
  unfold State.applySwitch
  split
  · exact h.dropSwitch p
  next f hstaged =>
    split
    · exact h.dropSwitch p
    · exact ((h.keepFlights _).activateStaged p ((h.slotsOf p).2 f hstaged)).keepFlights _

theorem flightsAdmitted.switchOne (h : flightsAdmitted s) (commits : Bool) (w : Switch) : flightsAdmitted (s.switchOne commits w) := by
  unfold State.switchOne
  split
  · exact h.applySwitch _
  · exact h.setSwitches _

theorem flightsAdmitted.switchLanding (h : flightsAdmitted s) (commits : Bool) : flightsAdmitted (s.switchLanding commits) :=
  List.foldlRecOn _ _ h fun _ hu w _ => hu.switchOne commits w

theorem flightsAdmitted.requestSwitch (h : flightsAdmitted s) (p : Nat) (now : Bool) (n : Nat) :
    flightsAdmitted (s.requestSwitch p now n) := by
  unfold State.requestSwitch
  split
  · exact h
  · exact (h.setSwitches _).keepFlights _

theorem flightsAdmitted.advance (h : flightsAdmitted s) : flightsAdmitted s.advance := by
  obtain ⟨hv, hp⟩ := flightsAdmitted_iff.mp h
  refine flightsAdmitted.keepFlights (flightsAdmitted_iff.mpr ⟨hv.advance, fun x hx => ?_⟩) _
  obtain ⟨y, hy, rfl⟩ := List.mem_map.mp hx
  exact (hp y hy).advance

/-! ### Landings -/

theorem State.phaseE_flights (s : State) (replayed : Bool) : (s.phaseE replayed).flights = s.loadStep.flights := by
  unfold State.phaseE
  dsimp only
  have hcal := fun u : State => (u.calE_changes replayed).flights (by simp [eventParts])
  have hcnt := fun u : State => (u.countE_changes replayed).flights (by simp [eventParts])
  have hpub := fun u : State => u.publish_changes.flights (by simp [publishParts, putParts])
  have hlog := fun u : State => u.logStep_changes.flights (by simp [eventParts])
  rw [hlog]
  dsimp only
  rw [hpub]
  dsimp only
  rw [hcnt, hcal]

theorem flightsAdmitted.phaseE (h : flightsAdmitted s) (replayed : Bool) : flightsAdmitted (s.phaseE replayed) :=
  h.loadStep.of_eq (s.phaseE_flights replayed)

theorem flightsAdmitted.landRest (h : flightsAdmitted s) (replayed : Bool) : flightsAdmitted (s.landRest replayed) := by
  unfold State.landRest
  dsimp only
  have hswitched := (h.keepFlights s.actionsFirst.placeFrames).switchLanding (!replayed)
  have hrest := hswitched.keepFlights ((s.keepFlights s.actionsFirst.placeFrames).switchLanding !replayed).actionsRest
  generalize State.keepFlights ((s.keepFlights s.actionsFirst.placeFrames).switchLanding !replayed) _ = s2 at hrest
  split
  · exact hrest.orReset _
  · split
    · exact hrest.keepFlights _
    · have hend := fun v : State => ((hrest.keepFlights v).phaseE replayed).setTicks
      split
      · exact flightsAdmitted.orReset (hend _ _) _
      · exact flightsAdmitted.keepFlights (hend _ _) _

theorem flightsAdmitted.landing (h : flightsAdmitted s) : flightsAdmitted s.landing := by
  unfold State.landing
  split
  · exact h
  · dsimp only
    have hab := h.keepFlights s.ckptAdvance.saveWindow.endDeleted.phaseAB
    generalize s.keepFlights s.ckptAdvance.saveWindow.endDeleted.phaseAB = s1 at hab
    split
    · exact hab.orReset _
    · split
      · exact hab.landRest _
      · exact hab.advance.landRest _

/-! ### Start-up -/

theorem flightsAdmitted.defaultFlight (h : flightsAdmitted s) : flightsAdmitted s.defaultFlight := by
  unfold State.defaultFlight
  dsimp only
  split
  · exact h
  · split
    · exact h.of_eq (State.reportRefusal_flights ..)
    next hpass =>
      have hf : admitted _ := ⟨_, _, _, _, hpass, rfl⟩
      exact (((h.stage 0 hf).activateStaged 0 hf).of_eq (State.applyPeriod_flights _)).keepFlights _

theorem State.ready_changes (s : State) : changesOnly [.regs, .bbx, .pw] s s.ready :=
  (((s.setFld_framed _ _ _ _).1.widen).seq (State.bbxPut_framed ..).1).seq (framed_pw _ _).1

theorem flightsAdmitted.ready (h : flightsAdmitted s) : flightsAdmitted s.ready := h.of_eq s.ready_changes.flights

theorem flightsAdmitted.startFirmware (h : flightsAdmitted s) (obs : StartObs) (fw minSvn : Nat) (fell : Option (Nat × Nat)) :
    flightsAdmitted (s.startFirmware obs fw minSvn fell) := by
  have hrun := fun (v : State) (k : Ticks) => (((h.keepFlights v).setTicks k).defaultFlight).setFld Reg.RST_STATUS 31 28 6
  unfold State.startFirmware
  dsimp only
  split
  · exact (hrun _ _).ready
  · exact hrun _ _

/-! ### Every command -/

theorem slotAdmitted.dropStaged {x : FlightSlots} (h : slotAdmitted x) : slotAdmitted { x with staged := none } :=
  ⟨h.1, fun _ hg => absurd hg (by simp)⟩

theorem State.losePower_flights (s : State) : s.losePower.flights = State.reset.flights := by
  unfold State.losePower
  generalize s.bbxLose = u
  rfl

theorem flightsAdmitted.losePower (s : State) : flightsAdmitted s.losePower := flightsAdmitted_reset.of_eq s.losePower_flights

theorem flightsAdmitted.queue {v : State} (h : flightsAdmitted v) (e : keepQueue s v = .next t) : flightsAdmitted t :=
  h.of_eq (by cases e; rfl)

theorem flightsAdmitted.flightLoad (h : flightsAdmitted s) (pair : BitVec 3) (e : execFlightLoad pair s = .next t) : flightsAdmitted t := by
  refine flightsAdmitted.queue ?_ e
  split
  · exact h.setFld _ _ _ _
  · split
    · exact h
    · have hregs := (h.setReg Reg.FLT_LOAD_CTRL (wordOf pair.toNat)).setReg Reg.FLT_ADMIT_STATUS
        ((s.reg Reg.FLT_ADMIT_STATUS).setField 31 2 0x4000000)
      exact ((hregs.setFld _ _ _ _).setSlots _ (hregs.slotsOf pair.toNat).dropStaged).setLoad _

theorem flightsAdmitted.ownsFlights (h : flightsAdmitted s) (c : Instr) (howns : c.ownsFlights = true) (e : exec c s = .next t) :
    flightsAdmitted t := by
  cases c
  case landing => exact flightsAdmitted.queue h.landing e
  case flightLoad pair => exact h.flightLoad pair e
  case flightCopyComplete =>
    refine flightsAdmitted.queue ?_ e
    split
    · exact h
    · exact iteInduction (fun _ => h) fun _ => h.setLoad _
  case flightAdmissionComplete =>
    refine flightsAdmitted.queue ?_ e
    split
    · exact h
    · exact iteInduction (fun _ => h) fun _ => h.setLoad _
  case flightSwitchDrain => exact flightsAdmitted.queue (h.requestSwitch _ _ _) e
  case flightSwitchImmediate => exact flightsAdmitted.queue (h.requestSwitch _ _ _) e
  case flightSwitchApply => exact flightsAdmitted.queue (h.setSwitches _) e
  case drainTicksExpire => exact flightsAdmitted.queue (h.setSwitches _) e
  case powerOnReset => exact flightsAdmitted.queue (.losePower s) e
  case standbySupplyLost => exact flightsAdmitted.queue (.losePower s) e
  case startUp obs =>
    refine flightsAdmitted.queue ?_ e
    split
    · exact h
    · dsimp only
      split
      · exact (h.keepFlights _).keepFlights _
      · exact (h.keepFlights _).startFirmware _ _ _ _
  all_goals exact Bool.noConfusion howns

theorem flightsAdmitted.spares {o : Host.Outcome State Fault Refusal} (h : flightsAdmitted s) (hspares : SparesFlights s o)
    (e : o = .next t) : flightsAdmitted t := by
  cases hspares with
  | kept hkept => exact h.of_eq (hkept.inv e).2.1
  | run u => cases e; exact h.of_eq rfl
  | stop u => cases e; exact (h.orReset u).of_eq rfl

theorem flightsAdmitted.exec_of_notWrite (h : flightsAdmitted s) (c : Instr) (hwrite : c.isRegisterWrite = false) (e : exec c s = .next t) :
    flightsAdmitted t := by
  cases howns : c.ownsFlights with
  | false => exact h.spares (exec_sparesFlights c s howns hwrite) e
  | true => exact h.ownsFlights c howns e

theorem flightsAdmitted.exec (h : flightsAdmitted s) (c : Instr) (e : Machine.exec c s = .next t) : flightsAdmitted t := by
  cases hwrite : c.isRegisterWrite with
  | false => exact h.exec_of_notWrite c hwrite e
  | true =>
    obtain ⟨fn, off, v, hexec⟩ := exec_eq_execRegisterWrite hwrite s
    rcases execRegisterWrite_actsAsOther fn off v s with ⟨u, hu⟩ | ⟨d, u, hd, hu, hus⟩
    · exact h.of_eq ((Kept.next u).inv (hu.symm.trans (hexec.symm.trans e))).2.1
    · have hadm : flightsAdmitted u := by
        rcases hus with rfl | ⟨w, rfl⟩
        · exact h
        · exact h.setFld _ _ _ _
      exact hadm.exec_of_notWrite d hd (hu.symm.trans (hexec.symm.trans e))

/-- Settles O28: loads stage only what `admitImage` passed, and every other operation on the slots moves or drops images. -/
theorem admittedFlightsStay : Obligations.AdmittedFlightsStay := by
  intro s t h e
  unfold step at e
  split at e
  · cases e
    exact h.of_eq rfl
  next c rest _ => exact flightsAdmitted.exec (s := { s with pending := rest }) (h.of_eq rfl) c e

/-- Settles O29: no slot holds an image after reset. -/
theorem admittedFlightsAtReset : Obligations.AdmittedFlightsAtReset := flightsAdmitted_reset

end Sys2Proof.Machine
end

section
/-! SUPPORT. The clauses of the matrix, vector and in-stack units, each settled by the laws of its routine (R137 to R269). -/

namespace Sys2Proof.Machine

set_option Elab.async false

variable {s t : State}

/-- TCK_OVERRUN as an overrun of `n` cycles leaves it, with the boundaries shifted. -/
def State.overrunShown (s : State) (n : Nat) : State :=
  let u := (s.count Reg.TCK_OVERRUN 31 20 1).setFld Reg.TCK_OVERRUN 19 0 (Nat.min n 0xFFFFF)
  { u with tk := { u.tk with now := u.tk.now + n * s.fld Reg.TCK_STRETCH 8 0 / 600 } }

theorem State.overrunShown_framed (s : State) (n : Nat) : framed [.regs, .now] [Reg.TCK_OVERRUN] s (s.overrunShown n) :=
  (((s.count_framed _ _ _ _).widen).seq (State.setFld_framed ..)).seq (framed_now _ _)

theorem State.overrunShown_now (s : State) (n : Nat) :
    (s.overrunShown n).tk.now = s.tk.now + n * s.fld Reg.TCK_STRETCH 8 0 / 600 := by
  have hcount := ((s.count_framed Reg.TCK_OVERRUN 31 20 1).trans (State.setFld_framed _ Reg.TCK_OVERRUN 19 0 (Nat.min n 0xFFFFF))).1 .now
    (by decide)
  exact congrArg (· + _) hcount

/-- Settles O3: the overrun is counted above the cycles shown, then told of; REFRESH keeps the state. -/
theorem overrunsAndRefreshes : Obligations.OverrunsAndRefreshes := by
  refine ⟨fun cycles s hrun => ?_, fun _ _ _ s => rfl⟩
  have hexec : exec (.tickOverrunEnd cycles) s =
      keep s ((s.overrunShown cycles.toNat).raisePf 0x1012 ([cycles.toNat, s.tk.count.toNat].map wordOf)) := by
    show keep s (if !s.tk.running then s else _) = _
    rw [if_neg (by simp [hrun])]
    rfl
  have hraise := State.raisePf_framed (s.overrunShown cycles.toNat) 0x1012 ([cycles.toNat, s.tk.count.toNat].map wordOf)
  have hfld : ∀ a b, ((s.overrunShown cycles.toNat).raisePf 0x1012 ([cycles.toNat, s.tk.count.toNat].map wordOf)).fld Reg.TCK_OVERRUN a b
      = ((s.count Reg.TCK_OVERRUN 31 20 1).setFld Reg.TCK_OVERRUN 19 0 (Nat.min cycles.toNat 0xFFFFF)).fld Reg.TCK_OVERRUN a b :=
    fun a b => (hraise.fld (by decide)).trans ((framed_now _ _).fld (by decide))
  refine ⟨_, hexec, ?_, ?_, ?_, ?_, ?_⟩
  · rw [State.kept_fld, hfld, State.fld_setFld_ne _ _ _ _ _ _ _ (by omega) (by omega) (by omega), State.fld_count _ _ _ _ _ (by omega) (by omega)]
  · rw [State.kept_fld, hfld, State.fld_setFld _ _ _ _ _ (by omega) (by omega)]
    exact Nat.mod_eq_of_lt ((Nat.min_le_right _ _).trans_lt (by decide))
  · rw [State.kept_tk_now]
    exact (hraise.1 .now (by decide)).trans (s.overrunShown_now _)
  · rw [State.kept_events, State.raisePf_events]
    exact congrArg (· ++ _) ((s.overrunShown_framed cycles.toNat).1 .events (by decide))
  · exact ((s.overrunShown_framed _).widen (by simp [eventParts])).seq hraise (by simp +contextual) (by simp +contextual) |>.kept

/-! ### Matrix and vector clauses -/

/-- Settles O7: `execMm_runs`, with the memories, bytes and frame of `mmRun`. -/
theorem matrixMultiply : Obligations.MatrixMultiply := by
  intro c d s hready hcheck hinside
  obtain ⟨t, hexec, hcount⟩ := execMm_runs hready hcheck hinside
  obtain ⟨hsp, hctx, hacc⟩ := mmRun_outside s c (s.physMu c.gal.toNat c.unit.toNat) d
  have hmem := hcount.mem (by simp)
  refine ⟨_, hexec, ?_, ?_, ?_, ?_, ?_⟩
  · rw [State.kept_mem, hmem, mmRun_mem]
  · rwa [State.kept_mem, hmem]
  · unfold ctxOutsideAll at hctx ⊢
    rwa [State.kept_mem, hmem]
  · rwa [State.kept_mem, hmem]
  · exact ((mmRun_framed ..).seq hcount).kept

/-- Settles O9: each operation stores its grid by `vuResult_stores`. -/
theorem vectorElementwise : Obligations.VectorElementwise := by
  intro c d s
  refine ⟨fun hr hc hv => ⟨_, execMap_runs hr hc hv, ?_, ?_⟩, fun hr hc hv => ⟨_, execAdd_runs hr hc hv, (vuResult_stores ..).ends⟩,
    fun hr hc hv => ⟨_, execSub_runs hr hc hv, (vuResult_stores ..).ends⟩, fun hr hc hv => ⟨_, execMul_runs hr hc hv, (vuResult_stores ..).ends⟩,
    fun hr hc hv => ⟨_, execMax_runs hr hc hv, (vuResult_stores ..).ends⟩, fun hr hc hv => ⟨_, execMin_runs hr hc hv, (vuResult_stores ..).ends⟩,
    fun hr hc hv => ⟨_, execFma_runs hr hc hv, (vuResult_stores ..).ends⟩,
    fun w hr hc hv hw hread => ⟨_, execInfl_runs hr hc hv hw hread, (vuResult_stores ..).ends⟩⟩
  · refine storesGrid.ends ?_
    obtain ⟨hmem, hsp, hctx, hframe⟩ := vuResult_stores s c d (mapOuts s c d) [.freeCtr]
    exact ⟨hmem, hsp, hctx, hframe.seq (framed_freeCtr _ _)⟩
  · rw [State.kept_freeCtr]
    exact (vuTally_framed ..).1 .freeCtr (by simp)

/-- Settles O10: each reduction stores its grid by `vuResult_stores`. -/
theorem vectorReductions : Obligations.VectorReductions := by
  intro c d s
  exact ⟨fun hr hc hv => ⟨_, execRsum_runs hr hc hv, (vuResult_stores ..).ends⟩,
    fun hr hc hv => ⟨_, execRsumsq_runs hr hc hv, (vuResult_stores ..).ends⟩,
    fun hr hc hv => ⟨_, execRmax_runs hr hc hv, (vuResult_stores ..).ends⟩,
    fun hr hc hv => ⟨_, execRmin_runs hr hc hv, (vuResult_stores ..).ends⟩,
    fun accIn => ⟨fun hr hc hv => ⟨_, execXred_runs hr hc hv, (vuExactSum_stores ..).ends⟩,
      fun hr hc hv => ⟨_, execXcomb_runs hr hc hv, (vuExactSum_stores ..).ends⟩⟩⟩

/-- A VU clause counted and handed on keeps a run's memories, the bytes that the run keeps and its frame. -/
theorem stays.ends {c : Issue} {d : VuDesc} {op : Nat} {x : VuExtra} {g : Nat} {qs : List (Option Seat)} {sp cx : List (Nat × Nat)}
    {ps : List Part} {u : State} (h : stays g qs sp cx s u) (hf : framed ps [] s u) (hcnt : Part.cnt ∈ ps := by simp) :
    (s.kept (vuTally u c op d x)).mem = u.mem
    ∧ sameOutside (spKey g 0) sp s.mem.sp (s.kept (vuTally u c op d x)).mem.sp
    ∧ ctxOutsideAll s (s.kept (vuTally u c op d x)) g qs cx
    ∧ framed ps [] s (s.kept (vuTally u c op d x)) := by
  obtain ⟨hsp, hctx, -⟩ := h
  have hcount := vuTally_framed u c op d x
  have hmem := hcount.mem (by simp)
  refine ⟨?_, ?_, ?_, (hf.seq hcount (by simpa using hcnt)).kept⟩
  · rw [State.kept_mem, hmem]
  · rwa [State.kept_mem, hmem]
  · unfold ctxOutsideAll at hctx ⊢
    rwa [State.kept_mem, hmem]

/-- R263 stores the serving copies of SIGN_UPDATE as BF16, or does not store them. -/
theorem signOk_fmt {c : Issue} {d : VuDesc} {w : SignWords} (h : signOk c d w = true) : d.d.fmt = 15 ∨ d.d.fmt = 2 := by
  have hrules := (firstFail_none _).mp (Option.isNone_iff_eq_none.mp h) (d.d.fmt == 15 || d.d.fmt == 2, d.d.fmt.toNat, 0) (by simp [signRules])
  simpa using hrules

/-- Settles O12: the routines' own runs, with the bytes of `Laws/Routines`. -/
theorem vectorRoutines : Obligations.VectorRoutines := by
  intro c d s
  refine ⟨fun w hr hc hv ho hi => ⟨_, execCompress_runs hr hc hv ho hi, (compressRun_stays c d w s).ends (compressRun_framed c d w s)⟩,
    fun w hr hc hv ho hi => ⟨_, execSolveSpd_runs hr hc hv ho hi,
      (solveRun_stays c d w s).ends ((solveRun_framed c d w s).widen (by simp +contextual))⟩,
    fun w hr hc hv ho hi => ⟨_, execSignUpdate_runs hr hc hv ho hi,
      (signRun_stays c d w s ?_).ends ((signRun_framed c d w s).widen (by simp +contextual))⟩⟩
  exact signOk_fmt ho

/-- Settles O11: TOPK writes its indices and then its values; EXPAND stores one grid. -/
theorem vectorSelections : Obligations.VectorSelections := by
  intro c d s
  refine ⟨fun hr hc hv hy => ?_, fun w hr hc hv ho hi => ⟨_, execExpand_runs hr hc hv ho hi, (vuResult_stores ..).ends⟩⟩
  have hidx := vuWrite_framed s c.gal.toNat (s.seatAt c.gal.toNat c.seat.toNat) d.y (topIdxs s c d)
  obtain ⟨hspY, hctxY⟩ := vuWrite_outside s c.gal.toNat (s.seatAt c.gal.toNat c.seat.toNat) d.y (topIdxs s c d)
  refine ⟨_, execTopk_runs hr hc hv hy, ?_⟩
  generalize vuWrite s c.gal.toNat (s.seatAt c.gal.toNat c.seat.toNat) d.y (topIdxs s c d) = u at hidx hspY hctxY
  obtain ⟨hmem, hspD, hctxD, hframe⟩ := (vuResult_stores u c d (topVals s c d) []).count (vuTally_framed _ c 0x14 d vuPlain)
  have hseat : u.seatAt c.gal.toNat c.seat.toNat = s.seatAt c.gal.toNat c.seat.toNat := State.seatAt_of (hidx.1 .seats (by simp)) _ _
  rw [hseat] at hmem hctxD
  refine ⟨?_, ?_, ?_, ((hidx.widen).trans hframe).kept⟩
  · rwa [State.kept_mem]
  · rw [State.kept_mem, List.append_assoc]
    exact hspY.append hspD
  · have hctx := (hctxY.mono (rs' := ctxRuns d.y (topIdxs s c d) ++ ctxRuns d.d (topVals s c d)) (by simp +contextual)).trans
      (hctxD.mono (by simp +contextual)) fun h => State.curHalf_of (hidx.1 .reqs (by simp)) h
    unfold ctxOutside at hctx ⊢
    rwa [State.kept_mem]

/-! ### Moves of a matrix unit -/

/-- The word that SCALE_LOAD takes from place `i` of its source. -/
theorem wordAt_numsOf_memRead (m : Mem) (a n i : Nat) (h : i < n) :
    wordAt ((numsOf 4 n (memRead m a (4 * n))).map wordOf) i = wordOf (natOfBytes (memRead m (a + 4 * i) 4)) := by
  unfold wordAt
  rw [List.getD_eq_getElem?_getD, List.getElem?_map, numsOf_get 4 n _ i h, memRead_slice m a (4 * n) (4 * i) 4 (by omega)]
  rfl

/-- The scale registers as SCALE_LOAD leaves them. -/
def scaleLoaded (m : SMap Word) (key n : Nat) (ws : List Word) : SMap Word :=
  (List.range n).foldl (fun mp i => smSet (fun _ => 0x7FC00000#32) mp (key + i) (wordAt ws i)) m

theorem smGet_scaleLoaded (m : SMap Word) (key n : Nat) (ws : List Word) (j : Nat) :
    smGet (fun _ => 0x7FC00000#32) (scaleLoaded m key n ws) j
      = if key ≤ j ∧ j < key + n then wordAt ws (j - key) else smGet (fun _ => 0x7FC00000#32) m j :=
  smGet_fold _ _ _ _ _ _

theorem memRead_write_of_length (m : Mem) (a : Nat) {bs : List Byte} {n : Nat} (h : bs.length = n) : memRead (memWrite m a bs) a n = bs := by
  rw [← h, memRead_write]

theorem State.spWrite_outside_of_length (s : State) (g off : Nat) {bs : List Byte} {n : Nat} (h : bs.length = n) :
    sameOutside (spKey g 0) [(off, n)] s.mem.sp (s.spWrite g off bs).mem.sp := by
  rw [← h]
  exact s.spWrite_outside g off bs

/-- A clause counted, with its scratchpad lines. -/
theorem State.tallied_framed (s : State) (c : Issue) (block g master event : Nat) (q : Option Seat) (lines : List (Nat × Nat)) :
    framed [.cnt] [] s ((s.tallyClause c block).tallySp g master event q lines) :=
  (s.tallyClause_framed c block).trans (State.tallySp_framed ..)

/-- The state in which SCALE_LOAD has copied its words. -/
def State.scaleLoad (s : State) (g m : Nat) (d : ScaleLoadDesc) : State :=
  let ws := (numsOf 4 d.count.toNat (memRead s.mem.sp (spKey g d.srcOff.toNat) (4 * d.count.toNat))).map wordOf
  { s with mem := { s.mem with scale := scaleLoaded s.mem.scale ((16 * g + m) * 4096 + d.reg0.toNat) d.count.toNat ws } }

theorem State.scaleLoad_scale (s : State) (g m : Nat) (d : ScaleLoadDesc) (r : Nat) :
    smGet (fun _ => 0x7FC00000#32) (s.scaleLoad g m d).mem.scale ((16 * g + m) * 4096 + r) =
      if d.reg0.toNat ≤ r ∧ r < d.reg0.toNat + d.count.toNat then
        wordOf (natOfBytes (memRead s.mem.sp (spKey g (d.srcOff.toNat + 4 * (r - d.reg0.toNat))) 4))
      else smGet (fun _ => 0x7FC00000#32) s.mem.scale ((16 * g + m) * 4096 + r) := by
  refine (smGet_scaleLoaded _ _ _ _ _).trans ?_
  by_cases hr : d.reg0.toNat ≤ r ∧ r < d.reg0.toNat + d.count.toNat
  · rw [if_pos hr, if_pos (by omega), wordAt_numsOf_memRead _ _ _ _ (by omega),
      show (16 * g + m) * 4096 + r - ((16 * g + m) * 4096 + d.reg0.toNat) = r - d.reg0.toNat by omega, spKey, spKey, Nat.add_assoc]
  · rw [if_neg hr, if_neg (by omega)]

theorem execScaleLoad_runs {c : Issue} {d : ScaleLoadDesc} (hready : s.muReady c (.scaleLoad d) = true) (hok : scaleLoadOk d = true)
    (hinside : d.srcOff.toNat + 4 * d.count.toNat ≤ spSize) :
    ∃ t, execScaleLoad c d s = .next (s.kept t) ∧ framed [.cnt] [] (s.scaleLoad c.gal.toNat (s.physMu c.gal.toNat c.unit.toNat) d) t := by
  unfold execScaleLoad
  dsimp only
  rw [if_neg (by simpa [hready, hok, extentOk] using hinside)]
  exact ⟨_, rfl, State.tallied_framed ..⟩

theorem execAccSave_runs {c : Issue} {d : AccMoveDesc} (hready : s.muReady c (.accMove 2 d) = true) (hok : accMoveOk d = true)
    (hinside : d.spOff.toNat + 8192 * d.len.toNat ≤ spSize) :
    ∃ t, execAccSave c d s = .next (s.kept t) ∧ framed [.cnt] [] (s.spWrite c.gal.toNat d.spOff.toNat
      (memRead s.mem.acc (accKey c.gal.toNat (s.physMu c.gal.toNat c.unit.toNat) (8192 * d.accBase.toNat)) (8192 * d.len.toNat))) t := by
  unfold execAccSave
  dsimp only
  rw [if_neg (by simpa [hready, hok, extentOk] using hinside)]
  exact ⟨_, rfl, State.tallied_framed ..⟩

theorem execAccRestore_runs {c : Issue} {d : AccMoveDesc} (hready : s.muReady c (.accMove 3 d) = true) (hok : accMoveOk d = true)
    (hinside : d.spOff.toNat + 8192 * d.len.toNat ≤ spSize) :
    ∃ t, execAccRestore c d s = .next (s.kept t) ∧ framed [.cnt] [] (s.accWrite c.gal.toNat (s.physMu c.gal.toNat c.unit.toNat)
      (8192 * d.accBase.toNat) (memRead s.mem.sp (spKey c.gal.toNat d.spOff.toNat) (8192 * d.len.toNat))) t := by
  unfold execAccRestore
  dsimp only
  rw [if_neg (by simpa [hready, hok, extentOk] using hinside)]
  exact ⟨_, rfl, State.tallied_framed ..⟩

/-- Settles O8: the words or bytes copied stand at their place, by the memory laws. -/
theorem matrixMoves : Obligations.MatrixMoves := by
  intro c s
  refine ⟨fun d hready hone hregs halign hinside => ?_, fun d hok hinside => ⟨fun hready => ?_, fun hready => ?_⟩⟩
  · obtain ⟨t, hexec, hcount⟩ := execScaleLoad_runs hready (by simp [scaleLoadOk, hone, hregs, halign]) hinside
    have hmem := hcount.mem (by simp)
    refine ⟨_, hexec, fun r => ?_, fun k hk => ?_, ?_⟩
    · rw [State.kept_mem, hmem, State.scaleLoad_scale]
    · rw [State.kept_mem, hmem]
      exact (smGet_scaleLoaded s.mem.scale _ d.count.toNat _ k).trans (if_neg (by omega))
    · exact (((framed_scale s _).widen).seq hcount).kept
  · obtain ⟨t, hexec, hcount⟩ := execAccSave_runs hready hok hinside
    have hmem := hcount.mem (by simp)
    refine ⟨_, hexec, ?_, ?_, (((State.spWrite_framed ..).widen).seq hcount).kept⟩
    · rw [State.kept_mem, hmem]
      exact memRead_write_of_length _ _ (memRead_length _ _ _)
    · rw [State.kept_mem, hmem]
      exact s.spWrite_outside_of_length _ _ (memRead_length _ _ _)
  · obtain ⟨t, hexec, hcount⟩ := execAccRestore_runs hready hok hinside
    have hmem := hcount.mem (by simp)
    refine ⟨_, hexec, ?_, ?_, (((State.accWrite_framed ..).widen).seq hcount).kept⟩
    · rw [State.kept_mem, hmem]
      exact memRead_write_of_length _ _ (memRead_length _ _ _)
    · rw [State.kept_mem, hmem]
      exact s.accWrite_outside _ _ _ _ _ (memRead_length _ _ _).le (List.mem_singleton.mpr rfl)

end Sys2Proof.Machine
end

section
/-! SUPPORT. In-stack updates, grids read back and the windows of counters (R132, R133, R267 to R269, R488, R489). -/

namespace Sys2Proof.Machine

set_option Elab.async false

variable {s t u : State}

/-! ### In-stack update engines -/

/-- What an ISU clause stores in its space. -/
theorem State.isuWrite_framed (s : State) (sp : IsuSpace) (off : Nat) (bs : List Byte) : framed [.hbm, .slot] [] s (s.isuWrite sp off bs) := by
  cases sp with
  | stack n => exact (framed_hbm s _).widen
  | slot n cur => exact (framed_slot s _).widen
  | nowhere => exact .refl

theorem slotKey_add (slot plane off : Nat) : slotKey slot plane off = slotKey slot plane 0 + off := by simp [slotKey]

theorem State.isuWrite_stores (s : State) (sp : IsuSpace) (off : Nat) (bs : List Byte) : isuStores sp off bs s (s.isuWrite sp off bs) := by
  cases sp with
  | stack n => exact ⟨memRead_write .., sameOutside.write s.mem.hbm (n * 0x1000000000) off bs, rfl⟩
  | slot n cur =>
    refine ⟨memRead_write .., ?_, rfl⟩
    have hout := sameOutside.write s.mem.slot (slotKey n (1 - cur) 0) off bs
    rwa [← slotKey_add] at hout
  | nowhere => exact ⟨rfl, rfl⟩

theorem isuStores.of_mem {sp : IsuSpace} {off : Nat} {bs : List Byte} (h : isuStores sp off bs s t) (hhbm : u.mem.hbm = t.mem.hbm)
    (hslot : u.mem.slot = t.mem.slot) : isuStores sp off bs s u := by
  cases sp with
  | stack n => unfold isuStores at h ⊢; dsimp only at h ⊢; rwa [hhbm, hslot]
  | slot n cur => unfold isuStores at h ⊢; dsimp only at h ⊢; rwa [hhbm, hslot]
  | nowhere => unfold isuStores at h ⊢; dsimp only at h ⊢; rwa [hhbm, hslot]

theorem State.isuTally_framed (s : State) (c : Issue) (params bytes : Nat) (acted : Bool) :
    framed [.cnt] [] s (s.isuTally c params bytes acted) := by
  have hcount := s.tallyClause_framed c (0x20 * c.gal.toNat + 20 + c.unit.toNat)
  exact .ite (fun _ => hcount) fun _ => ((hcount.trans (State.tally_framed ..)).trans (State.tally_framed ..)).trans (State.tally_framed ..)

/-- The bytes of an area as `State.areaPut` writes them. -/
def areaBytes (norm : Bool) (words : List Word) : List Byte :=
  (if norm then
      ((words.take 12 ++ [0, 0, 0, 0]) ++ ((words.drop 12).take 12 ++ [0, 0, 0, 0]) ++ ((words.drop 24).take 12 ++ [0, 0, 0, 0]))
    else words.take 14 ++ [0, 0]).flatMap Word.bytes

theorem State.areaPut_ctx (s : State) (c : Issue) (q : Seat) (norm : Bool) (index off : Nat) (words : List Word) :
    (s.areaPut c q norm index off words).mem.ctx
      = memWrite s.mem.ctx (ctxKey q.handle c.gal.toNat (1 - s.curHalf q.handle) off) (areaBytes norm words) := rfl

theorem State.areaPut_ctxFramed (s : State) (c : Issue) (q : Seat) (norm : Bool) (index off : Nat) (words : List Word) :
    framed [.ctx, .pend] [] s (s.areaPut c q norm index off words) :=
  ((framed_ctx s _).widen).seq (State.pendPut_framed ..)

theorem State.addNorms_ctxFramed (s : State) (c : Issue) (layer normOff group sumOff : Nat) (us : List Updated) :
    framed [.ctx, .pend] [] s (s.addNorms c layer normOff group sumOff us) := by
  unfold State.addNorms
  split
  · exact .refl
  · exact (s.areaPut_ctxFramed ..).trans (State.areaPut_ctxFramed ..)

theorem State.addZeros_ctxFramed (s : State) (c : Issue) (layer normOff group sumOff : Nat) :
    framed [.ctx, .pend] [] s (s.addZeros c layer normOff group sumOff) := by
  unfold State.addZeros
  split
  · exact .refl
  · exact (s.areaPut_ctxFramed ..).trans (State.areaPut_ctxFramed ..)

theorem State.areaWords_of (hpend : t.tk.pend = s.tk.pend) (hreqs : t.hs.reqs = s.hs.reqs) (h g off : Nat) :
    t.areaWords h g off = s.areaWords h g off := by
  unfold State.areaWords State.reqAt
  rw [hpend, hreqs]

/-- What the norms add to the contexts depends on the contexts, the seats, the requests and what waits for the commit alone. -/
theorem State.addNorms_ctx_of (hctx : t.mem.ctx = s.mem.ctx) (hseats : t.tk.seats = s.tk.seats) (hpend : t.tk.pend = s.tk.pend)
    (hreqs : t.hs.reqs = s.hs.reqs) (c : Issue) (layer normOff group sumOff : Nat) (us : List Updated) :
    (t.addNorms c layer normOff group sumOff us).mem.ctx = (s.addNorms c layer normOff group sumOff us).mem.ctx := by
  unfold State.addNorms
  rw [State.seatAt_of hseats]
  split
  · exact hctx
  next q _ =>
    dsimp only
    rw [State.areaWords_of hpend hreqs, State.areaWords_of hpend hreqs, State.areaPut_ctx, State.areaPut_ctx, State.areaPut_ctx,
      State.areaPut_ctx, hctx, State.curHalf_of hreqs]
    rw [State.curHalf_of ((State.areaPut_ctxFramed ..).1 .reqs (by simp)), State.curHalf_of hreqs,
      State.curHalf_of (s := s) ((State.areaPut_ctxFramed ..).1 .reqs (by simp))]

/-- The parameters that an UPDATE computes from its space. -/
def State.updated (s : State) (c : Issue) (d : IsuDesc) : List Updated :=
  updateAll (s.stepBlock c.gal.toNat (s.seatAt c.gal.toNat c.seat.toNat) 0 d.group.toNat)
    (numsOf 4 d.params.toNat (s.isuRead (s.isuSpace c d) 2 (64 * d.gAddr64.toNat) (4 * d.params.toNat)))
    (numsOf 8 d.params.toNat (s.isuRead (s.isuSpace c d) 0 (64 * d.recIn64.toNat) (8 * d.params.toNat)))

/-- The serving words that a PUBLISH takes from the records. -/
def State.published (s : State) (c : Issue) (d : IsuDesc) : List Byte :=
  (numsOf 8 d.params.toNat (s.isuRead (s.isuSpace c d) 1 (64 * d.recOut64.toNat) (8 * d.params.toNat))).flatMap fun v =>
    bytesOfNat 2 (v / 0x1000000000000)

section
variable {c : Issue} {d : IsuDesc}

theorem execUpdate_runs (hok : isuOk c d = true) (hready : s.isuReady c (.isu 1 d) = true) (hsp : s.isuSpace c d ≠ .nowhere)
    (hg : isuInside (s.isuSpace c d) (64 * d.gAddr64.toNat) (4 * d.params.toNat) = true)
    (hi : isuInside (s.isuSpace c d) (64 * d.recIn64.toNat) (8 * d.params.toNat) = true)
    (ho : isuInside (s.isuSpace c d) (64 * d.recOut64.toNat) (8 * d.params.toNat) = true) :
    execUpdate c d s = keep s ((((s.isuWrite (s.isuSpace c d) (64 * d.recOut64.toNat) ((s.updated c d).flatMap recordBytes)).addNorms c
      d.layer.toNat d.normOff.toNat d.group.toNat d.sumOff.toNat (s.updated c d))).isuTally c d.params.toNat (20 * d.params.toNat) true) := by
  unfold execUpdate
  dsimp only
  rw [if_neg (by simp [hready, hok]), if_neg hsp, if_neg (by simp [hg, hi, ho])]
  rfl

theorem execUpdate_nowhere (hok : isuOk c d = true) (hready : s.isuReady c (.isu 1 d) = true) (hsp : s.isuSpace c d = .nowhere) :
    execUpdate c d s = keep s ((s.addZeros c d.layer.toNat d.normOff.toNat d.group.toNat d.sumOff.toNat).isuTally c d.params.toNat 0 false) := by
  unfold execUpdate
  dsimp only
  rw [if_neg (by simp [hready, hok]), if_pos hsp]

theorem execPublish_runs (hok : isuOk c d = true) (hready : s.isuReady c (.isu 2 d) = true) (hsp : s.isuSpace c d ≠ .nowhere)
    (ho : isuInside (s.isuSpace c d) (64 * d.recOut64.toNat) (8 * d.params.toNat) = true)
    (hp : isuInside (s.isuSpace c d) (64 * d.pub64.toNat) (2 * d.params.toNat) = true) :
    execPublish c d s = keep s ((s.isuWrite (s.isuSpace c d) (64 * d.pub64.toNat) (s.published c d)).isuTally c 0 (10 * d.params.toNat) true) := by
  unfold execPublish
  dsimp only
  rw [if_neg (by simp [hready, hok]), if_neg hsp, if_neg (by simp [ho, hp])]
  rfl

theorem execPublish_nowhere (hok : isuOk c d = true) (hready : s.isuReady c (.isu 2 d) = true) (hsp : s.isuSpace c d = .nowhere) :
    execPublish c d s = keep s (s.isuTally c 0 0 false) := by
  unfold execPublish
  dsimp only
  rw [if_neg (by simp [hready, hok]), if_pos hsp]

end

/-- The seat's areas alone take an UPDATE's sums. -/
theorem ctxOutsideAll.addNorms (s : State) (c : Issue) (layer normOff group sumOff : Nat) (us : List Updated) :
    ctxOutsideAll s (s.addNorms c layer normOff group sumOff us) c.gal.toNat [s.seatAt c.gal.toNat c.seat.toNat]
      (areaRuns layer normOff group sumOff) := by
  obtain ⟨-, hctx, -⟩ := (stays.refl (g := c.gal.toNat) (qs := [s.seatAt c.gal.toNat c.seat.toNat]) (sp := []) (s := s)).addNorms
    (us := us) (fun _ => id) (.inr (List.mem_singleton.mpr rfl))
  exact hctx

theorem ctxOutsideAll.addZeros (s : State) (c : Issue) (layer normOff group sumOff : Nat) :
    ctxOutsideAll s (s.addZeros c layer normOff group sumOff) c.gal.toNat [s.seatAt c.gal.toNat c.seat.toNat]
      (areaRuns layer normOff group sumOff) := by
  obtain ⟨-, hctx, -⟩ := (stays.refl (g := c.gal.toNat) (qs := [s.seatAt c.gal.toNat c.seat.toNat]) (sp := []) (s := s)).addZeros
    (fun _ => id) (.inr (List.mem_singleton.mpr rfl))
  exact hctx

theorem ctxOutsideAll.of_ctx {g : Nat} {qs : List (Option Seat)} {rs : List (Nat × Nat)} (h : ctxOutsideAll s t g qs rs)
    (e : u.mem.ctx = t.mem.ctx) : ctxOutsideAll s u g qs rs := by
  unfold ctxOutsideAll at h ⊢
  rwa [e]

/-- Settles O14: the engine's store, then the sums in the seat's context. -/
theorem inStackUpdates : Obligations.InStackUpdates := by
  intro c d s hok
  refine ⟨fun hready hsp hg hi ho => ⟨_, execUpdate_runs hok hready hsp hg hi ho, ?_⟩,
    fun hready hsp => ⟨_, execUpdate_nowhere hok hready hsp, ?_⟩,
    fun hready hsp ho hp => ⟨_, execPublish_runs hok hready hsp ho hp, ?_⟩,
    fun hready hsp => ⟨_, execPublish_nowhere hok hready hsp, (s.isuTally_framed ..).kept⟩⟩
  · have hwrite := s.isuWrite_framed (s.isuSpace c d) (64 * d.recOut64.toNat) ((s.updated c d).flatMap recordBytes)
    have hstores := s.isuWrite_stores (s.isuSpace c d) (64 * d.recOut64.toNat) ((s.updated c d).flatMap recordBytes)
    generalize s.isuWrite (s.isuSpace c d) (64 * d.recOut64.toNat) ((s.updated c d).flatMap recordBytes) = v at hwrite hstores
    have hnorms := v.addNorms_ctxFramed c d.layer.toNat d.normOff.toNat d.group.toNat d.sumOff.toNat (s.updated c d)
    have hctx := State.addNorms_ctx_of (hwrite.1 .ctx (by simp)) (hwrite.1 .seats (by simp)) (hwrite.1 .pend (by simp))
      (hwrite.1 .reqs (by simp)) c d.layer.toNat d.normOff.toNat d.group.toNat d.sumOff.toNat (s.updated c d)
    generalize v.addNorms c d.layer.toNat d.normOff.toNat d.group.toNat d.sumOff.toNat (s.updated c d) = w at hnorms hctx
    have hmem := (w.isuTally_framed c d.params.toNat (20 * d.params.toNat) true).mem (by simp)
    refine ⟨?_, ?_, ?_, ?_⟩
    · refine hstores.of_mem ?_ ?_
      · rw [State.kept_mem, hmem]
        exact hnorms.1 .hbm (by simp)
      · rw [State.kept_mem, hmem]
        exact hnorms.1 .slot (by simp)
    · rw [State.kept_mem, hmem]
      exact hctx
    · refine (ctxOutsideAll.addNorms s c _ _ _ _ (s.updated c d)).of_ctx ?_
      rw [State.kept_mem, hmem, hctx]
    · exact (((hwrite.widen).seq hnorms).seq (w.isuTally_framed ..)).kept
  · have hzeros := s.addZeros_ctxFramed c d.layer.toNat d.normOff.toNat d.group.toNat d.sumOff.toNat
    have hout := ctxOutsideAll.addZeros s c d.layer.toNat d.normOff.toNat d.group.toNat d.sumOff.toNat
    generalize s.addZeros c d.layer.toNat d.normOff.toNat d.group.toNat d.sumOff.toNat = w at hzeros hout
    have hmem := (w.isuTally_framed c d.params.toNat 0 false).mem (by simp)
    refine ⟨?_, hout.of_ctx ?_, ((hzeros.widen).seq (w.isuTally_framed ..)).kept⟩
    · rw [State.kept_mem, hmem]
    · rw [State.kept_mem, hmem]
  · have hwrite := s.isuWrite_framed (s.isuSpace c d) (64 * d.pub64.toNat) (s.published c d)
    have hstores := s.isuWrite_stores (s.isuSpace c d) (64 * d.pub64.toNat) (s.published c d)
    generalize s.isuWrite (s.isuSpace c d) (64 * d.pub64.toNat) (s.published c d) = w at hwrite hstores
    have hmem := (w.isuTally_framed c 0 (10 * d.params.toNat) true).mem (by simp)
    refine ⟨hstores.of_mem ?_ ?_, ((hwrite.widen).seq (w.isuTally_framed ..)).kept⟩
    · rw [State.kept_mem, hmem]
    · rw [State.kept_mem, hmem]

/-! ### Grids read back -/

/-- A run read is the same in a memory with the same bytes. -/
theorem memRead_congr {m m' : Mem} {a n : Nat} (h : ∀ k, a ≤ k → k < a + n → memByte m' k = memByte m k) : memRead m' a n = memRead m a n := by
  apply List.ext_getElem?
  intro i
  by_cases hi : i < n
  · rw [memRead_get _ _ _ _ hi, memRead_get _ _ _ _ hi, h _ (by omega) (by omega)]
  · rw [List.getElem?_eq_none (by rw [memRead_length]; omega), List.getElem?_eq_none (by rw [memRead_length]; omega)]

/-- The first `n` rows of a grid stored in scratchpad. -/
def spRowsWrite (s : State) (g off pitch n : Nat) (row : Nat → List Byte) : State :=
  (List.range n).foldl (fun u i => u.spWrite g (off + i * pitch) (row i)) s

theorem spRowsWrite_succ (s : State) (g off pitch n : Nat) (row : Nat → List Byte) :
    spRowsWrite s g off pitch (n + 1) row = (spRowsWrite s g off pitch n row).spWrite g (off + n * pitch) (row n) := by
  rw [spRowsWrite, List.range_succ, List.foldl_append]
  rfl

theorem spRowsWrite_read (s : State) (g off pitch n : Nat) (row : Nat → List Byte) (hrow : ∀ i < n, (row i).length ≤ pitch) :
    ∀ i < n, memRead (spRowsWrite s g off pitch n row).mem.sp (spKey g (off + i * pitch)) (row i).length = row i := by
  induction n with
  | zero => intro i hi; omega
  | succ n ih =>
    intro i hi
    rw [spRowsWrite_succ]
    rcases Nat.lt_succ_iff_lt_or_eq.mp hi with hlt | rfl
    · refine (memRead_congr fun k hk hk' => ?_).trans (ih (fun j hj => hrow j (by omega)) i hlt)
      refine memByte_write_out _ _ _ _ (.inl ?_)
      have hnext : (i + 1) * pitch ≤ n * pitch := Nat.mul_le_mul_right _ hlt
      have hlen := hrow i (by omega)
      rw [Nat.succ_mul] at hnext
      unfold spKey at hk hk' ⊢
      omega
    · exact memRead_write ..

theorem vuWrite_eq_spRowsWrite (s : State) (g : Nat) (q : Option Seat) (o : VuOperand) (grid : List (List VuOut)) (hctx : o.ctx = false)
    (htrn : o.trn = false) : vuWrite s g q o grid = spRowsWrite s g o.off.toNat o.pitch.toNat grid.length (vuLineBytes o grid) := by
  unfold vuWrite spRowsWrite vuLineBytes State.opWrite
  simp [hctx, htrn]

/-- Settles O13: a later row's bytes lie past the earlier rows. -/
theorem vectorStoresReadBack : Obligations.VectorStoresReadBack := by
  intro s g q o grid hctx htrn hrow i hi
  rw [vuWrite_eq_spRowsWrite s g q o grid hctx htrn]
  exact spRowsWrite_read s g _ _ _ _ hrow i hi

/-! ### Windows of the monitors and of calibration -/

theorem BwMon.fresh_close : BwMon.fresh.close = BwMon.fresh := rfl

/-- Every monitor of a map changed by a function that leaves a fresh one as it is. -/
theorem smGet_mapBw (f : BwMon → BwMon) (hfresh : f BwMon.fresh = BwMon.fresh) (m : SMap BwMon) (k : Nat) :
    smGet (fun _ => BwMon.fresh) (m.foldr (fun p m => smSet (fun _ => BwMon.fresh) m p.1 (f p.2)) []) k
      = f (smGet (fun _ => BwMon.fresh) m k) := by
  induction m with
  | nil => exact hfresh.symm
  | cons p m ih =>
    rw [List.foldr_cons, smGet_set, ih, smGet]
    split <;> rfl

/-- The monitors restarted at the close of their window. -/
def State.bwClosed (s : State) : State :=
  { s.mapBw BwMon.close with cnt := { (s.mapBw BwMon.close).cnt with bwTicks := 0 } }

theorem State.bwClosed_framed (s : State) : framed [.cnt] [] s s.bwClosed := (s.mapBw_framed _).trans (framed_cnt _ _)

theorem State.bwClose_eq (s : State) : s.bwClose = if (s.reg Reg.CNT_BW_CFG).bit 31 then
    s.bwClosed.raisePf 0xA002 [wordOf (s.fld Reg.CNT_BW_CFG 15 0), wordOf s.tk.count.toNat] else s.bwClosed := rfl

theorem State.bwClose_cnt (s : State) : s.bwClose.cnt = s.bwClosed.cnt := by
  rw [State.bwClose_eq]
  split
  · exact (State.raisePf_framed ..).1 .cnt (by decide)
  · rfl

theorem State.bwClose_events (s : State) : s.bwClose.events = s.events ++ (if (s.reg Reg.CNT_BW_CFG).bit 31 then
    [⟨0xA002, none, [wordOf (s.fld Reg.CNT_BW_CFG 15 0), wordOf s.tk.count.toNat], []⟩] else []) := by
  rw [State.bwClose_eq]
  split
  · rw [State.raisePf_events]
    exact congrArg (· ++ _) (s.bwClosed_framed.1 .events (by decide))
  · exact (s.bwClosed_framed.1 .events (by decide)).trans (List.append_nil _).symm

/-- The registers that the close of a calibration slot writes. -/
def calRegs (g n : Nat) : List Nat := [Reg.GAL_CAL_SAT g n, Reg.GAL_CAL_ELEM_LO g n, Reg.GAL_CAL_ELEM_HI g n]

/-- The counts of a calibration slot copied to its registers and restarted. -/
def State.calCopied (s : State) (g n : Nat) : State :=
  ((s.setReg (Reg.GAL_CAL_SAT g n) (wordOf (Nat.min (s.calAt g n).sat 0xFFFFFFFF))).setReg64 (Reg.GAL_CAL_ELEM_LO g n)
    (Reg.GAL_CAL_ELEM_HI g n) (s.calAt g n).elem).calRestart g n

/-- A calibration slot in use names an owner that its counts can be told to. -/
def State.calInUse (s : State) (g n : Nat) : Prop :=
  (s.reg (Reg.GAL_CAL_CFG g n)).bit 31 = true
    ∧ ((s.reg (Reg.GAL_CAL_CFG g n)).field 30 24 < 64 ∨ (s.reg (Reg.GAL_CAL_CFG g n)).field 30 24 = 0x7F)

theorem State.calCopied_framed (s : State) (g n : Nat) : framed [.cal, .regs] (calRegs g n) s (s.calCopied g n) :=
  (((s.setReg_framed _ _).widen (by simp) (by simp [calRegs])).seq (State.setReg64_framed ..) (by simp) (by simp +contextual [calRegs])).seq
    (framed_cal _ _)

/-- The close of a slot copies its counts when it is in use, and then tells of drift alone. -/
theorem State.calCloseSlot_cases (s : State) (g n : Nat) :
    (¬s.calInUse g n ∧ s.calCloseSlot g n = s) ∨ (s.calInUse g n ∧ framed eventParts eventRegs (s.calCopied g n) (s.calCloseSlot g n)) := by
  unfold State.calCloseSlot
  dsimp only
  by_cases hskip : (!(s.reg (Reg.GAL_CAL_CFG g n)).bit 31) = true ∨
      (!(decide ((s.reg (Reg.GAL_CAL_CFG g n)).field 30 24 < 64) || (s.reg (Reg.GAL_CAL_CFG g n)).field 30 24 == 0x7F)) = true
  · rw [if_pos hskip]
    refine .inl ⟨fun ⟨hbit, howner⟩ => ?_, rfl⟩
    simp [hbit] at hskip
    omega
  · rw [if_neg hskip]
    refine .inr ⟨?_, ?_⟩
    · have hin : (s.reg (Reg.GAL_CAL_CFG g n)).bit 31 = true
          ∧ (64 ≤ (s.reg (Reg.GAL_CAL_CFG g n)).field 30 24 → (s.reg (Reg.GAL_CAL_CFG g n)).field 30 24 = 0x7F) := by simpa using hskip
      exact ⟨hin.1, by omega⟩
    · exact .ite (fun _ => .ite (fun _ => State.raisePf_framed ..) fun _ => State.raiseInst_framed ..) fun _ => .refl

theorem State.calAt_of (h : t.cal = s.cal) (g n : Nat) : t.calAt g n = s.calAt g n := by
  unfold State.calAt
  rw [h]

theorem State.calCopied_cal (s : State) (g n : Nat) :
    (s.calCopied g n).cal = { s.cal with counts := smErase s.cal.counts (256 * g + n) } := by
  unfold State.calCopied State.calRestart
  rw [State.setReg64_cal, State.setReg_cal]

/-- A calibration slot's registers, counts and configuration agree, and so do the writes that wait. -/
def CalSlotSame (g n : Nat) (s t : State) : Prop :=
  (∀ off ∈ Reg.GAL_CAL_CFG g n :: calRegs g n, t.reg off = s.reg off) ∧ t.calAt g n = s.calAt g n ∧ t.cal.writes = s.cal.writes

theorem CalSlotSame.trans {g n : Nat} (h : CalSlotSame g n s t) (h' : CalSlotSame g n t u) : CalSlotSame g n s u := by
  obtain ⟨hreg, hcnt, hw⟩ := h
  obtain ⟨hreg', hcnt', hw'⟩ := h'
  exact ⟨fun off ho => (hreg' off ho).trans (hreg off ho), hcnt'.trans hcnt, hw'.trans hw⟩

/-- The counts of a closed slot stand in its registers, and it counts afresh. -/
def CalSlotClosed (g n : Nat) (s t : State) : Prop :=
  t.reg (Reg.GAL_CAL_SAT g n) = wordOf (Nat.min (s.calAt g n).sat 0xFFFFFFFF)
    ∧ t.reg (Reg.GAL_CAL_ELEM_LO g n) = wordOf (s.calAt g n).elem
    ∧ t.reg (Reg.GAL_CAL_ELEM_HI g n) = wordOf ((s.calAt g n).elem / 0x100000000)
    ∧ t.calAt g n = CalCount.fresh

theorem eventRegs_not_cal {g n off : Nat} (h : off ∈ Reg.GAL_CAL_CFG g n :: calRegs g n) : off ∉ eventRegs := by
  simp only [calRegs, List.mem_cons, List.not_mem_nil, or_false] at h
  simp only [eventRegs, List.mem_cons, List.not_mem_nil, or_false, Reg.BBX_STATUS, Reg.BBX_LOST]
  rcases h with rfl | rfl | rfl | rfl <;>
    simp only [Reg.GAL_CAL_CFG, Reg.GAL_CAL_SAT, Reg.GAL_CAL_ELEM_LO, Reg.GAL_CAL_ELEM_HI] <;> omega

theorem calRegs_other {g n m off : Nat} (hne : m ≠ n) (h : off ∈ Reg.GAL_CAL_CFG g n :: calRegs g n) : off ∉ calRegs g m := by
  simp only [calRegs, List.mem_cons, List.not_mem_nil, or_false] at h ⊢
  rcases h with rfl | rfl | rfl | rfl <;>
    simp only [Reg.GAL_CAL_CFG, Reg.GAL_CAL_SAT, Reg.GAL_CAL_ELEM_LO, Reg.GAL_CAL_ELEM_HI] <;> omega

theorem CalSlotSame.refl {g n : Nat} : CalSlotSame g n s s := ⟨fun _ _ => rfl, rfl, rfl⟩

/-- An event leaves the calibration slots alone. -/
theorem CalSlotSame.events {g n : Nat} (h : framed eventParts eventRegs s t) : CalSlotSame g n s t := by
  have hcal : t.cal = s.cal := h.1 .cal (by decide)
  exact ⟨fun off ho => h.reg (eventRegs_not_cal ho), State.calAt_of hcal g n, congrArg (·.writes) hcal⟩

theorem CalSlotSame.copied {g n m : Nat} (s : State) (hne : m ≠ n) : CalSlotSame g n s (s.calCopied g m) := by
  refine ⟨fun off ho => (s.calCopied_framed g m).reg (calRegs_other hne ho), ?_, ?_⟩
  · unfold State.calAt
    rw [State.calCopied_cal]
    exact (smGet_erase _ _ _ _).trans (if_neg (by omega))
  · rw [State.calCopied_cal]

theorem CalSlotSame.closeOther {g n m : Nat} (s : State) (hne : m ≠ n) : CalSlotSame g n s (s.calCloseSlot g m) := by
  rcases s.calCloseSlot_cases g m with ⟨-, he⟩ | ⟨-, hframe⟩
  · rw [he]
    exact .refl
  · exact (CalSlotSame.copied s hne).trans (.events hframe)

theorem State.calRestart_reg (s : State) (g n off : Nat) : (s.calRestart g n).reg off = s.reg off := rfl

theorem State.calCopied_regs (s : State) (g n : Nat) : CalSlotClosed g n s (s.calCopied g n) := by
  refine ⟨?_, ?_, ?_, ?_⟩
  · rw [State.calCopied, State.calRestart_reg, State.setReg64, State.reg_setReg_ne _ _ _ _ (by simp [Reg.GAL_CAL_SAT, Reg.GAL_CAL_ELEM_HI]),
      State.reg_setReg_ne _ _ _ _ (by simp [Reg.GAL_CAL_SAT, Reg.GAL_CAL_ELEM_LO]), State.reg_setReg]
  · rw [State.calCopied, State.calRestart_reg, State.setReg64, State.reg_setReg_ne _ _ _ _ (by simp [Reg.GAL_CAL_ELEM_LO, Reg.GAL_CAL_ELEM_HI]),
      State.reg_setReg]
  · rw [State.calCopied, State.calRestart_reg, State.setReg64, State.reg_setReg]
  · unfold State.calAt
    rw [State.calCopied_cal]
    exact (smGet_erase _ _ _ _).trans (if_pos rfl)

theorem CalSlotClosed.same {g n : Nat} (h : CalSlotClosed g n s t) (h' : CalSlotSame g n t u) : CalSlotClosed g n s u := by
  obtain ⟨hsat, hlo, hhi, hcnt⟩ := h
  obtain ⟨hreg, hcnt', -⟩ := h'
  exact ⟨(hreg _ (by simp [calRegs])).trans hsat, (hreg _ (by simp [calRegs])).trans hlo, (hreg _ (by simp [calRegs])).trans hhi, hcnt'.trans hcnt⟩

theorem CalSlotClosed.of_same {g n : Nat} (h : CalSlotSame g n s t) (h' : CalSlotClosed g n t u) : CalSlotClosed g n s u := by
  unfold CalSlotClosed at h' ⊢
  rwa [h.2.1] at h'

/-- One slot of a window's close. -/
def State.calCloseStep (g : Nat) (s : State) (n : Nat) : State := if s.calTouched g n then s else s.calCloseSlot g n

theorem State.calTouched_of (h : t.cal.writes = s.cal.writes) (g n : Nat) : t.calTouched g n = s.calTouched g n := by
  unfold State.calTouched
  rw [h]

theorem CalSlotSame.stepOther {g n m : Nat} (s : State) (hne : m ≠ n) : CalSlotSame g n s (s.calCloseStep g m) := by
  unfold State.calCloseStep
  split
  · exact .refl
  · exact .closeOther s hne

theorem CalSlotClosed.step {g n : Nat} (huse : s.calInUse g n) (hfree : s.calTouched g n = false) : CalSlotClosed g n s (s.calCloseStep g n) := by
  unfold State.calCloseStep
  rw [if_neg (by simp [hfree])]
  rcases s.calCloseSlot_cases g n with ⟨hnot, -⟩ | ⟨-, hframe⟩
  · exact absurd huse hnot
  · exact (s.calCopied_regs g n).same (.events hframe)

/-- The slots below `k` closed: those from `k` are as they were, and those below it are closed. -/
theorem calCloseFold {g n : Nat} (huse : s.calInUse g n) (hfree : s.calTouched g n = false) (k : Nat) :
    (k ≤ n → CalSlotSame g n s ((List.range k).foldl (State.calCloseStep g) s))
    ∧ (n < k → CalSlotClosed g n s ((List.range k).foldl (State.calCloseStep g) s)) := by
  induction k with
  | zero => exact ⟨fun _ => .refl, fun h => absurd h (by omega)⟩
  | succ k ih =>
    obtain ⟨hsame, hclosed⟩ := ih
    rw [List.range_succ, List.foldl_append, List.foldl_cons, List.foldl_nil]
    refine ⟨fun h => (hsame (by omega)).trans (.stepOther _ (by omega)), fun h => ?_⟩
    rcases Nat.lt_succ_iff_lt_or_eq.mp h with hlt | rfl
    · exact (hclosed hlt).same (.stepOther _ (by omega))
    · obtain ⟨hreg, hcnt, hw⟩ := hsame (by omega)
      refine CalSlotClosed.of_same ⟨hreg, hcnt, hw⟩ (.step ?_ ((State.calTouched_of hw g n).trans hfree))
      unfold State.calInUse at huse ⊢
      rwa [hreg _ (by simp)]

theorem State.calClose_eq (s : State) (g : Nat) :
    s.calClose g = ((List.range 256).foldl (State.calCloseStep g) s).setCalTicks g 0 := rfl

theorem CalSlotSame.setCalTicks (g n m k : Nat) (s : State) : CalSlotSame g n s (s.setCalTicks m k) := ⟨fun _ _ => rfl, rfl, rfl⟩

theorem State.setCalTicks_zero (s : State) (g : Nat) : natAt (s.setCalTicks g 0).cal.ticks g = 0 := by
  show (s.cal.ticks.set g 0).getD g 0 = 0
  rw [List.getD_eq_getElem?_getD, List.getElem?_set_self']
  cases s.cal.ticks[g]? <;> rfl

/-- Settles O4: the monitors' map restarts, and the slots close one after another. -/
theorem windowsClose : Obligations.WindowsClose := by
  refine ⟨fun s => ⟨fun hfull => ?_, fun hfull => ?_⟩, fun gal s => ⟨fun hfull => ?_, fun hfull => ?_⟩⟩
  · show keep s (if s.bwFull then s.bwClose else s) = _
    rw [hfull]
    rfl
  · have hexec : exec .bwWindowClose s = keep s s.bwClose := by
      show keep s (if s.bwFull then s.bwClose else s) = _
      rw [hfull, if_pos rfl]
    refine ⟨_, hexec, fun p => ?_, ?_, ?_, s.bwClose_framed.kept⟩
    · rw [State.kept_cnt, State.bwClose_cnt]
      exact smGet_mapBw _ BwMon.fresh_close s.cnt.bw p
    · rw [State.kept_cnt, State.bwClose_cnt]
      rfl
    · rw [State.kept_events, State.bwClose_events]
  · show keep s (if s.calFull gal.toNat then s.calClose gal.toNat else s) = _
    rw [hfull]
    rfl
  · have hexec : exec (.calWindowClose gal) s = keep s (s.calClose gal.toNat) := by
      show keep s (if s.calFull gal.toNat then s.calClose gal.toNat else s) = _
      rw [hfull, if_pos rfl]
    refine ⟨_, hexec, fun n hn hfree hbit howner => ?_, ?_, (s.calClose_changes _).kept⟩
    · have hclosed := (calCloseFold ⟨hbit, howner⟩ hfree 256).2 hn
      have h := hclosed.same (.setCalTicks gal.toNat n gal.toNat 0 _)
      rw [← State.calClose_eq] at h
      unfold CalSlotClosed State.calAt at h
      unfold State.calAt
      rw [State.kept_reg, State.kept_reg, State.kept_reg, State.kept_cal]
      exact h
    · rw [State.kept_cal]
      rw [State.calClose_eq]
      exact State.setCalTicks_zero _ _

end Sys2Proof.Machine
end

section
/-! SUPPORT. A WRITE to the input pages of an instance that logs its pages: the log changes, which the frame of O16 leaves out (R307, R373). -/

namespace Sys2Proof.Machine

set_option Elab.async false

/-- The descriptor of a WRITE of one row of 64 bytes to the first byte of the input pages, OBJ 4 (Table 10-5). -/
def inputWriteWords : List Word := [0x28400000, 64, 0x00010000, 0x80000000, 0, 0, 0, 64, 0, 0] ++ List.replicate 6 0

/-- A version 3 image of one program whose U-stream on gallery 0 holds that WRITE for seat 1, with the slot entry that names it. -/
def inputWriteImage : Flight :=
  { contract := 3, descVer := 3, programs := 1, periodQ := 20, galMask := 1, flightId := 7
    progs := [⟨0, 0, 1, [⟨0, [], [], [⟨0, 3, 0, 0, 0, 1, 0, 0xFFFF, 0⟩]⟩], [], [⟨0, 0, 0, 0, 0, 1, 2, 0, 0⟩], [], []⟩]
    templates := [], routes := [], variants := [], partitions := [], pool := inputWriteWords.flatMap Word.bytes, digest := [] }

/-- The request of handle 5, of instance 1, with 64 bytes of input at the start of the window. -/
def inputRequest : Request :=
  { handle := 5, gen := 0, inst := 1, ring := 0, seq := 0, opcode := 0, tag := 0, state := 2, status := 0, route := 0, cls := 0, stages := 1, stage := 0
    deadline := 0, admitted := 0, told := none, lexId := none, affixes := [], plane := 0, stem := 0, tokens := 0, inOff := 0, inBytes := 64
    outWin := 0, outHost := 0, outBytes := 0, path := 0, flags := 0, half := 0, committed := 0, deferredLast := false, mark := false, kv := [], act := []
    sums := [], waits := [], frozen := false, ending := none, endTick := 0, dataVisible := true, step := 0, pass := 0, wait := 0, record := none }

/-- Reset with that image running, the request seated on gallery 0, and instance 1 logging. -/
def loggingState : State :=
  { State.reset with
    regs := smSet regDefault State.reset.regs (regKey 0 (Reg.DEV_INST_STATE 1)) 0x04000000
    flights := { State.reset.flights with v3 := { FlightSlots.empty with active := some inputWriteImage } }
    tk := { State.reset.tk with running := true, seats := [⟨0, 1, 0, 5, 1, 1, false, false, false, 2, 0⟩] }
    hs := { State.reset.hs with reqs := [inputRequest] } }

/-- The WRITE of the image, for seat 1 of the U-stream. -/
def inputWriteIssue : Issue := ⟨0, 0, 1, 0xFFFF, 2, 0⟩
def inputWriteDesc : XferDesc := ⟨2, false, 4, 64, 1, 0x80000000, 0, 0, 0, 64, 0, 0, 0, true, []⟩

/-- Whether a command completes with the instances changed. -/
def changesInsts (c : Instr) (s : State) : Bool :=
  match exec c s with
  | .next t => t.insts != s.insts
  | _ => false

theorem inputWrite_ready : loggingState.issued 3 inputWriteIssue (.xfer 2 inputWriteDesc) = true
    ∧ xferCheck 2 inputWriteIssue.seat.toNat inputWriteDesc = none
    ∧ (xferInside 2 inputWriteDesc && loggingState.memInside inputWriteIssue.gal.toNat inputWriteDesc (xRowOffs inputWriteDesc)) = true := by
  decide +kernel

theorem inputWrite_logs : changesInsts (.write inputWriteIssue inputWriteDesc) loggingState = true := by decide +kernel

/-- Refutes O16: a WRITE to the input pages of an instance that logs notes the page in the instance's log. -/
theorem not_transfersOut : ¬Obligations.TransfersOut := by
  intro h
  obtain ⟨hissued, hcheck, hinside⟩ := inputWrite_ready
  obtain ⟨t, hexec, -, hobj, -⟩ := (h inputWriteIssue inputWriteDesc loggingState hissued hcheck).2 rfl hinside
  have hinsts : t.insts = loggingState.insts := (hobj rfl).2 .insts (by decide)
  have hlogs := inputWrite_logs
  unfold changesInsts at hlogs
  rw [hexec] at hlogs
  simp [hinsts] at hlogs

end Sys2Proof.Machine
end

section
/-! SUPPORT. What READ, GATHER and WINDOW_FILL place, and the bytes that stay (R306, R307, R295). -/

namespace Sys2Proof.Machine

set_option Elab.async false

variable {s t u : State}

/-! ### Lengths of what is read -/

theorem pageSplit_sum (fuel a n : Nat) : ((pageSplit fuel a n).map (·.2)).sum ≤ n := by
  induction fuel generalizing a n with
  | zero => exact Nat.zero_le _
  | succ fuel ih =>
    rw [pageSplit]
    split
    · exact Nat.zero_le _
    · have hrest := ih (a + min n (4096 - a % 4096)) (n - min n (4096 - a % 4096))
      simp only [List.map_cons, List.sum_cons]
      omega

theorem pageRuns_fold (l : List (Nat × Nat)) (acc : List (Nat × Nat)) (a : Nat) :
    ((l.foldl (fun (acc : List (Nat × Nat) × Nat) p => (acc.1 ++ [(acc.2, p.2)], acc.2 + p.2)) (acc, a)).1).map (·.2)
      = acc.map (·.2) ++ l.map (·.2) := by
  induction l generalizing acc a with
  | nil => simp
  | cons p l ih => rw [List.foldl_cons, ih]; simp

theorem pageRuns_sum (a n : Nat) : ((pageRuns a n).map (·.2)).sum ≤ n := by
  unfold pageRuns
  rw [pageRuns_fold]
  exact pageSplit_sum _ _ _

/-- Pieces of bytes no longer than their runs are together no longer than what was cut into the runs. -/
theorem flatMap_pageRuns_length (a n : Nat) (f : Nat × Nat → List Byte) (hf : ∀ r ∈ pageRuns a n, (f r).length ≤ r.2) :
    ((pageRuns a n).flatMap f).length ≤ n := by
  rw [List.length_flatMap]
  exact (List.sum_le_sum (fun r hr => hf r hr)).trans (pageRuns_sum a n)

theorem State.progRead_length (s : State) (g a n : Nat) : (s.progRead g a n).length ≤ n := by
  refine flatMap_pageRuns_length a n _ fun r _ => ?_
  split <;> simp

theorem State.winRead_length (s : State) (inst off n : Nat) : (s.winRead inst off n).length ≤ n := by
  unfold State.winRead
  dsimp only
  split
  · exact (memRead_length ..).le
  · refine flatMap_pageRuns_length off n _ fun r _ => ?_
    split
    · exact (memRead_length ..).le
    · split
      · exact (memRead_length ..).le
      · exact List.length_replicate.le

theorem State.objGet_length (s : State) (p : ObjPlace) (n : Nat) : (s.objGet p n).length ≤ n := by
  cases p with
  | obj k w => exact (memRead_length ..).le
  | slot k w => exact (memRead_length ..).le
  | req k => exact (memRead_length ..).le
  | win i o => exact s.winRead_length i o n

theorem State.objRead64_length (s : State) (r : Option Request) (g obj off : Nat) : (s.objRead64 r g obj off).length ≤ 64 := by
  unfold State.objRead64
  dsimp only
  split
  · exact s.objGet_length _ _
  · refine flatMap_length_le _ _ 1 64 (by simp) fun k _ => ?_
    split
    · exact s.objGet_length _ _
    · exact le_rfl

theorem State.xferRead_length (s : State) (r : Option Request) (g : Nat) (d : XferDesc) (off : Nat) :
    (s.xferRead r g d off).length ≤ d.rowBytes.toNat := by
  unfold State.xferRead
  split
  · refine (flatMap_length_le _ _ 64 (d.rowBytes.toNat / 64) (by simp) fun k _ => s.objRead64_length ..).trans ?_
    exact Nat.div_mul_le_self _ _
  · exact s.progRead_length ..

/-! ### Rows placed -/

/-- The scratchpad runs, and the context runs, of a transfer's rows. -/
def xferSp (d : XferDesc) : List (Nat × Nat) := if d.smodeCtx then [] else xferRows d
def xferCx (d : XferDesc) : List (Nat × Nat) := if d.smodeCtx then xferRows d else []

/-- Rows placed one after another in scratchpad or in the seat's context. -/
def placeRows (s : State) (c : Issue) (d : XferDesc) (n : Nat) (row : Nat → List Byte) : State :=
  (List.range n).foldl (fun u i => u.opWrite c.gal.toNat d.smodeCtx (s.seatAt c.gal.toNat c.seat.toNat) (xSpRow d i) (row i)) s

theorem placeRows_framed (s : State) (c : Issue) (d : XferDesc) (n : Nat) (row : Nat → List Byte) :
    framed [.sp, .ctx] [] s (placeRows s c d n row) :=
  .foldl _ _ (fun _ _ => State.opWrite_framed ..) s

theorem placeRows_stays (s : State) (c : Issue) (d : XferDesc) {n : Nat} {row : Nat → List Byte} (hn : n ≤ d.rows.toNat)
    (hrow : ∀ i < n, (row i).length ≤ d.rowBytes.toNat) :
    stays c.gal.toNat [s.seatAt c.gal.toNat c.seat.toNat] (xferSp d) (xferCx d) s (placeRows s c d n row) := by
  refine stays.refl.fold fun i hi v => ?_
  have hi' := List.mem_range.mp hi
  have hmem : (xSpRow d i, d.rowBytes.toNat) ∈ xferRows d := List.mem_map.mpr ⟨i, List.mem_range.mpr (by omega), rfl⟩
  refine stays.refl.opWrite (hrow i hi') ?_ (.inr (List.mem_singleton.mpr rfl))
  unfold xferSp xferCx
  cases d.smodeCtx <;> simpa using hmem

theorem State.stackTally_framed (s : State) (c : Issue) (event : Nat) (runs : List (Nat × Nat)) :
    framed [.cnt] [] s (s.stackTally c event runs) :=
  .foldl _ _ (fun v _ => .ite (fun _ => (v.tally_framed _).trans (State.tallyPort_framed ..))
    fun _ => (v.tally_framed _).trans (State.tallyPort_framed ..)) s

theorem State.cacheTally_framed (s : State) (c : Issue) (inst : Option Nat) (lines : List (Nat × Nat)) (slots : Nat) :
    framed [.cnt, .cache, .freeCtr] [] s (s.cacheTally c inst lines slots) := by
  have hlooked := fun x : SMap Nat => (s.free_framed.widen (qs := [.cnt, .cache, .freeCtr]) (js := [])).seq (framed_cache _ x)
  refine framed.fold ((((((hlooked _).seq (State.tally_framed ..)).seq (State.tally_framed ..)).seq (State.tally_framed ..)).seq
    (State.tally_framed ..)).seq (State.tally_framed ..)) fun v _ => ?_
  exact (((v.tally_framed _).trans (State.tally_framed ..)).trans (State.tallyPort_framed ..)).widen

/-- A transfer that is issued, admissible, named and inside its spaces runs and is counted. -/
theorem xferClause_runs {c : Issue} {op : Nat} {d : XferDesc} {offs : List Nat} {run : State → State}
    (hissued : s.issued 3 c (.xfer op d) = true) (hcheck : xferCheck op c.seat.toNat d = none) (hnamed : d.named = true)
    (hinside : (xferInside op d && s.memInside c.gal.toNat d offs) = true) :
    xferClause s c op d offs run = keep s ((run s).tallyClause c (0x20 * c.gal.toNat + 23)) := by
  unfold xferClause
  dsimp only
  rw [if_neg (by simp [hissued, hcheck]), if_neg (by simp [hnamed]), if_neg (by simpa using hinside)]

theorem xferClause_unnamed {c : Issue} {op : Nat} {d : XferDesc} {offs : List Nat} {run : State → State}
    (hissued : s.issued 3 c (.xfer op d) = true) (hcheck : xferCheck op c.seat.toNat d = none) (hnamed : d.named = false) :
    xferClause s c op d offs run = keep s (s.tallyClause c (0x20 * c.gal.toNat + 23)) := by
  unfold xferClause
  dsimp only
  rw [if_neg (by simp [hissued, hcheck]), if_pos (by simp [hnamed])]

theorem stays.kept_bytes {g : Nat} {qs : List (Option Seat)} {sp cx : List (Nat × Nat)} (h : stays g qs sp cx s t) :
    sameOutside (spKey g 0) sp s.mem.sp (s.kept t).mem.sp ∧ ctxOutsideAll s (s.kept t) g qs cx := by
  obtain ⟨hsp, hctx, -⟩ := h
  refine ⟨?_, hctx.of_ctx ?_⟩
  · rwa [State.kept_mem]
  · rw [State.kept_mem]

/-- Rows placed and then counted: the memories, the bytes that stay, and the frame. -/
theorem placeRows_ends {c : Issue} {d : XferDesc} {n : Nat} {row : Nat → List Byte} {ps : List Part} (hn : n ≤ d.rows.toNat)
    (hrow : ∀ i < n, (row i).length ≤ d.rowBytes.toNat) (hcount : framed ps [] (placeRows s c d n row) t)
    (hmem : ∀ p ∈ [Part.sp, .hbm, .acc, .scale, .staging, .host, .flash, .bootMem, .mram, .ctx,
      .win, .winM, .obj, .req, .slot, .hdr, .hdrM, .seen, .seenM], p ∉ ps) (hreqs : Part.reqs ∉ ps) :
    (s.kept t).mem = (placeRows s c d n row).mem
    ∧ (sameOutside (spKey c.gal.toNat 0) (xferSp d) s.mem.sp (s.kept t).mem.sp
      ∧ ctxOutsideAll s (s.kept t) c.gal.toNat [s.seatAt c.gal.toNat c.seat.toNat] (xferCx d))
    ∧ framed (.sp :: .ctx :: ps) [] s (s.kept t) := by
  refine ⟨?_, (stays.of hcount ⟨hmem _ (by simp), hmem _ (by simp), hreqs⟩ (placeRows_stays s c d hn hrow)).kept_bytes, ?_⟩
  · rw [State.kept_mem, hcount.mem hmem]
  · exact ((placeRows_framed ..).widen.seq hcount (by simp +contextual)).kept

section
variable {c : Issue} {d : XferDesc}

/-- Rows are handed on as they came when no flit of them is dropped. -/
theorem getD_chunksOf_flatten (w : Nat) (rows : List (List Byte)) (hrows : ∀ r ∈ rows, r.length = w) (i : Nat) :
    (chunksOf w rows.length rows.flatten).getD i [] = rows.getD i [] := by
  congr 1
  induction rows with
  | nil => rfl
  | cons r rows ih =>
    have hr : r.length = w := hrows r (by simp)
    rw [List.length_cons, List.flatten_cons, chunksOf, List.take_left' hr, List.drop_left' hr, ih fun x hx => hrows x (by simp [hx])]

theorem State.windowRows_shape {g : Nat} {rows : List (List Byte)} (h : s.windowRows g d = some rows) :
    rows.length = d.rows.toNat ∧ ∀ r ∈ rows, r.length = d.rowBytes.toNat := by
  unfold State.windowRows at h
  dsimp only at h
  split at h
  · cases h
    refine ⟨by simp [xRowOffs], fun r hr => ?_⟩
    obtain ⟨o, -, rfl⟩ := List.mem_map.mp hr
    exact memRead_length ..
  · obtain ⟨f, -, hf⟩ := Option.bind_eq_some_iff.mp h
    split at hf
    · cases hf
      refine ⟨by simp, fun r hr => ?_⟩
      obtain ⟨i, -, rfl⟩ := List.mem_map.mp hr
      exact List.takeD_length ..
    · cases hf

theorem execRead_runs (hissued : s.issued 3 c (.xfer 1 d) = true) (hcheck : xferCheck 1 c.seat.toNat d = none) (hnamed : d.named = true)
    (hinside : (xferInside 1 d && s.memInside c.gal.toNat d (xRowOffs d)) = true) :
    ∃ t, execRead c d s = keep s t ∧ framed [.cnt] [] (xferIn s c d (xRowOffs d)) t := by
  unfold execRead
  rw [xferClause_runs hissued hcheck hnamed hinside]
  exact ⟨_, rfl, ((State.tallySp_framed ..).trans (State.stackTally_framed ..)).trans (State.tallyClause_framed ..)⟩

theorem execGather_runs (hissued : s.issued 3 c (.xfer 3 d) = true) (hcheck : xferCheck 3 c.seat.toNat d = none) (hnamed : d.named = true)
    (hinside : (xferInside 3 d && s.memInside c.gal.toNat d (s.gatherOffs c d)) = true) :
    ∃ t, execGather c d s = keep s t ∧ framed [.cnt, .cache, .freeCtr] [] (xferIn s c d (s.gatherOffs c d)) t := by
  unfold execGather
  dsimp only
  rw [xferClause_runs hissued hcheck hnamed hinside]
  exact ⟨_, rfl, (((State.tallySp_framed ..).widen).trans (State.cacheTally_framed ..)).seq (State.tallyClause_framed ..)⟩

theorem xferIn_eq_placeRows (s : State) (c : Issue) (d : XferDesc) (offs : List Nat) :
    xferIn s c d offs = placeRows s c d offs.length fun i => s.xferRead (s.seatReq c) c.gal.toNat d (natAt offs i) := rfl

/-- Rows that arrive in whole flits are placed as they were carried. -/
theorem fillRows_eq_placeRows (hdrops : d.drops = []) (bs : List (List Byte)) :
    (List.range d.rows.toNat).foldl (fun u i => (fillRuns d i).foldl (fun v x =>
        v.opWrite c.gal.toNat d.smodeCtx (s.seatAt c.gal.toNat c.seat.toNat) (xSpRow d i + x.1) (((bs.getD i []).drop x.1).take x.2)) u) s
      = placeRows s c d d.rows.toNat fun i => (bs.getD i []).take d.rowBytes.toNat := by
  simp only [fillRuns, hdrops, List.isEmpty_nil, if_true, List.foldl_cons, List.foldl_nil, Nat.add_zero, List.drop_zero]
  rfl

/-- The state of a WINDOW_FILL that placed its rows. -/
theorem execWindowFill_runs {rows : List (List Byte)} (hdrops : d.drops = []) (hready : s.fillReady c d = true)
    (hok : windowOk c.seat.toNat d = true) (hinside : xferInside 4 d = true)
    (hstaging : d.hmode = 0 → ∀ o ∈ xRowOffs d, o + d.rowBytes.toNat ≤ 0x10000000) (hrows : s.windowRows c.gal.toNat d = some rows) :
    ∃ t, execWindowFill c d s = keep s t
      ∧ framed [.cnt] [] (placeRows s c d d.rows.toNat fun i => (rows.getD i []).take d.rowBytes.toNat) t := by
  obtain ⟨hlen, hrow⟩ := State.windowRows_shape hrows
  unfold execWindowFill
  dsimp only
  rw [if_neg (by simpa [hready, hok, hinside] using hstaging), hrows]
  refine ⟨_, rfl, ?_⟩
  dsimp only
  rw [fillRows_eq_placeRows hdrops, State.fabCarried_eq, ← hlen]
  simp only [getD_chunksOf_flatten _ _ hrow, State.dropFlits, hdrops, List.filter_nil, List.foldl_nil]
  exact (((State.tallyClause_framed ..).trans (State.tally_framed ..)).trans (State.tallySp_framed ..)).trans (State.tallyPort_framed ..)

theorem execWindowFill_absent (hready : s.fillReady c d = true) (hok : windowOk c.seat.toNat d = true) (hinside : xferInside 4 d = true)
    (hstaging : d.hmode = 0 → ∀ o ∈ xRowOffs d, o + d.rowBytes.toNat ≤ 0x10000000) (hrows : s.windowRows c.gal.toNat d = none) :
    execWindowFill c d s = keep s (s.tallyClause c (0x20 * c.gal.toNat + 25)) := by
  unfold execWindowFill
  dsimp only
  rw [if_neg (by simpa [hready, hok, hinside] using hstaging), hrows]

theorem execRead_unnamed (hissued : s.issued 3 c (.xfer 1 d) = true) (hcheck : xferCheck 1 c.seat.toNat d = none) (hnamed : d.named = false) :
    execRead c d s = keep s (s.tallyClause c (0x20 * c.gal.toNat + 23)) := by
  unfold execRead
  exact xferClause_unnamed hissued hcheck hnamed

theorem execGather_unnamed (hissued : s.issued 3 c (.xfer 3 d) = true) (hcheck : xferCheck 3 c.seat.toNat d = none) (hnamed : d.named = false) :
    execGather c d s = keep s (s.tallyClause c (0x20 * c.gal.toNat + 23)) := by
  unfold execGather
  exact xferClause_unnamed hissued hcheck hnamed

end

/-- Settles O15: rows are placed one after another, and what follows is counted alone. -/
theorem transfersIn : Obligations.TransfersIn := by
  intro c d s
  dsimp only
  refine ⟨fun hissued hcheck => ⟨fun hnamed hinside => ?_, fun hnamed =>
      ⟨_, execRead_unnamed hissued hcheck hnamed, (s.tallyClause_framed ..).kept⟩⟩,
    fun hissued hcheck => ⟨fun hnamed hinside => ?_, fun hnamed =>
      ⟨_, execGather_unnamed hissued hcheck hnamed, (s.tallyClause_framed ..).kept⟩⟩,
    fun hdrops hready hok hinside hstaging => ⟨fun rows hrows => ?_, fun hrows => ?_⟩⟩
  · obtain ⟨t, hexec, hcount⟩ := execRead_runs hissued hcheck hnamed hinside
    rw [xferIn_eq_placeRows] at hcount ⊢
    obtain ⟨hmem, hbytes, hframe⟩ := placeRows_ends (by simp [xRowOffs]) (fun i _ => s.xferRead_length ..) hcount (by simp) (by simp)
    exact ⟨s.kept t, hexec, hmem, hbytes, hframe⟩
  · obtain ⟨t, hexec, hcount⟩ := execGather_runs hissued hcheck hnamed hinside
    rw [xferIn_eq_placeRows] at hcount ⊢
    obtain ⟨hmem, hbytes, hframe⟩ := placeRows_ends (by simp [State.gatherOffs, numsOf_length]) (fun i _ => s.xferRead_length ..) hcount
      (by simp) (by simp)
    exact ⟨s.kept t, hexec, hmem, hbytes, hframe⟩
  · obtain ⟨t, hexec, hcount⟩ := execWindowFill_runs hdrops hready hok hinside hstaging hrows
    obtain ⟨hmem, hbytes, hframe⟩ := placeRows_ends le_rfl (fun i _ => List.length_take_le _ _) hcount (by simp) (by simp)
    exact ⟨s.kept t, hexec, hmem, hbytes, hframe⟩
  · exact ⟨_, execWindowFill_absent hready hok hinside hstaging hrows, (s.tallyClause_framed ..).kept⟩

end Sys2Proof.Machine
end

section
/-! SUPPORT. Clauses that are never issued, and clauses with an extent past their space, change nothing (R22, R509). -/

namespace Sys2Proof.Machine

set_option Elab.async false

variable {s t u : State}

/-- An instruction of issue `c` is the vector clause with operation `o`, code `op` and common words `d`. -/
def IsVuClause (s : State) (c : Issue) (d : VuDesc) (op : Nat) (acc : Bool) (o : Op) (i : Instr) : Prop :=
  ∃ (x : VuExtra) (ok inside : Bool) (run : State → State), exec i s = vuClause s c o op x d ok inside run ∧ x.accIn = acc

theorem IsVuClause.idle {c : Issue} {d : VuDesc} {op : Nat} {acc : Bool} {o : Op} {i : Instr} (h : IsVuClause s c d op acc o i)
    (hbad : s.vuReady c o = false ∨ (vuCheck op c.seat.toNat acc d).isSome = true) : exec i s = .next s := by
  obtain ⟨x, ok, inside, run, hexec, rfl⟩ := h
  rw [hexec, vuClause, if_pos (by rcases hbad with h | h <;> simp [h])]
  rfl

theorem IsVuClause.outside {c : Issue} {d : VuDesc} {op : Nat} {acc : Bool} {o : Op} {i : Instr} (h : IsVuClause s c d op acc o i)
    (hout : vuInside op d = false) : exec i s = .next s := by
  obtain ⟨x, ok, inside, run, hexec, rfl⟩ := h
  rw [hexec, vuClause, if_pos (by simp [hout])]
  rfl

theorem xferClause_idle {c : Issue} {op : Nat} {d : XferDesc} {offs : List Nat} {run : State → State}
    (hbad : s.issued 3 c (.xfer op d) = false ∨ (xferCheck op c.seat.toNat d).isSome = true) : xferClause s c op d offs run = .next s := by
  rw [xferClause, if_pos (by rcases hbad with h | h <;> simp [h])]
  rfl

theorem xferClause_outside {c : Issue} {op : Nat} {d : XferDesc} {offs : List Nat} {run : State → State}
    (hissued : s.issued 3 c (.xfer op d) = true) (hcheck : xferCheck op c.seat.toNat d = none) (hnamed : d.named = true)
    (hout : xferInside op d = false) : xferClause s c op d offs run = .next s := by
  rw [xferClause, if_neg (by simp [hissued, hcheck]), if_neg (by simp [hnamed]), if_pos (by simp [hout])]
  rfl

/-- The clauses of the vector unit whose common words are the descriptor as it stands. -/
theorem vuClauses_exec (s : State) (c : Issue) (d : VuDesc) (iw : InflWords) (gw : SignWords) (rw : RouteWords) (acc : Bool) :
    ∀ x ∈ [(0x01, false, Op.vu 0x01 false d, Instr.map c d), (0x02, false, .vu 0x02 false d, .add c d), (0x03, false, .vu 0x03 false d, .sub c d),
      (0x04, false, .vu 0x04 false d, .mul c d), (0x05, false, .vu 0x05 false d, .max c d), (0x06, false, .vu 0x06 false d, .min c d),
      (0x07, false, .vu 0x07 false d, .fma c d), (0x08, false, .infl d iw, .infl c d iw), (0x09, false, .sign d gw, .signUpdate c d gw),
      (0x10, false, .vu 0x10 false d, .rsum c d), (0x11, false, .vu 0x11 false d, .rsumsq c d), (0x12, false, .vu 0x12 false d, .rmax c d),
      (0x13, false, .vu 0x13 false d, .rmin c d), (0x14, false, .vu 0x14 false d, .topk c d), (0x20, acc, .vu 0x20 acc d, .xred c d acc),
      (0x21, acc, .vu 0x21 acc d, .xcomb c d acc), (0x30, false, .route 0x30 d rw, .compress c d rw), (0x31, false, .route 0x31 d rw, .expand c d rw)],
      IsVuClause s c d x.1 x.2.1 x.2.2.1 x.2.2.2 := by
  simp only [List.forall_mem_cons]
  refine ⟨?_, ?_, ?_, ?_, ?_, ?_, ?_, ?_, ?_, ?_, ?_, ?_, ?_, ?_, ?_, ?_, ?_, ?_, fun _ => nofun⟩
  all_goals
    simp only [IsVuClause, exec, execMap, execAdd, execSub, execMul, execMax, execMin, execFma, execInfl, execSignUpdate, execRsum, execRsumsq,
      execRmax, execRmin, execTopk, execXred, execXcomb, execCompress, execExpand]
    exact ⟨_, _, _, _, rfl, rfl⟩

theorem plainVuClauses_exec (s : State) (c : Issue) (d : VuDesc) :
    ∀ x ∈ [(0x01, Instr.map c d), (0x02, .add c d), (0x03, .sub c d), (0x04, .mul c d), (0x05, .max c d), (0x06, .min c d),
      (0x07, .fma c d), (0x10, .rsum c d), (0x11, .rsumsq c d), (0x12, .rmax c d), (0x13, .rmin c d), (0x14, .topk c d)],
      IsVuClause s c d x.1 false (.vu x.1 false d) x.2 := by
  simp only [List.forall_mem_cons]
  refine ⟨?_, ?_, ?_, ?_, ?_, ?_, ?_, ?_, ?_, ?_, ?_, ?_, fun _ => nofun⟩
  all_goals
    simp only [IsVuClause, exec, execMap, execAdd, execSub, execMul, execMax, execMin, execFma, execRsum, execRsumsq, execRmax, execRmin, execTopk]
    exact ⟨_, _, _, _, rfl, rfl⟩

theorem muClauses_idle (c : Issue) (s : State) :
    (∀ d, s.muReady c (.mm d) = false ∨ (mmCheck c.seat.toNat d).isSome = true → exec (.mm c d) s = .next s)
    ∧ (∀ d, s.muReady c (.scaleLoad d) = false ∨ scaleLoadOk d = false → exec (.scaleLoad c d) s = .next s)
    ∧ ∀ d, (s.muReady c (.accMove 2 d) = false ∨ accMoveOk d = false → exec (.accSave c d) s = .next s)
      ∧ (s.muReady c (.accMove 3 d) = false ∨ accMoveOk d = false → exec (.accRestore c d) s = .next s) := by
  refine ⟨fun d h => ?_, fun d h => ?_, fun d => ⟨fun h => ?_, fun h => ?_⟩⟩
  · rw [exec, execMm, if_pos (by rcases h with h | h <;> simp [h])]
    rfl
  · simp only [exec, execScaleLoad]
    rw [if_pos (by rcases h with h | h <;> simp [h])]
    rfl
  · simp only [exec, execAccSave]
    rw [if_pos (by rcases h with h | h <;> simp [h])]
    rfl
  · simp only [exec, execAccRestore]
    rw [if_pos (by rcases h with h | h <;> simp [h])]
    rfl

theorem isuClauses_idle (c : Issue) (s : State) (d : IsuDesc) :
    (s.isuReady c (.isu 1 d) = false ∨ isuOk c d = false → exec (.update c d) s = .next s)
    ∧ (s.isuReady c (.isu 2 d) = false ∨ isuOk c d = false → exec (.publish c d) s = .next s) := by
  refine ⟨fun h => ?_, fun h => ?_⟩
  · rw [exec, execUpdate, if_pos (by rcases h with h | h <;> simp [h])]
    rfl
  · rw [exec, execPublish, if_pos (by rcases h with h | h <;> simp [h])]
    rfl

/-- The transfers of the memory side are clauses of `xferClause`. -/
def IsXferClause (s : State) (c : Issue) (d : XferDesc) (op : Nat) (i : Instr) : Prop :=
  ∃ (offs : List Nat) (run : State → State), exec i s = xferClause s c op d offs run

theorem xferClauses_exec (s : State) (c : Issue) (d : XferDesc) :
    ∀ x ∈ [(1, Instr.read c d), (2, .write c d), (3, .gather c d)], IsXferClause s c d x.1 x.2 := by
  simp only [List.forall_mem_cons]
  refine ⟨?_, ?_, ?_, fun _ => nofun⟩
  all_goals
    simp only [IsXferClause, exec, execRead, execWrite, execGather]
    exact ⟨_, _, rfl⟩

/-- Settles O35: the guards of the clauses, unit by unit. -/
theorem clausesNotIssuedIdle : Obligations.ClausesNotIssuedIdle := by
  refine ⟨fun c s => ?_, fun c s => ⟨fun d hready hcheck hout => ?_, fun d x hx hready hcheck hout => ?_, fun d x hx hissued hcheck hnamed hout => ?_⟩⟩
  · obtain ⟨hmm, hscale, hacc⟩ := muClauses_idle c s
    refine ⟨hmm, hscale, hacc, fun d iw gw rw acc x hx hbad => (vuClauses_exec s c d iw gw rw acc x hx).idle hbad, fun d w h => ?_,
      isuClauses_idle c s, fun d x hx hbad => ?_, fun d h => ?_, fun d h => ?_⟩
    · simp only [exec, execSolveSpd]
      rw [vuClause, if_pos (by rcases h with h | h <;> simp [h])]
      rfl
    · obtain ⟨offs, run, hexec⟩ := xferClauses_exec s c d x hx
      exact hexec.trans (xferClause_idle hbad)
    · simp only [exec, execWindowFill]
      rw [if_pos (by rcases h with h | h <;> simp [h])]
      rfl
    · rw [exec, execSend, if_pos (by rcases h with h | h <;> simp [h])]
      rfl
  · rw [exec, execMm, if_pos (by simp [hout])]
    rfl
  · exact (plainVuClauses_exec s c d x hx).outside hout
  · obtain ⟨offs, run, hexec⟩ := xferClauses_exec s c d x hx
    exact hexec.trans (xferClause_outside hissued hcheck hnamed hout)

end Sys2Proof.Machine
end

section
/-! SUPPORT. A transfer written at its destination segment by segment, and the flits that its receiver drops (R313, R319 to R322). -/

namespace Sys2Proof.Machine

set_option Elab.async false

variable {s t u : State}

/-! ### Bytes written in segments of 256 -/

/-- Segment `k` of `n` bytes written from address `base`, but for those that are skipped. -/
def segmentPut (base n : Nat) (bs : List Byte) (skip : Nat → Bool) (m : Mem) (k : Nat) : Mem :=
  if skip k then m else memWrite m (base + 256 * k) ((bs.drop (256 * k)).take (min 256 (n - 256 * k)))

/-- The first `count` segments written. -/
def segmentsPut (base n : Nat) (bs : List Byte) (skip : Nat → Bool) (count : Nat) (m : Mem) : Mem :=
  (List.range count).foldl (segmentPut base n bs skip) m

theorem segmentsPut_succ (base n : Nat) (bs : List Byte) (skip : Nat → Bool) (count : Nat) (m : Mem) :
    segmentsPut base n bs skip (count + 1) m = segmentPut base n bs skip (segmentsPut base n bs skip count m) count := by
  rw [segmentsPut, List.range_succ, List.foldl_append]
  rfl

/-- A byte that lies in no segment written stays. -/
theorem segmentsPut_out (base n : Nat) (bs : List Byte) (skip : Nat → Bool) (count : Nat) (m : Mem) (j : Nat)
    (hout : ∀ k < count, skip k = false → j < base + 256 * k ∨ base + 256 * k + min 256 (n - 256 * k) ≤ j) :
    memByte (segmentsPut base n bs skip count m) j = memByte m j := by
  induction count with
  | zero => rfl
  | succ count ih =>
    rw [segmentsPut_succ, segmentPut]
    have hbefore := ih fun k hk => hout k (by omega)
    split
    · exact hbefore
    next hskip =>
      refine (memByte_write_out _ _ _ _ ?_).trans hbefore
      have hrun := hout count (by omega) (by simpa using hskip)
      have hlen := List.length_take_le (min 256 (n - 256 * count)) (bs.drop (256 * count))
      omega

/-- Every byte of the segments written is that of the transfer. -/
theorem segmentsPut_in (base n : Nat) (bs : List Byte) (hlen : bs.length = n) (count : Nat) (m : Mem) (j : Nat) (hj : j < n) (hcount : j < 256 * count) :
    memByte (segmentsPut base n bs (fun _ => false) count m) (base + j) = bs.getD j 0 := by
  induction count with
  | zero => omega
  | succ count ih =>
    rw [segmentsPut_succ, segmentPut, if_neg (by simp), memByte_write]
    have htake : ((bs.drop (256 * count)).take (min 256 (n - 256 * count))).length = min 256 (n - 256 * count) := by
      rw [List.length_take, List.length_drop, hlen]
      exact Nat.min_eq_left (Nat.min_le_right _ _)
    rw [htake]
    by_cases hlast : 256 * count ≤ j
    · rw [if_pos (by omega), List.getD_eq_getElem?_getD, List.getElem?_take_of_lt (by omega), List.getElem?_drop,
        List.getD_eq_getElem?_getD, show 256 * count + (base + j - (base + 256 * count)) = j by omega]
    · rw [if_neg (by omega)]
      exact ih (by omega)

theorem segmentsPut_read (base n : Nat) (bs : List Byte) (hlen : bs.length = n) (m : Mem) :
    memRead (segmentsPut base n bs (fun _ => false) (ceilDiv n 256) m) base n = bs := by
  have hcover := le_ceilDiv n 256 (by omega)
  apply List.ext_getElem?
  intro j
  by_cases hj : j < n
  · rw [memRead_get _ _ _ _ hj, segmentsPut_in base n bs hlen _ m j hj (by omega), List.getD_eq_getElem?_getD,
      List.getElem?_eq_getElem (by omega)]
    rfl
  · rw [List.getElem?_eq_none (by rw [memRead_length]; omega), List.getElem?_eq_none (by omega)]

theorem segmentsPut_outside (b off n : Nat) (bs : List Byte) (skip : Nat → Bool) (m : Mem) :
    sameOutside b [(off, n)] m (segmentsPut (b + off) n bs skip (ceilDiv n 256) m) := by
  intro j hj
  have hrun := hj (off, n) (by simp)
  refine segmentsPut_out _ _ _ _ _ _ _ fun k hk _ => ?_
  simp only at hrun
  unfold ceilDiv at hk
  omega

/-! ### A transfer's destination -/

/-- Where a transfer writes: hall staging, scratchpad, or the context of a seat. -/
def fabPut (s : State) (d : FabDesc) (q : Option Seat) (off : Nat) (b : List Byte) : State :=
  if d.path = 1 then { s with mem := { s.mem with staging := memWrite s.mem.staging (d.dstOff.toNat + off) b } }
  else s.opWrite d.dst.toNat d.dmodeCtx q (d.dstOff.toNat + off) b

/-- The segments of a transfer written, but for those that are skipped. -/
def fabPutAll (s : State) (d : FabDesc) (q : Option Seat) (bs : List Byte) (skip : Nat → Bool) (count : Nat) : State :=
  (List.range count).foldl (fun u k => if skip k then u else fabPut u d q (segRun d k).1 ((bs.drop (segRun d k).1).take (segRun d k).2)) s

theorem fabPutAll_succ (s : State) (d : FabDesc) (q : Option Seat) (bs : List Byte) (skip : Nat → Bool) (count : Nat) :
    fabPutAll s d q bs skip (count + 1) = (if skip count then fabPutAll s d q bs skip count else
      fabPut (fabPutAll s d q bs skip count) d q (segRun d count).1 ((bs.drop (segRun d count).1).take (segRun d count).2)) := by
  rw [fabPutAll, List.range_succ, List.foldl_append]
  rfl

section
variable {d : FabDesc} {q : Option Seat} {bs : List Byte} {skip : Nat → Bool}

theorem fabPutAll_staging (hpath : d.path = 1) (count : Nat) : fabPutAll s d q bs skip count =
    { s with mem := { s.mem with staging := segmentsPut d.dstOff.toNat d.bytes.toNat bs skip count s.mem.staging } } := by
  induction count with
  | zero => rfl
  | succ count ih =>
    rw [fabPutAll_succ, ih, segmentsPut_succ, segmentPut, fabPut, if_pos hpath]
    split
    · rfl
    · rw [Nat.add_comm d.dstOff.toNat, Nat.add_comm d.dstOff.toNat]
      rfl

theorem fabPutAll_sp (hpath : d.path ≠ 1) (hctx : d.dmodeCtx = false) (count : Nat) : fabPutAll s d q bs skip count =
    { s with mem := { s.mem with sp := segmentsPut (spKey d.dst.toNat d.dstOff.toNat) d.bytes.toNat bs skip count s.mem.sp } } := by
  induction count with
  | zero => rfl
  | succ count ih =>
    rw [fabPutAll_succ, ih, segmentsPut_succ, segmentPut, fabPut, if_neg hpath, hctx]
    split
    · rfl
    · show State.spWrite _ _ _ _ = _
      rw [State.spWrite, spKey_add d.dst.toNat (d.dstOff.toNat + _), spKey_add d.dst.toNat d.dstOff.toNat, Nat.add_assoc]
      rfl

theorem fabPutAll_ctx (hpath : d.path ≠ 1) (hctx : d.dmodeCtx = true) (x : Seat) (count : Nat) :
    let base := ctxKey x.handle d.dst.toNat (1 - s.curHalf x.handle) d.dstOff.toNat
    fabPutAll s d (some x) bs skip count = { s with mem := { s.mem with ctx := segmentsPut base d.bytes.toNat bs skip count s.mem.ctx } } := by
  intro base
  induction count with
  | zero => rfl
  | succ count ih =>
    rw [fabPutAll_succ, ih, segmentsPut_succ, segmentPut, fabPut, if_neg hpath, hctx]
    split
    · rfl
    · have hkey : base + 256 * count = ctxKey x.handle d.dst.toNat (1 - s.curHalf x.handle) (d.dstOff.toNat + 256 * count) := by
        rw [ctxKey_add _ _ _ (d.dstOff.toNat + _), ← Nat.add_assoc, ← ctxKey_add]
      rw [hkey]
      rfl

theorem fabPutAll_noSeat (hpath : d.path ≠ 1) (hctx : d.dmodeCtx = true) (count : Nat) : fabPutAll s d none bs skip count = s := by
  induction count with
  | zero => rfl
  | succ count ih =>
    rw [fabPutAll_succ, ih, fabPut, if_neg hpath, hctx]
    split <;> rfl

end

/-! ### Transfers as they run -/

theorem State.fabTally_framed (s : State) (c : Issue) (d : FabDesc) (sent received flits : Nat) :
    framed [.cnt] [] s (s.fabTally c d sent received flits) := by
  have hone := fun (v : State) => v.tallyClause_framed c (0x20 * c.gal.toNat + 25 + (if d.path = 2 then fabRx d else fabTx d))
  have hsent : ∀ v e, framed [.cnt] [] s v → framed [.cnt] [] s (if d.path = 2 then v else v.tally e) := fun v e hv =>
    .ite (fun _ => hv) fun _ => hv.trans (v.tally_framed e)
  have hgot : ∀ v e, framed [.cnt] [] s v → framed [.cnt] [] s (if d.path = 1 then v else v.tally e) := fun v e hv =>
    .ite (fun _ => hv) fun _ => hv.trans (v.tally_framed e)
  have hplain : ∀ v, framed [.cnt] [] s v → framed [.cnt] [] s (if d.path = 3 then v else v.tallyPlain 0x100 1 flits) := fun v hv =>
    .ite (fun _ => hv) fun _ => hv.trans (State.tally_framed ..)
  have hfour := fun e e' => hplain _ (hgot _ e' (hsent _ e (hone s)))
  unfold State.fabTally
  dsimp only
  split
  · exact ((hfour _ _).trans (State.tallyPort_framed ..)).trans (State.tallyPort_framed ..)
  · exact (hfour _ _).trans (State.tallyPort_framed ..)
  · exact (hfour _ _).trans (State.tallyPort_framed ..)
  · exact .ite (fun _ => (hfour _ _).trans (State.tallyPort_framed ..)) fun _ => (hfour _ _).trans (State.tallyPort_framed ..)

section
variable {c : Issue} {d : FabDesc}

/-- The state in which a transfer has written its whole segments. -/
def State.sent (s : State) (c : Issue) (d : FabDesc) : State :=
  fabPutAll s d (s.seatAt c.gal.toNat c.seat.toNat) (sendSource s c d) (segLost d) (ceilDiv d.bytes.toNat 256)

/-- A transfer to a receiver in service writes, drops what is lost, and counts. -/
theorem execSend_live (hready : s.sendReady c d = true) (hok : sendOk c d = true) (hinside : sendInside d = true)
    (hlive : (d.path == 1 || !s.galFenced d.dst.toNat) = true) :
    ∃ t, execSend c d s = keep s t ∧ framed [.cnt] [] ((s.sent c d).dropFlits (s.sendSlots c d) (d.path == 1)
      (if d.path = 1 then d.src.toNat else d.dst.toNat) (fabRx d) (ceilDiv d.bytes.toNat (flitBytes d.path.toNat)) d.drops) t := by
  have hfold : (List.range (ceilDiv d.bytes.toNat 256)).foldl (fun u k =>
      if segLost d k || !(d.path == 1 || !s.galFenced d.dst.toNat) then u else
        fabPut u d (s.seatAt c.gal.toNat c.seat.toNat) (segRun d k).1 (((sendSource s c d).drop (segRun d k).1).take (segRun d k).2)) s
      = s.sent c d := by
    rw [hlive]
    simp only [Bool.not_true, Bool.or_false]
    rfl
  unfold execSend
  rw [if_neg (by simp [hready, hok, hinside])]
  dsimp only
  rw [State.fabCarried_eq, if_neg (by rw [hlive]; simp)]
  refine ⟨_, rfl, ?_⟩
  rw [← hfold]
  exact State.fabTally_framed ..

/-- A fenced receiver takes nothing. -/
theorem execSend_fenced (hready : s.sendReady c d = true) (hok : sendOk c d = true) (hinside : sendInside d = true)
    (hlive : (d.path == 1 || !s.galFenced d.dst.toNat) = false) :
    ∃ t, execSend c d s = keep s t ∧ framed [.cnt] [] s t := by
  unfold execSend
  rw [if_neg (by simp [hready, hok, hinside])]
  dsimp only
  rw [if_pos (by rw [hlive]; rfl)]
  refine ⟨_, rfl, ?_⟩
  rw [hlive]
  simp only [Bool.not_false, Bool.or_true, if_true, List.foldl_fixed]
  exact State.fabTally_framed ..

end

/-! ### Flits that are dropped -/

/-- What the drop of a flit may change. -/
def dropParts : List Part := [.replay, .replayNext, .faults, .cnt] ++ eventParts

/-- A dropped flit shown and counted at its receiving port, before the event. -/
def State.dropCounted (s : State) (g port cause cycle : Nat) : State :=
  ((((s.markReplay cycle).faultShow (if port = 0 then 6 else 7) g port 0 cycle).setFld (Reg.GAL_FAB_DROP g port) 31 30 cause).count
    (Reg.GAL_FAB_DROP g port) 15 0 1).tallyPlain (0x20 * g + 25 + port) 3 1

theorem State.dropCounted_changes (s : State) (g port cause cycle : Nat) :
    changesOnly [.regs, .bbx, .cnt] (s.markReplay cycle) (s.dropCounted g port cause cycle) :=
  ((((State.faultShow_framed ..).1.widen).seq (State.setFld_framed ..).1).seq (State.count_framed ..).1).seq (State.tallyPlain_framed ..).1

theorem State.fabricDrop_eq (s : State) (g port cause cycle : Nat) : s.fabricDrop false g port cause cycle =
    ((s.dropCounted g port cause cycle).raisePf 0x7080 ([g, port, cause, cycle, s.tk.count.toNat].map wordOf)).recordFault
      (if port = 0 then 6 else 7) g port cycle := by
  unfold State.fabricDrop State.dropCounted
  simp only [Bool.false_eq_true, if_false]

theorem State.fabricDrop_changes (s : State) (g port cause cycle : Nat) :
    changesOnly dropParts s (s.fabricDrop false g port cause cycle) := by
  rw [State.fabricDrop_eq]
  exact ((((s.markReplay_framed cycle).1.widen (by simp [dropParts])).seq (s.dropCounted_changes _ _ _ _) (by simp [dropParts, eventParts])).seq
    (State.raisePf_framed ..).1 (by simp +contextual [dropParts])).seq (State.recordFault_framed ..).1 (by simp [dropParts])

/-- The tick or the next one is marked for replay. -/
def State.marked (s : State) : Prop := s.tk.replay = true ∨ s.tk.replayNext = true

/-- Marks and events stay, and the clock stands. -/
def Accrues (s t : State) : Prop :=
  t.tk.running = s.tk.running ∧ t.tk.count = s.tk.count ∧ (s.marked → t.marked) ∧ ∀ e ∈ s.events, e ∈ t.events

theorem Accrues.refl : Accrues s s := ⟨rfl, rfl, id, fun _ => id⟩

theorem Accrues.trans (h : Accrues s t) (g : Accrues t u) : Accrues s u := by
  obtain ⟨hrun, hcount, hmark, hev⟩ := h
  obtain ⟨hrun', hcount', hmark', hev'⟩ := g
  exact ⟨hrun'.trans hrun, hcount'.trans hcount, fun h => hmark' (hmark h), fun e he => hev' e (hev e he)⟩

/-- The event that tells of a drop by a receiving port. -/
def State.dropEvent (s : State) (g port cause cycle : Nat) : Event := ⟨0x7080, none, [g, port, cause, cycle, s.tk.count.toNat].map wordOf, []⟩

theorem State.marked_markReplay (cycle : Nat) (h : s.tk.running = true) : (s.markReplay cycle).marked := by
  have hmarks := s.markReplay_marks cycle h
  unfold State.marked
  split at hmarks
  · exact .inr hmarks
  · exact .inl hmarks

theorem State.marked_of_marked (cycle : Nat) (h : s.marked) : (s.markReplay cycle).marked := by
  unfold State.markReplay
  split
  · exact h
  · split
    · exact .inr rfl
    · exact .inl rfl

/-- What follows the mark of a dropped flit leaves the marks. -/
theorem State.fabricDrop_marked (s : State) (g port cause cycle : Nat) (h : (s.markReplay cycle).marked) :
    (s.fabricDrop false g port cause cycle).marked := by
  rw [State.fabricDrop_eq]
  have hafter : changesOnly (.faults :: .cnt :: eventParts) (s.markReplay cycle)
      (((s.dropCounted g port cause cycle).raisePf 0x7080 ([g, port, cause, cycle, s.tk.count.toNat].map wordOf)).recordFault
        (if port = 0 then 6 else 7) g port cycle) :=
    (((s.dropCounted_changes _ _ _ _).widen (by simp [eventParts])).seq (State.raisePf_framed ..).1 (by simp +contextual)).seq
      (State.recordFault_framed ..).1
  exact h.imp (fun e => (hafter .replay (by decide)).trans e) fun e => (hafter .replayNext (by decide)).trans e

theorem State.fabricDrop_events (s : State) (g port cause cycle : Nat) :
    (s.fabricDrop false g port cause cycle).events = s.events ++ [s.dropEvent g port cause cycle] := by
  have hcounted : (s.dropCounted g port cause cycle).events = s.events :=
    (s.dropCounted_changes g port cause cycle .events (by decide)).trans ((s.markReplay_framed cycle).1 .events (by decide))
  rw [State.fabricDrop_eq, (State.recordFault_framed ..).1 .events (by decide), State.raisePf_events, hcounted]
  rfl

/-- The drop of a flit marks a running tick and tells of itself. -/
theorem State.fabricDrop_accrues (s : State) (g port cause cycle : Nat) : Accrues s (s.fabricDrop false g port cause cycle) := by
  have hchange := s.fabricDrop_changes g port cause cycle
  refine ⟨hchange .running (by decide), hchange .tickCount (by decide), fun h => s.fabricDrop_marked _ _ _ _ (State.marked_of_marked cycle h), ?_⟩
  rw [State.fabricDrop_events]
  exact fun e he => List.mem_append_left _ he

theorem State.dropFlits_nil (s : State) (fs : List FabSlot) (staging : Bool) (g port flits : Nat) :
    s.dropFlits fs staging g port flits [] = s := rfl

theorem State.dropFlits_changes (s : State) (fs : List FabSlot) (g port flits : Nat) (drops : List (Nat × BitVec 2)) :
    changesOnly dropParts s (s.dropFlits fs false g port flits drops) :=
  .foldl _ _ (fun v _ => v.fabricDrop_changes _ _ _ _) s

/-- Drops listed are each told of. -/
theorem dropFold_told (g port : Nat) (cycle : Nat × BitVec 2 → Nat) (l : List (Nat × BitVec 2)) (s : State) :
    Accrues s (l.foldl (fun u p => u.fabricDrop false g port p.2.toNat (cycle p)) s)
    ∧ ∀ p ∈ l, (s.tk.running = true → (l.foldl (fun u p => u.fabricDrop false g port p.2.toNat (cycle p)) s).marked)
      ∧ s.dropEvent g port p.2.toNat (cycle p) ∈ (l.foldl (fun u p => u.fabricDrop false g port p.2.toNat (cycle p)) s).events := by
  induction l generalizing s with
  | nil => exact ⟨.refl, fun _ => nofun⟩
  | cons x l ih =>
    rw [List.foldl_cons]
    have hstep := s.fabricDrop_accrues g port x.2.toNat (cycle x)
    obtain ⟨hrest, htold⟩ := ih (s.fabricDrop false g port x.2.toNat (cycle x))
    have ⟨hrun, hcount, _, _⟩ := hstep
    have ⟨_, _, hmark, hev⟩ := hrest
    refine ⟨hstep.trans hrest, fun p hp => ?_⟩
    rcases List.mem_cons.mp hp with rfl | hp
    · refine ⟨fun h => hmark (s.fabricDrop_marked _ _ _ _ (State.marked_markReplay _ h)), hev _ ?_⟩
      rw [State.fabricDrop_events]
      exact List.mem_append_right _ (List.mem_singleton.mpr rfl)
    · obtain ⟨hm, he⟩ := htold p hp
      refine ⟨fun h => hm (hrun.trans h), ?_⟩
      unfold State.dropEvent at he ⊢
      rwa [hcount] at he

/-! ### Deliveries -/

theorem State.opRead_length (s : State) (g : Nat) (ctx : Bool) (q : Option Seat) (off n : Nat) : (s.opRead g ctx q off n).length = n := by
  unfold State.opRead
  split
  · split
    · exact memRead_length ..
    · exact List.length_replicate
  · exact memRead_length ..

theorem sendSource_length (s : State) (c : Issue) (d : FabDesc) : (sendSource s c d).length = d.bytes.toNat := by
  unfold sendSource
  split
  · exact memRead_length ..
  · exact s.opRead_length ..

theorem segLost_of_no_drops {d : FabDesc} (h : d.drops = []) : segLost d = fun _ => false := by
  funext k
  simp [segLost, h]

/-- A segment that reaches into a dropped flit is lost. -/
theorem segLost_of_drop {d : FabDesc} {p : Nat × BitVec 2} (hp : p ∈ d.drops) {k i : Nat} (hi : i < (flitRun d p.1).2)
    (hlo : 256 * k ≤ (flitRun d p.1).1 + i) (hhi : (flitRun d p.1).1 + i < 256 * k + min 256 (d.bytes.toNat - 256 * k)) : segLost d k = true := by
  have hpos : 0 < flitBytes d.path.toNat := by
    unfold flitBytes
    split <;> decide
  simp only [flitRun] at hi hlo hhi
  have hflit : i < flitBytes d.path.toNat := hi.trans_le (Nat.min_le_left _ _)
  refine List.any_eq_true.mpr ⟨p, hp, Bool.and_eq_true_iff.mpr ⟨decide_eq_true ?_, decide_eq_true ?_⟩⟩
  · refine (Nat.div_le_div_right hlo).trans (Nat.le_of_lt_succ ?_)
    rw [Nat.div_lt_iff_lt_mul hpos, Nat.succ_mul]
    omega
  · refine (Nat.le_div_iff_mul_le hpos).mpr ?_
    show _ ≤ 256 * k + min 256 (d.bytes.toNat - 256 * k) - 1
    omega

section
variable {c : Issue} {d : FabDesc}

theorem State.sendReady_running (h : s.sendReady c d = true) : s.tk.running = true := by
  simp only [State.sendReady, State.issued, State.galRuns, Bool.and_eq_true] at h
  obtain ⟨⟨⟨⟨⟨hrun, -⟩, -⟩, -⟩, -⟩, -⟩ := h
  exact hrun

/-- A whole transfer to a receiver in service is counted and nothing else follows its bytes. -/
theorem execSend_whole (hready : s.sendReady c d = true) (hok : sendOk c d = true) (hinside : sendInside d = true)
    (hlive : (d.path == 1 || !s.galFenced d.dst.toNat) = true) (hdrops : d.drops = []) :
    ∃ t, execSend c d s = keep s t ∧ framed [.cnt] [] (s.sent c d) t := by
  obtain ⟨t, hexec, hcount⟩ := execSend_live hready hok hinside hlive
  rw [hdrops, State.dropFlits_nil] at hcount
  exact ⟨t, hexec, hcount⟩

end

/-- A whole transfer to hall staging. -/
theorem sent_staging {c : Issue} {d : FabDesc} (hdrops : d.drops = []) (hpath : d.path = 1) (h : framed [.cnt] [] (s.sent c d) t) :
    memRead (s.kept t).mem.staging d.dstOff.toNat d.bytes.toNat = sendSource s c d
    ∧ sameOutside 0 [(d.dstOff.toNat, d.bytes.toNat)] s.mem.staging (s.kept t).mem.staging ∧ framed [.staging, .cnt] [] s (s.kept t) := by
  have hmem := h.mem (by simp)
  rw [State.sent, segLost_of_no_drops hdrops, fabPutAll_staging hpath] at h hmem
  refine ⟨?_, ?_, (((framed_staging s _).widen).seq h).kept⟩
  · rw [State.kept_mem, hmem]
    exact segmentsPut_read _ _ _ (sendSource_length s c d) _
  · rw [State.kept_mem, hmem]
    have hout := segmentsPut_outside 0 d.dstOff.toNat d.bytes.toNat (sendSource s c d) (fun _ => false) s.mem.staging
    rwa [Nat.zero_add] at hout

/-- A whole transfer to scratchpad. -/
theorem sent_sp {c : Issue} {d : FabDesc} (hdrops : d.drops = []) (hpath : d.path ≠ 1) (hctx : d.dmodeCtx = false)
    (h : framed [.cnt] [] (s.sent c d) t) :
    memRead (s.kept t).mem.sp (spKey d.dst.toNat d.dstOff.toNat) d.bytes.toNat = sendSource s c d
    ∧ sameOutside (spKey d.dst.toNat 0) [(d.dstOff.toNat, d.bytes.toNat)] s.mem.sp (s.kept t).mem.sp ∧ framed [.sp, .cnt] [] s (s.kept t) := by
  have hmem := h.mem (by simp)
  rw [State.sent, segLost_of_no_drops hdrops, fabPutAll_sp hpath hctx] at h hmem
  refine ⟨?_, ?_, (((framed_sp s _).widen).seq h).kept⟩
  · rw [State.kept_mem, hmem]
    exact segmentsPut_read _ _ _ (sendSource_length s c d) _
  · rw [State.kept_mem, hmem]
    have hout := segmentsPut_outside (spKey d.dst.toNat 0) d.dstOff.toNat d.bytes.toNat (sendSource s c d) (fun _ => false) s.mem.sp
    rwa [← spKey_add] at hout

/-- A whole transfer to the context of the clause's seat; through an empty seat nothing is written. -/
theorem sent_ctx {c : Issue} {d : FabDesc} (hdrops : d.drops = []) (hpath : d.path ≠ 1) (hctx : d.dmodeCtx = true)
    (h : framed [.cnt] [] (s.sent c d) t) :
    ctxOutsideAll s (s.kept t) d.dst.toNat [s.seatAt c.gal.toNat c.seat.toNat] [(d.dstOff.toNat, d.bytes.toNat)]
    ∧ framed [.ctx, .cnt] [] s (s.kept t)
    ∧ ∀ q, s.seatAt c.gal.toNat c.seat.toNat = some q →
      memRead (s.kept t).mem.ctx (ctxKey q.handle d.dst.toNat (1 - s.curHalf q.handle) d.dstOff.toNat) d.bytes.toNat = sendSource s c d := by
  have hmem := h.mem (by simp)
  rcases hseat : s.seatAt c.gal.toNat c.seat.toNat with _ | q
  · rw [State.sent, hseat, fabPutAll_noSeat hpath hctx] at h hmem
    refine ⟨ctxOutsideAll.refl.of_ctx ?_, (h.widen).kept, fun _ => nofun⟩
    rw [State.kept_mem, hmem]
  · rw [State.sent, hseat, segLost_of_no_drops hdrops, fabPutAll_ctx hpath hctx] at h hmem
    refine ⟨?_, (((framed_ctx s _).widen).seq h).kept, fun x hx => ?_⟩
    · intro k hk
      rw [State.kept_mem, hmem]
      have hout := segmentsPut_outside (ctxKey q.handle d.dst.toNat (1 - s.curHalf q.handle) 0) d.dstOff.toNat d.bytes.toNat
        (sendSource s c d) (fun _ => false) s.mem.ctx
      rw [← ctxKey_add] at hout
      exact hout k fun x hx => hk q (List.mem_singleton.mpr rfl) x hx
    · cases hx
      rw [State.kept_mem, hmem]
      exact segmentsPut_read _ _ _ (sendSource_length s c d) _

/-- A dropped flit of a transfer to scratchpad: its bytes stay. -/
theorem sent_dropped {c : Issue} {d : FabDesc} (hpath : d.path ≠ 1) (hctx : d.dmodeCtx = false) {p : Nat × BitVec 2} (hp : p ∈ d.drops)
    {i : Nat} (hi : i < (flitRun d p.1).2) :
    memByte (s.sent c d).mem.sp (spKey d.dst.toNat (d.dstOff.toNat + (flitRun d p.1).1 + i))
      = memByte s.mem.sp (spKey d.dst.toNat (d.dstOff.toNat + (flitRun d p.1).1 + i)) := by
  rw [State.sent, fabPutAll_sp hpath hctx]
  refine segmentsPut_out _ _ _ _ _ _ _ fun k _ hwhole => ?_
  rw [spKey_add _ (d.dstOff.toNat + _ + i), spKey_add _ d.dstOff.toNat]
  by_contra hin
  exact absurd (segLost_of_drop (k := k) hp hi (by omega) (by omega)) (by simp [hwhole])

/-- Settles O17: the segments fill the destination's run, and a dropped flit's segments are skipped. -/
theorem sendDelivers : Obligations.SendDelivers := by
  refine ⟨fun c d s hready hok hinside hdrops => ?_, fun c d s t hready hok hinside hpath hctx hlive hexec p hp hflit => ?_⟩
  · cases hlive : (d.path == 1 || !s.galFenced d.dst.toNat) with
    | false =>
      obtain ⟨hpath, hfenced⟩ : d.path ≠ 1 ∧ s.galFenced d.dst.toNat = true := by simpa using hlive
      obtain ⟨t, hexec, hcount⟩ := execSend_fenced hready hok hinside hlive
      exact ⟨_, hexec, fun h => absurd h hpath, fun _ _ => hcount.kept, fun _ h => absurd h (by simp [hfenced]), fun _ h => absurd h (by simp [hfenced])⟩
    | true =>
      obtain ⟨t, hexec, hcount⟩ := execSend_whole hready hok hinside hlive hdrops
      refine ⟨_, hexec, fun hpath => sent_staging hdrops hpath hcount, fun hpath hfenced => ?_, fun hpath _ hctx => sent_sp hdrops hpath hctx hcount,
        fun hpath _ hctx => sent_ctx hdrops hpath hctx hcount⟩
      exact absurd hlive (by simpa [hfenced] using hpath)
  · obtain ⟨v, hsend, hcount⟩ := execSend_live hready hok hinside (by simp [hlive])
    have ht : t = s.kept v := Host.Outcome.next.inj (hexec.symm.trans hsend)
    subst ht
    rw [show (d.path == 1) = false by simpa using hpath, if_neg hpath] at hcount
    have hsent : framed [.sp] [] s (s.sent c d) := by
      rw [State.sent, fabPutAll_sp hpath hctx]
      exact framed_sp s _
    have hdropped := (s.sent c d).dropFlits_changes (s.sendSlots c d) d.dst.toNat (fabRx d) (ceilDiv d.bytes.toNat (flitBytes d.path.toNat)) d.drops
    obtain ⟨-, htold⟩ := dropFold_told d.dst.toNat (fabRx d) (fun p => if p.1 < ceilDiv d.bytes.toNat (flitBytes d.path.toNat) then
      (flitSlot (s.sendSlots c d) p.1).2 else p.1) (d.drops.filter fun p => decide (p.1 < ceilDiv d.bytes.toNat (flitBytes d.path.toNat)) || p.2 == 0)
      (s.sent c d)
    obtain ⟨hmark, hev⟩ := htold p (List.mem_filter.mpr ⟨hp, by simp [hflit]⟩)
    refine ⟨fun i hi => ?_, ?_, ?_⟩
    · rw [State.kept_mem, (hcount.1 .sp (by simp)).trans (hdropped .sp (by decide))]
      exact sent_dropped hpath hctx hp hi
    · have hrun : (s.sent c d).tk.running = true := (hsent.1 .running (by decide)).trans (State.sendReady_running hready)
      exact (hmark hrun).imp (fun e => (hcount.1 .replay (by decide)).trans e) fun e => (hcount.1 .replayNext (by decide)).trans e
    · have hkept : (s.kept v).events = ((s.sent c d).dropFlits (s.sendSlots c d) false d.dst.toNat (fabRx d)
          (ceilDiv d.bytes.toNat (flitBytes d.path.toNat)) d.drops).events := hcount.1 .events (by decide)
      refine ⟨(s.sent c d).dropEvent d.dst.toNat (fabRx d) p.2.toNat (flitSlot (s.sendSlots c d) p.1).2, ?_, rfl, ?_⟩
      · rw [hkept]
        rwa [if_pos hflit] at hev
      · rw [State.dropEvent, hsent.1 .tickCount (by decide)]

end Sys2Proof.Machine
end

section
/-! SUPPORT. A parity error shown, told of and recorded, and the fence that the third one queues (R412, R414, R418, R431). -/

namespace Sys2Proof.Machine

set_option Elab.async false

variable {s t u : State} {domain g unit cycle : Nat}

/-! ### Faults recorded -/

/-- The block's fault of this tick stands in a log. -/
theorem State.recordFault_logged (s : State) (domain g unit cycle : Nat) :
    (domain, g, unit, s.tk.count) ∈ (s.recordFault domain g unit cycle).faults.log := by
  unfold State.recordFault
  dsimp only
  split
  next hany =>
    obtain ⟨e, he, hsame⟩ := List.any_eq_true.mp hany
    simp only [Bool.and_eq_true, beq_iff_eq] at hsame
    obtain ⟨⟨⟨rfl, rfl⟩, rfl⟩, htick⟩ := hsame
    rw [← htick]
    exact List.mem_of_mem_filter he
  · split
    · have hlog : ∀ v : State, (v.queueFence domain g unit cycle).faults.log = v.faults.log := fun v => by
        unfold State.queueFence
        split <;> rfl
      rw [hlog]
      exact List.mem_append_right _ (List.mem_singleton.mpr rfl)
    · exact List.mem_append_right _ (List.mem_singleton.mpr rfl)

theorem State.queueFence_queued (s : State) (domain g unit cycle : Nat) :
    ∃ f ∈ (s.queueFence domain g unit cycle).faults.fences, f.domain = domain ∧ f.gal = g ∧ f.unit = unit := by
  unfold State.queueFence
  split
  next hany =>
    obtain ⟨f, hf, hsame⟩ := List.any_eq_true.mp hany
    simp only [Bool.and_eq_true, beq_iff_eq] at hsame
    obtain ⟨⟨hd, hg⟩, hu⟩ := hsame
    exact ⟨f, hf, hd, hg, hu⟩
  · exact ⟨_, List.mem_append_right _ (List.mem_singleton.mpr rfl), rfl, rfl, rfl⟩

/-- The third fault of a block within 1,000 ticks queues its fence. -/
theorem State.recordFault_fences (hnew : (domain, g, unit, s.tk.count) ∉ s.faults.log) (htwo : 2 ≤ s.faultWindow domain g unit) (hhall : domain ≠ 9) :
    ∃ f ∈ (s.recordFault domain g unit cycle).faults.fences, f.domain = domain ∧ f.gal = g ∧ f.unit = unit := by
  unfold State.recordFault
  dsimp only
  rw [if_neg, if_pos]
  · exact State.queueFence_queued ..
  · refine ⟨?_, hhall⟩
    unfold State.faultWindow at htwo ⊢
    rw [List.countP_append, List.countP_filter, List.countP_singleton]
    have hsame : (s.faults.log.countP fun e => (e.1 == domain && e.2.1 == g && e.2.2.1 == unit && decide (s.tk.count.toNat < e.2.2.2.toNat + 1000))
        && decide (s.tk.count.toNat < e.2.2.2.toNat + 1000))
        = s.faults.log.countP fun e => e.1 == domain && e.2.1 == g && e.2.2.1 == unit && decide (s.tk.count.toNat < e.2.2.2.toNat + 1000) := by
      simp [Bool.and_assoc]
    rw [hsame]
    simp only [beq_self_eq_true, Bool.true_and, Nat.lt_add_right_iff_pos, Nat.zero_lt_succ, decide_true, if_true]
    omega
  · intro hany
    obtain ⟨e, he, hsame⟩ := List.any_eq_true.mp hany
    simp only [Bool.and_eq_true, beq_iff_eq] at hsame
    obtain ⟨⟨⟨rfl, rfl⟩, rfl⟩, htick⟩ := hsame
    rw [← htick] at hnew
    exact hnew (List.mem_of_mem_filter he)

theorem State.faultWindow_of (hcount : t.tk.count = s.tk.count) (hfaults : t.faults = s.faults) :
    t.faultWindow domain g unit = s.faultWindow domain g unit := by
  unfold State.faultWindow
  rw [hcount, hfaults]

/-! ### Parity errors -/

/-- The parity registers that a block may have. -/
def parityRegs (domain g unit : Nat) : List Nat :=
  [Reg.GAL_MU_PARITY g unit, Reg.GAL_VU_PARITY g unit, Reg.GAL_ISU_PARITY g unit, Reg.GAL_FAB_PARITY g (portOf domain unit)]

theorem State.parityReg_framed (s : State) (domain g unit place : Nat) :
    framed [.regs] (parityRegs domain g unit) s (s.parityReg domain g unit place) := by
  have htwo : ∀ off ∈ parityRegs domain g unit, framed [.regs] (parityRegs domain g unit) s ((s.setFld off 31 28 place).count off 15 0 1) :=
    fun off ho => ((s.setFld_framed off _ _ _).widen (by simp) (by simpa using ho)).seq (State.count_framed ..) (by simp) (by simpa using ho)
  unfold State.parityReg
  split
  · exact htwo _ (by simp [parityRegs])
  · exact htwo _ (by simp [parityRegs])
  · exact htwo _ (by simp [parityRegs])
  · exact .ite (fun _ => (State.count_framed ..).widen (by simp) (by simp [parityRegs])) fun _ => .refl
  · exact .ite (fun _ => (State.count_framed ..).widen (by simp) (by simp [parityRegs])) fun _ => .refl
  · exact .refl

theorem parityRegs_high {off : Nat} (h : off ∈ parityRegs domain g unit) : 0x110000 ≤ off := by
  simp only [parityRegs, List.mem_cons, List.not_mem_nil, or_false] at h
  rcases h with rfl | rfl | rfl | rfl
  · simp only [Reg.GAL_MU_PARITY]
    omega
  · simp only [Reg.GAL_VU_PARITY]
    omega
  · simp only [Reg.GAL_ISU_PARITY]
    omega
  · simp only [Reg.GAL_FAB_PARITY]
    omega

/-- The registers of the last fault. -/
def lastRegs : List Nat := [Reg.ERR_LAST, Reg.ERR_LAST_TICK_LO, Reg.ERR_LAST_TICK_HI]

theorem State.faultShow_last (s : State) (domain g unit place cycle : Nat) :
    (s.faultShow domain g unit place cycle).reg Reg.ERR_LAST
        = wordOf (domain * 0x10000000 + g % 8 * 0x2000000 + unit % 32 * 0x100000 + cycle % 65536)
    ∧ (s.faultShow domain g unit place cycle).reg Reg.ERR_LAST_TICK_LO = wordOf s.tk.count.toNat
    ∧ (s.faultShow domain g unit place cycle).reg Reg.ERR_LAST_TICK_HI = wordOf (s.tk.count.toNat / 0x100000000) := by
  unfold State.faultShow
  have hput := fun (v : State) (l : List Word) => v.bbxPut_framed 2 none 0 l
  refine ⟨?_, ?_, ?_⟩
  · rw [(hput _ _).reg (by decide), State.setReg64, State.reg_setReg_ne _ _ _ _ (by decide), State.reg_setReg_ne _ _ _ _ (by decide), State.reg_setReg]
  · rw [(hput _ _).reg (by decide), State.setReg64, State.reg_setReg_ne _ _ _ _ (by decide), State.reg_setReg]
  · rw [(hput _ _).reg (by decide), State.setReg64, State.reg_setReg]

/-- A parity error as it stands before its block records it. -/
def State.parityTold (s : State) (domain g unit place cycle : Nat) : State :=
  (((s.markReplay cycle).faultShow domain g unit place cycle).parityReg domain g unit place).raisePf 0x7001
    ([domain, g, unit, place, cycle, s.tk.count.toNat].map wordOf)

/-- What follows the mark of a parity error. -/
theorem State.parityTold_framed (s : State) (domain g unit place cycle : Nat) :
    framed eventParts (lastRegs ++ parityRegs domain g unit ++ eventRegs) (s.markReplay cycle) (s.parityTold domain g unit place cycle) :=
  (((State.faultShow_framed ..).widen (by simp [eventParts]) (by simp +contextual [lastRegs])).seq (State.parityReg_framed ..)
    (by simp [eventParts]) (by simp +contextual)).seq (State.raisePf_framed ..) (fun _ => id) (by simp +contextual)

theorem State.parityTold_last (s : State) (domain g unit place cycle : Nat) {off : Nat} (ho : off ∈ lastRegs) :
    (s.parityTold domain g unit place cycle).reg off = ((s.markReplay cycle).faultShow domain g unit place cycle).reg off := by
  have hlow : off < 0x110000 ∧ off ∉ eventRegs := by
    simp only [lastRegs, List.mem_cons, List.not_mem_nil, or_false] at ho
    rcases ho with rfl | rfl | rfl <;> decide
  refine ((State.raisePf_framed ..).reg hlow.2).trans ((State.parityReg_framed ..).reg fun h => ?_)
  exact absurd (parityRegs_high h) (by omega)

theorem State.parityTold_events (s : State) (domain g unit place cycle : Nat) : (s.parityTold domain g unit place cycle).events =
    s.events ++ [⟨0x7001, none, [domain, g, unit, place, cycle, s.tk.count.toNat].map wordOf, []⟩] := by
  rw [State.parityTold, State.raisePf_events, (State.parityReg_framed ..).1 .events (by decide), (State.faultShow_framed ..).1 .events (by decide),
    (s.markReplay_framed cycle).1 .events (by decide)]

theorem State.markReplay_stopped (cycle : Nat) (h : s.tk.running = false) : s.markReplay cycle = s := by
  unfold State.markReplay
  rw [if_pos (by simp [h])]

theorem State.markReplay_one (cycle : Nat) (h : s.tk.running = true) : if s.lateCycle cycle then
    (s.markReplay cycle).tk.replayNext = true ∧ (s.markReplay cycle).tk.replay = s.tk.replay
    else (s.markReplay cycle).tk.replay = true ∧ (s.markReplay cycle).tk.replayNext = s.tk.replayNext := by
  unfold State.markReplay
  cases hl : s.lateCycle cycle <;> simp [h]

section
variable (domain : BitVec 4) (gal : BitVec 3) (unit : BitVec 5) (place : BitVec 4) (cycle : BitVec 16)

theorem exec_parityError_dead (h : s.blockLive domain.toNat gal.toNat unit.toNat = false) :
    exec (.parityError domain gal unit place cycle) s = .next s := by
  show keep s (if !s.blockLive domain.toNat gal.toNat unit.toNat then s else _) = _
  rw [if_pos (by simp [h])]
  rfl

theorem exec_parityError_live (h : s.blockLive domain.toNat gal.toNat unit.toNat = true) :
    exec (.parityError domain gal unit place cycle) s =
      keep s ((s.parityTold domain.toNat gal.toNat unit.toNat place.toNat cycle.toNat).recordFault domain.toNat gal.toNat unit.toNat cycle.toNat) := by
  show keep s (if !s.blockLive domain.toNat gal.toNat unit.toNat then s else _) = _
  rw [if_neg (by simp [h])]
  rfl

end

/-- Settles O18: the mark, the registers, the event and the log, each by the rule of its own step. -/
theorem parityErrorsRecorded : Obligations.ParityErrorsRecorded := by
  intro domain gal unit place cycle s
  refine ⟨exec_parityError_dead domain gal unit place cycle, fun hlive => ⟨_, exec_parityError_live domain gal unit place cycle hlive, ?_⟩⟩
  have hrecord := State.recordFault_framed (s.parityTold domain.toNat gal.toNat unit.toNat place.toNat cycle.toNat) domain.toNat gal.toNat
    unit.toNat cycle.toNat
  have htold := s.parityTold_framed domain.toNat gal.toNat unit.toNat place.toNat cycle.toNat
  have hevents := s.parityTold_events domain.toNat gal.toNat unit.toNat place.toNat cycle.toNat
  have hcount : (s.parityTold domain.toNat gal.toNat unit.toNat place.toNat cycle.toNat).tk.count = s.tk.count :=
    (htold.1 .tickCount (by decide)).trans ((s.markReplay_framed cycle.toNat).1 .tickCount (by decide))
  have hfaults : (s.parityTold domain.toNat gal.toNat unit.toNat place.toNat cycle.toNat).faults = s.faults :=
    (htold.1 .faults (by decide)).trans ((s.markReplay_framed cycle.toNat).1 .faults (by decide))
  obtain ⟨hlast, hlow, hhigh⟩ := (s.markReplay cycle.toNat).faultShow_last domain.toNat gal.toNat unit.toNat place.toNat cycle.toNat
  rw [(s.markReplay_framed cycle.toNat).1 .tickCount (by decide)] at hlow hhigh
  have hreg : ∀ {off : Nat}, off ∈ lastRegs → ((s.parityTold domain.toNat gal.toNat unit.toNat place.toNat cycle.toNat).recordFault domain.toNat
      gal.toNat unit.toNat cycle.toNat).reg off =
      ((s.markReplay cycle.toNat).faultShow domain.toNat gal.toNat unit.toNat place.toNat cycle.toNat).reg off := fun ho =>
    (hrecord.reg (by simp)).trans (s.parityTold_last _ _ _ _ _ ho)
  have hreplay := (hrecord.1 .replay (by decide)).trans (htold.1 .replay (by decide))
  have hnext := (hrecord.1 .replayNext (by decide)).trans (htold.1 .replayNext (by decide))
  refine ⟨fun hr => ?_, fun hr => ?_, ?_, ?_, ?_, ?_, ?_, fun hnew htwo hhall => ?_, ?_⟩
  · rw [State.kept_tk_replay, State.kept_tk_replayNext, hreplay, hnext]
    exact State.markReplay_one _ hr
  · rw [State.kept_tk_replay, State.kept_tk_replayNext, hreplay, hnext, State.markReplay_stopped _ hr]
    exact ⟨rfl, rfl⟩
  · rw [State.kept_reg, hreg (by simp [lastRegs]), hlast, Nat.mod_eq_of_lt gal.isLt, Nat.mod_eq_of_lt unit.isLt, Nat.mod_eq_of_lt cycle.isLt]
  · rw [State.kept_reg, hreg (by simp [lastRegs]), hlow]
  · rw [State.kept_reg, hreg (by simp [lastRegs]), hhigh]
  · rw [State.kept_events, hrecord.1 .events (by decide), hevents]
  · rw [State.kept_faults, ← hcount]
    exact State.recordFault_logged ..
  · rw [State.kept_faults]
    refine State.recordFault_fences ?_ ?_ hhall
    · rwa [hcount, hfaults]
    · rwa [State.faultWindow_of hcount hfaults]
  · exact ((((s.markReplay_framed _).widen).seq htold (by simp [eventParts]) (by simp [lastRegs, parityRegs])).seq hrecord).kept

end Sys2Proof.Machine
end

section
/-! SUPPORT. Held steps, gates and checkpoints of a training object (R250 to R281). -/

namespace Sys2Proof.Machine

set_option Elab.async false

variable {s t u : State} {id : Nat}

/-! ### Gate commands -/

theorem State.gateCommand_unseen (h : ¬((s.lexAt id).kind ≠ 0 ∧ s.lexInRange inst id = true)) (step action : Nat) :
    s.gateCommand inst id step action = (s, St.notFound) := by
  unfold State.gateCommand
  rw [if_pos]
  cases hr : s.lexInRange inst id <;> simp_all

theorem State.gateCommand_seen (h : (s.lexAt id).kind ≠ 0 ∧ s.lexInRange inst id = true) (step action : Nat) :
    s.gateCommand inst id step action = if (s.trainAt id).state = 4 ∧ (s.trainAt id).number % 0x100000000 = step then
      (s.setTrain id { s.trainAt id with gate := some (if (s.trainAt id).gate = some 2 then 2 else action) }, St.ok) else (s, St.badField) := by
  unfold State.gateCommand
  rw [if_neg (by simp [h])]
  by_cases hheld : (s.trainAt id).state = 4 ∧ (s.trainAt id).number % 0x100000000 = step
  · rw [if_pos hheld, if_neg (by simp [hheld])]
  · rw [if_neg hheld, if_pos (by simpa [Decidable.or_iff_not_imp_left] using hheld)]

theorem State.gateCommand_framed (s : State) (inst id step action : Nat) : framed [.train] [] s (s.gateCommand inst id step action).1 := by
  unfold State.gateCommand
  split
  · exact .refl
  · dsimp only
    split
    · exact .refl
    · exact State.setTrain_framed ..

/-- The status that a function's own LEX_GATE_CMD shows. -/
theorem State.regC_setFldC_gate (v : State) (c st : Nat) : ((v.setFldC c Reg.LEX_GATE_CMD 7 0 st).regC c Reg.LEX_GATE_CMD).field 7 0 = st % 256 := by
  unfold State.setFldC
  exact (congrArg (Word.field · 7 0) (State.regC_setRegC ..)).trans (Word.field_setField _ _ _ _ (by decide) (by decide))

theorem gateCommand_effect (fn : BitVec 6) (s : State) (action : Nat) :
    let f := fn.toNat
    let id := (s.regC (f + 1) Reg.LEX_GATE_ID).field 23 0
    let lo := s.fld (Reg.LEX_RANGE_BASE f) 23 0
    let seen := (s.lexAt id).kind ≠ 0 ∧ lo ≤ id ∧ id < lo + s.fld (Reg.LEX_RANGE_COUNT f) 24 0
    let held := (s.trainAt id).state = 4 ∧ (s.trainAt id).number % 0x100000000 = (s.regC (f + 1) Reg.LEX_GATE_STEP).toNat
    let t := s.kept (s.lexGate f action)
    (seen → held → (t.trainAt id).gate = some (if (s.trainAt id).gate = some 2 then 2 else action)
        ∧ (t.regC (f + 1) Reg.LEX_GATE_CMD).field 7 0 = St.ok)
      ∧ (¬seen → t.ls = s.ls ∧ (t.regC (f + 1) Reg.LEX_GATE_CMD).field 7 0 = St.notFound)
      ∧ (seen → ¬held → t.ls = s.ls ∧ (t.regC (f + 1) Reg.LEX_GATE_CMD).field 7 0 = St.badField)
      ∧ framed [.train, .regs] [regKey (f + 1) Reg.LEX_GATE_CMD] s t := by
  intro f id lo seen held t
  have hseen : seen ↔ (s.lexAt id).kind ≠ 0 ∧ s.lexInRange f id = true := by simp [seen, lo, State.lexInRange]
  have ht : t = s.kept ((s.gateCommand f id (s.regC (f + 1) Reg.LEX_GATE_STEP).toNat action).1.setFldC (f + 1) Reg.LEX_GATE_CMD 7 0
    (s.gateCommand f id (s.regC (f + 1) Reg.LEX_GATE_STEP).toNat action).2) := rfl
  clear_value t
  subst ht
  rw [State.kept_regC, State.regC_setFldC_gate, State.kept_ls]
  refine ⟨fun h g => ?_, fun h => ?_, fun h g => ?_, ?_⟩
  · rw [State.gateCommand_seen (hseen.mp h), if_pos g]
    dsimp only
    refine ⟨?_, by decide⟩
    unfold State.trainAt
    rw [State.kept_ls, State.setFldC_ls]
    exact congrArg TrainObj.gate (s.trainAt_setTrain id _)
  · rw [State.gateCommand_unseen (mt hseen.mpr h)]
    exact ⟨State.setFldC_ls .., (by decide : St.notFound % 256 = St.notFound)⟩
  · rw [State.gateCommand_seen (hseen.mp h), if_neg g]
    exact ⟨State.setFldC_ls .., (by decide : St.badField % 256 = St.badField)⟩
  · exact (((State.gateCommand_framed ..).widen).seq (State.setFldC_framed ..)).kept

/-- Settles O27: both actions are the gate command, with SKIP kept before GO. -/
theorem gateCommands : Obligations.GateCommands := by
  intro fn s f id lo seen held
  have ⟨hheld, hunseen, hother, hframe⟩ := gateCommand_effect fn s 2
  refine ⟨⟨_, rfl, gateCommand_effect fn s 1⟩, ⟨_, rfl, fun h g => ?_, hunseen, hother, hframe⟩⟩
  have hboth := hheld h g
  rwa [ite_self] at hboth

end Sys2Proof.Machine
end

section
/-! SUPPORT. A step of a training object begun, with its write plane filled, and a held step skipped (R250 to R274). -/

namespace Sys2Proof.Machine

set_option Elab.async false

variable {s t u : State} {m m' : Mem} {id g j h cur : Nat}

/-! ### Bytes copied -/

theorem keys_unlisted {β : Type} {x : SMap β} {k : Nat} (h : ∀ p ∈ x, p.1 ≠ k) : (x.any fun p => p.1 == k) = false :=
  List.any_eq_false.mpr fun p hp => by simpa using h p hp

theorem smGet_append_right {β : Type} (d : Nat → β) {x y : SMap β} {k : Nat} (hx : ∀ p ∈ x, p.1 ≠ k) : smGet d (x ++ y) k = smGet d y k := by
  rw [smGet_append, keys_unlisted hx, if_neg (by simp)]

theorem smGet_append_left {β : Type} (d : Nat → β) {x y : SMap β} {k : Nat} (hy : ∀ p ∈ y, p.1 ≠ k) : smGet d (x ++ y) k = smGet d x k := by
  rw [smGet_append, smGet_unlisted d y k (keys_unlisted hy)]
  split
  · rfl
  next hx => exact (smGet_unlisted d x k (Bool.eq_false_iff.mpr hx)).symm

/-- A byte of the run that is moved. -/
theorem memByte_moved (m : Mem) (a b n k : Nat) (hk : b ≤ k ∧ k < b + n) :
    memByte ((smRange m a (a + n)).map fun (p : Nat × Byte) => (p.1 - a + b, p.2)) k = memByte m (k - b + a) := by
  induction m with
  | nil => rfl
  | cons p m ih =>
    have htail : memByte (p :: m) (k - b + a) = if k - b + a = p.1 then p.2 else memByte m (k - b + a) := rfl
    rw [htail, ← ih]
    by_cases hin : a ≤ p.1 ∧ p.1 < a + n
    · have hhead : smRange (p :: m) a (a + n) = p :: smRange m a (a + n) := by simp [smRange, hin]
      have hplace : k - b + a = p.1 ↔ k = p.1 - a + b := by omega
      rw [hhead]
      simp only [hplace]
      rfl
    · have hskip : smRange (p :: m) a (a + n) = smRange m a (a + n) := by
        simp only [smRange, List.filter_cons, decide_eq_true_eq, if_neg hin]
      rw [hskip, if_neg (by omega)]

/-- A byte after `n` bytes were copied from `a` to `b`. -/
theorem memByte_copy (m : Mem) (a b n k : Nat) :
    memByte (memCopy m a b n) k = if b ≤ k ∧ k < b + n then memByte m (k - b + a) else memByte m k := by
  have hmoved : ∀ p ∈ (smRange m a (a + n)).map fun (p : Nat × Byte) => (p.1 - a + b, p.2), b ≤ p.1 ∧ p.1 < b + n := by
    simp only [smRange, List.mem_map, List.mem_filter, decide_eq_true_eq]
    rintro _ ⟨p, ⟨-, hp⟩, rfl⟩
    exact ⟨Nat.le_add_left .., by omega⟩
  have hlow : ∀ p ∈ m.filter fun p => decide (p.1 < b), p.1 < b := fun p hp => by simpa using (List.mem_filter.mp hp).2
  have hhigh : ∀ p ∈ m.filter fun p => decide (b + n ≤ p.1), b + n ≤ p.1 := fun p hp => by simpa using (List.mem_filter.mp hp).2
  unfold memCopy memByte
  by_cases hk : b ≤ k ∧ k < b + n
  · rw [if_pos hk, smGet_append_left _ fun p hp => by have := hhigh p hp; omega, smGet_append_right _ fun p hp => by have := hlow p hp; omega]
    exact memByte_moved m a b n k hk
  rw [if_neg hk]
  by_cases hbelow : k < b
  · rw [smGet_append_left _ fun p hp => by have := hhigh p hp; omega, smGet_append_left _ fun p hp => by have := hmoved p hp; omega,
      smGet_filter byteDefault m (fun j => decide (j < b)) k, if_pos (by simpa using hbelow)]
  · rw [smGet_append_right _ fun p hp => ?_, smGet_filter byteDefault m (fun j => decide (b + n ≤ j)) k, if_pos (by simp; omega)]
    rcases List.mem_append.mp hp with hp | hp
    · have := hlow p hp
      omega
    · have := hmoved p hp
      omega

/-! ### The write plane filled -/

/-- The current plane of an object's frames on a gallery is what it was. -/
def PlaneKept (id g cur : Nat) (m m' : Mem) : Prop := ∀ off < 0x40000000, memByte m' (objKey id g cur off) = memByte m (objKey id g cur off)

/-- The other plane holds the bits of the current one. -/
def PlaneFilled (id g cur : Nat) (m m' : Mem) : Prop :=
  ∀ off < 0x40000000, memByte m' (objKey id g (1 - cur) off) = memByte m (objKey id g cur off)

/-- A record's write plane on a gallery given the bits of its current one. -/
def fillPlane (id g cur : Nat) (m : Mem) : Mem := memCopy m (objKey id g cur 0) (objKey id g (1 - cur) 0) 0x40000000

theorem PlaneKept.fill (hcur : cur ≤ 1) (h : PlaneKept id g cur m m') (j k : Nat) : PlaneKept id g cur m (fillPlane j k cur m') := by
  intro off hoff
  rw [← h off hoff, fillPlane, memByte_copy, if_neg]
  simp only [objKey]
  omega

theorem PlaneFilled.of_fill (h : PlaneKept id g cur m m') : PlaneFilled id g cur m (fillPlane id g cur m') := by
  intro off hoff
  rw [← h off hoff, fillPlane, memByte_copy, if_pos (by simp only [objKey]; omega)]
  congr 1
  simp only [objKey]
  omega

theorem PlaneFilled.fill (hcur : cur ≤ 1) (hkept : PlaneKept id g cur m m') (h : PlaneFilled id g cur m m') (j k : Nat) :
    PlaneFilled id g cur m (fillPlane j k cur m') := by
  intro off hoff
  by_cases hsame : 8 * j + k = 8 * id + g
  · have heq : fillPlane j k cur m' = fillPlane id g cur m' := by simp only [fillPlane, objKey, hsame]
    rw [heq]
    exact PlaneFilled.of_fill hkept off hoff
  · rw [← h off hoff, fillPlane, memByte_copy, if_neg]
    simp only [objKey]
    omega

/-- What holds at the end of a fold over the galleries of a record. -/
theorem planes_fold (hcur : cur ≤ 1) (f : State → Nat → State) (hf : ∀ v g, (f v g).mem.obj = fillPlane id g cur v.mem.obj) (l : List Nat)
    (hkept : PlaneKept id g cur m s.mem.obj) (h : g ∈ l ∨ PlaneFilled id g cur m s.mem.obj) :
    PlaneKept id g cur m (l.foldl f s).mem.obj ∧ PlaneFilled id g cur m (l.foldl f s).mem.obj := by
  induction l generalizing s with
  | nil => exact ⟨hkept, by simpa using h⟩
  | cons x l ih =>
    refine ih ?_ ?_
    · rw [hf]
      exact hkept.fill hcur id x
    · rw [hf]
      rcases h with h | h
      · rcases List.mem_cons.mp h with rfl | h
        · exact .inr (.of_fill hkept)
        · exact .inl h
      · exact .inr (h.fill hcur hkept id x)

theorem State.copyPlane_filled (s : State) (hcur : cur ≤ 1) (hg : g < 8) : PlaneFilled id g cur s.mem.obj (s.copyPlane id cur).mem.obj := by
  unfold State.copyPlane
  dsimp only
  have hown := planes_fold (id := id) (g := g) (s := s) (m := s.mem.obj) hcur
    (fun u g => { u with mem := { u.mem with obj := memCopy u.mem.obj (objKey id g cur 0) (objKey id g (1 - cur) 0) 0x40000000 } })
    (fun _ _ => rfl) (List.range 8) (fun _ _ => rfl) (.inl (List.mem_range.mpr hg))
  generalize (List.range 8).foldl _ s = s1 at hown ⊢
  induction s.affixSlots id generalizing s1 with
  | nil => exact hown.2
  | cons n l ih =>
    refine ih _ ?_
    dsimp only
    split
    next p _ => exact ⟨hown.1.fill hcur (s.slotAt n).lexId p, hown.2.fill hcur hown.1 (s.slotAt n).lexId p⟩
    · exact hown

theorem framed_slotObj (s : State) (x y : Mem) : framed [.obj, .slot] [] s { s with mem := { s.mem with obj := x, slot := y } } :=
  ⟨fun p hp => by cases p <;> first | (simp at hp; done) | rfl, .of_regs rfl⟩

theorem State.copyPlane_framed (s : State) (id cur : Nat) : framed [.obj, .slot] [] s (s.copyPlane id cur) := by
  refine framed.fold (framed.foldl _ _ (fun v g => (framed_obj v _).widen) s) fun v n => ?_
  dsimp only
  split
  · exact framed_slotObj v _ _
  · exact (framed_slot v _).widen

/-! ### Steps begun and skipped -/

theorem State.stepStart_starts (hstate : (s.trainAt id).state = 1) (hdone : s.batchesDone id = true) (hfree : s.planeFree id = true) :
    s.stepStart id false = (s.setTrain id { s.trainAt id with state := 2, sums := [], flags := 0 }).copyPlane id (s.trainAt id).cur := by
  unfold State.stepStart
  dsimp only
  rw [if_neg (by simp [hstate, hdone]), if_pos hfree]

theorem State.stepStart_waits (h : (s.trainAt id).state ≠ 1 ∨ s.batchesDone id = false ∨ s.planeFree id = false) : s.stepStart id false = s := by
  unfold State.stepStart
  dsimp only
  rcases h with h | h | h
  · rw [if_pos (.inl h)]
  · rw [if_pos (.inr (by simp [h]))]
  · split
    · rfl
    · rw [if_neg (by simp [h]), if_neg (by simp)]

theorem State.gateExpire_waits (h : (s.trainAt id).state ≠ 4 ∨ (s.trainAt id).holdLeft ≠ 0) : s.gateExpire id = s := by
  unfold State.gateExpire
  dsimp only
  rw [if_neg]
  rintro ⟨hstate, hleft⟩
  rcases h with h | h
  · exact h hstate
  · exact h hleft

theorem State.finishStep_framed (s : State) (id outcome status : Nat) : framed [.req, .reqs] [] s (s.finishStep id outcome status) := by
  unfold State.finishStep
  split
  · exact .refl
  · exact ((framed_req s _).widen).seq (State.updReq_framed ..)

theorem State.clearGrad_framed (s : State) (id : Nat) : framed [.obj, .slot] [] s (s.clearGrad id) :=
  framed.fold (framed.foldl _ _ (fun v g => (framed_obj v _).widen) s) fun v n => (framed_slot v _).widen

/-- A record's workspace plane on a gallery reads 0. -/
def GradClear (id g : Nat) (m : Mem) : Prop := ∀ off < 0x40000000, memByte m (objKey id g 2 off) = 0

theorem State.clearGrad_clear (s : State) (hg : g < 8) : GradClear id g (s.clearGrad id).mem.obj := by
  have hgal : ∀ (l : List Nat) (v : State), g ∈ l ∨ GradClear id g v.mem.obj → GradClear id g (l.foldl (fun (u : State) g =>
      { u with mem := { u.mem with obj := memZero u.mem.obj (objKey id g 2 0) 0x40000000 } }) v).mem.obj := by
    intro l
    induction l with
    | nil => exact fun v h => by simpa using h
    | cons x l ih =>
      refine fun v h => ih _ ?_
      by_cases hx : x = g
      · refine .inr fun off hoff => ?_
        rw [hx, memByte_zero, if_pos (by simp only [objKey]; omega)]
      · rcases h with h | h
        · exact .inl ((List.mem_cons.mp h).resolve_left fun e => hx e.symm)
        · refine .inr fun off hoff => ?_
          rw [memByte_zero, h off hoff, ite_self]
  have hslots : ∀ (l : List Nat) (v : State), (l.foldl (fun u n =>
      { u with mem := { u.mem with slot := memZero u.mem.slot (slotKey n 2 0) 0x40000000 } }) v).mem.obj = v.mem.obj := by
    intro l
    induction l with
    | nil => exact fun v => rfl
    | cons x l ih => exact fun v => ih _
  unfold State.clearGrad
  dsimp only
  rw [hslots]
  exact hgal _ _ (.inl (List.mem_range.mpr hg))

/-- A held step ended and its skip told of. -/
def State.skipRaised (s : State) (id : Nat) : State :=
  ((s.finishStep id 3 St.stepSkipped).countScoped Reg.LEX_TRN_SKIPS (some (s.lexAt id).inst) 1).raiseInst 0x2013 (s.lexAt id).inst
    (wordOf id :: [wordOf (s.trainAt id).number, wordOf s.tk.count.toNat])

/-- A held step skipped, before its workspace is cleared. -/
def State.skipTold (s : State) (id : Nat) : State := (s.skipRaised id).setTrain id { s.trainAt id with state := 0, gate := none }

theorem State.skipTold_train (s : State) (id : Nat) : (s.skipTold id).trainAt id = { s.trainAt id with state := 0, gate := none } := by
  rw [State.skipTold, State.trainAt_setTrain]

theorem State.stepSkip_held (s : State) (id : Nat) : s.stepSkip id 3 = (s.skipTold id).clearGrad id := by
  unfold State.stepSkip
  dsimp only
  rw [if_pos rfl]
  rfl

/-- The registers of a skipped step. -/
def skipRegs (inst : Nat) : List Nat := Reg.LEX_TRN_SKIPS :: regKey (inst + 1) Reg.LEX_TRN_SKIPS :: eventRegs

/-- The parts of a skipped step. -/
def skipParts : List Part := [.train, .req, .reqs, .obj, .slot] ++ eventParts

theorem State.skipTold_framed (s : State) (id : Nat) : framed skipParts (skipRegs (s.lexAt id).inst) s (s.skipTold id) :=
  ((((s.finishStep_framed id 3 St.stepSkipped).widen (by simp [skipParts])).seq (State.countScoped_framed ..) (by simp [skipParts, eventParts])
    (by simp [skipRegs])).seq (State.raiseInst_framed ..) (by simp +contextual [skipParts]) (by simp +contextual [skipRegs])).seq
    (State.setTrain_framed ..) (by simp [skipParts])

theorem State.skipTold_events (s : State) (id : Nat) : (s.skipTold id).events = s.events ++
    [⟨0x2013, some (s.lexAt id).inst, [wordOf id, wordOf (s.trainAt id).number, wordOf s.tk.count.toNat], [(s.lexAt id).inst]⟩] := by
  have hquiet := ((s.finishStep_framed id 3 St.stepSkipped).1 .events (by decide)).symm.trans
    ((State.countScoped_framed (s.finishStep id 3 St.stepSkipped) Reg.LEX_TRN_SKIPS (some (s.lexAt id).inst) 1).1 .events (by decide)).symm
  rw [State.skipTold, State.setTrain_events, State.skipRaised, State.raiseInst_events, ← hquiet]

theorem State.gateExpire_skips (hstate : (s.trainAt id).state = 4) (hleft : (s.trainAt id).holdLeft = 0) :
    s.gateExpire id = (s.skipTold id).clearGrad id := by
  unfold State.gateExpire
  dsimp only
  rw [if_pos ⟨hstate, hleft⟩, State.stepSkip_held]

theorem State.trainAt_of (h : t.ls.train = s.ls.train) (id : Nat) : t.trainAt id = s.trainAt id := by
  unfold State.trainAt
  rw [h]

@[simp] theorem State.kept_trainAt (s t : State) (id : Nat) : (s.kept t).trainAt id = t.trainAt id := rfl

/-- Settles O26: a step begins by filling its write plane, and a held step at its end clears the workspace. -/
theorem stepsStartAndSkip : Obligations.StepsStartAndSkip := by
  intro id s n x
  refine ⟨fun hstate hdone hfree hcur => ⟨_, congrArg (keep s) (State.stepStart_starts hstate hdone hfree), ?_, ?_, ?_⟩,
    fun h => congrArg (keep s) (State.stepStart_waits h),
    fun hstate hleft => ⟨_, congrArg (keep s) (State.gateExpire_skips hstate hleft), ?_⟩, fun h => congrArg (keep s) (State.gateExpire_waits h)⟩
  · have htrain := (State.copyPlane_framed (s.setTrain n { x with state := 2, sums := [], flags := 0 }) n x.cur).1 .train (by decide)
    rw [State.kept_trainAt, State.trainAt_of htrain, State.trainAt_setTrain]
  · intro g hg off hoff
    rw [State.kept_mem]
    exact State.copyPlane_filled (s.setTrain n { x with state := 2, sums := [], flags := 0 }) hcur hg off hoff
  · exact (((State.setTrain_framed ..).widen).seq (State.copyPlane_framed ..)).kept
  · have hclear := (s.skipTold n).clearGrad_framed n
    have htrain := (State.trainAt_of (hclear.1 .train (by decide)) n).trans (s.skipTold_train n)
    rw [State.kept_trainAt, htrain, State.kept_mem, State.kept_events, hclear.1 .events (by decide), State.skipTold_events]
    exact ⟨rfl, rfl, rfl, fun g hg => (s.skipTold n).clearGrad_clear hg, rfl, ((s.skipTold_framed n).seq hclear (by simp [skipParts])).kept⟩

end Sys2Proof.Machine
end

section
/-! SUPPORT. The checkpoint of a group: its start, its pages and its end (R276 to R281, R294). -/

namespace Sys2Proof.Machine

set_option Elab.async false

variable {s t u : State} {id group : Nat}

/-- What every setting of a training object's state keeps, a run of them keeps. -/
theorem State.trainAt_fold {P : TrainObj → Prop} {f : TrainObj → TrainObj} (hf : ∀ x, P x → P (f x)) (l : List Nat) (h : P (s.trainAt id)) :
    P ((l.foldl (fun (u : State) r => u.setTrain r (f (u.trainAt r))) s).trainAt id) := by
  induction l generalizing s with
  | nil => exact h
  | cons r l ih =>
    refine ih ?_
    by_cases hr : id = r
    · rw [← hr, State.trainAt_setTrain]
      exact hf _ h
    · unfold State.trainAt State.setTrain
      rw [smGet_set_ne _ _ _ hr]
      exact h

/-! ### The start -/

/-- An object with a group's copy no longer valid. -/
def TrainObj.ckptDropped (x : TrainObj) (group copy : Nat) : TrainObj := { x with ckptValid := x.ckptValid.filter fun v => v != (group, copy) }

/-- What the start of a checkpoint makes of its object. -/
def TrainObj.ckptBegun (x : TrainObj) (group left : Nat) (place : Option (Nat × Nat)) : TrainObj :=
  { x with
    ckptActive := some (group, x.cur), ckptFrom := x.step, ckptLeft := left, ckptWrote := 0, ckptTo := place,
    ckptQueue := x.ckptQueue.filter (· != group) }

theorem State.ckptStart_eq (s : State) (id group : Nat) : s.ckptStart id group =
    let x := s.trainAt id
    let copy := natAt x.ckptNext group % 2
    if x.ckptActive.isSome = true ∨ !x.ckptQueue.contains group ∨ x.ckptCopies.isEmpty then s
    else ((s.objectRecords id).drop 1).foldl (fun u r => u.setTrain r ((u.trainAt r).ckptDropped group copy))
      (s.setTrain id ((x.ckptBegun group (4096 * (s.ckptPages id group).length) (s.ckptHost (s.lexAt id).inst)).ckptDropped group copy)) := rfl

/-- The start of a checkpoint that may not start. -/
theorem State.ckptStart_waits (h : (s.trainAt id).ckptActive.isSome = true ∨ group ∉ (s.trainAt id).ckptQueue ∨ (s.trainAt id).ckptCopies = []) :
    s.ckptStart id group = s := by
  rw [State.ckptStart_eq]
  dsimp only
  rw [if_pos]
  simpa using h

/-- A checkpoint under way from the current plane, off the queue, with its copy no longer valid. -/
def TrainObj.writesCopy (group copy cur : Nat) (queue : List Nat) (x : TrainObj) : Prop :=
  x.ckptActive = some (group, cur) ∧ x.ckptQueue = queue ∧ (group, copy) ∉ x.ckptValid

theorem TrainObj.writesCopy.dropped {copy cur : Nat} {queue : List Nat} {x : TrainObj} (h : x.writesCopy group copy cur queue) :
    (x.ckptDropped group copy).writesCopy group copy cur queue :=
  ⟨h.1, h.2.1, fun hm => by simp [TrainObj.ckptDropped] at hm⟩

theorem State.ckptStart_starts (hidle : (s.trainAt id).ckptActive = none) (hqueued : group ∈ (s.trainAt id).ckptQueue)
    (hcopies : (s.trainAt id).ckptCopies ≠ []) : ((s.ckptStart id group).trainAt id).writesCopy group (natAt (s.trainAt id).ckptNext group % 2)
      (s.trainAt id).cur ((s.trainAt id).ckptQueue.filter (· != group)) := by
  rw [State.ckptStart_eq]
  dsimp only
  rw [if_neg (by simp [hidle, hqueued, hcopies])]
  refine State.trainAt_fold (P := TrainObj.writesCopy group (natAt (s.trainAt id).ckptNext group % 2) (s.trainAt id).cur
      ((s.trainAt id).ckptQueue.filter (· != group))) (f := fun x => x.ckptDropped group (natAt (s.trainAt id).ckptNext group % 2))
    (fun x h => TrainObj.writesCopy.dropped h) _ ?_
  rw [State.trainAt_setTrain]
  exact ⟨rfl, rfl, fun hm => by simp [TrainObj.ckptDropped] at hm⟩

theorem State.ckptStart_framed (s : State) (id group : Nat) : framed [.train] [] s (s.ckptStart id group) := by
  rw [State.ckptStart_eq]
  exact .ite (fun _ => .refl) fun _ => (State.setTrain_framed ..).fold fun v r => State.setTrain_framed ..

/-! ### Pages written -/

/-- What the writing of pages leaves of an object. -/
def TrainObj.writesOn (x y : TrainObj) : Prop :=
  y.groups = x.groups ∧ y.kept = x.kept ∧ y.ckptNext = x.ckptNext ∧ y.ckptValid = x.ckptValid ∧ y.ckptFrom = x.ckptFrom

/-- The parts that the writing of pages may change. -/
def pageParts : List Part := [.train, .trust, .flash, .host, .insts, .cnt]

theorem State.flashWrite_framed (s : State) (inst : Option Nat) (a : Nat) (bs : List Byte) : framed [.flash, .cnt] [] s (s.flashWrite inst a bs) :=
  ((((framed_flash s _).widen).seq (State.tally_framed ..)).seq (State.tally_framed ..)).seq (State.tallyPort_framed ..)

theorem State.ckptPage_framed (s : State) (id plane copy group step page : Nat) (others : List Nat) (place : Option (Nat × Nat)) :
    framed pageParts [] s (s.ckptPage id plane copy group step page others place) := by
  unfold State.ckptPage
  dsimp only
  split
  · exact (((State.setKey_framed ..).widen (by simp [pageParts])).seq (State.setTrain_framed ..) (by simp [pageParts])).seq (State.hostPut_framed ..)
      (by simp [pageParts])
  · exact (((State.setKey_framed ..).widen (by simp [pageParts])).seq (State.setTrain_framed ..) (by simp [pageParts])).seq
      (State.flashWrite_framed ..) (by simp [pageParts])

theorem State.ckptPage_writesOn (s : State) (id r plane copy group step page : Nat) (others : List Nat) (place : Option (Nat × Nat)) :
    ((s.trainAt id).writesOn ((s.ckptPage r plane copy group step page others place).trainAt id)) := by
  have hset : ∀ (v : State) (l : SMap CkptPage), v.ls.train = s.ls.train →
      (s.trainAt id).writesOn ((v.setTrain r { s.trainAt r with ckptTrailers := l }).trainAt id) := fun v l hv => by
    by_cases hr : id = r
    · rw [← hr, State.trainAt_setTrain]
      exact ⟨rfl, rfl, rfl, rfl, rfl⟩
    · unfold State.trainAt State.setTrain
      rw [smGet_set_ne _ _ _ hr, hv]
      exact ⟨rfl, rfl, rfl, rfl, rfl⟩
  unfold State.ckptPage
  dsimp only
  split
  · rw [State.trainAt_of ((State.hostPut_framed ..).1 .train (by decide))]
    exact hset _ _ rfl
  · rw [State.trainAt_of ((State.flashWrite_framed ..).1 .train (by decide))]
    exact hset _ _ rfl

theorem TrainObj.writesOn.trans {x y z : TrainObj} (h : x.writesOn y) (g : y.writesOn z) : x.writesOn z := by
  obtain ⟨h1, h2, h3, h4, h5⟩ := h
  obtain ⟨g1, g2, g3, g4, g5⟩ := g
  exact ⟨g1.trans h1, g2.trans h2, g3.trans h3, g4.trans h4, g5.trans h5⟩

/-- The pages of a checkpoint written one after another. -/
def State.ckptPagesPut (s : State) (plane copy group step : Nat) (others : List Nat) (place : Option (Nat × Nat)) (due : List (Nat × Nat)) : State :=
  due.foldl (fun u p => u.ckptPage p.1 plane copy group step p.2 others place) s

theorem State.ckptPagesPut_framed (s : State) (plane copy group step : Nat) (others : List Nat) (place : Option (Nat × Nat)) (due : List (Nat × Nat)) :
    framed pageParts [] s (s.ckptPagesPut plane copy group step others place due) :=
  .foldl _ _ (fun _ _ => State.ckptPage_framed ..) _

theorem State.ckptPagesPut_writesOn (s : State) (id plane copy group step : Nat) (others : List Nat) (place : Option (Nat × Nat))
    (due : List (Nat × Nat)) : (s.trainAt id).writesOn ((s.ckptPagesPut plane copy group step others place due).trainAt id) := by
  induction due generalizing s with
  | nil => exact ⟨rfl, rfl, rfl, rfl, rfl⟩
  | cons p due ih => exact (State.ckptPage_writesOn ..).trans (ih _)

theorem State.ckptWriteTo_eq {plane : Nat} (h : (s.trainAt id).ckptActive = some (group, plane)) (n : Nat) : ∃ copy step others place due,
    s.ckptWriteTo id n = (s.ckptPagesPut plane copy group step others place due).setTrain id
      { (s.ckptPagesPut plane copy group step others place due).trainAt id with ckptWrote := Nat.max (s.trainAt id).ckptWrote n } := by
  unfold State.ckptWriteTo
  dsimp only
  rw [h]
  exact ⟨_, _, _, _, _, rfl⟩

theorem State.ckptWriteTo_framed {plane : Nat} (h : (s.trainAt id).ckptActive = some (group, plane)) (n : Nat) :
    framed pageParts [] s (s.ckptWriteTo id n) := by
  obtain ⟨copy, step, others, place, due, heq⟩ := State.ckptWriteTo_eq h n
  rw [heq]
  exact (State.ckptPagesPut_framed ..).seq (State.setTrain_framed ..) (by simp [pageParts])

theorem State.ckptWriteTo_writesOn {plane : Nat} (h : (s.trainAt id).ckptActive = some (group, plane)) (n : Nat) :
    (s.trainAt id).writesOn ((s.ckptWriteTo id n).trainAt id) := by
  obtain ⟨copy, step, others, place, due, heq⟩ := State.ckptWriteTo_eq h n
  rw [heq, State.trainAt_setTrain]
  exact State.ckptPagesPut_writesOn ..

/-! ### The end -/

/-- An object's groups at the end of a checkpoint, and whether a valid one leaves nothing to save. -/
def TrainObj.ckptGroups (t : TrainObj) (group : Nat) (good : Bool) : List Group :=
  (List.range t.groups.length).filterMap fun i => (t.groups[i]?).map fun g => if i = group ∧ good then { g with ckptStep := t.ckptFrom } else g
def TrainObj.ckptClean (t : TrainObj) (group : Nat) (good : Bool) : Bool := good && (t.ckptGroups group good).all fun g => g.ckptStep == t.step

/-- The copy that each group's next checkpoint goes to, at the end of one. -/
def TrainObj.ckptNextAfter (t : TrainObj) (group : Nat) (good : Bool) : List Nat :=
  (List.range t.parts).map fun i => if i = group ∧ good then natAt t.ckptNext group % 2 + 1 else natAt t.ckptNext i

/-- An object at the end of its checkpoint, before the copy is judged. -/
def TrainObj.ckptOver (t : TrainObj) (group : Nat) (good : Bool) (queue : List Nat) : TrainObj :=
  { t with
    ckptActive := none, ckptLeft := 0, ckptWrote := 0, ckptTo := none, groups := t.ckptGroups group good,
    dirty := t.dirty && !t.ckptClean group good, ckptNext := t.ckptNextAfter group good, ckptQueue := queue }

/-- The queue of an object's checkpoints when one ends. -/
def State.ckptQueueAfter (s : State) (id group : Nat) (good : Bool) : List Nat :=
  if !good && (s.lexAt id).state == 4 then (s.trainAt id).ckptQueue ++ [group] else (s.trainAt id).ckptQueue

/-- The object's state at the end of its checkpoint, its bytes charged. -/
def State.ckptCharged (s : State) (id group : Nat) (good : Bool) : State :=
  let t := s.trainAt id
  let e := s.lexAt id
  let paid := if e.inst = 0 then s else s.charge e.inst t.ckptLeft
  paid.setTrain id { t.ckptOver group good (s.ckptQueueAfter id group good) with
    ckptValid := if good then (group, natAt t.ckptNext group % 2) :: t.ckptValid else t.ckptValid }

/-- A valid copy made known to the affixes' records and to the group table of every record. -/
def State.ckptKnown (s : State) (id group copy : Nat) (records : List Nat) (next : List Nat) (clean : Bool) (step : Nat) : State :=
  let told := records.foldl (fun (u : State) r => u.setTrain r { u.trainAt r with
    ckptValid := (group, copy) :: (u.trainAt r).ckptValid, ckptNext := next, dirty := (u.trainAt r).dirty && !clean }) s
  ((s.objectRecords id).filter fun r => group < (s.groupTable r).2).foldl (fun u r =>
    (u.recordWrite r ((u.groupTable r).1 + 64 * group + 32) (bytesOfNat 8 step)).digestRecord r) told

/-- An object that waits to leave does so at this tick once no checkpoint of it is queued. -/
def State.ckptLeaves (s u : State) (id : Nat) (queue : List Nat) : State :=
  if (s.lexAt id).state = 4 ∧ (s.lexAt id).evictDue.isNone ∧ queue.isEmpty then u.setLex id { u.lexAt id with evictDue := some s.tk.count.toNat } else u

/-- A checkpoint's end in a state that has written its pages. -/
def State.ckptEnded (s : State) (id group : Nat) (good : Bool) : State :=
  let t := s.trainAt id
  s.ckptLeaves (if good then (s.ckptCharged id group good).ckptKnown id group (natAt t.ckptNext group % 2) ((s.objectRecords id).drop 1)
      (t.ckptNextAfter group good) (t.ckptClean group good) t.ckptFrom
    else (s.ckptCharged id group good).raiseInst 0x3060 (s.lexAt id).inst ([id, group, t.ckptFrom].map wordOf)) id (s.ckptQueueAfter id group good)

/-- The state that has written what the end of a checkpoint writes. -/
def State.ckptFinal (s : State) (id group : Nat) (ok : Bool) : State := if ok then s.ckptWriteTo id (s.ckptPages id group).length else s

theorem State.ckptDone_ends {plane : Nat} {ok : Bool} (h : (s.trainAt id).ckptActive = some (group, plane))
    (hpaid : ok = false ∨ s.covered (s.lexAt id).inst (.checkpoint id) (s.trainAt id).ckptLeft = true) : s.ckptDone id ok =
      (s.ckptFinal id group ok).ckptEnded id group
        (ok && (s.ckptFinal id group ok).ckptWritten id group (natAt ((s.ckptFinal id group ok).trainAt id).ckptNext group % 2)) := by
  unfold State.ckptDone
  rw [h]
  dsimp only
  rw [if_neg (by rcases hpaid with h | h <;> simp [h])]
  rfl

theorem State.ckptDone_waits {plane : Nat} (h : (s.trainAt id).ckptActive = some (group, plane))
    (hunpaid : s.covered (s.lexAt id).inst (.checkpoint id) (s.trainAt id).ckptLeft = false) : s.ckptDone id true = s := by
  unfold State.ckptDone
  rw [h]
  dsimp only
  rw [if_pos (by simp [hunpaid])]

theorem State.charge_framed (s : State) (n bytes : Nat) : framed [.fetched] [] s (s.charge n bytes) := framed_fetched s _

theorem State.ckptCharged_framed (s : State) (id group : Nat) (good : Bool) : framed [.train, .fetched] [] s (s.ckptCharged id group good) := by
  unfold State.ckptCharged
  dsimp only
  exact (framed.ite (fun _ => .refl) fun _ => (State.charge_framed ..).widen).seq (State.setTrain_framed ..)

theorem State.ckptCharged_train (s : State) (id group : Nat) (good : Bool) : (s.ckptCharged id group good).trainAt id =
    { (s.trainAt id).ckptOver group good (s.ckptQueueAfter id group good) with
      ckptValid := if good then (group, natAt (s.trainAt id).ckptNext group % 2) :: (s.trainAt id).ckptValid else (s.trainAt id).ckptValid } :=
  State.trainAt_setTrain ..

theorem framed_hdrs (s : State) (x y : Mem) : framed [.hdr, .hdrM] [] s { s with mem := { s.mem with hdr := x, hdrM := y } } :=
  ⟨fun p hp => by cases p <;> first | (simp at hp; done) | rfl, .of_regs rfl⟩

theorem State.hdrWrite_framed (s : State) (a : Nat) (bs : List Byte) : framed [.hdr, .hdrM] [] s (s.hdrWrite a bs) := framed_hdrs s _ _

theorem State.recordWrite_framed (s : State) (id off : Nat) (bs : List Byte) : framed [.hdr, .hdrM, .obj, .slot] [] s (s.recordWrite id off bs) := by
  unfold State.recordWrite
  dsimp only
  have hfirst : framed [.hdr, .hdrM, .obj, .slot] [] s (if off + bs.length ≤ 4096 then s.hdrWrite (4096 * id + off) bs else s) :=
    .ite (fun _ => (State.hdrWrite_framed ..).widen) fun _ => .refl
  generalize (if off + bs.length ≤ 4096 then s.hdrWrite (4096 * id + off) bs else s) = v at hfirst ⊢
  refine hfirst.seq (ps := [.obj, .slot]) (ks := []) ?_
  by_cases hslotted : (s.lexAt id).slotted = true
  · simp only [if_pos hslotted]
    exact framed_slotObj v _ _
  · simp only [if_neg hslotted]
    exact (framed_obj v _).widen

theorem State.digestRecord_framed (s : State) (id : Nat) : framed [.lex, .lexCopies] [] s (s.digestRecord id) := State.setLex_framed ..

/-- The parts that make a valid copy known. -/
def knownParts : List Part := [.train, .hdr, .hdrM, .obj, .slot, .lex, .lexCopies]

theorem State.ckptKnown_framed (s : State) (id group copy : Nat) (records next : List Nat) (clean : Bool) (step : Nat) :
    framed knownParts [] s (s.ckptKnown id group copy records next clean step) :=
  framed.fold (framed.foldl _ _ (fun v r => (State.setTrain_framed ..).widen (by simp [knownParts])) s) fun v r =>
    ((State.recordWrite_framed ..).widen (by simp [knownParts])).seq (State.digestRecord_framed ..) (by simp [knownParts])

/-- An object with no checkpoint under way and a valid copy of the group. -/
def TrainObj.holdsCopy (group copy : Nat) (x : TrainObj) : Prop := x.ckptActive = none ∧ (group, copy) ∈ x.ckptValid

theorem State.ckptKnown_holdsCopy {copy : Nat} (records next : List Nat) (clean : Bool) (step : Nat) (h : (s.trainAt id).holdsCopy group copy) :
    ((s.ckptKnown id group copy records next clean step).trainAt id).holdsCopy group copy := by
  unfold State.ckptKnown
  dsimp only
  rw [State.trainAt_of]
  · exact State.trainAt_fold (P := TrainObj.holdsCopy group copy) (f := fun x =>
        { x with ckptValid := (group, copy) :: x.ckptValid, ckptNext := next, dirty := x.dirty && !clean })
      (fun x h => ⟨h.1, List.mem_cons_of_mem _ h.2⟩) records h
  · refine (framed.foldl (ps := [.hdr, .hdrM, .obj, .slot, .lex, .lexCopies]) (ks := []) _ _ (fun v r => ?_) _).1 .train (by decide)
    exact ((State.recordWrite_framed ..).widen).seq (State.digestRecord_framed ..)

theorem State.ckptLeaves_framed (s u : State) (id : Nat) (queue : List Nat) : framed [.lex, .lexCopies] [] u (s.ckptLeaves u id queue) :=
  .ite (fun _ => State.setLex_framed ..) fun _ => .refl

theorem TrainObj.le_parts (t : TrainObj) : t.groups.length ≤ t.parts := Nat.le_max_left ..

theorem TrainObj.ckptNextAfter_failed (t : TrainObj) (group : Nat) :
    (t.ckptNextAfter group false).take t.groups.length = (List.range t.groups.length).map (natAt t.ckptNext) := by
  unfold TrainObj.ckptNextAfter
  rw [← List.map_take, List.take_range, Nat.min_eq_left t.le_parts]
  simp

/-- The parts that the end of a checkpoint may change. -/
def endParts : List Part := [.train, .lex, .lexCopies, .fetched, .hdr, .hdrM, .obj, .slot, .trust, .flash, .host, .insts, .cnt] ++ eventParts

theorem State.ckptEnded_framed (s : State) (id group : Nat) (good : Bool) : framed endParts eventRegs s (s.ckptEnded id group good) := by
  unfold State.ckptEnded
  dsimp only
  refine framed.seq (framed.ite (fun _ => ?_) fun _ => ?_) (State.ckptLeaves_framed ..) (by simp [endParts])
  · exact ((State.ckptCharged_framed ..).widen (by simp [endParts])).seq (State.ckptKnown_framed ..) (by simp [endParts, knownParts])
  · exact ((State.ckptCharged_framed ..).widen (by simp [endParts])).seq (State.raiseInst_framed ..) (by simp +contextual [endParts])

theorem State.ckptEnded_good (s : State) (id group : Nat) :
    ((s.ckptEnded id group true).trainAt id).holdsCopy group (natAt (s.trainAt id).ckptNext group % 2) ∧ (s.ckptEnded id group true).events = s.events := by
  unfold State.ckptEnded
  dsimp only
  rw [if_pos rfl, State.trainAt_of ((State.ckptLeaves_framed ..).1 .train (by decide)), (State.ckptLeaves_framed ..).1 .events (by decide),
    (State.ckptKnown_framed ..).1 .events (by decide), (State.ckptCharged_framed ..).1 .events (by decide)]
  refine ⟨State.ckptKnown_holdsCopy _ _ _ _ ?_, rfl⟩
  rw [State.ckptCharged_train]
  exact ⟨rfl, List.mem_cons_self⟩

theorem State.ckptEnded_failed (s : State) (id group : Nat) :
    ((s.ckptEnded id group false).trainAt id).ckptActive = none
      ∧ ((s.ckptEnded id group false).trainAt id).ckptValid = (s.trainAt id).ckptValid
      ∧ ((s.ckptEnded id group false).trainAt id).ckptNext = (s.trainAt id).ckptNextAfter group false
      ∧ (s.ckptEnded id group false).events = s.events ++
        [⟨0x3060, some (s.lexAt id).inst, [id, group, (s.trainAt id).ckptFrom].map wordOf, [(s.lexAt id).inst]⟩] := by
  unfold State.ckptEnded
  dsimp only
  rw [if_neg (by simp), State.trainAt_of ((State.ckptLeaves_framed ..).1 .train (by decide)), (State.ckptLeaves_framed ..).1 .events (by decide),
    State.raiseInst_events, (State.ckptCharged_framed ..).1 .events (by decide), State.trainAt_of ((State.raiseInst_framed ..).1 .train (by decide)),
    State.ckptCharged_train]
  exact ⟨rfl, rfl, rfl, rfl⟩

theorem State.ckptFinal_framed {plane : Nat} (h : (s.trainAt id).ckptActive = some (group, plane)) (ok : Bool) :
    framed pageParts [] s (s.ckptFinal id group ok) := .ite (fun _ => State.ckptWriteTo_framed h _) fun _ => .refl

theorem State.ckptFinal_writesOn {plane : Nat} (h : (s.trainAt id).ckptActive = some (group, plane)) (ok : Bool) :
    (s.trainAt id).writesOn ((s.ckptFinal id group ok).trainAt id) := by
  unfold State.ckptFinal
  split
  · exact State.ckptWriteTo_writesOn h _
  · exact ⟨rfl, rfl, rfl, rfl, rfl⟩

/-- Settles O25: the end of a checkpoint writes its pages, then judges the copy. -/
theorem checkpointsStartAndEnd : Obligations.CheckpointsStartAndEnd := by
  intro id s n x
  refine ⟨fun group h => congrArg (keep s) (State.ckptStart_waits h), fun group hidle hqueued hcopies => ?_, ?_⟩
  · obtain ⟨hbegun, hqueue, hvalid⟩ := State.ckptStart_starts hidle hqueued hcopies
    exact ⟨_, rfl, hbegun, hqueue, hvalid, (State.ckptStart_framed ..).kept⟩
  · intro group plane ok hactive paid good
    refine ⟨fun hok hunpaid => ?_, fun hpaid => ?_⟩
    · rw [hok]
      exact congrArg (keep s) (State.ckptDone_waits hactive hunpaid)
    have hfinal := State.ckptFinal_framed hactive ok
    obtain ⟨hgroups, hkept, hnext, hvalid, hfrom⟩ := State.ckptFinal_writesOn hactive ok
    have hlex : (s.ckptFinal n group ok).lexAt n = s.lexAt n := by
      unfold State.lexAt
      rw [hfinal.1 .lex (by decide)]
    have hgood : (ok && (s.ckptFinal n group ok).ckptWritten n group (natAt ((s.ckptFinal n group ok).trainAt n).ckptNext group % 2)) = true ↔ good := by
      rw [hnext, Bool.and_eq_true]
      refine and_congr_right fun hok => ?_
      rw [hok]
      rfl
    refine ⟨_, congrArg (keep s) (State.ckptDone_ends hactive hpaid), ?_⟩
    rw [State.kept_trainAt, State.kept_events]
    have hframe := (hfinal.widen (qs := endParts) (js := eventRegs) (by simp [pageParts, endParts])).seq (State.ckptEnded_framed (s.ckptFinal n group ok) n group
      (ok && (s.ckptFinal n group ok).ckptWritten n group (natAt ((s.ckptFinal n group ok).trainAt n).ckptNext group % 2))) (fun _ h => h) (fun _ h => h)
    by_cases h : good
    · rw [hgood.mpr h] at hframe ⊢
      obtain ⟨⟨hidle, hholds⟩, hevents⟩ := (s.ckptFinal n group ok).ckptEnded_good n group
      rw [hnext] at hholds
      exact ⟨hidle, fun _ => ⟨hholds, hevents.trans (hfinal.1 .events (by decide))⟩, fun hn => absurd h hn, hframe.kept⟩
    · rw [Bool.eq_false_iff.mpr (mt hgood.mp h)] at hframe ⊢
      obtain ⟨hidle, hkeeps, hafter, hevents⟩ := (s.ckptFinal n group ok).ckptEnded_failed n group
      have hturns := ((s.ckptFinal n group ok).trainAt n).ckptNextAfter_failed group
      rw [← hafter, hgroups, hnext] at hturns
      rw [hlex, hfrom, hfinal.1 .events (by decide)] at hevents
      exact ⟨hidle, fun hg => absurd hg h, fun _ => ⟨hkeeps.trans hvalid, hturns, hevents⟩, hframe.kept⟩

end Sys2Proof.Machine
end

section
/-! SUPPORT. The frames of a failing object and of one restored, and the repair of a poisoned page (R303, R422 to R428). -/

namespace Sys2Proof.Machine

set_option Elab.async false

variable {s t u : State} {ps : List Part} {ks : List Nat} {id : Nat}

/-! ### Requests ended -/

theorem State.endReq_framed (s : State) (h status : Nat) : framed [.reqs] [] s (s.endReq h status) := State.updReq_framed ..

theorem State.endReqs_framed (s : State) (status : Nat) (p : Request → Bool) : framed [.reqs] [] s (s.endReqs status p) :=
  .foldl _ _ (fun _ _ => State.endReq_framed ..) _

theorem State.noteDetail_framed (s : State) (id n : Nat) : framed [.reqs] [] s (s.noteDetail id n) := framed_reqs s _

/-! ### Objects that leave -/

theorem State.dropHead_framed (s : State) (id : Nat) : framed [.hdr, .hdrM, .lex, .lexCopies] [] s (s.dropHead id) :=
  ((State.hdrWrite_framed ..).widen).seq (State.setLex_framed ..)

theorem State.zeroObject_framed (s : State) (id : Nat) (e : LexEntry) : framed [.obj, .slot] [] s (s.zeroObject id e) := by
  unfold State.zeroObject
  dsimp only
  split
  · exact framed_slotObj s _ _
  · exact (framed_obj s _).widen

/-- The parts that an object's failure may change. -/
def failParts : List Part := [.lex, .lexCopies, .obj, .slot, .hdr, .hdrM, .reqs] ++ eventParts

/-- The registers that a count of an instance may change. -/
def scopedRegs (off inst : Nat) : List Nat := off :: regKey (inst + 1) off :: eventRegs

theorem State.countScoped_some_framed (s : State) (off inst n : Nat) :
    framed [.regs] (scopedRegs off inst) s (s.countScoped off (some inst) n) := (State.countScoped_framed ..).widen (by simp) (by simp [scopedRegs])

/-- An object's failure before its event: its frames given back, its failure counted. -/
def State.failCounted (s : State) (id shard : Nat) : State :=
  let v := s.noteDetail id ((((s.lexAt id).shards.find? fun x => x.shard == shard).map (·.attempts)).getD 0)
  let w := v.dropHead id
  ((w.setLex id { w.lexAt id with state := 5, frames := [], awaits := false }).zeroObject id (v.lexAt id)).countScoped Reg.RES_FAILURES
    (some (v.lexAt id).inst) 1

theorem State.lexAt_of (h : t.ls.lex = s.ls.lex) (id : Nat) : t.lexAt id = s.lexAt id := by
  unfold State.lexAt
  rw [h]

theorem State.failCounted_framed (s : State) (id shard : Nat) :
    framed [.lex, .lexCopies, .obj, .slot, .hdr, .hdrM, .reqs, .regs] (scopedRegs Reg.RES_FAILURES (s.lexAt id).inst) s (s.failCounted id shard) := by
  unfold State.failCounted
  dsimp only
  rw [State.lexAt_of ((s.noteDetail_framed id _).1 .lex (by decide))]
  exact (((((s.noteDetail_framed id _).widen).seq (State.dropHead_framed ..)).seq (State.setLex_framed ..)).seq (State.zeroObject_framed ..)).seq
    (State.countScoped_some_framed ..) (by simp) (fun _ h => h)

theorem State.failCounted_lex (s : State) (id shard : Nat) :
    ((s.failCounted id shard).lexAt id).state = 5 ∧ ((s.failCounted id shard).lexAt id).frames = [] := by
  unfold State.failCounted
  dsimp only
  rw [State.lexAt_of ((State.countScoped_some_framed ..).1 .lex (by decide)), State.lexAt_of ((State.zeroObject_framed ..).1 .lex (by decide)),
    State.lexAt_setLex]
  exact ⟨rfl, rfl⟩

theorem State.failObject_eq (s : State) (id shard cause : Nat) : ∃ status p, s.failObject id shard cause =
    ((s.failCounted id shard).raiseInst 0x3002 (s.lexAt id).inst ([id, shard, cause].map wordOf)).endReqs status p := ⟨_, _, rfl⟩

theorem State.failObject_framed (s : State) (id shard cause : Nat) :
    framed failParts (scopedRegs Reg.RES_FAILURES (s.lexAt id).inst) s (s.failObject id shard cause) := by
  obtain ⟨status, p, heq⟩ := s.failObject_eq id shard cause
  rw [heq]
  exact (((s.failCounted_framed id shard).widen (by simp [failParts, eventParts]) (fun _ h => h)).seq (State.raiseInst_framed ..)
    (by simp +contextual [failParts]) (by simp +contextual [scopedRegs])).seq (State.endReqs_framed ..) (by simp [failParts])

theorem State.failObject_events (s : State) (id shard cause : Nat) : (s.failObject id shard cause).events = s.events ++
    [⟨0x3002, some (s.lexAt id).inst, [id, shard, cause].map wordOf, [(s.lexAt id).inst]⟩] := by
  obtain ⟨status, p, heq⟩ := s.failObject_eq id shard cause
  rw [heq, (State.endReqs_framed ..).1 .events (by decide), State.raiseInst_events, (s.failCounted_framed id shard).1 .events (by decide)]

theorem State.failObject_lex (s : State) (id shard cause : Nat) :
    ((s.failObject id shard cause).lexAt id).state = 5 ∧ ((s.failObject id shard cause).lexAt id).frames = [] := by
  obtain ⟨status, p, heq⟩ := s.failObject_eq id shard cause
  rw [heq, State.lexAt_of ((State.endReqs_framed ..).1 .lex (by decide)), State.lexAt_of ((State.raiseInst_framed ..).1 .lex (by decide))]
  exact s.failCounted_lex id shard

/-! ### Objects restored -/

/-- A fold over states that may end early keeps a frame that each of its steps keeps. -/
theorem framed.foldOption {α : Type} {f : Option State → α → Option State}
    (hf : ∀ a x t, f a x = some t → ∃ u, a = some u ∧ framed ps ks u t) (l : List α) {a : Option State} (h : l.foldl f a = some t) :
    ∃ u, a = some u ∧ framed ps ks u t := by
  induction l generalizing a with
  | nil => exact ⟨t, h, .refl⟩
  | cons x l ih =>
    obtain ⟨v, hv, hvt⟩ := ih h
    obtain ⟨u, ha, huv⟩ := hf a x v hv
    exact ⟨u, ha, huv.trans hvt⟩

/-- The parts that a record's bytes stand in. -/
def bytesParts : List Part := [.hdr, .hdrM, .obj, .slot]

theorem State.restorePage_framed (s : State) (id group page : Nat) (bs : List Byte) : framed bytesParts [] s (s.restorePage id group page bs) :=
  .foldl _ _ (fun _ _ => .ite (fun _ => .refl) fun _ => State.recordWrite_framed ..) _

theorem State.ckptTake_framed {group copy : Nat} (h : s.ckptTake id group copy = some t) : framed bytesParts [] s t := by
  obtain ⟨u, hu, hframe⟩ := framed.foldOption (ps := bytesParts) (ks := []) (fun a p t hstep => by
    cases a with
    | none => cases hstep
    | some v =>
      obtain ⟨bs, -, rfl⟩ := Option.map_eq_some_iff.mp hstep
      exact ⟨v, rfl, State.restorePage_framed ..⟩) _ h
  cases hu
  exact hframe

theorem State.ckptGroup_framed {group copy : Nat} (h : s.ckptGroup id group copy = some t) : framed bytesParts [] s t := by
  obtain ⟨u, hu, hframe⟩ := framed.foldOption (ps := bytesParts) (ks := []) (fun a r t hstep => by
    cases a with
    | none => cases hstep
    | some v =>
      refine ⟨v, rfl, ?_⟩
      dsimp only [Option.bind] at hstep
      split at hstep
      · exact State.ckptTake_framed hstep
      · cases hstep
        exact .refl) _ h
  cases hu
  exact hframe

theorem State.ckptRestore_framed (h : s.ckptRestore id = some t) : framed bytesParts [] s t := by
  obtain ⟨u, hu, hframe⟩ := framed.foldOption (ps := bytesParts) (ks := []) (fun a gi t hstep => by
    split at hstep
    next v copy _ => exact ⟨v, rfl, State.ckptGroup_framed hstep⟩
    · cases hstep) _ h
  cases hu
  exact hframe

theorem State.ckptRefetch_framed (h : s.ckptRefetch id = some t) : framed bytesParts [] s t := by
  obtain ⟨u, hu, hframe⟩ := framed.foldOption (ps := bytesParts) (ks := []) (fun a gi t hstep => by
    split at hstep
    next v copy _ => exact ⟨v, rfl, State.ckptGroup_framed hstep⟩
    · exact ⟨t, hstep, .refl⟩) _ h
  cases hu
  exact hframe

/-- The parts that the restoring of an object may change. -/
def restoreParts : List Part := [.train, .lex, .lexCopies, .obj, .slot, .hdr, .hdrM, .reqs] ++ eventParts

theorem State.abandonStep_changes (s : State) (id status : Nat) : changesOnly [.train, .reqs, .regs] s (s.abandonStep id status) := by
  unfold State.abandonStep
  dsimp only
  refine .ite (fun _ => .refl) fun _ => ?_
  exact (((s.setTrain_framed id _).1.widen).seq (State.endReqs_framed ..).1).seq (State.countScoped_some_framed ..).1

theorem State.poisonHit_changes (s : State) (n : Nat) : changesOnly [.regs] s (s.poisonHit n) := (State.countScoped_some_framed ..).1

theorem State.failObject_changes (s : State) (id shard cause : Nat) : changesOnly restoreParts s (s.failObject id shard cause) :=
  (s.failObject_framed id shard cause).1.widen (by simp +contextual [failParts, restoreParts])

theorem State.restoreTrain_changes (s : State) (id : Nat) : changesOnly restoreParts s (s.restoreTrain id) := by
  have habandon := (s.abandonStep_changes id St.poisoned).widen (qs := restoreParts) (by simp [restoreParts, eventParts])
  unfold State.restoreTrain
  dsimp only
  split
  next p _ =>
    refine changesOnly.seq (changesOnly.raiseInst (habandon.seq (changesOnly.foldl (ps := [.obj]) _ _ (fun v r => (framed_obj v _).1) _)
      (by simp [restoreParts])) (by simp +contextual [restoreParts])) (State.poisonHit_changes _ _) (by simp [restoreParts, eventParts])
  · split
    · exact ((habandon.raiseInst (by simp +contextual [restoreParts])).seq (State.failObject_changes _ _ _ _) (fun _ h => h)).seq
        (State.poisonHit_changes _ _) (by simp [restoreParts, eventParts])
    next s1 hrestore =>
      have hback := habandon.seq (State.ckptRestore_framed hrestore).1 (by simp [bytesParts, restoreParts])
      exact ((((((hback.seq (State.setTrain_framed ..).1 (by simp [restoreParts])).seq (State.clearGrad_framed ..).1 (by simp [restoreParts])).seq
        (State.recordWrite_framed ..).1 (by simp [restoreParts])).seq (State.digestRecord_framed ..).1 (by simp [restoreParts])).raiseInst
        (by simp +contextual [restoreParts]))).seq (State.poisonHit_changes _ _) (by simp [restoreParts, eventParts])

/-! ### A page repaired -/

theorem State.repaired_changes (s : State) (k : PageKind) : changesOnly restoreParts s (s.repaired k) := by
  unfold State.repaired
  split
  · exact (State.poisonHit_changes _ _).widen (by simp [restoreParts, eventParts])
  · exact .ite (fun _ => State.restoreTrain_changes _ _) fun _ => .refl
  · exact .refl

theorem State.raiseStem_framed (s : State) (code slot : Nat) (payload : List Nat) : framed eventParts eventRegs s (s.raiseStem code slot payload) :=
  State.raiseTo_framed ..

theorem State.stemFail_changes (s : State) (slot proj : Nat) : changesOnly (.stems :: .reqs :: eventParts) s (s.stemFail slot proj) :=
  (((s.setStem_framed slot _).1.widen).seq (State.raiseStem_framed ..).1 (by simp +contextual)).seq (State.endReqs_framed ..).1

theorem State.repairFails_changes (s : State) (k : PageKind) : changesOnly (.stems :: restoreParts) s (s.repairFails k) := by
  have hobject : ∀ id, changesOnly (.stems :: restoreParts) s (if (s.lexAt id).state = 4 then s else
      ((s.raiseInst 0x7011 (s.lexAt id).inst ([id, 3].map wordOf)).failObject id 0 St.poisoned).poisonHit (s.lexAt id).inst) := fun id =>
    .ite (fun _ => .refl) fun _ => ((changesOnly.refl.raiseInst (by simp +contextual [restoreParts])).seq (State.failObject_changes _ _ _ _)
      (by simp +contextual)).seq (State.poisonHit_changes _ _) (by simp [restoreParts, eventParts])
  unfold State.repairFails
  split
  · exact (State.stemFail_changes _ _ _).widen (by simp +contextual [restoreParts])
  · exact hobject _
  · exact hobject _
  · exact .refl

/-! ### What may end in a stop -/

/-- The next state of a command that may end in a reset. -/
def State.stopped (s t : State) : State := { s.orReset t with pending := s.pending }

theorem stopOutcome_eq (s t : State) : stopOutcome s t = .next (s.stopped t) := rfl

theorem State.stopped_self (s : State) : s.stopped s = s := by
  unfold State.stopped State.orReset
  cases s
  simp +contextual

@[simp] theorem State.stopped_faults (s t : State) : (s.stopped t).faults = t.faults := rfl

theorem State.stopped_flights (h : t.flights = s.flights) : (s.stopped t).flights = s.flights := by
  show (if t.flights = State.reset.flights then State.reset.flights else s.flights) = s.flights
  split
  next hreset => rw [← hreset, h]
  · rfl

theorem changesOnly.stopped (h : changesOnly ps s t) (hf : Part.flights ∉ ps := by simp [eventParts]) : changesOnly ps s (s.stopped t) := by
  intro p hp
  have hsame := h p hp
  have hflights := State.stopped_flights (h .flights hf)
  cases p <;> first | exact hsame | rfl | exact hflights

/-! ### The repair of a page -/

/-- A page whose stem shards have not all arrived again. -/
def State.repairWaits (s : State) (p : Poison) : Prop := ∃ slot proj, p.kind = .stemShard slot proj ∧ s.stemWhole slot.toNat proj.toNat = false

theorem State.repairWaits_iff (s : State) (p : Poison) : (match p.kind with
    | .stemShard slot proj => !s.stemWhole slot.toNat proj.toNat
    | _ => false) = true ↔ s.repairWaits p := by
  unfold State.repairWaits
  split
  next slot proj hkind =>
    rw [Bool.not_eq_true']
    refine ⟨fun h => ⟨slot, proj, hkind, h⟩, ?_⟩
    rintro ⟨slot', proj', hkind', h⟩
    obtain ⟨rfl, rfl⟩ := PageKind.stemShard.inj (hkind.symm.trans hkind')
    exact h
  next hkind => exact ⟨nofun, fun ⟨slot, proj, hkind', _⟩ => absurd hkind' (hkind slot proj)⟩

theorem State.repairPage_waits {p : Poison} (h : s.repairWaits p) (clean : Bool) : s.repairPage p clean = s := by
  unfold State.repairPage
  exact if_pos ((s.repairWaits_iff p).mpr h)

theorem State.repairPage_clean {p : Poison} (h : ¬s.repairWaits p) : s.repairPage p true = (s.unpoison p).repaired p.kind := by
  unfold State.repairPage
  exact (if_neg (mt (s.repairWaits_iff p).mp h)).trans (if_pos rfl)

/-- The frame of a page withheld. -/
def State.frameWithheld (s : State) (p : Poison) : State :=
  { s with faults := { s.faults with withheld := (p.stack / 2, p.page / 8) :: s.faults.withheld } }

theorem State.frameWithheld_changes (s : State) (p : Poison) : changesOnly [.faults] s (s.frameWithheld p) := (framed_faults s _).1

theorem State.unpoison_changes (s : State) (p : Poison) : changesOnly [.faults] s (s.unpoison p) := (framed_faults s _).1

theorem State.repairPage_failed {p : Poison} (h : ¬s.repairWaits p) (hkind : p.kind ≠ .flightImage) : s.repairPage p false =
    if inPool p.kind && (s.frameWithheld p).poolFree (p.stack / 2) then ((s.frameWithheld p).unpoison p).repaired p.kind
    else (if copyKind p.kind then s.frameWithheld p else (s.frameWithheld p).unpoison p).repairFails p.kind := by
  unfold State.repairPage
  refine (if_neg (mt (s.repairWaits_iff p).mp h)).trans ((if_neg (by simp)).trans ?_)
  dsimp only
  rw [← State.frameWithheld]
  refine if_congr Iff.rfl rfl ?_
  split
  next he => exact absurd he hkind
  · rfl

/-- No poison of the page is left. -/
theorem State.unpoison_pagePoisoned (s : State) (p : Poison) : (s.unpoison p).pagePoisoned p.stack p.page = false := by
  unfold State.pagePoisoned State.unpoison
  rw [List.any_eq_false]
  intro q hq
  simpa [imp_iff_not_or] using (List.mem_filter.mp hq).2

theorem State.pagePoisoned_of (h : t.faults = s.faults) (stack page : Nat) : t.pagePoisoned stack page = s.pagePoisoned stack page := by
  unfold State.pagePoisoned
  rw [h]

theorem State.repaired_idle {k : PageKind} (s : State) (h : ∀ id, k ≠ .servingObject id ∧ k ≠ .trainingObject id) : s.repaired k = s := by
  unfold State.repaired
  split
  next id => exact absurd rfl (h id).1
  next id => exact absurd rfl (h id).2
  · rfl

/-- A page of a KV or activation reservation, or a free one. -/
def freeKind (k : PageKind) : Prop := (∃ page, k = .kvOrActivation page) ∨ k = .freeFrame

theorem copyKind_of_free {k : PageKind} (h : freeKind k) : copyKind k = false := by
  rcases h with ⟨page, rfl⟩ | rfl
  · rfl
  · rfl

theorem inPool_of_idle {k : PageKind} (h : copyKind k = true ∨ freeKind k) : inPool k = false := by
  rcases h with h | ⟨page, rfl⟩ | rfl
  · unfold inPool
    split
    · cases h
    · cases h
    · rfl
  · rfl
  · rfl

theorem State.repairFails_idle {k : PageKind} (s : State) (h : copyKind k = true ∨ freeKind k) : s.repairFails k = s := by
  have hkind : (∀ slot proj, k ≠ .stemShard slot proj) ∧ ∀ id, k ≠ .servingObject id ∧ k ≠ .trainingObject id := by
    rcases h with h | ⟨page, rfl⟩ | rfl
    · refine ⟨fun slot proj => ?_, fun id => ⟨?_, ?_⟩⟩
      all_goals
        rintro rfl
        cases h
    · exact ⟨nofun, fun id => ⟨nofun, nofun⟩⟩
    · exact ⟨nofun, fun id => ⟨nofun, nofun⟩⟩
  unfold State.repairFails
  split
  next slot proj => exact absurd rfl (hkind.1 slot proj)
  next id => exact absurd rfl (hkind.2 id).1
  next id => exact absurd rfl (hkind.2 id).2
  · rfl

section
variable (stack : BitVec 4) (page : BitVec 24) (clean : Bool)

theorem exec_poisonRepair_none (h : s.pagePoisoned stack.toNat page.toNat = false) : exec (.poisonRepair stack page clean) s = .next s := by
  show stopOutcome s (match s.faults.poison.find? fun q => q.stack == stack.toNat && q.page == page.toNat with
    | some p => if s.pageWithheld p then s else s.repairPage p clean
    | none => s) = _
  have hnone : s.faults.poison.find? (fun q => q.stack == stack.toNat && q.page == page.toNat) = none := by
    rw [List.find?_eq_none]
    exact fun q hq => List.any_eq_false.mp h q hq
  rw [hnone, stopOutcome_eq, State.stopped_self]

theorem exec_poisonRepair_some {p : Poison} (h : s.faults.poison.find? (fun q => q.stack == stack.toNat && q.page == page.toNat) = some p) :
    exec (.poisonRepair stack page clean) s = .next (s.stopped (if s.pageWithheld p then s else s.repairPage p clean)) := by
  show stopOutcome s (match s.faults.poison.find? fun q => q.stack == stack.toNat && q.page == page.toNat with
    | some p => if s.pageWithheld p then s else s.repairPage p clean
    | none => s) = _
  rw [h, stopOutcome_eq]

end

/-- Settles O20: a page's repair by whether its frame is withheld, its shards have arrived, and its replacement is clean. -/
theorem poisonRepaired : Obligations.PoisonRepaired := by
  intro stack page s
  refine ⟨fun clean h => exec_poisonRepair_none stack page clean h, fun p hp => ?_⟩
  have ⟨hstack, hpage⟩ : p.stack = stack.toNat ∧ p.page = page.toNat := by simpa using List.find?_some hp
  intro waits
  refine ⟨fun clean h => ?_, fun hkept hready => ⟨⟨_, exec_poisonRepair_some stack page true hp, ?_⟩,
    fun hkind => ⟨_, exec_poisonRepair_some stack page false hp, ?_⟩⟩⟩
  · have hidle : (if s.pageWithheld p then s else s.repairPage p clean) = s := by
      rcases h with h | h
      · rw [if_pos h]
      · rw [State.repairPage_waits h, ite_self]
    rw [exec_poisonRepair_some stack page clean hp, hidle, State.stopped_self]
  · rw [if_neg (by simp [hkept]), State.repairPage_clean hready]
    have hrepaired := (s.unpoison p).repaired_changes p.kind
    refine ⟨?_, fun hobject => ?_⟩
    · rw [State.pagePoisoned_of (State.stopped_faults ..), State.pagePoisoned_of (hrepaired .faults (by decide)), ← hstack, ← hpage]
      exact s.unpoison_pagePoisoned p
    · rw [State.repaired_idle _ hobject]
      exact (s.unpoison_changes p).stopped
  · rw [if_neg (by simp [hkept]), State.repairPage_failed hready hkind]
    have hgone : ∀ v : State, v.faults = ((s.frameWithheld p).unpoison p).faults → v.pagePoisoned stack.toNat page.toNat = false := fun v hv => by
      rw [State.pagePoisoned_of hv, ← hstack, ← hpage]
      exact (s.frameWithheld p).unpoison_pagePoisoned p
    refine ⟨?_, fun hcopy => ?_, fun hfree => ?_⟩
    · rw [State.stopped_faults, ← hstack, ← hpage]
      split
      · rw [State.repaired_changes _ _ .faults (by decide)]
        exact List.mem_cons_self
      · rw [State.repairFails_changes _ _ .faults (by decide)]
        split
        · exact List.mem_cons_self
        · exact List.mem_cons_self
    · rw [if_neg (by simp [inPool_of_idle (.inl hcopy)]), if_pos hcopy, State.repairFails_idle _ (.inl hcopy)]
      refine ⟨(s.frameWithheld_changes p).stopped, ?_⟩
      rw [State.pagePoisoned_of (State.stopped_faults ..)]
      exact List.any_eq_true.mpr ⟨p, List.mem_of_find?_eq_some hp, by simp [hstack, hpage]⟩
    · rw [if_neg (by simp [inPool_of_idle (.inr hfree)]), if_neg (by simp [copyKind_of_free hfree]), State.repairFails_idle _ (.inr hfree)]
      exact ⟨((s.frameWithheld_changes p).seq (State.unpoison_changes _ p)).stopped, hgone _ (State.stopped_faults ..)⟩

end Sys2Proof.Machine
end

section
/-! SUPPORT. Windows late and filled (R63, R286, R294 to R296). -/

namespace Sys2Proof.Machine

set_option Elab.async false

variable {s t u : State} {f : Fill} {g w : Nat}

/-! ### Late windows -/

/-- A window marked late in this tick, once. -/
def State.markLate (s : State) (g w : Nat) : State :=
  if s.tk.lateWindows.contains (g, w) then s else { s with tk := { s.tk with lateWindows := s.tk.lateWindows ++ [(g, w)] } }

theorem State.markLate_framed (s : State) (g w : Nat) : framed [.lateWindows] [] s (s.markLate g w) :=
  .ite (fun _ => .refl) fun _ => framed_lateWindows s _

theorem State.markLate_mem (s : State) (g w : Nat) : (g, w) ∈ (s.markLate g w).tk.lateWindows := by
  unfold State.markLate
  split
  next h => exact List.contains_iff_mem.mp h
  · exact List.mem_append_right _ (List.mem_singleton.mpr rfl)

theorem State.markLate_count (s : State) {x : Nat × Nat} (h : x ≠ (g, w)) :
    (s.markLate g w).tk.lateWindows.count x = s.tk.lateWindows.count x := by
  unfold State.markLate
  split
  · rfl
  · show (s.tk.lateWindows ++ [(g, w)]).count x = _
    rw [List.count_append, List.count_singleton, if_neg (by simpa using h.symm), Nat.add_zero]

theorem execWindowDeadlineMiss_eq (gal : BitVec 3) (window : BitVec 16) (s : State) : exec (.windowDeadlineMiss gal window) s =
    keep s (if (s.fillOf gal.toNat window.toNat).any (·.present) then s else s.markLate gal.toNat window.toNat) := by
  have hhere : (match s.fillOf gal.toNat window.toNat with
      | some f => f.present
      | none => false) = (s.fillOf gal.toNat window.toNat).any (·.present) := by
    cases s.fillOf gal.toNat window.toNat with
    | none => rfl
    | some f => rfl
  show keep s (if (match s.fillOf gal.toNat window.toNat with
      | some f => f.present
      | none => false) || s.tk.lateWindows.contains (gal.toNat, window.toNat) then s else _) = _
  rw [hhere]
  unfold State.markLate
  congr 1
  cases (s.fillOf gal.toNat window.toNat).any (·.present)
  · rfl
  · rfl

/-! ### Fills -/

theorem State.fillOf_fillPresent (s : State) (f : Fill) (bs : List Byte) (g w : Nat) : (s.fillPresent f bs).fillOf g w =
    (s.fillOf g w).map fun x => if x.gal = f.gal ∧ x.window = f.window then { x with data := bs, present := true } else x := by
  unfold State.fillOf State.fillPresent
  rw [List.find?_map]
  congr 2
  funext x
  dsimp only [Function.comp]
  split
  · rfl
  · rfl

theorem State.fillOf_place (h : s.fillOf g w = some f) : f.gal = g ∧ f.window = w := by
  simpa using List.find?_some h

theorem State.fillPresent_framed (s : State) (f : Fill) (bs : List Byte) : framed [.fills] [] s (s.fillPresent f bs) := framed_fills s _

/-- Bytes charged where a charge is due. -/
def State.chargeIf (s : State) (b : Bool) (n bytes : Nat) : State := if b then s.charge n bytes else s

theorem State.chargeIf_framed (s : State) (b : Bool) (n bytes : Nat) : framed [.fetched] [] s (s.chargeIf b n bytes) :=
  .ite (fun _ => State.charge_framed ..) fun _ => .refl

theorem State.chargeIf_fetched (s : State) (b : Bool) (n bytes k : Nat) : smGet (fun _ => 0) (s.chargeIf b n bytes).ls.fetched k =
    smGet (fun _ => 0) s.ls.fetched k + if k = n ∧ b = true then bytes else 0 := by
  unfold State.chargeIf
  cases b with
  | false => simp
  | true =>
    show smGet (fun _ => 0) (smSet (fun _ => 0) s.ls.fetched n (smGet (fun _ => 0) s.ls.fetched n + bytes)) k = _
    rw [smGet_set]
    by_cases hk : k = n
    · rw [if_pos hk, if_pos ⟨hk, rfl⟩, hk]
    · rw [if_neg hk, if_neg (by simp [hk])]
      rfl

/-- Whether an arrival is charged to the instance's budget. -/
def Fill.charged (f : Fill) (tier : Nat) : Bool := decide (tier ≤ 1) && f.inst != 0

/-- Whether the instance's share has room for a fill and its budget covers it. -/
def State.fillFits (s : State) (f : Fill) (tier : Nat) : Bool :=
  !(f.inst != 0 && decide (s.bufferShare f.inst < s.bufferHeld f.inst + f.bytes))
    && !(f.charged tier && !s.covered f.inst (.fill f.gal f.window) (f.bytes - f.got))

/-- A fill that its data reached. -/
def State.fillArrived (s : State) (f : Fill) (tier port : Nat) (bs : List Byte) : State :=
  ((s.chargeIf (f.charged tier) f.inst (f.bytes - f.got)).fillPresent f bs).tallyFetch (some f.inst) tier port f.bytes

section
variable (gal : BitVec 3) (window : BitVec 16) (tier : BitVec 2) (port : BitVec 3) (bs : List Byte)

theorem exec_fetchArrival_none (h : s.fillOf gal.toNat window.toNat = none) : exec (.fetchArrival gal window tier port bs) s = .next s := by
  unfold exec
  dsimp only
  unfold execFetchArrival
  rw [h]
  rfl

theorem exec_fetchArrival_some (h : s.fillOf gal.toNat window.toNat = some f) : exec (.fetchArrival gal window tier port bs) s =
    keep s (if s.arrives f tier.toNat port.toNat bs && !f.present && s.fillFits f tier.toNat then s.fillArrived f tier.toNat port.toNat bs else s) := by
  unfold exec
  dsimp only
  unfold execFetchArrival
  rw [h]
  dsimp only
  have hcond : (s.arrives f tier.toNat port.toNat bs && !f.present && s.fillFits f tier.toNat) =
      !(!s.arrives f tier.toNat port.toNat bs || f.present || (f.inst != 0 && decide (s.bufferShare f.inst < s.bufferHeld f.inst + f.bytes))
        || (f.charged tier.toNat && !s.covered f.inst (.fill f.gal f.window) (f.bytes - f.got))) := by
    simp only [State.fillFits, Bool.not_or, Bool.not_not, Bool.and_assoc]
  rw [hcond]
  unfold Fill.charged
  generalize (!s.arrives f tier.toNat port.toNat bs || f.present || (f.inst != 0 && decide (s.bufferShare f.inst < s.bufferHeld f.inst + f.bytes))
        || (decide (tier.toNat ≤ 1) && f.inst != 0 && !s.covered f.inst (.fill f.gal f.window) (f.bytes - f.got))) = waits
  cases waits
  · rfl
  · rfl

end

theorem State.fillArrived_framed (s : State) (f : Fill) (tier port : Nat) (bs : List Byte) :
    framed [.fills, .fetched, .cnt] [] s (s.fillArrived f tier port bs) :=
  (((State.chargeIf_framed ..).widen).seq (State.fillPresent_framed ..)).seq (State.tallyFetch_framed ..)

theorem State.fillArrived_fillOf (s : State) (f : Fill) (tier port : Nat) (bs : List Byte) (g w : Nat) :
    (s.fillArrived f tier port bs).fillOf g w =
      (s.fillOf g w).map fun x => if x.gal = f.gal ∧ x.window = f.window then { x with data := bs, present := true } else x := by
  have hfills := fun v : State => (v.tallyFetch_framed (some f.inst) tier port f.bytes).1 .fills (by decide)
  have hcharge := (s.chargeIf_framed (f.charged tier) f.inst (f.bytes - f.got)).1 .fills (by decide)
  rw [State.fillArrived, State.fillOf, hfills, ← State.fillOf, State.fillOf_fillPresent, State.fillOf, hcharge]
  rfl

theorem State.fillArrived_fetched (s : State) (f : Fill) (tier port : Nat) (bs : List Byte) (k : Nat) :
    smGet (fun _ => 0) (s.fillArrived f tier port bs).ls.fetched k =
      smGet (fun _ => 0) s.ls.fetched k + if k = f.inst ∧ f.charged tier = true then f.bytes - f.got else 0 := by
  rw [State.fillArrived, (State.tallyFetch_framed ..).1 .fetched (by decide), (State.fillPresent_framed ..).1 .fetched (by decide),
    State.chargeIf_fetched]

theorem State.fillFits_iff {tier : Nat} : s.fillFits f tier = true ↔ (f.inst = 0 ∨ s.bufferHeld f.inst + f.bytes ≤ s.bufferShare f.inst)
    ∧ (tier ≤ 1 ∧ f.inst ≠ 0 → s.covered f.inst (.fill f.gal f.window) (f.bytes - f.got) = true) := by
  unfold State.fillFits Fill.charged
  simp only [Bool.and_eq_true, Bool.not_eq_true', Bool.and_eq_false_iff, bne_eq_false_iff_eq, decide_eq_false_iff_not, Nat.not_lt, Bool.not_eq_false',
    Decidable.imp_iff_not_or, not_and_or, Decidable.not_not]

theorem State.arrives_iff {tier : BitVec 2} {port : Nat} {bs : List Byte} : s.arrives f tier.toNat port bs = true ↔
    s.fillSource f = some (tier.toNat, bs) ∧ (tier = 1 → s.fillPort f = port) := by
  have htier : tier.toNat = 1 ↔ tier = 1 := by
    rw [← BitVec.toNat_inj]
    rfl
  unfold State.arrives
  simp only [Bool.and_eq_true, Bool.or_eq_true, beq_iff_eq, bne_iff_ne, ne_eq, htier, Decidable.imp_iff_not_or]

/-- Settles O21: a window's deadline and its data's arrival, each by whether the data is there, fits and is covered. -/
theorem windowsLateAndFilled : Obligations.WindowsLateAndFilled := by
  intro gal window tier port bs s g w arrive
  have harrive : arrive = .fetchArrival gal window tier port bs := rfl
  clear_value arrive
  subst harrive
  have hidle : ∀ f, s.fillOf g w = some f → ¬(s.arrives f tier.toNat port.toNat bs = true ∧ f.present = false ∧ s.fillFits f tier.toNat = true) →
      exec (.fetchArrival gal window tier port bs) s = .next s := fun f hf hno =>
    (exec_fetchArrival_some gal window tier port bs hf).trans (congrArg (keep s) (if_neg (by
      simp only [Bool.and_eq_true, Bool.not_eq_true', and_assoc]
      exact hno)))
  refine ⟨fun habsent => ⟨_, (execWindowDeadlineMiss_eq ..).trans (congrArg (keep s) (if_neg (Bool.eq_false_iff.mp habsent))), ?_⟩, fun hpresent => ?_,
    fun hnone => exec_fetchArrival_none gal window tier port bs hnone, fun f hf hwaits => ⟨fun hother => hidle f hf ?_, fun hsource hport => ?_⟩⟩
  · rw [State.kept_tk_lateWindows]
    exact ⟨s.markLate_mem g w, fun x hx => s.markLate_count hx, (s.markLate_framed g w).kept⟩
  · refine ⟨(execWindowDeadlineMiss_eq ..).trans (congrArg (keep s) (if_pos hpresent)), ?_⟩
    cases hf : s.fillOf g w with
    | none => exact exec_fetchArrival_none gal window tier port bs hf
    | some f =>
      rw [hf] at hpresent
      exact hidle f hf fun ⟨_, h, _⟩ => absurd hpresent (by simp [h])
  · rintro ⟨harrives, -, -⟩
    obtain ⟨hsource, hport⟩ := State.arrives_iff.mp harrives
    rcases hother with hother | ⟨htier, hother⟩
    · exact hother hsource
    · exact hother (hport htier)
  · intro room charged paid
    obtain ⟨hgal, hwindow⟩ := State.fillOf_place hf
    have harrives := State.arrives_iff.mpr ⟨hsource, hport⟩
    have hfits : s.fillFits f tier.toNat = true ↔ room ∧ paid := State.fillFits_iff
    have hcharged : f.charged tier.toNat = true ↔ charged := by simp [Fill.charged, charged]
    refine ⟨fun hroom hpaid => ⟨_, (exec_fetchArrival_some gal window tier port bs hf).trans (congrArg (keep s) (if_pos ?_)), ?_⟩,
      fun hno => hidle f hf fun h => hno (hfits.mp h.2.2)⟩
    · rw [harrives, hwaits, hfits.mpr ⟨hroom, hpaid⟩]
      rfl
    · have hfill := fun g' w' => s.fillArrived_fillOf f tier.toNat port.toNat bs g' w'
      refine ⟨?_, fun g' w' hne => ?_, fun n => ?_, (s.fillArrived_framed ..).kept⟩
      · refine (hfill g w).trans ?_
        rw [hf, Option.map_some, if_pos ⟨rfl, rfl⟩]
      · refine (hfill g' w').trans ?_
        cases hother : s.fillOf g' w' with
        | none => rfl
        | some x =>
          obtain ⟨hgal', hwindow'⟩ := State.fillOf_place hother
          rw [Option.map_some, if_neg]
          rintro ⟨h1, h2⟩
          exact hne (by rw [← hgal', ← hwindow', h1, h2, hgal, hwindow])
      · rw [State.kept_ls, State.fillArrived_fetched]
        simp only [hcharged]

end Sys2Proof.Machine
end

section
/-! SUPPORT. Fetches of shards: what an arrival places, and what a failed attempt leaves (R303, R304). -/

namespace Sys2Proof.Machine

set_option Elab.async false

variable {s t u : State} {ps : List Part} {ks : List Nat}

/-! ### States that agree on every part -/

theorem State.eq_of_same (h : ∀ p : Part, p.same s t) : t = s := by
  have hall : changesOnly [] s t := fun p _ => h p
  have hmem := hall.mem (by simp)
  have htk : t.tk = s.tk := by
    change (⟨t.tk.running, t.tk.count, t.tk.replay, t.tk.replayNext, t.tk.lateMark, t.tk.now, t.tk.lastStretch, t.tk.period, t.tk.seats,
      t.tk.tickStem, t.tk.pend, t.tk.lateWindows⟩ : Ticks) = s.tk
    rw [h .running, h .tickCount, h .replay, h .replayNext, h .lateMark, h .now, h .lastStretch, h .period, h .seats, h .tickStem, h .pend,
      h .lateWindows]
  have hhs : t.hs = s.hs := by
    change (⟨t.hs.rings, t.hs.handles, t.hs.reqs, t.hs.mirror, t.hs.entries, t.hs.cmdRecords, t.hs.readCount, t.hs.lastRing, t.hs.mgq,
      t.hs.resizeQ, t.hs.instOps, t.hs.linkUp, t.hs.immutable, t.hs.evLost⟩ : HostSide) = s.hs
    rw [h .rings, h .handles, h .reqs, h .mirror, h .entries, h .cmdRecords, h .readCount, h .lastRing, h .mgq, h .resizeQ, h .instOps, h .linkUp,
      h .immutable, h .evLost]
  have hls : t.ls = s.ls := by
    change (⟨t.ls.lex, t.ls.lexCopies, t.ls.slots, t.ls.train, t.ls.stems, t.ls.fills, t.ls.fetched, t.ls.placed, t.ls.cache,
      t.ls.driveMib⟩ : LexSide) = s.ls
    rw [h .lex, h .lexCopies, h .slots, h .train, h .stems, h .fills, h .fetched, h .placed, h .cache, h .driveMib]
  change (⟨t.pending, t.regs, t.latch, t.regWrites, t.mem, t.flights, t.tk, t.sync, t.events, t.evCount, t.out, t.hs, t.ls, t.insts, t.images,
    t.trust, t.boot, t.svc, t.jtag, t.faults, t.bbx, t.pw, t.cnt, t.cal, t.freeCtr⟩ : State) = s
  rw [h .pending, h .regs, h .latch, h .regWrites, hmem, h .flights, htk, h .sync, h .events, h .evCount, h .out, hhs, hls, h .insts, h .images,
    h .trust, h .boot, h .svc, h .jtag, h .faults, h .bbx, h .pw, h .cnt, h .cal, h .freeCtr]

/-- A state with other counters, and another account of the bytes that the budgets of this tick covered. -/
def State.counting (s : State) (c : Counting) (f : SMap Nat) : State := { s with cnt := c, ls := { s.ls with fetched := f } }

/-- What changes nothing but counters and budgets. -/
theorem changesOnly.counting (h : changesOnly [.fetched, .cnt] s t) : t = s.counting t.cnt t.ls.fetched := by
  refine State.eq_of_same fun p => ?_
  by_cases hp : p ∈ [Part.fetched, .cnt]
  · rcases List.mem_pair.mp hp with rfl | rfl
    · rfl
    · rfl
  · have hsame := h p hp
    cases p <;> first | exact hsame | rfl

theorem framed.counting (h : framed [.fetched, .cnt] ks s t) : t = s.counting t.cnt t.ls.fetched := h.1.counting

section
variable (s) (c : Counting) (f : SMap Nat)

theorem State.counting_framed : framed [.fetched, .cnt] [] s (s.counting c f) :=
  ((framed_cnt s c).widen).seq (framed_fetched _ f)

@[simp] theorem State.counting_lexAt (id : Nat) : (s.counting c f).lexAt id = s.lexAt id := rfl

theorem State.counting_placeShard (id : Nat) (x : Shard) (bs : List Byte) :
    (s.counting c f).placeShard id x bs = (s.placeShard id x bs).counting c f := by
  unfold State.placeShard
  dsimp only
  have hfirst : (if 64 * x.targetOff < 4096 then (s.counting c f).hdrWrite (4096 * id + 64 * x.targetOff) (bs.take (4096 - 64 * x.targetOff))
      else s.counting c f) = (if 64 * x.targetOff < 4096 then s.hdrWrite (4096 * id + 64 * x.targetOff) (bs.take (4096 - 64 * x.targetOff))
      else s).counting c f := by
    split
    · rfl
    · rfl
  rw [hfirst, State.counting_lexAt]
  generalize (if 64 * x.targetOff < 4096 then s.hdrWrite (4096 * id + 64 * x.targetOff) (bs.take (4096 - 64 * x.targetOff)) else s) = v
  have hgal : (s.counting c f).shardGal (s.lexAt id) x = s.shardGal (s.lexAt id) x := rfl
  rw [hgal]
  by_cases hhome : x.home = 8
  · rw [if_pos hhome, if_pos hhome]
  rw [if_neg hhome, if_neg hhome]
  split
  · rfl
  · split
    · rfl
    · rfl

end

/-! ### Object shards that arrive -/

theorem State.placeShard_framed (s : State) (id : Nat) (x : Shard) (bs : List Byte) :
    framed [.hdr, .hdrM, .obj, .slot] [] s (s.placeShard id x bs) := by
  unfold State.placeShard
  dsimp only
  have hfirst : framed [.hdr, .hdrM, .obj, .slot] [] s (if 64 * x.targetOff < 4096 then
      s.hdrWrite (4096 * id + 64 * x.targetOff) (bs.take (4096 - 64 * x.targetOff)) else s) :=
    .ite (fun _ => (State.hdrWrite_framed ..).widen) fun _ => .refl
  generalize (if 64 * x.targetOff < 4096 then s.hdrWrite (4096 * id + 64 * x.targetOff) (bs.take (4096 - 64 * x.targetOff)) else s) = v at hfirst ⊢
  refine .ite (fun _ => hfirst) fun _ => .ite (fun _ => hfirst.seq (framed_slot v _)) fun _ => ?_
  split
  · exact hfirst.seq (framed_obj v _)
  · exact hfirst

theorem State.attemptCharge_framed {id : Nat} {m : Manifest} {x : Shard} {st : ShardState} (h : s.attemptCharge id m x st = some t) :
    framed [.fetched, .cnt] [] s t := by
  unfold State.attemptCharge at h
  dsimp only at h
  split at h
  · cases h
    exact .refl
  · split at h
    · cases h
    · cases h
      exact (framed.ite (fun _ => (State.charge_framed ..).widen) fun _ => .refl).seq (State.tallySource_framed ..)

/-- An object's entry once a shard of it is verified. -/
def LexEntry.shardVerified (e : LexEntry) (x : Shard) (shard : Nat) (bs : List Byte) (ep : List Nat) : LexEntry :=
  { e with
    shards := e.shards.map fun y => if y.shard = shard then { y with verified := true, digest := sha256Words bs } else y
    epochPages := trackPages e.epochPages (64 * x.targetOff / 4096) ep }

section
variable {id n : Nat} {m : Manifest} {x : Shard} {st : ShardState}

theorem State.lexArrival_none (h : s.fetching id n = none) : s.lexArrival id n = s := by
  unfold State.lexArrival
  rw [h]

theorem State.lexArrival_waits (h : s.fetching id n = some (m, x, st)) (hcharge : s.attemptCharge id m x st = none) : s.lexArrival id n = s := by
  unfold State.lexArrival
  rw [h]
  dsimp only
  rw [hcharge]

theorem State.lexArrival_good {bs : List Byte} {ep : List Nat} {k : Nat} (h : s.fetching id n = some (m, x, st))
    (hcharge : (s.attemptCharge id m x st).isSome = true) (hgood : s.attempt id m x st = .good bs ep k) : ∃ c f, s.lexArrival id n =
      ((s.placeShard id x bs).counting c f).setLex id ((s.lexAt id).shardVerified x n bs ep) := by
  obtain ⟨v, hv⟩ := Option.isSome_iff_exists.mp hcharge
  have heq := (State.attemptCharge_framed hv).counting
  generalize v.cnt = c, v.ls.fetched = f at heq
  subst heq
  refine ⟨c, f, ?_⟩
  unfold State.lexArrival
  rw [h]
  dsimp only
  rw [hv]
  dsimp only
  rw [hgood]
  dsimp only
  rw [State.counting_placeShard, State.counting_lexAt, State.lexAt_of ((State.placeShard_framed ..).1 .lex (by decide))]
  rfl

theorem State.lexArrival_bad {cause : Nat} (h : s.fetching id n = some (m, x, st)) (hcharge : (s.attemptCharge id m x st).isSome = true)
    (hbad : s.attempt id m x st = .bad cause) : ∃ c f, s.lexArrival id n = (s.counting c f).failAttempt id n cause := by
  obtain ⟨v, hv⟩ := Option.isSome_iff_exists.mp hcharge
  have heq := (State.attemptCharge_framed hv).counting
  generalize v.cnt = c, v.ls.fetched = f at heq
  subst heq
  refine ⟨c, f, ?_⟩
  unfold State.lexArrival
  rw [h]
  dsimp only
  rw [hv]
  dsimp only
  rw [hbad]

end

theorem State.lexAt_setLex_ne (s : State) {id j : Nat} (e : LexEntry) (h : j ≠ id) : (s.setLex id e).lexAt j = s.lexAt j := smGet_set_ne _ _ _ h

/-! ### Stem shards that arrive -/

theorem State.stemAt_setStem (s : State) {k : Nat} (a : StemSlot) (h : k < 2) : (s.setStem k a).stemAt k = a := by
  unfold State.stemAt State.setStem
  rw [List.getD_eq_getElem?_getD, List.getElem?_map, List.getElem?_range h]
  simp

/-- A slot with the progress of a shard changed. -/
def StemSlot.updShard (a : StemSlot) (proj shard : Nat) (f : ShardState → ShardState) : StemSlot :=
  { a with shards := a.shards.map fun q => if q.1 = proj ∧ q.2.shard = shard then (q.1, f q.2) else q }

theorem State.updStemShard_eq (s : State) (slot proj shard : Nat) (f : ShardState → ShardState) :
    s.updStemShard slot proj shard f = s.setStem slot ((s.stemAt slot).updShard proj shard f) := rfl

theorem State.updStemShard_framed (s : State) (slot proj shard : Nat) (f : ShardState → ShardState) :
    framed [.stems] [] s (s.updStemShard slot proj shard f) := State.setStem_framed ..

theorem State.progWrite_framed (s : State) (g a : Nat) (bs : List Byte) : framed [.hbm] [] s (s.progWrite g a bs) := framed_hbm s _

section
variable {k p n : Nat} {j : StemProj} {m : Manifest} {x : Shard} {st : ShardState}

theorem State.stemFailAttempt_none (h : s.stemFetching k p n = none) (cause : Nat) : s.stemFailAttempt k p n cause = s := by
  unfold State.stemFailAttempt
  rw [h]

theorem State.stemArrival_none (h : s.stemFetching k p n = none) : s.stemArrival k p n = s := by
  unfold State.stemArrival
  rw [h]

theorem State.stemFailAttempt_again (h : s.stemFetching k p n = some (j, m, x, st)) (hfew : st.attempts < 3) (cause : Nat) : ∃ f,
    s.stemFailAttempt k p n cause = ((s.updStemShard k p n f).countScoped Reg.RES_RETRIES none 1).raisePf 0x3003
      ([0xFFFFFFFF, n, st.attempts + 1, cause].map wordOf) := by
  unfold State.stemFailAttempt
  rw [h]
  dsimp only
  rw [if_neg (by omega)]
  exact ⟨_, rfl⟩

theorem State.stemFailAttempt_framed (h : s.stemFetching k p n = some (j, m, x, st)) (hfew : st.attempts < 3) (cause : Nat) :
    framed (.stems :: eventParts) (Reg.RES_RETRIES :: eventRegs) s (s.stemFailAttempt k p n cause) := by
  obtain ⟨f, heq⟩ := State.stemFailAttempt_again h hfew cause
  rw [heq]
  exact (((State.updStemShard_framed ..).widen).seq (State.countScoped_framed ..) (by simp [eventParts]) (by simp)).seq (State.raisePf_framed ..)
    (by simp +contextual) (by simp +contextual)

theorem State.stemFailAttempt_events (h : s.stemFetching k p n = some (j, m, x, st)) (hfew : st.attempts < 3) (cause : Nat) :
    (s.stemFailAttempt k p n cause).events = s.events ++ [⟨0x3003, none, [0xFFFFFFFF, n, st.attempts + 1, cause].map wordOf, []⟩] := by
  obtain ⟨f, heq⟩ := State.stemFailAttempt_again h hfew cause
  rw [heq, State.raisePf_events, (State.countScoped_framed ..).1 .events (by decide), (State.updStemShard_framed ..).1 .events (by decide)]

/-- A stem shard placed and verified. -/
def State.stemPlaced (s : State) (k p n : Nat) (x : Shard) (bs : List Byte) : State :=
  (s.progWrite x.home (s.stemBase k + 64 * x.targetOff) bs).updStemShard k p n fun y => { y with verified := true, digest := sha256Words bs }

theorem State.stemArrival_good {bs : List Byte} {ep : List Nat} {q : Nat} (h : s.stemFetching k p n = some (j, m, x, st))
    (hgood : s.stemAttempt k j m x st = .good bs ep q) : ∃ c, s.stemArrival k p n =
      let v := s.counting c s.ls.fetched
      if (s.stemPlaced k p n x bs).stemCodebookOk k p j m then
        (v.stemPlaced k p n x bs).setStem k { (v.stemPlaced k p n x bs).stemAt k with quantSat := ((v.stemPlaced k p n x bs).stemAt k).quantSat + q }
      else v.stemFailAttempt k p n 4 := by
  have hcount : framed [.fetched, .cnt] [] s
      (if (s.stemNear x st).isSome then s else s.tallySource none m x (st.attempts - b2n st.near) x.stored) :=
    .ite (fun _ => .refl) fun _ => (State.tallySource_framed ..).widen
  have hfetched : (if (s.stemNear x st).isSome then s else s.tallySource none m x (st.attempts - b2n st.near) x.stored).ls.fetched = s.ls.fetched := by
    split
    · rfl
    · exact (State.tallySource_framed ..).1 .fetched (by decide)
  have heq := hcount.counting
  rw [hfetched] at heq
  generalize (if (s.stemNear x st).isSome then s else s.tallySource none m x (st.attempts - b2n st.near) x.stored).cnt = c at heq
  refine ⟨c, ?_⟩
  unfold State.stemArrival
  rw [h]
  dsimp only
  rw [hgood, heq]
  rfl

end

theorem State.recounted_framed (s : State) (c : Counting) : framed [.cnt] [] s (s.counting c s.ls.fetched) := framed_cnt s c

theorem State.stemFailAttempt_mem {k p n : Nat} {j : StemProj} {m : Manifest} {x : Shard} {st : ShardState}
    (h : s.stemFetching k p n = some (j, m, x, st)) (hfew : st.attempts < 3) (cause : Nat) : (s.stemFailAttempt k p n cause).mem = s.mem :=
  (State.stemFailAttempt_framed h hfew cause).mem (by simp [eventParts])

theorem State.stemPlaced_stem (s : State) {k : Nat} (hk : k < 2) (p n : Nat) (x : Shard) (bs : List Byte) : (s.stemPlaced k p n x bs).stemAt k =
    (s.stemAt k).updShard p n fun y => { y with verified := true, digest := sha256Words bs } := by
  rw [State.stemPlaced, State.updStemShard_eq, State.stemAt_setStem _ _ hk]
  rfl

theorem State.stemPlaced_framed (s : State) (k p n : Nat) (x : Shard) (bs : List Byte) : framed [.hbm, .stems] [] s (s.stemPlaced k p n x bs) :=
  ((State.progWrite_framed ..).widen).seq (State.updStemShard_framed ..)

section
variable (id : BitVec 24) (k : BitVec 1) (p : BitVec 16) (shard : BitVec 12) (data : List Byte)

theorem exec_shardArrival_lex : exec (.shardArrival (.lex id) shard data) s = keep s (if s.brought (.lex id) shard.toNat ≠ data then
    s.lostArrival (.lex id) shard.toNat else s.lexArrival id.toNat shard.toNat) := rfl

theorem exec_shardArrival_stem : exec (.shardArrival (.stem k p) shard data) s = keep s (if s.brought (.stem k p) shard.toNat ≠ data then
    s.stemFailAttempt k.toNat p.toNat shard.toNat 2 else s.stemArrival k.toNat p.toNat shard.toNat) := rfl

end

/-- Settles O22: an awaited shard's arrival by what its attempt brings. -/
theorem shardsArriveVerified : Obligations.ShardsArriveVerified := by
  intro shard s n
  refine ⟨?_, fun id data hnone => ?_, fun k p data hnone => ?_, ?_⟩
  · intro id m x st e hfetch
    have hbrought : exec (.shardArrival (.lex id) shard (s.brought (.lex id) n)) s = keep s (s.lexArrival id.toNat n) :=
      (exec_shardArrival_lex ..).trans (congrArg (keep s) (if_neg fun h => h rfl))
    refine ⟨fun hcharge => hbrought.trans (congrArg (keep s) (State.lexArrival_waits hfetch hcharge)), fun bs ep q hcharge hgood => ?_⟩
    obtain ⟨c, f, harrive⟩ := State.lexArrival_good hfetch hcharge hgood
    have hframe := (((s.placeShard_framed id.toNat x bs).widen (qs := [.lex, .lexCopies, .hdr, .hdrM, .obj, .slot, .fetched, .cnt]) (js := [])).seq
      (State.counting_framed _ c f)).seq (State.setLex_framed _ id.toNat (e.shardVerified x n bs ep))
    refine ⟨_, hbrought.trans (congrArg (keep s) harrive), ?_, fun i hi => ?_, rfl, hframe.kept⟩
    · exact State.lexAt_setLex ..
    · refine (State.lexAt_setLex_ne _ _ hi).trans ?_
      exact State.lexAt_of ((s.placeShard_framed id.toNat x bs).1 .lex (by decide)) i
  · refine (exec_shardArrival_lex ..).trans (congrArg (keep s) ?_)
    have hlost : s.lostArrival (.lex id) n = s := by
      unfold State.lostArrival
      dsimp only
      rw [hnone]
      rfl
    rw [hlost, State.lexArrival_none hnone, ite_self]
  · refine (exec_shardArrival_stem ..).trans (congrArg (keep s) ?_)
    rw [State.stemFailAttempt_none hnone, State.stemArrival_none hnone, ite_self]
  · intro k p j m x st bs ep q a failed placed hfetch hgood
    obtain ⟨c, harrive⟩ := State.stemArrival_good hfetch hgood
    have hbrought : exec (.shardArrival (.stem k p) shard (s.brought (.stem k p) n)) s = keep s (s.stemArrival k.toNat p.toNat n) :=
      (exec_shardArrival_stem ..).trans (congrArg (keep s) (if_neg fun h => h rfl))
    have hfails : ∀ (v : State) (data : List Byte) (cause : Nat), framed [.cnt] [] s v → v.stemFetching k.toNat p.toNat n = some (j, m, x, st) →
        exec (.shardArrival (.stem k p) shard data) s = keep s (v.stemFailAttempt k.toNat p.toNat n cause) → st.attempts < 3 → failed data cause := by
      intro v data cause hv hvfetch hexec hfew
      refine ⟨_, hexec, ?_, ?_, ?_⟩
      · rw [State.kept_events, State.stemFailAttempt_events hvfetch hfew, hv.1 .events (by decide)]
      · rw [State.kept_mem, State.stemFailAttempt_mem hvfetch hfew, hv.mem (by simp)]
      · exact ((hv.widen).seq (State.stemFailAttempt_framed hvfetch hfew cause) (by simp +contextual)).kept
    refine ⟨fun data hother hfew => hfails s data 2 .refl hfetch
      ((exec_shardArrival_stem ..).trans (congrArg (keep s) (if_pos hother))) hfew, fun hcode => ?_, fun hcode hfew => ?_⟩
    · have hplaced : (s.stemPlaced k.toNat p.toNat n x bs).stemCodebookOk k.toNat p.toNat j m = true := hcode
      rw [if_pos hplaced, State.stemPlaced_stem _ k.isLt] at harrive
      have hframe := ((s.recounted_framed c).widen (qs := [.stems, .hbm, .cnt]) (js := [])).seq (State.stemPlaced_framed _ k.toNat p.toNat n x bs)
      refine ⟨_, hbrought.trans (congrArg (keep s) harrive), ?_, rfl, (hframe.seq (State.setStem_framed ..)).kept⟩
      exact State.stemAt_setStem _ _ k.isLt
    · have hplaced : (s.stemPlaced k.toNat p.toNat n x bs).stemCodebookOk k.toNat p.toNat j m = false := hcode
      rw [if_neg (by simp [hplaced])] at harrive
      exact hfails (s.counting c s.ls.fetched) _ 4 (s.recounted_framed c) hfetch (hbrought.trans (congrArg (keep s) harrive)) hfew

end Sys2Proof.Machine
end

section
/-! SUPPORT. Failed attempts at a shard, and objects that become resident or leave (R239, R297 to R303). -/

namespace Sys2Proof.Machine

set_option Elab.async false

variable {s t u : State} {id n cause : Nat} {m : Manifest} {x : Shard} {st : ShardState}

/-! ### Failed attempts -/

/-- A shard's progress after an attempt at it has failed. -/
def ShardState.failed (y : ShardState) (st : ShardState) (cause now : Nat) (near : Bool) : ShardState :=
  { y with
    attempts := st.attempts + 1, cause := if st.attempts = 0 ∨ st.cause = St.keyRetired then cause else st.cause, since := now, got := 0,
    near := near }

/-- An object's entry after an attempt at a shard has failed. -/
def LexEntry.attemptFailed (e : LexEntry) (n : Nat) (st : ShardState) (cause now : Nat) (near : Bool) : LexEntry :=
  { e with shards := e.shards.map fun y => if y.shard = n then y.failed st cause now near else y }

/-- An object's entry after the attempt in progress at a shard has failed. -/
def State.entryFailed (s : State) (id n : Nat) (st : ShardState) (cause : Nat) : LexEntry :=
  (s.lexAt id).attemptFailed n st cause s.tk.now (st.near || (st.attempts == 0 && (s.nearest (s.lexAt id) n).isSome))

/-- An attempt counted as failed. -/
def State.attemptCounted (s : State) (id n : Nat) (st : ShardState) (cause : Nat) : State :=
  (s.setLex id (s.entryFailed id n st cause)).countScoped Reg.RES_RETRIES (some (s.lexAt id).inst) 1

/-- An attempt counted as failed and told of. -/
def State.attemptTold (s : State) (id n : Nat) (st : ShardState) (cause : Nat) : State :=
  (s.attemptCounted id n st cause).raiseInst 0x3003 (s.lexAt id).inst ([id, n, st.attempts + 1, cause].map wordOf)

theorem State.failAttempt_eq (h : (s.lexAt id).shards.find? (fun x => x.shard == n) = some st) : s.failAttempt id n cause =
    if 4 ≤ st.attempts + 1 then (s.attemptTold id n st cause).failObject id n cause else s.attemptTold id n st cause := by
  unfold State.failAttempt
  dsimp only
  rw [h]
  rfl

theorem State.fetching_shard (h : s.fetching id n = some (m, x, st)) : (s.lexAt id).shards.find? (fun x => x.shard == n) = some st := by
  unfold State.fetching at h
  dsimp only at h
  split at h
  · cases h
  · split at h
    next hst =>
      split at h
      · cases h
        exact hst
      · cases h
    · cases h

theorem State.attemptCounted_framed (s : State) (id n : Nat) (st : ShardState) (cause : Nat) :
    framed [.lex, .lexCopies, .regs] (scopedRegs Reg.RES_RETRIES (s.lexAt id).inst) s (s.attemptCounted id n st cause) :=
  ((State.setLex_framed ..).widen).seq (State.countScoped_some_framed ..) (by simp) (fun _ h => h)

theorem State.attemptTold_framed (s : State) (id n : Nat) (st : ShardState) (cause : Nat) :
    framed (.lex :: .lexCopies :: eventParts) (scopedRegs Reg.RES_RETRIES (s.lexAt id).inst) s (s.attemptTold id n st cause) :=
  ((s.attemptCounted_framed id n st cause).widen (by simp [eventParts]) (fun _ h => h)).seq (State.raiseInst_framed ..)
    (by simp +contextual) (by simp +contextual [scopedRegs])

theorem State.attemptCounted_lex (s : State) (id n : Nat) (st : ShardState) (cause : Nat) :
    (s.attemptCounted id n st cause).lexAt id = s.entryFailed id n st cause := by
  rw [State.attemptCounted, State.lexAt_of ((State.countScoped_some_framed ..).1 .lex (by decide)), State.lexAt_setLex]

theorem State.attemptTold_lex (s : State) (id n : Nat) (st : ShardState) (cause : Nat) :
    (s.attemptTold id n st cause).lexAt id = s.entryFailed id n st cause := by
  rw [State.attemptTold, State.lexAt_of ((State.raiseInst_framed ..).1 .lex (by decide)), State.attemptCounted_lex]

theorem State.attemptTold_events (s : State) (id n : Nat) (st : ShardState) (cause : Nat) : (s.attemptTold id n st cause).events = s.events ++
    [⟨0x3003, some (s.lexAt id).inst, [id, n, st.attempts + 1, cause].map wordOf, [(s.lexAt id).inst]⟩] := by
  rw [State.attemptTold, State.raiseInst_events, (s.attemptCounted_framed id n st cause).1 .events (by decide)]

/-- What a failed attempt leaves, from a state that differs from the one before the command by counters alone. -/
def failedAgain (s t : State) (id n cause : Nat) (st : ShardState) : Prop :=
  let e := s.lexAt id
  (st.attempts < 3 → t.lexAt id = s.entryFailed id n st cause
    ∧ t.events = s.events ++ [⟨0x3003, some e.inst, [id, n, st.attempts + 1, cause].map wordOf, [e.inst]⟩]
    ∧ framed (.lex :: .lexCopies :: .fetched :: .cnt :: eventParts) (Reg.RES_RETRIES :: regKey (e.inst + 1) Reg.RES_RETRIES :: eventRegs) s t)
  ∧ (3 ≤ st.attempts → (t.lexAt id).state = 5 ∧ (t.lexAt id).frames = []
    ∧ ⟨0x3002, some e.inst, [id, n, cause].map wordOf, [e.inst]⟩ ∈ t.events
    ∧ changesOnly (.lex :: .lexCopies :: .fetched :: .cnt :: .obj :: .slot :: .hdr :: .hdrM :: .reqs :: eventParts) s t)

@[simp] theorem State.kept_lexAt (s t : State) (id : Nat) : (s.kept t).lexAt id = t.lexAt id := rfl

theorem State.attemptTold_again (hfew : st.attempts < 3) (cause : Nat) (h : framed [.fetched, .cnt] [] s t)
    (hentry : t.entryFailed id n st cause = s.entryFailed id n st cause) (hlex : t.lexAt id = s.lexAt id) :
    failedAgain s (s.kept (t.attemptTold id n st cause)) id n cause st := by
  have htold := t.attemptTold_framed id n st cause
  have hevents := t.attemptTold_events id n st cause
  rw [hlex] at htold hevents
  refine ⟨fun _ => ⟨?_, ?_, ?_⟩, fun hmany => absurd hfew (by omega)⟩
  · rw [State.kept_lexAt, State.attemptTold_lex, hentry]
  · rw [State.kept_events, hevents, h.1 .events (by decide)]
  · exact ((h.widen).seq htold (by simp +contextual) (fun _ h => h)).kept

theorem State.attemptTold_fails (hmany : 3 ≤ st.attempts) (cause : Nat) (h : framed [.fetched, .cnt] [] s t) (hlex : t.lexAt id = s.lexAt id) :
    failedAgain s (s.kept ((t.attemptTold id n st cause).failObject id n cause)) id n cause st := by
  have htold := t.attemptTold_framed id n st cause
  have hinst : ((t.attemptTold id n st cause).lexAt id).inst = (s.lexAt id).inst := by
    rw [State.attemptTold_lex, ← hlex]
    rfl
  generalize t.attemptTold id n st cause = v at htold hinst
  have ⟨hstate, hframes⟩ := v.failObject_lex id n cause
  have hevents := v.failObject_events id n cause
  rw [hinst] at hevents
  refine ⟨fun hfew => absurd hmany (by omega), fun _ => ?_⟩
  rw [State.kept_lexAt]
  refine ⟨hstate, hframes, ?_, ?_⟩
  · rw [State.kept_events, hevents]
    exact List.mem_append_right _ (List.mem_singleton.mpr rfl)
  · exact (((h.1.widen).seq htold.1 (by simp +contextual)).seq (State.failObject_framed ..).1 (by simp +contextual [failParts])).kept

theorem State.failAttempt_again (h : s.fetching id n = some (m, x, st)) (cause : Nat) (c : Counting) (f : SMap Nat) :
    failedAgain s (s.kept ((s.counting c f).failAttempt id n cause)) id n cause st := by
  rw [State.failAttempt_eq (s := s.counting c f) (State.fetching_shard h)]
  split
  next hmany => exact State.attemptTold_fails (by omega) cause (s.counting_framed c f) rfl
  next hfew => exact State.attemptTold_again (by omega) cause (s.counting_framed c f) rfl rfl

/-- Settles O23: each of the four ways an attempt fails leaves what a failed attempt leaves. -/
theorem failedAttemptsRetry : Obligations.FailedAttemptsRetry := by
  intro id shard m x st s e n near again
  have hagain : ∀ t cause, failedAgain s t id.toNat n cause st → again t cause := fun _ _ h => h
  have htimeout : exec (.shardAttemptTimeout (.lex id) shard) s = keep s (match s.fetching id.toNat n with
      | some (_, x, st) => if s.overdue (s.lexAt id.toNat).inst x.stored st.since then s.failAttempt id.toNat n 0 else s
      | none => s) := rfl
  refine ⟨fun hnone => ?_, fun hfetch => ⟨fun hdue => ?_, fun hearly => ?_, fun data hother => ?_, fun c hcharge hbad => ?_⟩⟩
  · rw [htimeout, hnone]
    rfl
  · refine ⟨_, ?_, hagain _ _ (State.failAttempt_again hfetch 0 s.cnt s.ls.fetched)⟩
    rw [htimeout, hfetch]
    exact congrArg (keep s) (if_pos hdue)
  · rw [htimeout, hfetch]
    exact congrArg (keep s) (if_neg (by simp [hearly, e]))
  · refine ⟨_, ?_, hagain _ _ (State.failAttempt_again hfetch 2 s.cnt s.ls.fetched)⟩
    refine (exec_shardArrival_lex ..).trans (congrArg (keep s) ((if_pos hother).trans ?_))
    unfold State.lostArrival
    exact if_pos (by rw [hfetch]; rfl)
  · obtain ⟨k, f, harrive⟩ := State.lexArrival_bad hfetch hcharge hbad
    refine ⟨_, ?_, hagain _ _ (State.failAttempt_again hfetch c k f)⟩
    exact (exec_shardArrival_lex ..).trans (congrArg (keep s) ((if_neg fun h => h rfl).trans harrive))

end Sys2Proof.Machine
end

section
/-! SUPPORT. Objects that become resident, with the requests they wake, and objects that leave (R239, R287, R297 to R301). -/

namespace Sys2Proof.Machine

set_option Elab.async false

variable {s t u v : State} {id n a : Nat} {e : LexEntry}

/-! ### The frames of a residency -/

theorem State.rejectRecord_framed (s : State) (id check : Nat) : framed (.reqs :: eventParts) eventRegs s (s.rejectRecord id check) :=
  ((State.noteDetail_framed ..).widen).seq (State.raiseInst_framed ..) (by simp +contextual) (fun _ h => h)

theorem State.rejectRecord_events (s : State) (id check : Nat) : (s.rejectRecord id check).events =
    s.events ++ [⟨0x3044, some (s.lexAt id).inst, [wordOf id, wordOf check], [(s.lexAt id).inst]⟩] := by
  rw [State.rejectRecord, State.raiseInst_events, (State.noteDetail_framed ..).1 .events (by decide)]

theorem State.loadTrain_framed (s : State) (id : Nat) : framed [.train, .obj] [] s (s.loadTrain id) := by
  have hinflection : ∀ v : State, framed [.train, .obj] [] v (v.mirrorInit id) := fun v => by
    unfold State.mirrorInit
    split
    · exact .refl
    · exact (framed_obj v _).widen
  have haffix : ∀ v : State, framed [.train, .obj] [] v (v.mirrorAffix id) := fun v => .ite (fun _ => .refl) fun _ => (framed_obj v _).widen
  unfold State.loadTrain
  dsimp only
  refine .ite (fun _ => .refl) fun _ => .ite (fun _ => ?_) fun _ => ?_
  · exact ((State.setTrain_framed ..).widen).trans (hinflection _)
  · exact ((State.setTrain_framed ..).widen).trans (haffix _)

theorem State.fitFrames_framed (s : State) (id : Nat) : framed [.lex, .lexCopies] [] s (s.fitFrames id) := State.setLex_framed ..

/-- An object's entry as it becomes resident, before its frames are counted. -/
def LexEntry.resident (e : LexEntry) (id : Nat) (count : BitVec 64) (stem rec : List Word) : LexEntry :=
  { e with
    state := (if e.pins > 0 then 3 else 2), hdrOk := true, lastLanding := count, place := wordOf id, stemDigest := stem, recDigest := rec }

/-- A record that passed its checks becomes resident and is told of. -/
def State.residentTold (s : State) (id : Nat) (e : LexEntry) : State :=
  let dig := (List.range 8).map fun i => s.headerWord id (4 + i)
  (((s.setLex id (e.resident id s.tk.count dig (sha256Words (s.recordRead8 id)))).loadTrain id).fitFrames id).raiseInst 0x3001 e.inst
    [wordOf id, wordOf s.tk.count.toNat]

theorem State.activate_waits (h : (s.lexAt id).complete = false) : s.activate id = s := by
  unfold State.activate
  dsimp only
  rw [if_pos (by simp [h])]

theorem State.activate_lost (h : (s.lexAt id).complete = true) (hlost : s.ckptRefetch id = none) : s.activate id = s.failObject id 0 1 := by
  unfold State.activate
  dsimp only
  rw [if_neg (by simp [h]), hlost]

theorem State.activate_rejected {k : Nat} (h : (s.lexAt id).complete = true) (hback : s.ckptRefetch id = some u) (hcheck : u.recordCheck id = some k) :
    s.activate id = (u.rejectRecord id k).failObject id 0 k := by
  unfold State.activate
  dsimp only
  rw [if_neg (by simp [h]), hback]
  dsimp only
  rw [hcheck]

theorem State.activate_passes (h : (s.lexAt id).complete = true) (hback : s.ckptRefetch id = some u) (hcheck : u.recordCheck id = none) :
    s.activate id = (u.residentTold id (s.lexAt id)).wakeWaiters id := by
  unfold State.activate
  dsimp only
  rw [if_neg (by simp [h]), hback]
  dsimp only
  rw [hcheck]
  rfl

/-- The parts that a residency may change. -/
def residentParts : List Part := [.lex, .lexCopies, .train, .obj, .slot, .hdr, .hdrM, .reqs] ++ eventParts

/-- An object's entry with its frames told of. -/
def State.residentCounted (s : State) (id : Nat) (e : LexEntry) : State :=
  let dig := (List.range 8).map fun i => s.headerWord id (4 + i)
  ((s.setLex id (e.resident id s.tk.count dig (sha256Words (s.recordRead8 id)))).loadTrain id).fitFrames id

theorem State.residentTold_eq (s : State) (id : Nat) (e : LexEntry) : s.residentTold id e =
    (s.residentCounted id e).raiseInst 0x3001 e.inst [wordOf id, wordOf s.tk.count.toNat] := rfl

theorem State.residentCounted_framed (s : State) (id : Nat) (e : LexEntry) : framed [.lex, .lexCopies, .train, .obj] [] s (s.residentCounted id e) :=
  (((State.setLex_framed ..).widen).seq (State.loadTrain_framed ..)).seq (State.fitFrames_framed ..)

theorem State.residentTold_framed (s : State) (id : Nat) (e : LexEntry) : framed residentParts eventRegs s (s.residentTold id e) := by
  rw [State.residentTold_eq]
  exact ((State.residentCounted_framed ..).widen (by simp [residentParts])).seq (State.raiseInst_framed ..) (by simp +contextual [residentParts])
    (fun _ h => h)

theorem State.residentTold_events (s : State) (id : Nat) (e : LexEntry) : (s.residentTold id e).events =
    s.events ++ [⟨0x3001, some e.inst, [wordOf id, wordOf s.tk.count.toNat], [e.inst]⟩] := by
  rw [State.residentTold_eq, State.raiseInst_events, (State.residentCounted_framed ..).1 .events (by decide)]

/-- An entry of an object that just became resident. -/
def LexEntry.residentNow (e : LexEntry) (id : Nat) (count : BitVec 64) (y : LexEntry) : Prop :=
  (y.state = 2 ∨ y.state = 3) ∧ (0 < e.pins → y.state = 3) ∧ y.hdrOk = true ∧ y.place = wordOf id ∧ y.lastLanding = count ∧ y.shards = e.shards

theorem LexEntry.resident_residentNow (e : LexEntry) (id : Nat) (count : BitVec 64) (stem rec : List Word) (frames : List Nat) :
    e.residentNow id count { e.resident id count stem rec with frames := frames } := by
  have hstate : (e.resident id count stem rec).state = if e.pins > 0 then 3 else 2 := rfl
  refine ⟨?_, fun hpins => hstate.trans (if_pos hpins), rfl, rfl, rfl, rfl⟩
  show (e.resident id count stem rec).state = 2 ∨ (e.resident id count stem rec).state = 3
  rw [hstate]
  split
  · exact .inr rfl
  · exact .inl rfl

theorem State.residentTold_lex (s : State) (id : Nat) (e : LexEntry) : e.residentNow id s.tk.count ((s.residentTold id e).lexAt id) := by
  rw [State.residentTold_eq, State.lexAt_of ((State.raiseInst_framed ..).1 .lex (by decide)), State.residentCounted, State.fitFrames,
    State.lexAt_setLex, State.lexAt_of ((State.loadTrain_framed ..).1 .lex (by decide)), State.lexAt_setLex]
  exact LexEntry.resident_residentNow ..

theorem State.residentTold_state (s : State) (id : Nat) (e : LexEntry) :
    ((s.residentTold id e).lexAt id).state = if e.pins > 0 then 3 else 2 := by
  rw [State.residentTold_eq, State.lexAt_of ((State.raiseInst_framed ..).1 .lex (by decide)), State.residentCounted, State.fitFrames,
    State.lexAt_setLex, State.lexAt_of ((State.loadTrain_framed ..).1 .lex (by decide)), State.lexAt_setLex]
  rfl

theorem State.residentTold_other (s : State) (id : Nat) (e : LexEntry) {j : Nat} (h : j ≠ id) : (s.residentTold id e).lexAt j = s.lexAt j := by
  rw [State.residentTold_eq, State.lexAt_of ((State.raiseInst_framed ..).1 .lex (by decide)), State.residentCounted, State.fitFrames,
    State.lexAt_setLex_ne _ _ h, State.lexAt_of ((State.loadTrain_framed ..).1 .lex (by decide)), State.lexAt_setLex_ne _ _ h]

/-! ### Requests woken -/

/-- The parts that the waking of requests may change. -/
def wakeParts : List Part := [.lex, .lexCopies, .hdr, .hdrM, .reqs] ++ eventParts

/-- A run that wakes requests that waited for an object which just became resident. -/
def WakesFor (e : LexEntry) (id : Nat) (s u : State) : Prop :=
  changesOnly wakeParts s u ∧ (∃ more, u.events = s.events ++ more) ∧ e.residentNow id s.tk.count (u.lexAt id)

theorem WakesFor.seq (h : WakesFor e id s u) (hparts : changesOnly wakeParts u v) (hevents : ∃ more, v.events = u.events ++ more)
    (hlex : e.residentNow id s.tk.count (u.lexAt id) → e.residentNow id s.tk.count (v.lexAt id)) : WakesFor e id s v := by
  obtain ⟨hfirst, ⟨more, hmore⟩, hnow⟩ := h
  obtain ⟨next, hnext⟩ := hevents
  exact ⟨hfirst.trans hparts, ⟨more ++ next, by rw [hnext, hmore, List.append_assoc]⟩, hlex hnow⟩

/-- A step that touches requests alone. -/
theorem WakesFor.reqs (h : WakesFor e id s u) (hreqs : framed [.reqs] [] u v) : WakesFor e id s v :=
  h.seq (hreqs.1.widen (by simp [wakeParts])) ⟨[], by rw [hreqs.1 .events (by decide), List.append_nil]⟩
    (by rw [State.lexAt_of (hreqs.1 .lex (by decide))]; exact fun h => h)

theorem State.pin_framed (s : State) (id : Nat) : framed [.lex, .lexCopies] [] s (s.pin id) := State.setLex_framed ..

theorem State.pin_lex (s : State) (id : Nat) : (s.pin id).lexAt id =
    { s.lexAt id with pins := (s.lexAt id).pins + 1, state := if (s.lexAt id).state = 2 then 3 else (s.lexAt id).state, lastLanding := s.tk.count } :=
  State.lexAt_setLex ..

theorem WakesFor.pin (h : WakesFor e id s u) (a : Nat) : WakesFor e id s (u.pin a) := by
  have hpin := u.pin_framed a
  refine h.seq (hpin.1.widen (by simp [wakeParts])) ⟨[], by rw [hpin.1 .events (by decide), List.append_nil]⟩ fun hnow => ?_
  by_cases ha : id = a
  · subst ha
    obtain ⟨hstate, hpins, hhdr, hplace, -, hshards⟩ := hnow
    rw [State.pin_lex]
    refine ⟨?_, fun hp => ?_, hhdr, hplace, h.1 .tickCount (by decide), hshards⟩
    · rcases hstate with h | h
      · simp [h]
      · simp [h]
    · simp [hpins hp]
  · rw [State.pin, State.lexAt_setLex_ne _ _ ha]
    exact hnow

theorem State.startFetch_framed (s : State) (id : Nat) : framed [.hdr, .hdrM, .lex, .lexCopies] [] s (s.startFetch id) := by
  unfold State.startFetch
  dsimp only
  split
  · exact .refl
  · exact .ite (fun _ => (State.setLex_framed ..).widen) fun _ => ((State.hdrWrite_framed ..).widen).seq (State.setLex_framed ..)

theorem State.startFetch_other (s : State) {id j : Nat} (h : j ≠ id) : (s.startFetch id).lexAt j = s.lexAt j := by
  unfold State.startFetch
  dsimp only
  split
  · rfl
  · split
    · exact State.lexAt_setLex_ne _ _ h
    · rw [State.lexAt_setLex_ne _ _ h, State.lexAt_of ((State.hdrWrite_framed ..).1 .lex (by decide))]

/-- An eviction under way cancelled and counted. -/
def State.cancelCounted (s : State) (id : Nat) : State :=
  (s.setLex id { s.lexAt id with state := if (s.lexAt id).pins > 0 then 3 else 2, evictDue := none }).countScoped Reg.RES_CANCELS
    (some (s.lexAt id).inst) 1

theorem State.cancelEviction_eq (s : State) (id : Nat) : s.cancelEviction id =
    (s.cancelCounted id).raiseInst 0x3005 (s.lexAt id).inst [wordOf id, wordOf s.tk.count.toNat] := rfl

theorem State.cancelCounted_framed (s : State) (id : Nat) :
    framed [.lex, .lexCopies, .regs] (scopedRegs Reg.RES_CANCELS (s.lexAt id).inst) s (s.cancelCounted id) :=
  ((State.setLex_framed ..).widen).seq (State.countScoped_some_framed ..) (by simp) (fun _ h => h)

theorem State.cancelEviction_framed (s : State) (id : Nat) :
    framed (.lex :: .lexCopies :: eventParts) (scopedRegs Reg.RES_CANCELS (s.lexAt id).inst) s (s.cancelEviction id) := by
  rw [State.cancelEviction_eq]
  exact ((State.cancelCounted_framed ..).widen (by simp [eventParts]) (fun _ h => h)).seq (State.raiseInst_framed ..)
    (by simp +contextual) (by simp +contextual [scopedRegs])

theorem State.cancelEviction_events (s : State) (id : Nat) : ∃ more, (s.cancelEviction id).events = s.events ++ more := by
  rw [State.cancelEviction_eq, State.raiseInst_events, (State.cancelCounted_framed ..).1 .events (by decide)]
  exact ⟨_, rfl⟩

theorem State.cancelEviction_other (s : State) {id j : Nat} (h : j ≠ id) : (s.cancelEviction id).lexAt j = s.lexAt j := by
  rw [State.cancelEviction_eq, State.lexAt_of ((State.raiseInst_framed ..).1 .lex (by decide)), State.cancelCounted,
    State.lexAt_of ((State.countScoped_some_framed ..).1 .lex (by decide)), State.lexAt_setLex_ne _ _ h]

/-- An affix made ready for a request: fetched, or kept where it was about to leave. -/
def State.recall (s : State) (a : Nat) : State :=
  if (s.lexAt a).state = 0 then s.startFetch a else if (s.lexAt a).state = 4 then s.cancelEviction a else s

theorem WakesFor.recall (h : WakesFor e id s u) (a : Nat) : WakesFor e id s (u.recall a) := by
  have hready := h.2.2.1
  unfold State.recall
  by_cases hout : (u.lexAt a).state = 0
  · have hne : id ≠ a := by
      rintro rfl
      omega
    rw [if_pos hout]
    exact h.seq ((State.startFetch_framed ..).1.widen (by simp [wakeParts])) ⟨[], by rw [(State.startFetch_framed ..).1 .events (by decide), List.append_nil]⟩
      (by rw [State.startFetch_other _ hne]; exact fun h => h)
  rw [if_neg hout]
  by_cases hleaving : (u.lexAt a).state = 4
  · have hne : id ≠ a := by
      rintro rfl
      omega
    rw [if_pos hleaving]
    exact h.seq ((State.cancelEviction_framed ..).1.widen (by simp +contextual [wakeParts])) (State.cancelEviction_events ..)
      (by rw [State.cancelEviction_other _ hne]; exact fun h => h)
  · rw [if_neg hleaving]
    exact h

theorem State.addAffixes_eq (s : State) (r : Request) (id : Nat) : ∃ (new : List Nat) (f : Request → Request), s.addAffixes r id =
    (new.foldl (fun u a => (u.recall a).pin a) s).updReq r.handle f := ⟨_, _, rfl⟩

theorem WakesFor.foldl {f : State → Nat → State} (hf : ∀ u a, WakesFor e id s u → WakesFor e id s (f u a)) (l : List Nat) (h : WakesFor e id s u) :
    WakesFor e id s (l.foldl f u) := by
  induction l generalizing u with
  | nil => exact h
  | cons a l ih => exact ih (hf u a h)

theorem WakesFor.addAffixes (h : WakesFor e id s u) (r : Request) (i : Nat) : WakesFor e id s (u.addAffixes r i) := by
  obtain ⟨new, f, heq⟩ := u.addAffixes_eq r i
  rw [heq]
  exact (WakesFor.foldl (fun _ a hu => (hu.recall a).pin a) new h).reqs (State.updReq_framed ..)

theorem WakesFor.wakeWaiters (h : WakesFor e id s u) (i : Nat) : WakesFor e id s (u.wakeWaiters i) := by
  refine WakesFor.foldl (fun v a hv => ?_) _ h
  dsimp only
  split
  · exact hv
  next r _ =>
    split
    · exact hv
    · split
      · exact hv.reqs (State.endReq_framed ..)
      · split
        · exact (hv.addAffixes r i).reqs (State.updReq_framed ..)
        · exact hv.reqs (State.updReq_framed ..)

theorem State.wakeWaiters_quiet (h : ∀ r ∈ s.hs.reqs, id ∉ r.waits) : s.wakeWaiters id = s := by
  refine List.foldl_fixed' (fun x => ?_) _
  dsimp only
  split
  · rfl
  next r hr =>
    have hwaits := h r (List.mem_of_find?_eq_some hr)
    rw [if_pos (by simp [hwaits])]

/-! ### Objects that leave -/

theorem State.onePlane_framed (s : State) (id : Nat) : framed [.obj, .slot, .train] [] s (s.onePlane id) := by
  unfold State.onePlane
  dsimp only
  refine .ite (fun _ => .refl) fun _ => ?_
  refine framed.seq (ps := [.train]) (ks := []) ?_ (State.setTrain_framed ..)
  split
  · exact (framed_slot s _).widen
  · exact (framed_obj s _).widen

theorem State.settlePlanes_framed (s : State) (id : Nat) : framed [.obj, .slot, .train] [] s (s.settlePlanes id) :=
  .foldl _ _ (fun _ _ => State.onePlane_framed ..) _

/-- An object's record put to rest and its frames zeroed. -/
def State.framesZeroed (s : State) (id : Nat) : State := ((s.settlePlanes id).dropHead id).zeroObject id (s.lexAt id)

/-- An object that has left, not yet told of. -/
def State.objectGone (s : State) (id : Nat) : State :=
  let v := s.framesZeroed id
  let w := v.setLex id { v.lexAt id with state := 0, frames := [], evictDue := none, shards := [], place := 0xFFFFFFFF#32 }
  w.setTrain id { w.trainAt id with state := 0, gate := none, sums := [], cur := 0 }

theorem State.evictDone_eq {due : Nat} (hdue : (s.lexAt id).evictDue = some due) (hstate : (s.lexAt id).state = 4) (hnow : due ≤ s.tk.count.toNat) :
    s.evictDone id = (s.objectGone id).evicted id (s.lexAt id).inst (s.lexAt id).evictCause := by
  unfold State.evictDone
  dsimp only
  rw [hdue]
  dsimp only
  rw [if_neg (by simp [hstate, hnow]), State.objectGone]
  rfl

theorem State.evictDone_waits (h : (s.lexAt id).evictDue = none ∨ (s.lexAt id).state ≠ 4
    ∨ ∃ due, (s.lexAt id).evictDue = some due ∧ s.tk.count.toNat < due) : s.evictDone id = s := by
  unfold State.evictDone
  dsimp only
  split
  · rfl
  next d hd =>
    rw [if_pos]
    rcases h with h | h | ⟨due, hdue, hlt⟩
    · rw [h] at hd
      cases hd
    · exact .inl h
    · rw [hdue] at hd
      cases hd
      exact .inr hlt

theorem State.framesZeroed_framed (s : State) (id : Nat) :
    framed [.obj, .slot, .train, .hdr, .hdrM, .lex, .lexCopies] [] s (s.framesZeroed id) :=
  (((State.settlePlanes_framed ..).widen).seq (State.dropHead_framed ..)).seq (State.zeroObject_framed ..)

theorem State.framesZeroed_zero (s : State) (id : Nat) {g p off : Nat} (hg : g < 8) (hp : p < 4) (hoff : off < 0x40000000) :
    memByte (s.framesZeroed id).mem.obj (objKey id g p off) = 0 := by
  have hzero : (s.framesZeroed id).mem.obj = memZero ((s.settlePlanes id).dropHead id).mem.obj (objKey id 0 0 0) (32 * 0x40000000) := by
    unfold State.framesZeroed State.zeroObject
    dsimp only
    split
    · rfl
    · rfl
  rw [hzero, memByte_zero, if_pos]
  simp only [objKey]
  omega

theorem State.framesZeroed_lex (hstate : (s.lexAt id).state = 4) : (s.framesZeroed id).lexAt id = { s.lexAt id with
    first := if (s.lexAt id).shards.all (·.verified) then s.hdrRead (4096 * id) 4096 else (s.lexAt id).first } := by
  have hsettle := s.settlePlanes_framed id
  have hlex := State.lexAt_of (hsettle.1 .lex (by decide)) id
  have hhead : (s.settlePlanes id).hdrRead (4096 * id) 4096 = s.hdrRead (4096 * id) 4096 := by
    have hfenced : (s.settlePlanes id).galFenced 0 = s.galFenced 0 := by
      unfold State.galFenced
      rw [hsettle.fld (by simp)]
    unfold State.hdrRead
    rw [hfenced, hsettle.1 .hdr (by decide), hsettle.1 .hdrM (by decide)]
  rw [State.framesZeroed, State.lexAt_of ((State.zeroObject_framed ..).1 .lex (by decide)), State.dropHead]
  dsimp only
  rw [State.lexAt_setLex, hlex, hhead, hstate]
  simp

theorem State.objectGone_lex (s : State) (id : Nat) : (s.objectGone id).lexAt id = { (s.framesZeroed id).lexAt id with
    state := 0, frames := [], evictDue := none, shards := [], place := 0xFFFFFFFF#32 } := by
  rw [State.objectGone, State.lexAt_of ((State.setTrain_framed ..).1 .lex (by decide)), State.lexAt_setLex]

theorem State.objectGone_train (s : State) (id : Nat) : ((s.objectGone id).trainAt id).state = 0 := by
  rw [State.objectGone, State.trainAt_setTrain]

theorem State.objectGone_framed (s : State) (id : Nat) :
    framed [.obj, .slot, .train, .hdr, .hdrM, .lex, .lexCopies] [] s (s.objectGone id) :=
  (((State.framesZeroed_framed ..).seq (State.setLex_framed ..)).seq (State.setTrain_framed ..))

theorem State.objectGone_obj (s : State) (id : Nat) : (s.objectGone id).mem.obj = (s.framesZeroed id).mem.obj := rfl

theorem State.evicted_framed (s : State) (id inst cause : Nat) :
    framed eventParts (scopedRegs Reg.RES_EVICTIONS inst) s (s.evicted id inst cause) :=
  ((State.countScoped_some_framed ..).widen (by simp [eventParts]) (fun _ h => h)).seq (State.raiseInst_framed ..) (fun _ h => h)
    (by simp +contextual [scopedRegs])

theorem State.evicted_events (s : State) (id inst cause : Nat) :
    (s.evicted id inst cause).events = s.events ++ [⟨0x3004, some inst, [wordOf id, wordOf cause], [inst]⟩] := by
  rw [State.evicted, State.raiseInst_events, (State.countScoped_some_framed ..).1 .events (by decide)]

theorem evictionCompletes {due : Nat} (hdue : (s.lexAt id).evictDue = some due) (hstate : (s.lexAt id).state = 4) (hnow : due ≤ s.tk.count.toNat) :
    let e := s.lexAt id
    let t := s.evictDone id
    t.lexAt id = { e with
        state := 0, frames := [], evictDue := none, shards := [], place := 0xFFFFFFFF#32
        first := if e.shards.all (·.verified) then s.hdrRead (4096 * id) 4096 else e.first }
      ∧ (∀ g < 8, ∀ p < 4, ∀ off < 0x40000000, memByte t.mem.obj (objKey id g p off) = 0)
      ∧ (t.trainAt id).state = 0
      ∧ t.events = s.events ++ [⟨0x3004, some e.inst, [wordOf id, wordOf e.evictCause], [e.inst]⟩]
      ∧ framed ([.lex, .lexCopies, .train, .obj, .slot, .hdr, .hdrM] ++ eventParts) (scopedRegs Reg.RES_EVICTIONS e.inst) s t := by
  intro e t
  have ht : t = (s.objectGone id).evicted id e.inst e.evictCause := State.evictDone_eq hdue hstate hnow
  have hout := (s.objectGone id).evicted_framed id e.inst e.evictCause
  rw [← ht] at hout
  refine ⟨?_, fun g hg p hp off hoff => ?_, ?_, ?_, ?_⟩
  · rw [State.lexAt_of (hout.1 .lex (by decide)), State.objectGone_lex, State.framesZeroed_lex hstate]
  · rw [hout.1 .obj (by decide), State.objectGone_obj]
    exact s.framesZeroed_zero id hg hp hoff
  · rw [State.trainAt_of (hout.1 .train (by decide))]
    exact s.objectGone_train id
  · rw [ht, State.evicted_events, (State.objectGone_framed ..).1 .events (by decide)]
  · exact ((s.objectGone_framed id).widen (by simp) (by simp)).seq hout (by simp +contextual) (fun _ h => h)

/-! ### Objects that become resident -/

theorem activationPasses (h : (s.lexAt id).complete = true) (hback : s.ckptRefetch id = some u) (hcheck : u.recordCheck id = none) :
    let e := s.lexAt id
    let quiet := ∀ r ∈ s.hs.reqs, id ∉ r.waits
    let t := s.activate id
    (0 < e.pins → (t.lexAt id).state = 3) ∧ (e.pins = 0 → quiet → (t.lexAt id).state = 2) ∧ (t.lexAt id).hdrOk = true
      ∧ (t.lexAt id).place = wordOf id ∧ (t.lexAt id).lastLanding = s.tk.count ∧ (t.lexAt id).shards = e.shards
      ∧ (∃ more, t.events = s.events ++ [⟨0x3001, some e.inst, [wordOf id, wordOf s.tk.count.toNat], [e.inst]⟩] ++ more ∧ (quiet → more = []))
      ∧ changesOnly residentParts s t ∧ (quiet → (∀ j, j ≠ id → t.lexAt j = s.lexAt j) ∧ framed residentParts eventRegs s t) := by
  intro e quiet t
  have ht : t = (u.residentTold id e).wakeWaiters id := State.activate_passes h hback hcheck
  have hu := State.ckptRefetch_framed hback
  have htold := u.residentTold_framed id e
  have hcount : u.tk.count = s.tk.count := hu.1 .tickCount (by decide)
  have hevents := u.residentTold_events id e
  rw [hu.1 .events (by decide), hcount] at hevents
  have hnow := u.residentTold_lex id e
  have hstate := u.residentTold_state id e
  have hother := fun j (hj : j ≠ id) => (u.residentTold_other id e hj).trans (State.lexAt_of (hu.1 .lex (by decide)) j)
  have hframe := (hu.widen (qs := residentParts) (js := eventRegs) (by simp [bytesParts, residentParts])).seq htold (fun _ h => h) (fun _ h => h)
  have hsame : quiet → t = u.residentTold id e := fun hquiet => by
    rw [ht, State.wakeWaiters_quiet]
    rw [State.residentTold_eq, (State.raiseInst_framed ..).1 .reqs (by decide), (State.residentCounted_framed ..).1 .reqs (by decide),
      hu.1 .reqs (by decide)]
    exact hquiet
  have hwakes : WakesFor e id (u.residentTold id e) t := by
    rw [ht]
    refine WakesFor.wakeWaiters ⟨.refl, ⟨[], (List.append_nil _).symm⟩, ?_⟩ id
    rwa [htold.1 .tickCount (by decide)]
  obtain ⟨hparts, ⟨more, hmore⟩, hready, hpins, hhdr, hplace, hlanding, hshards⟩ := hwakes
  refine ⟨hpins, fun hfree hquiet => ?_, hhdr, hplace, ?_, hshards, ⟨more, ?_, fun hquiet => ?_⟩, ?_, fun hquiet => ?_⟩
  · rw [hsame hquiet, hstate, hfree]
    rfl
  · rw [hlanding, htold.1 .tickCount (by decide), hcount]
  · rw [hmore, hevents]
  · rw [hsame hquiet] at hmore
    exact List.self_eq_append_right.mp hmore
  · exact hframe.1.seq hparts (by simp +contextual [wakeParts, residentParts])
  · rw [hsame hquiet]
    exact ⟨hother, hframe⟩

/-- Settles O24: an activation by what the refetched record's checks say, and an eviction once it is due. -/
theorem objectsComeAndGo : Obligations.ObjectsComeAndGo := by
  intro id s n e quiet parts
  refine ⟨fun h => congrArg (keep s) (State.activate_waits h), fun h u hback => ⟨fun hcheck => ?_, fun k hcheck => ?_⟩, fun h hlost => ?_,
    fun due hdue hstate hnow => ?_, fun h => congrArg (keep s) (State.evictDone_waits h)⟩
  · obtain ⟨h1, h2, h3, h4, h5, h6, h7, h8, h9⟩ := activationPasses h hback hcheck
    refine ⟨s.kept (s.activate n), rfl, ?_⟩
    simp only [State.kept_lexAt, State.kept_events]
    exact ⟨h1, h2, h3, h4, h5, h6, h7, h8.kept, fun hq => ⟨(h9 hq).1, (h9 hq).2.kept⟩⟩
  · have hu := State.ckptRefetch_framed hback
    have hreject := u.rejectRecord_framed n k
    have hevents := (u.rejectRecord n k).failObject_events n 0 k
    rw [State.lexAt_of (hreject.1 .lex (by decide)), State.rejectRecord_events,
      hu.1 .events (by decide), State.lexAt_of (hu.1 .lex (by decide)), List.append_assoc] at hevents
    refine ⟨_, congrArg (keep s) (State.activate_rejected h hback hcheck), ?_⟩
    rw [State.kept_lexAt, State.kept_events]
    exact ⟨((u.rejectRecord n k).failObject_lex n 0 k).1, hevents⟩
  · refine ⟨_, congrArg (keep s) (State.activate_lost h hlost), ?_⟩
    rw [State.kept_lexAt, State.kept_events]
    exact ⟨(s.failObject_lex n 0 1).1, s.failObject_events n 0 1⟩
  · obtain ⟨h1, h2, h3, h4, h5⟩ := evictionCompletes hdue hstate hnow
    refine ⟨s.kept (s.evictDone n), rfl, ?_⟩
    rw [State.kept_lexAt, State.kept_events, State.kept_mem, State.kept_trainAt]
    exact ⟨h1, h2, h3, h4, h5.kept⟩

end Sys2Proof.Machine
end

section
/-! SUPPORT. The load of a flight, its admission and its switch (R45 to R54, R70). -/

namespace Sys2Proof.Machine

set_option Elab.async false

variable {s t u : State} {ps : List Part} {ks : List Nat} {p : Nat}

/-! ### Slots -/

theorem State.slotsOf_of (h : t.flights = s.flights) (p : Nat) : t.slotsOf p = s.slotsOf p := by
  unfold State.slotsOf State.pairSlots
  rw [h]

theorem State.slotsOf_setSlots (s : State) (x : FlightSlots) (hp : p ≤ 4) : (s.setSlots p x).slotsOf p = x := by
  unfold State.setSlots State.slotsOf
  dsimp only
  by_cases hzero : p = 0
  · rw [if_pos hzero, if_pos hzero]
  · rw [if_neg hzero, if_neg hzero]
    unfold State.pairSlots
    dsimp only
    rw [List.getD_eq_getElem?_getD, List.getElem?_map, List.getElem?_range (by omega), Option.map_some, Option.getD_some, if_pos (by omega)]

theorem State.setSlots_framed (s : State) (p : Nat) (x : FlightSlots) : framed [.flights] [] s (s.setSlots p x) := by
  unfold State.setSlots
  dsimp only
  split
  · exact ⟨fun p hp => by cases p <;> first | (simp at hp; done) | rfl, .of_regs rfl⟩
  · exact ⟨fun p hp => by cases p <;> first | (simp at hp; done) | rfl, .of_regs rfl⟩

theorem State.setSlots_switches (s : State) (p : Nat) (x : FlightSlots) : (s.setSlots p x).flights.switches = s.flights.switches := by
  unfold State.setSlots
  dsimp only
  split
  · rfl
  · rfl

theorem State.setSlots_load (s : State) (p : Nat) (x : FlightSlots) : (s.setSlots p x).flights.load = s.flights.load := by
  unfold State.setSlots
  dsimp only
  split
  · rfl
  · rfl

theorem State.setLoad_framed (s : State) (l : Option Load) : framed [.flights] [] s (s.setLoad l) :=
  ⟨fun p hp => by cases p <;> first | (simp at hp; done) | rfl, .of_regs rfl⟩

/-! ### What a command of the queue hands on -/

/-- A state with another's queue. -/
def State.queueOf (s t : State) : State := { t with pending := s.pending }

theorem keepQueue_eq (s t : State) : keepQueue s t = .next (s.queueOf t) := rfl

@[simp] theorem State.queueOf_self (s : State) : s.queueOf s = s := rfl

theorem changesOnly.queueOf (h : changesOnly ps s t) : changesOnly ps s (s.queueOf t) := by
  intro p hp
  have hsame := h p hp
  cases p <;> first | exact hsame | rfl

theorem framed.queueOf (h : framed ps ks s t) : framed ps ks s (s.queueOf t) := ⟨h.1.queueOf, h.2⟩

@[simp] theorem State.queueOf_fld (s t : State) (off hi lo : Nat) : (s.queueOf t).fld off hi lo = t.fld off hi lo := rfl

@[simp] theorem State.queueOf_flights (s t : State) : (s.queueOf t).flights = t.flights := rfl

/-! ### A load begun -/

/-- The state COPYING in the registers. -/
def State.copying (s : State) (p : Nat) : State :=
  (s.setReg Reg.FLT_LOAD_CTRL (wordOf p)).setReg Reg.FLT_ADMIT_STATUS ((s.reg Reg.FLT_ADMIT_STATUS).setField 31 2 0x4000000)

/-- The state COPYING in the registers, no warning shown. -/
def State.loadShown (s : State) (p : Nat) : State := (s.copying p).setFld Reg.FLT_ADMIT_STATUS 0 0 0

/-- The slots of a load without their staged image. -/
def State.stagedLost (s : State) (p : Nat) : State := (s.loadShown p).setSlots p { (s.copying p).slotsOf p with staged := none }

/-- A load begun. -/
def State.loadBegun (s : State) (p : Nat) : State :=
  (s.stagedLost p).setLoad (some ⟨p, (s.stagedLost p).reg64 Reg.FLT_LOAD_ADDR_LO Reg.FLT_LOAD_ADDR_HI / 4096 * 4096,
    ((s.stagedLost p).reg Reg.FLT_LOAD_LEN).toNat, [], false, false⟩)

theorem State.copying_framed (s : State) (p : Nat) : framed [.regs] [Reg.FLT_LOAD_CTRL, Reg.FLT_ADMIT_STATUS] s (s.copying p) :=
  ((State.setReg_framed ..).widen).seq (State.setReg_framed ..)

theorem State.loadShown_framed (s : State) (p : Nat) : framed [.regs] [Reg.FLT_LOAD_CTRL, Reg.FLT_ADMIT_STATUS] s (s.loadShown p) :=
  (s.copying_framed p).seq (State.setFld_framed ..)

theorem State.stagedLost_framed (s : State) (p : Nat) :
    framed [.flights, .regs] [Reg.FLT_LOAD_CTRL, Reg.FLT_ADMIT_STATUS] s (s.stagedLost p) :=
  ((s.loadShown_framed p).widen (by simp) (fun _ h => h)).seq (State.setSlots_framed ..)

theorem State.loadBegun_framed (s : State) (p : Nat) :
    framed [.flights, .regs] [Reg.FLT_LOAD_CTRL, Reg.FLT_ADMIT_STATUS] s (s.loadBegun p) :=
  (s.stagedLost_framed p).seq (State.setLoad_framed ..)

theorem State.stagedLost_slots (s : State) (hp : p ≤ 4) : (s.stagedLost p).slotsOf p = { s.slotsOf p with staged := none } := by
  unfold State.stagedLost
  rw [State.slotsOf_setSlots _ _ hp, State.slotsOf_of ((s.copying_framed p).1 .flights (by decide))]

theorem State.loadBegun_switches (s : State) (p : Nat) : (s.loadBegun p).flights.switches = s.flights.switches :=
  ((s.loadShown p).setSlots_switches p _).trans (congrArg Flights.switches ((s.loadShown_framed p).1 .flights (by decide)))

theorem State.loadBegun_load (s : State) (p : Nat) :
    (s.loadBegun p).flights.load = some ⟨p, s.reg64 Reg.FLT_LOAD_ADDR_LO Reg.FLT_LOAD_ADDR_HI / 4096 * 4096, (s.reg Reg.FLT_LOAD_LEN).toNat,
      [], false, false⟩ := by
  have hreg := s.stagedLost_framed p
  unfold State.loadBegun State.setLoad State.reg64
  dsimp only
  rw [hreg.reg (by decide), hreg.reg (by decide), hreg.reg (by decide)]

/-- The field [31:2] written with bit 26 alone shows the state 1. -/
theorem Word.state_of_copying (w : Word) : (w.setField 31 2 0x4000000).field 31 28 = 1 := by
  refine Nat.eq_of_testBit_eq fun i => ?_
  rw [Word.field_testBit, Word.setField_testBit w 31 2 _ _ (by decide) (by decide)]
  by_cases hi : i < 4
  · rw [if_pos (by omega)]
    interval_cases i <;> rfl
  · have hone : Nat.testBit 1 i = false := Nat.testBit_lt_two_pow (Nat.lt_of_lt_of_le (by decide) (Nat.pow_le_pow_right (by decide) (by omega : 4 ≤ i)))
    rw [hone, decide_eq_false (by omega), Bool.false_and]

theorem State.loadShown_state (s : State) (p : Nat) : (s.loadShown p).admitState = 1 := by
  unfold State.loadShown State.copying State.admitState
  rw [State.fld_setFld_ne _ _ 0 0 0 31 28 (by decide) (by decide) (by decide)]
  unfold State.fld
  rw [State.reg_setReg]
  exact Word.state_of_copying _

section
variable (pair : BitVec 3)

theorem exec_flightLoad_busy (h : (s.switchOf pair.toNat).isSome = true ∨ s.admitState = 1 ∨ s.admitState = 2) :
    exec (.flightLoad pair) s = .next (s.queueOf (s.setFld Reg.FLT_ADMIT_STATUS 1 1 1)) := by
  unfold exec
  dsimp only
  unfold execFlightLoad
  dsimp only
  rw [if_pos h, keepQueue_eq]

theorem exec_flightLoad_none (hidle : ¬((s.switchOf pair.toNat).isSome = true ∨ s.admitState = 1 ∨ s.admitState = 2)) (hpair : 4 < pair.toNat) :
    exec (.flightLoad pair) s = .next s := by
  unfold exec
  dsimp only
  unfold execFlightLoad
  dsimp only
  rw [if_neg hidle, if_pos hpair, keepQueue_eq, State.queueOf_self]

theorem exec_flightLoad_begins (hidle : ¬((s.switchOf pair.toNat).isSome = true ∨ s.admitState = 1 ∨ s.admitState = 2)) (hpair : pair.toNat ≤ 4) :
    exec (.flightLoad pair) s = .next (s.queueOf (s.loadBegun pair.toNat)) := by
  unfold exec
  dsimp only
  unfold execFlightLoad
  dsimp only
  rw [if_neg hidle, if_neg (by omega), keepQueue_eq]
  rfl

theorem State.loadBegun_state (s : State) (p : Nat) : (s.loadBegun p).admitState = 1 := by
  have hslots : framed [.flights] [] (s.loadShown p) (s.loadBegun p) := (State.setSlots_framed ..).seq (State.setLoad_framed ..)
  unfold State.admitState
  rw [hslots.fld (by decide)]
  exact s.loadShown_state p

end

/-! ### The copy, the checks and their outcome -/

section
variable {l : Load}

theorem exec_flightCopyComplete_some (h : s.flights.load = some l) : exec .flightCopyComplete s =
    .next (s.queueOf (if s.admitState ≠ 1 ∨ l.copied = true then s else s.setLoad (some { l with bytes := s.loadBytes l, copied := true }))) := by
  unfold exec
  dsimp only
  unfold execFlightCopyComplete
  rw [h, keepQueue_eq]

theorem exec_flightAdmissionComplete_some (h : s.flights.load = some l) : exec .flightAdmissionComplete s =
    .next (s.queueOf (if s.admitState ≠ 2 ∨ l.checked = true then s else s.setLoad (some { l with checked := true }))) := by
  unfold exec
  dsimp only
  unfold execFlightAdmissionComplete
  rw [h, keepQueue_eq]

theorem exec_loads_none (h : s.flights.load = none) :
    exec .flightCopyComplete s = .next s ∧ exec .flightAdmissionComplete s = .next s ∧ s.loadStep = s := by
  refine ⟨?_, ?_, ?_⟩
  · unfold exec
    dsimp only
    unfold execFlightCopyComplete
    rw [h, keepQueue_eq, State.queueOf_self]
  · unfold exec
    dsimp only
    unfold execFlightAdmissionComplete
    rw [h, keepQueue_eq, State.queueOf_self]
  · unfold State.loadStep
    rw [h]

theorem State.loadStep_copied (h : s.flights.load = some l) (hstate : s.admitState = 1) (hcopied : l.copied = true) :
    s.loadStep = s.setFld Reg.FLT_ADMIT_STATUS 31 28 2 := by
  unfold State.loadStep
  rw [h]
  exact if_pos ⟨hstate, hcopied⟩

theorem State.loadStep_refused (h : s.flights.load = some l) (hstate : s.admitState = 2) (hchecked : l.checked = true) {f : Fail}
    (hfail : admitImage l.pair l.len s.trust.flightKeys l.bytes = some f) :
    s.loadStep = (s.setLoad none).keepFlights ((s.setLoad none).reportRefusal f) := by
  unfold State.loadStep
  rw [h]
  dsimp only
  rw [if_neg (fun g => by omega), if_pos ⟨hstate, hchecked⟩, hfail]

theorem State.loadStep_admitted (h : s.flights.load = some l) (hstate : s.admitState = 2) (hchecked : l.checked = true)
    (hpass : admitImage l.pair l.len s.trust.flightKeys l.bytes = none) :
    s.loadStep = (s.setLoad none).stage l.pair (parseFlight l.bytes) := by
  unfold State.loadStep
  rw [h]
  dsimp only
  rw [if_neg (fun g => by omega), if_pos ⟨hstate, hchecked⟩, hpass]

end

theorem State.admitState_setFld (s : State) (v : Nat) : (s.setFld Reg.FLT_ADMIT_STATUS 31 28 v).admitState = v % 16 :=
  s.fld_setFld Reg.FLT_ADMIT_STATUS 31 28 v (by decide) (by decide)

theorem State.keepFlights_of (hf : t.flights = s.flights) (ht : t.tk.count = s.tk.count) : s.keepFlights t = t := by
  unfold State.keepFlights
  rw [← hf, ← ht]

/-- A refused image's report without its event. -/
def State.refusalShown (s : State) (f : Fail) : State :=
  ((((((s.setFld Reg.FLT_ADMIT_STATUS 31 28 4).setFld Reg.FLT_ADMIT_STATUS 15 8 f.check).setReg Reg.FLT_ADMIT_WHERE
    (wordOf (f.variant % 256 * 0x1000000 + f.program % 4096 * 16 + f.gal % 8))).setReg Reg.FLT_ADMIT_ENTRY
      (wordOf (f.table % 16 * 0x10000000 + f.entry % 65536))).setReg Reg.FLT_ADMIT_NEED (wordOf f.need)).setReg Reg.FLT_ADMIT_LIMIT (wordOf f.limit))

theorem State.reportRefusal_eq (s : State) (f : Fail) :
    s.reportRefusal f = (s.refusalShown f).raisePf 0x1002 ([f.check, f.variant, f.program, f.gal, f.entry].map wordOf) := rfl

theorem State.refusalShown_changes (s : State) (f : Fail) : changesOnly [.regs] s (s.refusalShown f) :=
  changesOnly.refl.setFld.setFld.setReg.setReg.setReg.setReg

theorem State.refusalShown_regs (s : State) (f : Fail) : (s.refusalShown f).admitState = 4
    ∧ (s.refusalShown f).fld Reg.FLT_ADMIT_STATUS 15 8 = f.check % 256
    ∧ (s.refusalShown f).reg Reg.FLT_ADMIT_NEED = wordOf f.need ∧ (s.refusalShown f).reg Reg.FLT_ADMIT_LIMIT = wordOf f.limit := by
  have hrest : framed [.regs] [Reg.FLT_ADMIT_WHERE, Reg.FLT_ADMIT_ENTRY, Reg.FLT_ADMIT_NEED, Reg.FLT_ADMIT_LIMIT]
      ((s.setFld Reg.FLT_ADMIT_STATUS 31 28 4).setFld Reg.FLT_ADMIT_STATUS 15 8 f.check) (s.refusalShown f) :=
    (((State.setReg_framed ..).widen).seq (State.setReg_framed ..)).seq (State.setReg_framed ..) |>.seq (State.setReg_framed ..)
  refine ⟨?_, ?_, ?_, ?_⟩
  · unfold State.admitState
    rw [hrest.fld (by decide), State.fld_setFld_ne _ _ 15 8 _ 31 28 (by decide) (by decide) (by decide)]
    exact s.admitState_setFld 4
  · rw [hrest.fld (by decide), State.fld_setFld _ _ 15 8 _ (by decide) (by decide)]
    rfl
  · unfold State.refusalShown
    rw [State.reg_setReg_ne _ _ _ _ (by decide), State.reg_setReg]
  · unfold State.refusalShown
    rw [State.reg_setReg]

/-- An admitted image's warning shown, or none. -/
def State.warned (s : State) (f : Flight) : State :=
  match splitWarning f with
  | some (p, c) => (s.setFld Reg.FLT_ADMIT_STATUS 0 0 1).raisePf 0x1003 [wordOf p, wordOf c]
  | none => s.setFld Reg.FLT_ADMIT_STATUS 0 0 0

/-- The state ADMITTED in the registers, with the warning. -/
def State.passShown (s : State) (f : Flight) : State :=
  ((s.setFld Reg.FLT_ADMIT_STATUS 31 28 3).setFld Reg.FLT_ADMIT_STATUS 15 8 0).warned f

/-- An admitted image in its slot. -/
def State.slotStaged (s : State) (p : Nat) (f : Flight) : State :=
  (s.passShown f).setSlots p { (s.passShown f).slotsOf p with staged := some f }

theorem State.stage_eq (s : State) (p : Nat) (f : Flight) : s.stage p f = (s.slotStaged p f).raisePf 0x1001 [f.flightId] := rfl

theorem State.warned_changes (s : State) (f : Flight) : changesOnly eventParts s (s.warned f) := by
  unfold State.warned
  split
  · exact changesOnly.refl.setFld.raisePf
  · exact changesOnly.refl.setFld

theorem State.warned_fld (s : State) (f : Flight) {hi lo : Nat} (hlo : 0 < lo) :
    (s.warned f).fld Reg.FLT_ADMIT_STATUS hi lo = s.fld Reg.FLT_ADMIT_STATUS hi lo := by
  unfold State.warned
  split
  · rw [(State.raisePf_framed ..).fld (by decide), State.fld_setFld_ne _ _ 0 0 _ hi lo (by decide) (by decide) (.inl hlo)]
  · rw [State.fld_setFld_ne _ _ 0 0 _ hi lo (by decide) (by decide) (.inl hlo)]

theorem State.passShown_changes (s : State) (f : Flight) : changesOnly eventParts s (s.passShown f) :=
  changesOnly.refl.setFld.setFld.trans (State.warned_changes _ f)

theorem State.stage_changes (s : State) (p : Nat) (f : Flight) : changesOnly (.flights :: eventParts) s (s.stage p f) := by
  rw [State.stage_eq]
  exact (((s.passShown_changes f).widen fun _ h => List.mem_cons_of_mem _ h).seq (State.setSlots_framed _ _ _).1).raisePf

theorem State.stage_regs (s : State) (p : Nat) (f : Flight) :
    (s.stage p f).admitState = 3 ∧ (s.stage p f).fld Reg.FLT_ADMIT_STATUS 15 8 = 0 := by
  have hslots : framed [.flights, .events, .regs, .bbx] eventRegs (s.passShown f) (s.stage p f) :=
    ((State.setSlots_framed ..).widen).seq (State.raisePf_framed ..) (by simp [eventParts])
  unfold State.admitState
  rw [hslots.fld (by decide), hslots.fld (by decide)]
  unfold State.passShown
  rw [State.warned_fld _ _ (by decide), State.warned_fld _ _ (by decide), State.fld_setFld _ _ 15 8 _ (by decide) (by decide),
    State.fld_setFld_ne _ _ 15 8 _ 31 28 (by decide) (by decide) (by decide)]
  exact ⟨s.admitState_setFld 3, rfl⟩

theorem State.stage_slots (s : State) (f : Flight) (hp : p ≤ 4) : (s.stage p f).slotsOf p = { s.slotsOf p with staged := some f } := by
  have hpass := State.slotsOf_of ((s.passShown_changes f).flights (by decide)) p
  rw [State.stage_eq, State.slotsOf_of (State.raisePf_flights ..)]
  unfold State.slotStaged
  rw [State.slotsOf_setSlots _ _ hp, hpass]

theorem State.stage_load (s : State) (p : Nat) (f : Flight) : (s.stage p f).flights.load = s.flights.load := by
  rw [State.stage_eq, State.raisePf_flights]
  unfold State.slotStaged
  rw [State.setSlots_load, (s.passShown_changes f).flights (by decide)]

/-- Settles O30: a load begins unless one is in progress or a switch of its slots waits, its copy and its checks end once each, and phase E shows
the outcome. -/
theorem flightsLoadAndAdmit : Obligations.FlightsLoadAndAdmit := by
  unfold Obligations.FlightsLoadAndAdmit
  intro s
  refine ⟨fun pair => ⟨fun hbusy => ?_, fun hpair hw h1 h2 => ?_, fun hpair hw h1 h2 => ?_⟩, fun l hl =>
    ⟨fun hstate hcopied => ?_, fun hstay => ?_, fun hstate hchecked => ?_, fun hstay => ?_, fun hstate hcopied => ?_,
      fun hstate hchecked => ⟨fun f hfail => ?_, fun hpair hpass => ?_⟩⟩, exec_loads_none⟩
  · refine ⟨_, exec_flightLoad_busy pair hbusy, ?_, (State.setFld_framed ..).queueOf⟩
    rw [State.queueOf_fld, State.fld_setFld _ _ 1 1 _ (by decide) (by decide)]
    rfl
  · exact exec_flightLoad_none pair (by simp [hw, h1, h2]) hpair
  · have hslots := s.stagedLost_slots hpair
    refine ⟨_, exec_flightLoad_begins pair (by simp [hw, h1, h2]) hpair, s.loadBegun_state _, ?_, ?_, s.loadBegun_switches _, s.loadBegun_load _,
      (s.loadBegun_framed _).queueOf⟩
    · exact congrArg FlightSlots.staged (s.stagedLost_slots hpair)
    · exact (congrArg FlightSlots.active hslots).trans rfl
  · refine ⟨_, exec_flightCopyComplete_some hl, ?_, changesOnly.queueOf ?_⟩
    · rw [if_neg (by simp [hstate, hcopied])]
      rfl
    · rw [if_neg (by simp [hstate, hcopied])]
      exact (s.setLoad_framed _).1
  · rw [exec_flightCopyComplete_some hl, if_pos hstay, State.queueOf_self]
  · refine ⟨_, exec_flightAdmissionComplete_some hl, ?_, changesOnly.queueOf ?_⟩
    · rw [if_neg (by simp [hstate, hchecked])]
      rfl
    · rw [if_neg (by simp [hstate, hchecked])]
      exact (s.setLoad_framed _).1
  · rw [exec_flightAdmissionComplete_some hl, if_pos hstay, State.queueOf_self]
  · rw [State.loadStep_copied hl hstate hcopied]
    exact ⟨s.admitState_setFld 2, s.setFld_framed _ _ _ _⟩
  · have hshown := (s.setLoad none).refusalShown_changes f
    have hreport := (s.setLoad none).reportRefusal_changes f
    obtain ⟨hshows, hcheck, hneed, hlimit⟩ := (s.setLoad none).refusalShown_regs f
    rw [State.loadStep_refused hl hstate hchecked hfail, State.keepFlights_of (hreport .flights (by decide)) (hreport .tickCount (by decide))]
    have hflights : ((s.setLoad none).reportRefusal f).flights = { s.flights with load := none } :=
      ((s.setLoad none).reportRefusal_flights f)
    refine ⟨?_, ?_, ?_, ?_, hflights, ?_, (((s.setLoad_framed none).1).widen).seq hreport (by simp +contextual)⟩
    · exact ((State.raisePf_framed ..).fld (by decide)).trans hshows
    · exact ((State.raisePf_framed ..).fld (by decide)).trans hcheck
    · exact ((State.raisePf_framed ..).reg (by decide)).trans hneed
    · exact ((State.raisePf_framed ..).reg (by decide)).trans hlimit
    · rw [State.reportRefusal_eq, State.raisePf_events, hshown .events (by decide)]
      rfl
  · rw [State.loadStep_admitted hl hstate hchecked hpass]
    obtain ⟨hshown, hcheck⟩ := (s.setLoad none).stage_regs l.pair (parseFlight l.bytes)
    have hslots := (s.setLoad none).stage_slots (parseFlight l.bytes) hpair
    refine ⟨hshown, hcheck, ?_, ?_, (s.setLoad none).stage_load .., ?_, (((s.setLoad_framed none).1).widen).seq ((s.setLoad none).stage_changes _ _)⟩
    · rw [hslots]
    · rw [hslots]
      rfl
    · rw [State.stage_eq, State.raisePf_events]
      exact List.mem_append_right _ (List.mem_singleton.mpr rfl)

end Sys2Proof.Machine
end

section
/-! SUPPORT. Switches of flights (R50 to R54, R70). -/

namespace Sys2Proof.Machine

set_option Elab.async false

variable {s t u : State} {ps : List Part} {ks : List Nat} {p : Nat}

/-! ### What runs, shown -/

theorem changesOnly.keepFlights (h : changesOnly ps s t) : changesOnly ps s (s.keepFlights t) := by
  intro p hp
  have hsame := h p hp
  cases p <;> first | exact hsame | rfl

theorem changesOnly.keepFlightsOf (h : changesOnly ps s t) (g : changesOnly ps t u) : changesOnly ps s (t.keepFlights u) :=
  h.trans g.keepFlights

/-- The registers of what runs written. -/
def State.flightWords (s : State) (id : Word) (word pos : Nat) (ids : Nat → Word) : State :=
  (List.range 4).foldl (fun u p => u.setReg (Reg.FLT_PAIR_ID p) (ids p))
    (((s.setReg Reg.FLT_ACTIVE_ID id).setReg Reg.FLT_ACTIVE (wordOf word)).setReg Reg.FLT_POS (wordOf (pos % 4096)))

theorem State.flightWords_changes (s : State) (id : Word) (word pos : Nat) (ids : Nat → Word) :
    changesOnly [.regs] s (s.flightWords id word pos ids) :=
  changesOnly.refl.setReg.setReg.setReg.trans (.foldl _ _ (fun _ _ => changesOnly.refl.setReg) _)

theorem State.flightWords_active (s : State) (id : Word) (word pos : Nat) (ids : Nat → Word) :
    (s.flightWords id word pos ids).reg Reg.FLT_ACTIVE = wordOf word := by
  unfold State.flightWords
  rw [show List.range 4 = [0, 1, 2, 3] from rfl]
  dsimp only [List.foldl]
  rw [State.reg_setReg_ne _ _ _ _ (by decide), State.reg_setReg_ne _ _ _ _ (by decide), State.reg_setReg_ne _ _ _ _ (by decide),
    State.reg_setReg_ne _ _ _ _ (by decide), State.reg_setReg_ne _ _ _ _ (by decide), State.reg_setReg]

theorem State.showFlight_words (s : State) : ∃ id st contract programs pos ids, s.showFlight = s.flightWords id
    ((if (s.flights.switches.any fun w => !w.immediate) = true then 2 else st) * 0x10000000 + contract % 16 * 0x1000000 + programs % 8192) pos ids := by
  unfold State.showFlight
  dsimp only
  exact ⟨_, _, _, _, _, _, rfl⟩

theorem State.showFlight_changes (s : State) : changesOnly [.regs] s s.showFlight := by
  obtain ⟨id, st, contract, programs, pos, ids, hshow⟩ := s.showFlight_words
  rw [hshow]
  exact s.flightWords_changes _ _ _ _

/-- A DRAIN switch that waits shows DRAINING. -/
theorem State.showFlight_draining (h : (s.flights.switches.any fun w => !w.immediate) = true) : s.showFlight.fld Reg.FLT_ACTIVE 31 28 = 2 := by
  obtain ⟨id, st, contract, programs, pos, ids, hshow⟩ := s.showFlight_words
  unfold State.fld
  rw [hshow, State.flightWords_active, if_pos h]
  unfold Word.field wordOf
  rw [BitVec.toNat_ofNat]
  omega

/-! ### Instances stopped -/

theorem State.stopInst_changes (s : State) (n : Nat) : changesOnly (.reqs :: .insts :: eventParts) s (s.stopInst n) := by
  unfold State.stopInst State.toInstState
  dsimp only
  exact .ite (fun _ => .refl) fun _ =>
    (((s.endReqs_framed _ _).1.widen).seq (State.updInst_framed _ _ _).1).setFld.raiseInst

/-- Events that were told stay told. -/
def toldStays (s t : State) : Prop := ∀ e ∈ s.events, e ∈ t.events

theorem toldStays.trans (h : toldStays s t) (g : toldStays t u) : toldStays s u := fun e he => g e (h e he)

theorem toldStays.of_changes (h : changesOnly ps s t) (hp : Part.events ∉ ps := by simp) : toldStays s t := fun e he => by
  rw [h .events hp]
  exact he

theorem toldStays.raiseInst (s : State) (code n : Nat) (ws : List Word) : toldStays s (s.raiseInst code n ws) := fun e he => by
  rw [State.raiseInst_events]
  exact List.mem_append_left _ he

theorem toldStays.foldl {α : Type} (f : State → α → State) (l : List α) (h : ∀ v x, toldStays v (f v x)) (s : State) :
    toldStays s (l.foldl f s) := by
  induction l generalizing s with
  | nil => exact fun _ he => he
  | cons x l ih => exact (h s x).trans (ih _)

theorem State.stopInst_told (s : State) (n : Nat) : toldStays s (s.stopInst n) := by
  unfold State.stopInst State.toInstState
  dsimp only
  split
  · exact fun _ he => he
  · have hbefore := (((s.endReqs_framed St.degraded fun r => r.inst == n).1.widen (qs := [.reqs, .insts, .regs])).seq
      (State.updInst_framed _ n fun i => { i with stopped := true }).1).setFld (off := Reg.DEV_INST_STATE n) (hi := 31) (lo := 28) (v := 6)
    exact (toldStays.of_changes hbefore).trans (toldStays.raiseInst _ _ _ _)

/-! ### The variant of what runs -/

theorem State.showLogical_changes (s : State) : changesOnly [.regs] s s.showLogical := by
  unfold State.showLogical
  dsimp only
  exact .foldl _ _ (fun _ _ => .foldl _ _ (fun _ _ => changesOnly.refl.setFld) _) _

/-- A variant shown. -/
def State.variantShown (s : State) (v : Word) : State := (s.setReg Reg.FLT_VARIANT v).showLogical

theorem State.variantShown_changes (s : State) (v : Word) : changesOnly [.regs] s (s.variantShown v) :=
  changesOnly.refl.setReg.trans (State.showLogical_changes _)

/-- The silent variant step shows a variant and stops instances. -/
theorem State.variantStep_silent (s : State) : ∃ (v : Word) (ns : List Nat), s.variantStep false = ns.foldl (fun u n => u.stopInst n) (s.variantShown v) := by
  unfold State.variantStep
  split
  · exact ⟨_, _, rfl⟩
  · exact ⟨_, _, rfl⟩

theorem State.variantStep_silent_changes (s : State) : changesOnly (.reqs :: .insts :: eventParts) s (s.variantStep false) := by
  obtain ⟨v, ns, hstep⟩ := s.variantStep_silent
  rw [hstep]
  exact ((s.variantShown_changes v).widen (by simp [eventParts])).trans (.foldl _ _ (fun u n => u.stopInst_changes n) _)

theorem State.variantStep_silent_told (s : State) : toldStays s (s.variantStep false) := by
  obtain ⟨v, ns, hstep⟩ := s.variantStep_silent
  rw [hstep]
  exact (toldStays.of_changes (s.variantShown_changes v)).trans (.foldl _ _ (fun u n => u.stopInst_told n) _)

/-! ### Switches asked for -/

theorem State.switchOf_none_of_filter (p : Nat) (h : t.flights.switches = s.flights.switches.filter fun x => x.pair != p) : t.switchOf p = none := by
  unfold State.switchOf
  rw [h, List.find?_eq_none]
  intro x hx
  have hne := (List.mem_filter.mp hx).2
  simpa using hne

/-- A switch queued. -/
def State.switchAdded (s : State) (w : Switch) : State := { s with flights := { s.flights with switches := s.flights.switches ++ [w] } }

theorem State.requestSwitch_refused {im : Bool} {d : Nat}
    (h : (s.switchOf p).isSome = true ∨ s.admitState ≠ 3 ∨ (s.slotsOf p).staged.isNone = true ∨ (im = true ∧ s.changesContract p = true)) :
    s.requestSwitch p im d = s := if_pos h

theorem State.requestSwitch_asked {im : Bool} {d : Nat}
    (h : ¬((s.switchOf p).isSome = true ∨ s.admitState ≠ 3 ∨ (s.slotsOf p).staged.isNone = true ∨ (im = true ∧ s.changesContract p = true))) :
    s.requestSwitch p im d = (s.switchAdded ⟨p, im, d, 0, false⟩).keepFlights (s.switchAdded ⟨p, im, d, 0, false⟩).showFlight := if_neg h

theorem State.switchAdded_shown (s : State) (w : Switch) :
    changesOnly [.flights, .regs] s ((s.switchAdded w).keepFlights (s.switchAdded w).showFlight) :=
  ((framed_flights s _).1.widen).keepFlightsOf ((s.switchAdded w).showFlight_changes.widen)

@[simp] theorem State.keepFlights_events (s t : State) : (s.keepFlights t).events = t.events := rfl

@[simp] theorem State.keepFlights_fld (s t : State) (off hi lo : Nat) : (s.keepFlights t).fld off hi lo = t.fld off hi lo := rfl

theorem State.switchAdded_draining (s : State) {w : Switch} (hw : w.immediate = false) :
    ((s.switchAdded w).keepFlights (s.switchAdded w).showFlight).fld Reg.FLT_ACTIVE 31 28 = 2 := by
  rw [State.keepFlights_fld]
  refine State.showFlight_draining (s := s.switchAdded w) ?_
  exact List.any_eq_true.mpr ⟨w, List.mem_append_right _ (List.mem_singleton.mpr rfl), by rw [hw]; rfl⟩

theorem State.requestSwitch_shows {im : Bool} {d : Nat}
    (h : ¬((s.switchOf p).isSome = true ∨ s.admitState ≠ 3 ∨ (s.slotsOf p).staged.isNone = true ∨ (im = true ∧ s.changesContract p = true))) :
    (s.queueOf (s.requestSwitch p im d)).flights = { s.flights with switches := s.flights.switches ++ [⟨p, im, d, 0, false⟩] }
    ∧ (im = false → (s.queueOf (s.requestSwitch p im d)).fld Reg.FLT_ACTIVE 31 28 = 2)
    ∧ changesOnly [.flights, .regs] s (s.queueOf (s.requestSwitch p im d)) := by
  rw [State.requestSwitch_asked h, State.queueOf_flights, State.queueOf_fld, State.keepFlights_flights]
  exact ⟨rfl, fun hw => s.switchAdded_draining hw, (s.switchAdded_shown _).queueOf⟩

theorem exec_flightSwitchDrain (pair : BitVec 3) (drain : BitVec 16) (s : State) :
    exec (.flightSwitchDrain pair drain) s = .next (s.queueOf (s.requestSwitch pair.toNat false drain.toNat)) := rfl

theorem exec_flightSwitchImmediate (pair : BitVec 3) (s : State) :
    exec (.flightSwitchImmediate pair) s = .next (s.queueOf (s.requestSwitch pair.toNat true 0)) := rfl

theorem exec_flightSwitchApply (s : State) : exec .flightSwitchApply s = .next (s.queueOf (s.markSwitches s.switchDue)) := rfl

theorem exec_drainTicksExpire (s : State) : exec .drainTicksExpire s = .next (s.queueOf (s.markSwitches Switch.drainOver)) := rfl

/-! ### Switches that apply, fall or wait -/

theorem State.dropSwitch_changes (s : State) (p : Nat) : changesOnly [.flights, .regs] s (s.dropSwitch p) := by
  unfold State.dropSwitch
  dsimp only
  exact ((framed_flights s _).1.widen).keepFlightsOf ((State.showFlight_changes _).widen)

/-- The slots of a switch that applies, the switch no longer pending. -/
def State.slotsSwitched (s : State) (p : Nat) (f : Flight) : State :=
  let s1 := s.setSlots p { FlightSlots.empty with active := some f, staged := (s.slotsOf p).active }
  let s2 := if !s.changesContract p then s1
    else if p = 0 then { s1 with flights := { s1.flights with pairs := s1.flights.pairs.map FlightSlots.retire } }
    else { s1 with flights := { s1.flights with v3 := s1.flights.v3.retire } }
  { s2 with flights := { s2.flights with switches := s2.flights.switches.filter fun w => w.pair != p } }

theorem State.slotsOf_of_pairs (hp : p ≠ 0) (h : t.flights.pairs = s.flights.pairs) : t.slotsOf p = s.slotsOf p := by
  unfold State.slotsOf State.pairSlots
  rw [if_neg hp, if_neg hp, h]

theorem State.slotsSwitched_slots (s : State) (f : Flight) (hp : p ≤ 4) :
    (s.slotsSwitched p f).slotsOf p = { FlightSlots.empty with active := some f, staged := (s.slotsOf p).active } := by
  have hset := s.slotsOf_setSlots { FlightSlots.empty with active := some f, staged := (s.slotsOf p).active } hp
  unfold State.slotsSwitched
  generalize s.setSlots p { FlightSlots.empty with active := some f, staged := (s.slotsOf p).active } = v at hset ⊢
  dsimp only
  by_cases hcross : (!s.changesContract p) = true
  · rw [if_pos hcross]
    exact hset
  · rw [if_neg hcross]
    by_cases hzero : p = 0
    · rw [if_pos hzero]
      subst hzero
      exact hset
    · rw [if_neg hzero]
      refine (State.slotsOf_of_pairs hzero ?_).trans hset
      rfl

/-- The registers and the period of a switch that applies, before its event. -/
def State.switchShown (s : State) (p : Nat) (f : Flight) (had : Bool) : State :=
  let s4 := if s.flights.load.isSome then s
    else s.setReg Reg.FLT_ADMIT_STATUS ((s.reg Reg.FLT_ADMIT_STATUS).setField 31 2 (if had then 0xC000000 else 0))
  ({ s4 with tk := { s4.tk with period := some f.periodQ } }.freshJobs p).showFlight

theorem State.switchShown_period (s : State) (p : Nat) (f : Flight) (had : Bool) : (s.switchShown p f had).tk.period = some f.periodQ := by
  unfold State.switchShown
  dsimp only
  rw [(State.showFlight_changes _) .period (by decide)]
  rfl

theorem State.activateStaged_eq (s : State) (p : Nat) (f : Flight) : ∃ had ws, s.activateStaged p f =
    (s.slotsSwitched p f).keepFlights (((s.slotsSwitched p f).switchShown p f had).raisePf 0x1004 ws) := ⟨_, _, rfl⟩


theorem State.slotsSwitched_switches (s : State) (p : Nat) (f : Flight) :
    (s.slotsSwitched p f).flights.switches = s.flights.switches.filter fun w => w.pair != p := by
  have hset := s.setSlots_switches p { FlightSlots.empty with active := some f, staged := (s.slotsOf p).active }
  unfold State.slotsSwitched
  dsimp only
  split
  · exact congrArg _ hset
  · split
    · exact congrArg _ hset
    · exact congrArg _ hset

/-- A switch that applies: its slots, its period and its event. -/
theorem State.activateStaged_shows (s : State) (f : Flight) (hp : p ≤ 4) : let t := s.activateStaged p f
    t.slotsOf p = { FlightSlots.empty with active := some f, staged := (s.slotsOf p).active }
    ∧ t.flights.switches = s.flights.switches.filter (fun w => w.pair != p) ∧ t.tk.period = some f.periodQ ∧ ∃ e ∈ t.events, e.code = 0x1004 := by
  obtain ⟨had, ws, heq⟩ := s.activateStaged_eq p f
  have hslots := s.slotsSwitched_slots f hp
  have hswitches := s.slotsSwitched_switches p f
  have hperiod := (s.slotsSwitched p f).switchShown_period p f had
  generalize (s.slotsSwitched p f).switchShown p f had = v at heq hperiod
  rw [heq]
  refine ⟨hslots, hswitches, ?_, ⟨0x1004, none, ws, []⟩, ?_, rfl⟩
  · exact ((v.raisePf_framed 0x1004 ws).1 .period (by decide)).trans hperiod
  · rw [State.keepFlights_events, State.raisePf_events]
    exact List.mem_append_right _ (List.mem_singleton.mpr rfl)

theorem State.applySwitch_unfit {f : Flight} (hf : (s.slotsOf p).staged = some f) (hfit : s.switchFits (s.flightsAfter p f) = false) :
    s.applySwitch p = s.dropSwitch p := by
  unfold State.applySwitch
  rw [hf]
  dsimp only
  rw [hfit]
  rfl

/-- The requests seated on a flight ended with ST_FLIGHT_SWITCHED. -/
def State.seatsEnded (s : State) (p : Nat) : State := s.keepFlights (s.endReqs St.flightSwitched fun r => s.seatedOn p r)

theorem State.applySwitch_fit {f : Flight} (hf : (s.slotsOf p).staged = some f) (hfit : s.switchFits (s.flightsAfter p f) = true) :
    s.applySwitch p = ((s.seatsEnded p).activateStaged p f).keepFlights (((s.seatsEnded p).activateStaged p f).variantStep false) := by
  unfold State.applySwitch
  rw [hf]
  dsimp only
  rw [hfit]
  rfl

theorem State.applySwitch_shows {f : Flight} (hp : p ≤ 4) (hf : (s.slotsOf p).staged = some f)
    (hfit : s.switchFits (s.flightsAfter p f) = true) : let t := s.applySwitch p
    t.slotsOf p = { FlightSlots.empty with active := some f, staged := (s.slotsOf p).active }
    ∧ t.flights.switches = s.flights.switches.filter (fun w => w.pair != p) ∧ t.tk.period = some f.periodQ ∧ ∃ e ∈ t.events, e.code = 0x1004 := by
  obtain ⟨hslots, hswitches, hperiod, e, he, hcode⟩ := (s.seatsEnded p).activateStaged_shows f hp
  have hended : (s.seatsEnded p).slotsOf p = s.slotsOf p := rfl
  have hsame : (s.seatsEnded p).flights.switches = s.flights.switches := rfl
  rw [hended] at hslots
  rw [hsame] at hswitches
  rw [State.applySwitch_fit hf hfit]
  generalize (s.seatsEnded p).activateStaged p f = v at hslots hswitches hperiod he
  exact ⟨hslots, hswitches, (v.variantStep_silent_changes .period (by decide)).trans hperiod, e, v.variantStep_silent_told e he, hcode⟩

theorem State.switchOne_applies {commits : Bool} {w : Switch} (h : commits = true ∧ (w.now = true ∨ s.switchDue w = true ∨ w.drainOver = true)) :
    s.switchOne commits w = s.applySwitch w.pair := by
  refine if_pos ?_
  simpa only [Bool.and_eq_true, Bool.or_eq_true, or_assoc] using h

/-- Switches counted at a landing that applies none of them. -/
def State.switchesCounted (s : State) (p : Nat) : State :=
  { s with flights := { s.flights with switches := s.flights.switches.map fun x => if x.pair = p then { x with counted := x.counted + 1 } else x } }

theorem State.switchOne_waits {commits : Bool} {w : Switch} (h : ¬(commits = true ∧ (w.now = true ∨ s.switchDue w = true ∨ w.drainOver = true))) :
    s.switchOne commits w = s.switchesCounted w.pair := by
  refine if_neg ?_
  simpa only [Bool.and_eq_true, Bool.or_eq_true, or_assoc] using h

/-- Settles O31: a switch asked for waits, is marked when due, and applies, falls or counts at its landing. -/
theorem flightsSwitch : Obligations.FlightsSwitch := by
  unfold Obligations.FlightsSwitch
  refine ⟨?_, ?_⟩
  · intro pair drain s p may asked
    have hasked : ∀ im d, ¬((s.switchOf p).isSome = true ∨ s.admitState ≠ 3 ∨ (s.slotsOf p).staged.isNone = true
        ∨ (im = true ∧ s.changesContract p = true)) → asked ⟨p, im, d, 0, false⟩ (s.queueOf (s.requestSwitch p im d)) := by
      intro im d hmay
      exact State.requestSwitch_shows hmay
    refine ⟨fun hmay => ?_, fun hnot => ?_, fun hmay hsame => ?_, fun hmay hcross => ?_, ?_, ?_⟩
    · obtain ⟨hnone, hstate, hstaged⟩ := hmay
      obtain ⟨f, hf⟩ := Option.isSome_iff_exists.mp hstaged
      exact ⟨_, exec_flightSwitchDrain pair drain s, hasked _ _ (by simp [hnone, hstate, hf])⟩
    · have hrefused : ∀ im d, s.requestSwitch p im d = s := fun im d => State.requestSwitch_refused (by
        by_contra hmay
        simp only [not_or, Option.not_isSome_iff_eq_none, Option.isNone_iff_eq_none, not_not] at hmay
        obtain ⟨hnone, hstate, hstaged, -⟩ := hmay
        exact hnot ⟨hnone, hstate, Option.isSome_iff_ne_none.mpr hstaged⟩)
      rw [exec_flightSwitchDrain, exec_flightSwitchImmediate, hrefused, hrefused]
      exact ⟨rfl, rfl⟩
    · obtain ⟨hnone, hstate, hstaged⟩ := hmay
      obtain ⟨f, hf⟩ := Option.isSome_iff_exists.mp hstaged
      exact ⟨_, exec_flightSwitchImmediate pair s, hasked _ _ (by simp [hnone, hstate, hf, hsame])⟩
    · rw [exec_flightSwitchImmediate, State.requestSwitch_refused (.inr (.inr (.inr ⟨rfl, hcross⟩)))]
      rfl
    · exact ⟨_, exec_flightSwitchApply s, (framed_flights s _).1.queueOf, rfl⟩
    · exact ⟨_, exec_drainTicksExpire s, (framed_flights s _).1.queueOf, rfl⟩
  · intro commits w f s hp hw hf applies t
    refine ⟨fun happlies hfit => ?_, fun happlies hunfit => ?_, fun hwaits => ?_⟩
    · obtain ⟨hslots, hswitches, hperiod, hevent⟩ := State.applySwitch_shows hp hf hfit
      have ht : t = s.applySwitch w.pair := State.switchOne_applies happlies
      clear_value t
      subst ht
      exact ⟨by rw [hslots], by rw [hslots]; rfl, by rw [hslots], State.switchOf_none_of_filter _ hswitches, hperiod, hevent⟩
    · have ht : t = s.dropSwitch w.pair := (State.switchOne_applies happlies).trans (State.applySwitch_unfit hf hunfit)
      rw [ht]
      exact ⟨rfl, s.dropSwitch_changes _⟩
    · have ht : t = s.switchesCounted w.pair := State.switchOne_waits hwaits
      rw [ht]
      exact ⟨(framed_flights s _).1, rfl, rfl, rfl, rfl⟩

end Sys2Proof.Machine
end

section
/-! SUPPORT. Tick-sync (R67 to R69, Table 2-15). -/

namespace Sys2Proof.Machine

set_option Elab.async false

variable {s t u : State} {ps : List Part} {ks : List Nat}

/-! ### The status register -/

theorem State.syncState_setSync (s : State) (v : Nat) : (s.setSync v).syncState = v % 8 := s.fld_setFld Reg.TCK_SYNC_STATUS 31 29 v (by decide) (by decide)

theorem State.trim_setSync (s : State) (v : Nat) : (s.setSync v).fld Reg.TCK_SYNC_STATUS 28 16 = s.fld Reg.TCK_SYNC_STATUS 28 16 :=
  State.fld_setFld_ne s Reg.TCK_SYNC_STATUS 31 29 v 28 16 (by decide) (by decide) (by decide)

theorem State.setSync_framed (s : State) (v : Nat) : framed [.regs] [Reg.TCK_SYNC_STATUS] s (s.setSync v) := s.setFld_framed _ _ _ _

theorem State.noTrim_framed (s : State) : framed [.regs] [Reg.TCK_SYNC_STATUS] s s.noTrim := s.setFld_framed _ _ _ _

theorem State.noTrim_trim (s : State) : s.noTrim.fld Reg.TCK_SYNC_STATUS 28 16 = 0 := s.fld_setFld Reg.TCK_SYNC_STATUS 28 16 0 (by decide) (by decide)

theorem State.noTrim_syncState (s : State) : s.noTrim.syncState = s.syncState :=
  State.fld_setFld_ne s Reg.TCK_SYNC_STATUS 28 16 0 31 29 (by decide) (by decide) (by decide)

theorem State.setTrim_framed (s : State) : framed [.freeCtr, .regs] [Reg.TCK_SYNC_STATUS] s s.setTrim :=
  ((framed_freeCtr s _).widen).seq (State.setFld_framed ..)

theorem State.setTrim_syncState (s : State) : s.setTrim.syncState = s.syncState :=
  State.fld_setFld_ne s.free.2 Reg.TCK_SYNC_STATUS 28 16 _ 31 29 (by decide) (by decide) (by decide)

/-- A trim is at most 500 ppm either way. -/
theorem State.setTrim_trim (s : State) : s.setTrim.fld Reg.TCK_SYNC_STATUS 28 16 ≤ 500 ∨ 7692 ≤ s.setTrim.fld Reg.TCK_SYNC_STATUS 28 16 := by
  unfold State.setTrim
  dsimp only
  rw [State.fld_setFld _ Reg.TCK_SYNC_STATUS 28 16 _ (by decide) (by decide)]
  split
  · omega
  · omega

/-! ### A pulse -/

/-- The registers and the parts that a pulse may change. -/
def pulseParts : List Part := .sync :: .freeCtr :: eventParts

/-- The registers that a pulse may change. -/
def pulseRegs : List Nat := Reg.TCK_SYNC_STATUS :: eventRegs

/-- A pulse's interval taken, so many pulses accepted in a row before it. -/
def State.pulseTaken (s : State) (interval accepted : Nat) : State := { s with sync := { s.sync with lastNs := interval, accepted := accepted } }

/-- A pulse counted as accepted. -/
def State.pulseCounted (s : State) (n : Nat) : State := { s with sync := { s.sync with accepted := n, measured := true } }

theorem State.pulseTaken_framed (s : State) (i n : Nat) : framed [.sync] [] s (s.pulseTaken i n) := framed_sync s _

theorem State.pulseCounted_framed (s : State) (n : Nat) : framed [.sync] [] s (s.pulseCounted n) := framed_sync s _

theorem State.syncAccept_locked (h : s.syncState = 2) (phase : Nat) : s.syncAccept phase = (s.pulseCounted (s.sync.accepted + 1)).setTrim := by
  unfold State.syncAccept
  rw [h]
  rfl

theorem State.syncAccept_locks (h : s.syncState = 1) {phase : Nat} (hrow : 8 ≤ s.sync.accepted + 1 ∧ phase ≤ 24) : s.syncAccept phase =
    (((s.pulseCounted (s.sync.accepted + 1)).setSync 2).setTrim).raisePf 0x1020 s.tickPayload := by
  unfold State.syncAccept
  rw [h]
  exact if_pos hrow

theorem State.syncAccept_acquiring (h : s.syncState = 1) {phase : Nat} (hrow : ¬(8 ≤ s.sync.accepted + 1 ∧ phase ≤ 24)) :
    s.syncAccept phase = s.pulseCounted (s.sync.accepted + 1) := by
  unfold State.syncAccept
  rw [h]
  exact if_neg hrow

theorem State.syncAccept_again (h : 3 ≤ s.syncState) (phase : Nat) : s.syncAccept phase = (s.pulseCounted (s.sync.accepted + 1)).setSync 1 := by
  unfold State.syncAccept
  dsimp only
  split
  · omega
  · omega
  · rfl

section
variable {width interval phase : BitVec 32}

theorem exec_tickSync_ignored (h : width.toNat < 40 ∨ s.syncState = 0 ∨ 5 ≤ s.syncState) : exec (.tickSync width interval phase) s = .next s := by
  unfold exec
  dsimp only
  unfold execTickSync
  dsimp only
  rw [if_pos h]
  rfl

theorem exec_tickSync_accepted (h : ¬(width.toNat < 40 ∨ s.syncState = 0 ∨ 5 ≤ s.syncState))
    (hfit : (3 ≤ s.syncState ∨ s.sync.measured = false) ∨ s.syncFits interval.toNat = true) : exec (.tickSync width interval phase) s = keep s
      ((s.pulseTaken interval.toNat (if 3 ≤ s.syncState ∨ s.sync.measured = false then 0 else s.sync.accepted)).syncAccept phase.toNat) := by
  unfold exec
  dsimp only
  unfold execTickSync
  dsimp only
  rw [if_neg h, if_pos]
  · simp only [Bool.or_eq_true, decide_eq_true_eq, Bool.not_eq_true']
    rfl
  · simp only [Bool.or_eq_true, decide_eq_true_eq, Bool.not_eq_true']
    exact hfit

theorem exec_tickSync_rejected (h : ¬(width.toNat < 40 ∨ s.syncState = 0 ∨ 5 ≤ s.syncState))
    (hnew : ¬(3 ≤ s.syncState ∨ s.sync.measured = false)) (hfit : s.syncFits interval.toNat = false) :
    exec (.tickSync width interval phase) s = keep s (s.pulseTaken interval.toNat s.sync.accepted).syncReject := by
  unfold exec
  dsimp only
  unfold execTickSync
  dsimp only
  have hfresh : (decide (3 ≤ s.syncState) || !s.sync.measured) = false := by
    simpa only [Bool.or_eq_false_iff, decide_eq_false_iff_not, Bool.not_eq_false', not_or, Bool.not_eq_false] using hnew
  rw [if_neg h, hfresh, if_neg]
  · rfl
  · rw [Bool.false_or]
    exact Bool.eq_false_iff.mp hfit

end

theorem State.kept_syncState (s t : State) : (s.kept t).syncState = t.syncState := rfl

theorem State.raisePf_syncState (s : State) (code : Nat) (ws : List Word) : (s.raisePf code ws).syncState = s.syncState :=
  (State.raisePf_framed ..).fld (by decide)

/-- A pulse accepted while LOCKED. -/
theorem State.syncAccept_locked_shows (h : s.syncState = 2) (phase : Nat) : (s.syncAccept phase).syncState = 2
    ∧ ((s.syncAccept phase).fld Reg.TCK_SYNC_STATUS 28 16 ≤ 500 ∨ 7692 ≤ (s.syncAccept phase).fld Reg.TCK_SYNC_STATUS 28 16)
    ∧ (s.syncAccept phase).sync = { s.sync with accepted := s.sync.accepted + 1, measured := true } ∧ (s.syncAccept phase).events = s.events
    ∧ framed pulseParts pulseRegs s (s.syncAccept phase) := by
  have hframe : framed pulseParts pulseRegs s (s.syncAccept phase) := by
    rw [State.syncAccept_locked h]
    exact ((s.pulseCounted_framed _).widen (by simp [pulseParts])).seq (State.setTrim_framed _) (by simp [pulseParts, eventParts]) (by simp [pulseRegs])
  rw [State.syncAccept_locked h] at hframe ⊢
  exact ⟨(State.setTrim_syncState _).trans h, State.setTrim_trim _, (State.setTrim_framed _).1 .sync (by decide),
    (State.setTrim_framed _).1 .events (by decide), hframe⟩

/-- The eighth pulse in a row locks. -/
theorem State.syncAccept_locks_shows (h : s.syncState = 1) {phase : Nat} (hrow : 8 ≤ s.sync.accepted + 1 ∧ phase ≤ 24) :
    (s.syncAccept phase).syncState = 2
    ∧ ((s.syncAccept phase).fld Reg.TCK_SYNC_STATUS 28 16 ≤ 500 ∨ 7692 ≤ (s.syncAccept phase).fld Reg.TCK_SYNC_STATUS 28 16)
    ∧ (s.syncAccept phase).sync = { s.sync with accepted := s.sync.accepted + 1, measured := true }
    ∧ (s.syncAccept phase).events = s.events ++ [⟨0x1020, none, [wordOf s.tk.count.toNat], []⟩]
    ∧ framed pulseParts pulseRegs s (s.syncAccept phase) := by
  rw [State.syncAccept_locks h hrow]
  have hlocked : framed pulseParts pulseRegs s ((s.pulseCounted (s.sync.accepted + 1)).setSync 2) :=
    ((s.pulseCounted_framed _).widen (by simp [pulseParts])).seq (State.setSync_framed _ _) (by simp [pulseParts, eventParts]) (by simp [pulseRegs])
  have hsync : ((s.pulseCounted (s.sync.accepted + 1)).setSync 2).sync = { s.sync with accepted := s.sync.accepted + 1, measured := true } :=
    (State.setSync_framed _ _).1 .sync (by decide)
  have hevents : ((s.pulseCounted (s.sync.accepted + 1)).setSync 2).events = s.events := (State.setSync_framed _ _).1 .events (by decide)
  have hstate := State.syncState_setSync (s.pulseCounted (s.sync.accepted + 1)) 2
  generalize (s.pulseCounted (s.sync.accepted + 1)).setSync 2 = u at hlocked hsync hevents hstate ⊢
  have htrim := u.setTrim_framed
  refine ⟨?_, ?_, ?_, ?_, (hlocked.seq htrim (by simp [pulseParts, eventParts]) (by simp [pulseRegs])).seq (State.raisePf_framed ..)
    (by simp +contextual [pulseParts]) (by simp +contextual [pulseRegs])⟩
  · rw [State.raisePf_syncState, State.setTrim_syncState, hstate]
  · rw [(State.raisePf_framed ..).fld (by decide)]
    exact u.setTrim_trim
  · rw [(State.raisePf_framed ..).1 .sync (by decide), htrim.1 .sync (by decide), hsync]
  · rw [State.raisePf_events, htrim.1 .events (by decide), hevents]
    rfl

theorem State.syncReject_shows (s : State) : s.syncReject.syncState = s.syncState
    ∧ s.syncReject.sync = { s.sync with accepted := if s.syncState = 2 then s.sync.accepted else 0 }
    ∧ s.syncReject.fld Reg.TCK_SYNC_STATUS 15 0 = satAdd 16 (s.fld Reg.TCK_SYNC_STATUS 15 0) 1 ∧ s.syncReject.events = s.events
    ∧ framed pulseParts pulseRegs s s.syncReject := by
  unfold State.syncReject
  have hsync := framed_sync s { s.sync with accepted := if s.syncState = 2 then s.sync.accepted else 0 }
  have hfld : State.fld { s with sync := { s.sync with accepted := if s.syncState = 2 then s.sync.accepted else 0 } } Reg.TCK_SYNC_STATUS 15 0
      = s.fld Reg.TCK_SYNC_STATUS 15 0 := rfl
  refine ⟨?_, State.count_sync .., ?_, (State.count_framed ..).1 .events (by decide), (hsync.widen (by simp [pulseParts])).seq (State.count_framed ..)
    (by simp [pulseParts, eventParts]) (by simp [pulseRegs])⟩
  · exact State.fld_setFld_ne _ Reg.TCK_SYNC_STATUS 15 0 _ 31 29 (by decide) (by decide) (by decide)
  · unfold State.count
    rw [State.fld_setFld _ Reg.TCK_SYNC_STATUS 15 0 _ (by decide) (by decide), hfld]
    refine Nat.mod_eq_of_lt ?_
    unfold satAdd
    omega

/-- Settles O36: a pulse is ignored, accepted or rejected, and the eighth in a row locks. -/
theorem syncPulses : Obligations.SyncPulses := by
  unfold Obligations.SyncPulses
  intro width interval phase s st fresh n run frame trimmed
  refine ⟨fun hignored => exec_tickSync_ignored hignored, fun hwidth hlow hhigh => ⟨fun hfit => ?_, fun hold hunfit => ?_⟩⟩
  · have hpulse : ¬(width.toNat < 40 ∨ s.syncState = 0 ∨ 5 ≤ s.syncState) := by omega
    have hrun := exec_tickSync_accepted (phase := phase) hpulse hfit
    have htaken := s.pulseTaken_framed interval.toNat (if fresh then 0 else s.sync.accepted)
    have hn : (s.pulseTaken interval.toNat (if fresh then 0 else s.sync.accepted)).sync.accepted + 1 = n := by
      change (if fresh then 0 else s.sync.accepted) + 1 = if fresh then 1 else s.sync.accepted + 1
      split
      · rfl
      · rfl
    have hlast : (s.pulseTaken interval.toNat (if fresh then 0 else s.sync.accepted)).sync.lastNs = interval.toNat := rfl
    have hstate : (s.pulseTaken interval.toNat (if fresh then 0 else s.sync.accepted)).syncState = st := rfl
    have hevents : (s.pulseTaken interval.toNat (if fresh then 0 else s.sync.accepted)).events = s.events := rfl
    have hcount : (s.pulseTaken interval.toNat (if fresh then 0 else s.sync.accepted)).tk = s.tk := rfl
    generalize s.pulseTaken interval.toNat (if fresh then 0 else s.sync.accepted) = u at hrun htaken hn hlast hstate hevents hcount
    have hall : framed pulseParts pulseRegs s u := htaken.widen (by simp [pulseParts])
    refine ⟨fun h2 => ?_, fun h1 hrow hphase => ?_, fun h1 hrow => ?_, fun h3 => ?_⟩
    · obtain ⟨hshown, htrim, hsync, htold, hframe⟩ := State.syncAccept_locked_shows (hstate.trans h2) phase.toNat
      refine ⟨_, hrun, hshown, htrim, ?_, htold.trans hevents, ?_, (hall.trans hframe).kept⟩
      · rw [State.kept_sync, hsync, ← hn]
      · rw [State.kept_sync, hsync, ← hlast]
    · obtain ⟨hshown, htrim, hsync, htold, hframe⟩ := State.syncAccept_locks_shows (hstate.trans h1) (phase := phase.toNat) ⟨hn.symm ▸ hrow, hphase⟩
      refine ⟨_, hrun, hshown, htrim, ?_, ?_, ?_, (hall.trans hframe).kept⟩
      · rw [State.kept_sync, hsync, ← hn]
      · rw [State.kept_events, htold, hevents, hcount]
      · rw [State.kept_sync, hsync, ← hlast]
    · have haccept := State.syncAccept_acquiring (hstate.trans h1) (phase := phase.toNat) (hn.symm ▸ hrow)
      rw [haccept] at hrun
      exact ⟨_, hrun, hstate.trans h1, hn, hevents, hlast, (hall.seq (u.pulseCounted_framed _) (by simp [pulseParts])).kept⟩
    · have haccept := State.syncAccept_again (hstate.symm ▸ h3) phase.toNat
      have hone : n = 1 := if_pos (.inl h3)
      rw [haccept] at hrun
      refine ⟨_, hrun, ?_, ?_, ?_, ?_, ((hall.seq (u.pulseCounted_framed _) (by simp [pulseParts])).seq (State.setSync_framed _ _)
        (by simp [pulseParts, eventParts]) (by simp [pulseRegs])).kept⟩
      · rw [State.kept_syncState, State.syncState_setSync]
      · rw [State.kept_sync, (State.setSync_framed _ _).1 .sync (by decide)]
        exact hn.trans hone
      · rw [State.kept_events, (State.setSync_framed _ _).1 .events (by decide), ← hevents]
        rfl
      · rw [State.kept_sync, (State.setSync_framed _ _).1 .sync (by decide), ← hlast]
        rfl
  · have hpulse : ¬(width.toNat < 40 ∨ s.syncState = 0 ∨ 5 ≤ s.syncState) := by omega
    obtain ⟨hshown, hsync, hcount, htold, hframe⟩ := (s.pulseTaken interval.toNat s.sync.accepted).syncReject_shows
    refine ⟨_, exec_tickSync_rejected hpulse hold hunfit, hshown, ?_, hcount, htold, ?_,
      (((s.pulseTaken_framed interval.toNat s.sync.accepted).widen (by simp [pulseParts])).trans hframe).kept⟩
    · rw [State.kept_sync, hsync]
      rfl
    · rw [State.kept_sync, hsync]
      rfl

/-! ### TCK_SYNC_CTRL and the timers -/

/-- TCK_SYNC_CTRL as a write leaves it. -/
def State.syncCtrlSet (s : State) (v : Word) : State :=
  let mode := if v.field 31 30 = 3 then s.fld Reg.TCK_SYNC_CTRL 31 30 else v.field 31 30
  let k := if 1 ≤ v.field 20 16 ∧ v.field 20 16 ≤ 16 then v.field 20 16 else s.fld Reg.TCK_SYNC_CTRL 20 16
  let off := if v.field 15 0 < 600 * s.fld Reg.TCK_PERIOD 6 0 then v.field 15 0 else s.fld Reg.TCK_SYNC_CTRL 15 0
  s.setReg Reg.TCK_SYNC_CTRL (wordOf (mode * 0x40000000 + v.field 29 29 * 0x20000000 + k * 0x10000 + off))

/-- No pulse accepted yet. -/
def State.pulsesReset (s : State) : State := { s with sync := { s.sync with accepted := 0, measured := false } }

theorem State.syncCtrlSet_framed (s : State) (v : Word) : framed [.regs] [Reg.TCK_SYNC_CTRL] s (s.syncCtrlSet v) := s.setReg_framed _ _

theorem State.syncCtrlSet_syncState (s : State) (v : Word) : (s.syncCtrlSet v).syncState = s.syncState := (s.syncCtrlSet_framed v).fld (by decide)

theorem State.pulsesReset_framed (s : State) : framed [.sync] [] s s.pulsesReset := framed_sync s _

section
variable (v : Word)

/-- The MODE that a write leaves. -/
def State.modeAfter (s : State) : Nat := if v.field 31 30 = 3 then s.fld Reg.TCK_SYNC_CTRL 31 30 else v.field 31 30

theorem State.writeSyncCtrl_locked (h : (s.reg Reg.DEV_BOOT_STATUS).bit 12 = true) : s.writeSyncCtrl v = s := if_pos h

theorem State.writeSyncCtrl_off (h : (s.reg Reg.DEV_BOOT_STATUS).bit 12 = false) (hmode : s.modeAfter v = 0) :
    s.writeSyncCtrl v = ((s.syncCtrlSet v).pulsesReset.setSync 0).noTrim :=
  (if_neg (by rw [h]; decide)).trans (if_pos hmode)

theorem State.writeSyncCtrl_on (h : (s.reg Reg.DEV_BOOT_STATUS).bit 12 = false) (hmode : s.modeAfter v ≠ 0) (hold : s.syncState ≠ 0) :
    s.writeSyncCtrl v = s.syncCtrlSet v :=
  (if_neg (by rw [h]; decide)).trans ((if_neg hmode).trans (if_pos hold))

theorem State.writeSyncCtrl_acquires (h : (s.reg Reg.DEV_BOOT_STATUS).bit 12 = false) (hmode : s.modeAfter v ≠ 0) (hold : s.syncState = 0)
    (hfactor : s.fld Reg.TCK_STRETCH 8 0 ≤ 256) : s.writeSyncCtrl v = (s.syncCtrlSet v).pulsesReset.setSync 1 :=
  (if_neg (by rw [h]; decide)).trans ((if_neg hmode).trans ((if_neg (fun g => g hold)).trans (if_pos hfactor)))

theorem State.writeSyncCtrl_suspended (h : (s.reg Reg.DEV_BOOT_STATUS).bit 12 = false) (hmode : s.modeAfter v ≠ 0) (hold : s.syncState = 0)
    (hfactor : 256 < s.fld Reg.TCK_STRETCH 8 0) : s.writeSyncCtrl v =
      ((s.syncCtrlSet v).pulsesReset.setSync 5).raisePf 0x1024 [wordOf (s.fld Reg.TCK_STRETCH 8 0)] :=
  (if_neg (by rw [h]; decide)).trans ((if_neg hmode).trans ((if_neg (fun g => g hold)).trans (if_neg (by omega))))

theorem State.syncCtrlSet_setSync_framed (s : State) (n : Nat) :
    framed [.sync, .regs] [Reg.TCK_SYNC_CTRL, Reg.TCK_SYNC_STATUS] s ((s.syncCtrlSet v).pulsesReset.setSync n) :=
  (((s.syncCtrlSet_framed v).widen).seq (State.pulsesReset_framed _)).seq (State.setSync_framed _ _)

end

theorem exec_tckSyncCtrlWrite (v : Word) (s : State) : exec (.tckSyncCtrlWrite v) s = keep s (s.writeSyncCtrl v) := rfl

theorem exec_syncHoldover (s : State) :
    exec .syncHoldover s = keep s (if s.syncState = 2 then (s.setSync 3).raisePf 0x1021 s.tickPayload else s) := rfl

theorem exec_syncFreerun (s : State) :
    exec .syncFreerun s = keep s (if s.syncState = 3 then ((s.setSync 4).noTrim).raisePf 0x1022 s.tickPayload else s) := rfl

/-- The event of a window without a pulse noted. -/
def State.windowNoted (s : State) : State :=
  { s with sync := { s.sync with lastWindowEvent := some s.tk.now, accepted := 0, measured := false } }

theorem exec_syncOutOfWindow (s : State) : exec .syncOutOfWindow s =
    keep s (if s.syncState = 1 ∧ s.windowEventDue = true then s.windowNoted.raisePf 0x1023 [wordOf s.sync.lastNs] else s) := rfl

theorem keep_self (s : State) : keep s s = .next s := rfl

/-- Settles O37: the control write sets the register and the state that goes with its mode, and each timer moves one state alone. -/
theorem syncControls : Obligations.SyncControls := by
  unfold Obligations.SyncControls
  refine ⟨?_, ?_⟩
  · intro v s mode k off
    refine ⟨fun hlocked => ?_, fun hopen => ?_⟩
    · rw [exec_tckSyncCtrlWrite, State.writeSyncCtrl_locked v hlocked, keep_self]
    rw [exec_tckSyncCtrlWrite]
    have hctrl : (s.syncCtrlSet v).reg Reg.TCK_SYNC_CTRL = wordOf (mode * 0x40000000 + v.field 29 29 * 0x20000000 + k * 0x10000 + off) :=
      State.reg_setReg ..
    have hreset := (s.syncCtrlSet v).pulsesReset_framed
    refine ⟨_, rfl, ?_⟩
    rw [State.kept_reg, State.kept_syncState, State.kept_fld, State.kept_sync, State.kept_events]
    by_cases hmode : mode = 0
    · rw [State.writeSyncCtrl_off v hopen hmode]
      have hall := (s.syncCtrlSet_setSync_framed v 0).seq (State.noTrim_framed _)
      have hlater := (hreset.widen (qs := [.sync, .regs]) (js := [Reg.TCK_SYNC_STATUS])).seq (State.setSync_framed _ 0) |>.seq (State.noTrim_framed _)
      refine ⟨(hlater.reg (by decide)).trans hctrl, fun _ => ⟨?_, State.noTrim_trim _, hall.1 .events (by decide)⟩, fun h => absurd hmode h,
        fun h => absurd hmode h, fun h => absurd hmode h, hall.kept.widen (by simp [eventParts]) (by simp)⟩
      rw [State.noTrim_syncState, State.syncState_setSync]
    by_cases hold : s.syncState = 0
    · by_cases hfactor : s.fld Reg.TCK_STRETCH 8 0 ≤ 256
      · rw [State.writeSyncCtrl_acquires v hopen hmode hold hfactor]
        have hall := s.syncCtrlSet_setSync_framed v 1
        have hlater := (hreset.widen (qs := [.sync, .regs]) (js := [Reg.TCK_SYNC_STATUS])).seq (State.setSync_framed _ 1)
        refine ⟨(hlater.reg (by decide)).trans hctrl, fun h => absurd h hmode, fun _ h => absurd hold h,
          fun _ _ _ => ⟨State.syncState_setSync _ 1, ?_, hall.1 .events (by decide)⟩, fun _ _ h => absurd hfactor (by omega),
          hall.kept.widen (by simp [eventParts]) (by simp)⟩
        rw [(State.setSync_framed _ 1).1 .sync (by decide)]
        rfl
      · rw [State.writeSyncCtrl_suspended v hopen hmode hold (by omega)]
        have hall := s.syncCtrlSet_setSync_framed v 5
        have hlater := (hreset.widen (qs := [.sync, .regs]) (js := [Reg.TCK_SYNC_STATUS])).seq (State.setSync_framed _ 5)
        have hset := State.syncState_setSync (s.syncCtrlSet v).pulsesReset 5
        have hsync := (State.setSync_framed (s.syncCtrlSet v).pulsesReset 5).1 .sync (by decide)
        have hzero : (s.syncCtrlSet v).pulsesReset.sync.accepted = 0 := rfl
        generalize (s.syncCtrlSet v).pulsesReset.setSync 5 = u at hall hlater hset hsync ⊢
        refine ⟨((State.raisePf_framed ..).reg (by decide)).trans ((hlater.reg (by decide)).trans hctrl), fun h => absurd h hmode,
          fun _ h => absurd hold h, fun _ _ h => absurd h hfactor, fun _ _ _ => ⟨(State.raisePf_syncState ..).trans hset, ?_, ?_⟩,
          ((hall.widen (js := Reg.TCK_SYNC_CTRL :: Reg.TCK_SYNC_STATUS :: eventRegs) (by simp [eventParts]) (by simp)).seq (State.raisePf_framed ..)
            (fun _ h => List.mem_cons_of_mem _ h) (by simp +contextual)).kept⟩
        · rw [(State.raisePf_framed ..).1 .sync (by decide), hsync, hzero]
        · rw [State.raisePf_events, hall.1 .events (by decide)]
    · rw [State.writeSyncCtrl_on v hopen hmode hold]
      have hall := s.syncCtrlSet_framed v
      exact ⟨hctrl, fun h => absurd h hmode, fun _ _ => ⟨s.syncCtrlSet_syncState v, hall.1 .sync (by decide), hall.1 .events (by decide)⟩,
        fun _ h => absurd h hold, fun _ h => absurd h hold, hall.kept.widen (by simp [eventParts]) (by simp)⟩
  · intro s tick regs
    have hholds : framed eventParts regs s (s.setSync 3) := (s.setSync_framed 3).widen (by simp [eventParts]) (by simp [regs])
    have hstopped : framed [.regs] [Reg.TCK_SYNC_STATUS] s (s.setSync 4).noTrim := (s.setSync_framed 4).seq (State.noTrim_framed _)
    have hruns : framed eventParts regs s (s.setSync 4).noTrim := hstopped.widen (by simp [eventParts]) (by simp [regs])
    have htold : ∀ x ∈ eventRegs, x ∈ regs := fun x hx => List.mem_cons_of_mem _ hx
    refine ⟨fun h2 => ⟨_, (exec_syncHoldover s).trans (congrArg (keep s) (if_pos h2)), ?_, ?_, ?_,
        (hholds.seq (State.raisePf_framed ..) (fun _ h => h) htold).kept⟩,
      fun h2 => (exec_syncHoldover s).trans (congrArg (keep s) (if_neg h2)),
      fun h3 => ⟨_, (exec_syncFreerun s).trans (congrArg (keep s) (if_pos h3)), ?_, ?_, ?_,
        (hruns.seq (State.raisePf_framed ..) (fun _ h => h) htold).kept⟩,
      fun h3 => (exec_syncFreerun s).trans (congrArg (keep s) (if_neg h3)),
      fun h1 hdue => ⟨_, (exec_syncOutOfWindow s).trans (congrArg (keep s) (if_pos ⟨h1, hdue⟩)), ?_, ?_, ?_, ?_,
        (((framed_sync s _).widen).seq (State.raisePf_framed ..) (by simp +contextual)).kept⟩,
      fun hno => (exec_syncOutOfWindow s).trans (congrArg (keep s) (if_neg (fun g => hno.elim (fun h => h g.1) fun h => by simp [h] at g)))⟩
    · rw [State.kept_syncState, State.raisePf_syncState, State.syncState_setSync]
    · rw [State.kept_events, State.raisePf_events, (s.setSync_framed 3).1 .events (by decide)]
      rfl
    · rw [State.kept_fld, (State.raisePf_framed ..).fld (by decide), State.trim_setSync]
    · rw [State.kept_syncState, State.raisePf_syncState, State.noTrim_syncState, State.syncState_setSync]
    · rw [State.kept_fld, (State.raisePf_framed ..).fld (by decide), State.noTrim_trim]
    · rw [State.kept_events, State.raisePf_events, hstopped.1 .events (by decide)]
      rfl
    · have hnoted : s.windowNoted.syncState = s.syncState := rfl
      rw [State.kept_syncState, State.raisePf_syncState, hnoted, h1]
    · rw [State.kept_sync, (State.raisePf_framed ..).1 .sync (by decide)]
      rfl
    · rw [State.kept_sync, (State.raisePf_framed ..).1 .sync (by decide)]
      rfl
    · have hnoted : s.windowNoted.events = s.events := rfl
      rw [State.kept_events, State.raisePf_events, hnoted]

end Sys2Proof.Machine
end

section
/-! SUPPORT. Rings: entries submitted and read, doorbells, mismatches and the heads of completion queues (R335 to R349). -/

namespace Sys2Proof.Machine

set_option Elab.async false

variable {s t u : State} {ps : List Part} {ks : List Nat} {k : Nat}

/-! ### Rings read -/

theorem State.ringAt_of (h : t.hs.rings = s.hs.rings) (k : Nat) : t.ringAt k = s.ringAt k := by
  unfold State.ringAt
  rw [h]

@[simp] theorem State.kept_ringAt (s t : State) (k : Nat) : (s.kept t).ringAt k = t.ringAt k := rfl

/-- A ring that differs at most in the position it is read at and in its mismatch. -/
def Ring.readOn (r r' : Ring) : Prop := ∃ p m, r' = { r with sqPos := p, mismatch := m }

theorem Ring.readOn.refl (r : Ring) : r.readOn r := ⟨_, _, rfl⟩

theorem Ring.readOn.trans {a b c : Ring} (h : a.readOn b) (g : b.readOn c) : a.readOn c := by
  obtain ⟨p, m, rfl⟩ := h
  obtain ⟨q, n, rfl⟩ := g
  exact ⟨q, n, rfl⟩

/-- Rings that were read, and nothing else of them. -/
def ringsReadOn (s t : State) : Prop := ∀ k, (s.ringAt k).readOn (t.ringAt k)

theorem ringsReadOn.refl (s : State) : ringsReadOn s s := fun _ => .refl _

theorem ringsReadOn.trans (h : ringsReadOn s t) (g : ringsReadOn t u) : ringsReadOn s u := fun k => (h k).trans (g k)

theorem ringsReadOn.of_rings (h : t.hs.rings = s.hs.rings) : ringsReadOn s t := fun k => by
  rw [State.ringAt_of h]
  exact .refl _

theorem ringsReadOn.setRing (s : State) (k p : Nat) (m : Option Nat) :
    ringsReadOn s (s.setRing k { s.ringAt k with sqPos := p, mismatch := m }) := fun j => by
  by_cases hj : j = k
  · subst hj
    rw [State.ringAt_setRing]
    exact ⟨_, _, rfl⟩
  · rw [State.ringAt_setRing_ne _ _ _ _ hj]
    exact .refl _

theorem ringsReadOn.foldl {α : Type} (f : State → α → State) (l : List α) (h : ∀ v x, ringsReadOn v (f v x)) (s : State) :
    ringsReadOn s (l.foldl f s) := by
  induction l generalizing s with
  | nil => exact .refl s
  | cons x l ih => exact (h s x).trans (ih _)

theorem State.takeEntry_rings (h : s.takeEntry k = some t) : ringsReadOn s t := by
  unfold State.takeEntry at h
  dsimp only at h
  split at h
  · cases h
  · split at h
    · cases h
    · cases h
      have hset := ringsReadOn.setRing s k ((s.ringAt k).sqPos + 1) none
      refine hset.trans (.of_rings ?_)
      split
      · rw [(State.tallyCache_framed ..).1 .rings (by decide), (State.tally_framed ..).1 .rings (by decide)]
      · rw [(State.tally_framed ..).1 .rings (by decide)]

theorem State.readRing_rings (k fuel : Nat) (s : State) : ringsReadOn s (s.readRing k fuel) := by
  induction fuel generalizing s with
  | zero => exact .refl s
  | succ fuel ih =>
    rw [State.readRing]
    split
    · exact .refl s
    · split
      next s1 h => exact (State.takeEntry_rings h).trans (ih s1)
      next => exact ringsReadOn.setRing s k (s.ringAt k).sqPos (some 0)

theorem State.readRings_rings (s : State) (n : Nat) : ringsReadOn s (s.readRings n) := by
  unfold State.readRings
  split
  · exact .refl s
  · exact .foldl _ _ (fun v k => v.readRing_rings k _) s

theorem ringsReadOn.tail (h : ringsReadOn s t) (k : Nat) : (t.ringAt k).tail = (s.ringAt k).tail := by
  obtain ⟨p, m, hread⟩ := h k
  rw [hread]

/-! ### Entries submitted -/

/-- An entry's bytes in its slot. -/
def State.entryPut (s : State) (k op : Nat) (e : Entry) : State :=
  let r := s.ringAt k
  let bs := (entryWords op e).flatMap Word.bytes
  let a := r.sqAddr + 64 * (e.seq.toNat % r.depth)
  if r.sqHost then { s with mem := { s.mem with host := memWrite s.mem.host a bs } } else s.winWrite a bs

/-- TAIL past an entry, where the host may ring a doorbell. -/
def State.tailPast (s : State) (k : Nat) (e : Entry) (u : State) : State :=
  let r := s.ringAt k
  let ahead := (e.seq.toNat + 65536 - r.sqPos % 65536) % 65536
  let out := (r.tail + r.depth - r.sqPos % r.depth) % r.depth
  if s.attachState r.inst ≠ 2 ∧ out ≤ ahead ∧ ahead + 1 < r.depth then u.setRing k { r with tail := (r.sqPos + ahead + 1) % r.depth } else u

theorem State.submit_free (op : Nat) (e : Entry) (h : (s.ringAt k).state = 0 ∨ (s.ringAt k).kind ≠ 0) : s.submit k op e = s := if_pos h

theorem State.submit_used (op : Nat) (e : Entry) (h : ¬((s.ringAt k).state = 0 ∨ (s.ringAt k).kind ≠ 0)) :
    s.submit k op e = (s.tailPast k e (s.entryPut k op e)).readRings (s.ringAt k).inst := if_neg h

theorem State.entryPut_framed (s : State) (k op : Nat) (e : Entry) : framed [.host, .win, .winM] [] s (s.entryPut k op e) :=
  .ite (fun _ => (framed_host s _).widen) fun _ => (s.winWrite_framed _ _).widen

theorem State.entryPut_mem (s : State) (k op : Nat) (e : Entry) : (s.entryPut k op e).mem =
    let a := (s.ringAt k).sqAddr + 64 * (e.seq.toNat % (s.ringAt k).depth)
    let bs := (entryWords op e).flatMap Word.bytes
    if (s.ringAt k).sqHost then { s.mem with host := memWrite s.mem.host a bs }
    else { s.mem with win := memWrite s.mem.win a bs, winM := memWrite s.mem.winM a bs } := by
  unfold State.entryPut
  dsimp only
  split
  · rfl
  · rfl

theorem State.tailPast_framed (s : State) (k : Nat) (e : Entry) (u : State) : framed [.rings] [] u (s.tailPast k e u) :=
  .ite (fun _ => u.setRing_framed _ _) fun _ => .refl

theorem State.tailPast_tail (s : State) (k : Nat) (e : Entry) (u : State) (h : u.ringAt k = s.ringAt k) : ((s.tailPast k e u).ringAt k).tail =
    let r := s.ringAt k
    let ahead := (e.seq.toNat + 65536 - r.sqPos % 65536) % 65536
    let out := (r.tail + r.depth - r.sqPos % r.depth) % r.depth
    if s.attachState r.inst ≠ 2 ∧ out ≤ ahead ∧ ahead + 1 < r.depth then (r.sqPos + ahead + 1) % r.depth else r.tail := by
  unfold State.tailPast
  dsimp only
  split
  · rw [State.ringAt_setRing]
  · rw [h]

theorem State.submit_submitted (ring : BitVec 14) (op : Nat) (e : Entry)
    (h : ¬((s.ringAt ring.toNat).state = 0 ∨ (s.ringAt ring.toNat).kind ≠ 0)) : submitted op ring e s (s.kept (s.submit ring.toNat op e)) := by
  rw [State.submit_used op e h]
  have hput := s.entryPut_framed ring.toNat op e
  have hmem := s.entryPut_mem ring.toNat op e
  have htail := s.tailPast_tail ring.toNat e (s.entryPut ring.toNat op e) (State.ringAt_of (hput.1 .rings (by decide)) _)
  have hpast := s.tailPast_framed ring.toNat e (s.entryPut ring.toNat op e)
  have hread := (s.tailPast ring.toNat e (s.entryPut ring.toNat op e)).readRings_framed (s.ringAt ring.toNat).inst
  have hrings := (s.tailPast ring.toNat e (s.entryPut ring.toNat op e)).readRings_rings (s.ringAt ring.toNat).inst
  have hall : framed [.host, .win, .winM, .rings, .readCount, .entries, .lastRing, .cnt] [] s _ :=
    ((hput.widen).seq hpast).seq hread (by simp [readParts])
  refine ⟨?_, ?_, hall.kept.1⟩
  · rw [State.kept_mem, hread.mem (by decide), hpast.mem (by decide), hmem]
  · rw [State.kept_ringAt, hrings.tail, htail]

/-- Every submission row submits its entry with its opcode. -/
theorem exec_submission (ring : BitVec 14) (e : Entry) (s : State) :
    ∀ x ∈ [(0x01, Instr.create ring e), (0x02, .bind ring e), (0x03, .admitReq ring e), (0x04, .destroy ring e), (0x05, .trainBatch ring e),
      (0x06, .trainStep ring e), (0x07, .trainGate ring e), (0x10, .lexCreate ring e), (0x11, .lexDelete ring e), (0x12, .lexQuery ring e),
      (0x13, .lexConvert ring e), (0x14, .affixClaim ring e), (0x15, .affixRelease ring e), (0x20, .resStore ring e),
      (0x21, .resPrefetch ring e), (0x22, .resEvict ring e), (0x23, .resRetry ring e), (0x30, .nop ring e)],
    exec x.2 s = keep s (s.submit ring.toNat x.1 e) := by
  simp only [List.forall_mem_cons, List.not_mem_nil, false_implies, implies_true, and_true]
  exact ⟨rfl, rfl, rfl, rfl, rfl, rfl, rfl, rfl, rfl, rfl, rfl, rfl, rfl, rfl, rfl, rfl, rfl, rfl⟩

/-- Settles O38: the entry stands in its slot and TAIL covers it, and a ring that is FREE or an event ring takes none. -/
theorem entriesSubmitted : Obligations.EntriesSubmitted := by
  unfold Obligations.EntriesSubmitted
  intro ring e s x hx
  have hrun := exec_submission ring e s x hx
  refine ⟨fun hused hkind => ⟨_, hrun, s.submit_submitted ring x.1 e (by simp [hused, hkind])⟩, fun hfree => ?_⟩
  rw [hrun, State.submit_free x.1 e hfree, keep_self]

/-! ### Doorbells -/

section
variable {fn : BitVec 6} {page : BitVec 14} {tail seqLast : BitVec 16}

/-- The ring that a function's page rings, where the BARs are served. -/
def State.servedRing (s : State) (fn page : Nat) : Option Nat := if s.barServed then s.pageRing fn page else none

theorem State.servedRing_none {fn page : Nat} (h : s.barServed = false ∨ s.pageRing fn page = none) : s.servedRing fn page = none := by
  unfold State.servedRing
  split
  next hserved => exact h.resolve_left (by rw [hserved]; decide)
  next => rfl

theorem State.servedRing_some {fn page : Nat} (hserved : s.barServed = true) (h : s.pageRing fn page = some k) : s.servedRing fn page = some k :=
  (if_pos hserved).trans h

theorem exec_doorbell_none (h : s.servedRing fn.toNat page.toNat = none) : exec (.doorbell fn page tail seqLast) s = .next s := by
  unfold exec
  dsimp only
  unfold execDoorbell
  rw [← State.servedRing, h, keep_self]

/-- What a doorbell of a ring does. -/
def State.doorbellAt (s : State) (fn k tail seqLast : Nat) : State :=
  let r := s.ringAt k
  if r.state = 0 ∨ s.attachState r.inst = 2 then s
  else if tail < r.depth ∧ (seqLast + 1) % r.depth = tail then
    ((s.setRing k { r with tail := tail }).tally ⟨0x102, 4, 7, some r.inst, none, fn, none, 1⟩).readRings r.inst
  else s.raiseInst 0x4002 r.inst ([k, tail, seqLast].map wordOf)

theorem exec_doorbell_some (h : s.servedRing fn.toNat page.toNat = some k) :
    exec (.doorbell fn page tail seqLast) s = keep s (s.doorbellAt fn.toNat k tail.toNat seqLast.toNat) := by
  unfold exec
  dsimp only
  unfold execDoorbell
  rw [← State.servedRing, h]
  rfl

end

/-- Settles O40: TAIL moves where the doorbell fits, and its event tells of one that does not. -/
theorem doorbellsMoveTail : Obligations.DoorbellsMoveTail := by
  unfold Obligations.DoorbellsMoveTail
  intro fn page tail seqLast s
  refine ⟨fun hnone => exec_doorbell_none (State.servedRing_none hnone), ?_⟩
  intro k hserved hpage r fits
  have hrun := exec_doorbell_some (tail := tail) (seqLast := seqLast) (State.servedRing_some hserved hpage)
  refine ⟨fun hidle => ?_, fun hstate hattach hfits => ?_, fun hstate hattach hfits => ?_⟩
  · rw [hrun]
    exact (congrArg (keep s) (if_pos hidle)).trans (keep_self s)
  · have hbell : s.doorbellAt fn.toNat k tail.toNat seqLast.toNat =
        ((s.setRing k { r with tail := tail.toNat }).tally ⟨0x102, 4, 7, some r.inst, none, fn.toNat, none, 1⟩).readRings r.inst :=
      (if_neg (by simp [r, hstate, hattach])).trans (if_pos hfits)
    rw [hbell] at hrun
    have hset := s.setRing_framed k { r with tail := tail.toNat }
    have htally := (s.setRing k { r with tail := tail.toNat }).tally_framed ⟨0x102, 4, 7, some r.inst, none, fn.toNat, none, 1⟩
    have hat : ((s.setRing k { r with tail := tail.toNat }).tally ⟨0x102, 4, 7, some r.inst, none, fn.toNat, none, 1⟩).ringAt k = { r with tail := tail.toNat } := by
      rw [State.ringAt_of (htally.1 .rings (by decide)), State.ringAt_setRing]
    have hall : framed readParts [] s _ := ((hset.widen (by simp [readParts])).seq htally (by simp [readParts])).seq (State.readRings_framed _ r.inst)
    refine ⟨_, hrun, ?_, hall.kept.1.widen (by simp [readParts])⟩
    rw [State.kept_ringAt, (State.readRings_rings _ _).tail, hat]
  · have hbell : s.doorbellAt fn.toNat k tail.toNat seqLast.toNat =
        s.raiseInst 0x4002 r.inst ([k, tail.toNat, seqLast.toNat].map wordOf) :=
      (if_neg (by simp [r, hstate, hattach])).trans (if_neg hfits)
    rw [hbell] at hrun
    exact ⟨_, hrun, State.raiseInst_events .., (State.raiseInst_framed ..).kept⟩

/-! ### Mismatches -/

theorem exec_hostReadTimeout (ring : BitVec 14) (s : State) : exec (.hostReadTimeout ring) s =
    keep s (if !((s.ringAt ring.toNat).ahead && (s.ringAt ring.toNat).sqHost) then s
      else if (s.ringAt ring.toNat).mismatch.isNone then s.setRing ring.toNat { s.ringAt ring.toNat with mismatch := some 0 }
      else s.setRing ring.toNat { s.ringAt ring.toNat with readTimeout := true }) := rfl

/-- What the entry's SEQ read at a mismatch. -/
def State.seqSeen (s : State) (r : Ring) : Nat :=
  match s.nextWords r with
  | some ws => (wordAt ws 0).field 15 0
  | none => 0

theorem State.ringHalt_halts {n : Nat} (hmiss : (s.ringAt k).mismatch = some n)
    (hdue : (s.ringAt k).state = 1 ∧ s.fld (Reg.WIN_INST_CFG (s.ringAt k).inst) 29 24 ≤ n) : s.ringHalt k =
    (s.setRing k { s.ringAt k with state := 2, mismatch := none }).raiseInst 0x4001 (s.ringAt k).inst
      ([k, (s.ringAt k).sqPos, (s.ringAt k).sqPos % 65536, s.seqSeen (s.ringAt k)].map wordOf) := by
  unfold State.ringHalt
  dsimp only
  rw [hmiss]
  exact if_pos hdue

theorem State.ringHalt_none (h : (s.ringAt k).mismatch = none) : s.ringHalt k = s := by
  unfold State.ringHalt
  dsimp only
  rw [h]

theorem State.ringHalt_waits {n : Nat} (hmiss : (s.ringAt k).mismatch = some n)
    (hdue : ¬((s.ringAt k).state = 1 ∧ s.fld (Reg.WIN_INST_CFG (s.ringAt k).inst) 29 24 ≤ n)) : s.ringHalt k = s := by
  unfold State.ringHalt
  dsimp only
  rw [hmiss]
  exact if_neg hdue

theorem exec_dbTimeoutExpire (ring : BitVec 14) (s : State) : exec (.dbTimeoutExpire ring) s = keep s (s.ringHalt ring.toNat) := rfl

/-- Settles O41: a read that gets no answer is a mismatch, and one that lasts halts the ring. -/
theorem mismatchesHaltRings : Obligations.MismatchesHaltRings := by
  unfold Obligations.MismatchesHaltRings
  intro ring s k r
  have hset : ∀ x : Ring, ((s.setRing k x).ringAt k = x) ∧ (∀ j, j ≠ k → (s.setRing k x).ringAt j = s.ringAt j) ∧ changesOnly [.rings] s (s.setRing k x) :=
    fun x => ⟨State.ringAt_setRing .., fun j hj => State.ringAt_setRing_ne _ _ _ _ hj, (s.setRing_framed k x).1⟩
  refine ⟨fun hreads => ?_, fun hidle => ?_, fun n hmiss hstate hlast => ?_, fun hnone => ?_, fun n hmiss hearly => ?_⟩
  · have hrun : exec (.hostReadTimeout ring) s =
        keep s (s.setRing k (if r.mismatch = none then { r with mismatch := some 0 } else { r with readTimeout := true })) := by
      rw [exec_hostReadTimeout, if_neg (by rw [hreads]; decide)]
      by_cases hmiss : r.mismatch = none
      · rw [if_pos hmiss, if_pos (Option.isNone_iff_eq_none.mpr hmiss)]
      · rw [if_neg hmiss, if_neg (by simpa using hmiss)]
    obtain ⟨hat, hother, hpart⟩ := hset (if r.mismatch = none then { r with mismatch := some 0 } else { r with readTimeout := true })
    exact ⟨_, hrun, hat, hother, hpart.kept⟩
  · rw [exec_hostReadTimeout, if_pos (by rw [hidle]; rfl), keep_self]
  · obtain ⟨hat, hother, hpart⟩ := hset { r with state := 2, mismatch := none }
    have hframe := s.setRing_framed k { r with state := 2, mismatch := none }
    rw [exec_dbTimeoutExpire, State.ringHalt_halts hmiss ⟨hstate, hlast⟩]
    have htold := (s.setRing k { r with state := 2, mismatch := none }).raiseInst_framed 0x4001 r.inst
      ([k, r.sqPos, r.sqPos % 65536, s.seqSeen r].map wordOf)
    refine ⟨_, rfl, ?_, fun j hj => ?_, ⟨s.seqSeen r, ?_, fun ws hws => ?_⟩,
      ((hframe.widen).seq htold (fun _ h => List.mem_cons_of_mem _ h) (fun _ h => h)).kept⟩
    · exact (State.ringAt_of (htold.1 .rings (by decide)) k).trans hat
    · exact (State.ringAt_of (htold.1 .rings (by decide)) j).trans (hother j hj)
    · rw [State.kept_events, State.raiseInst_events, hframe.1 .events (by decide)]
    · unfold State.seqSeen
      rw [hws]
  · by_cases hmiss : r.mismatch = none
    · rw [exec_dbTimeoutExpire, State.ringHalt_none hmiss, keep_self]
    · obtain ⟨n, hn⟩ := Option.ne_none_iff_exists'.mp hmiss
      rw [exec_dbTimeoutExpire, State.ringHalt_waits hn (fun g => hnone.elim hmiss fun h => h g.1), keep_self]
  · rw [exec_dbTimeoutExpire, State.ringHalt_waits hmiss (fun g => Nat.not_le.mpr hearly g.2), keep_self]

end Sys2Proof.Machine
end

section
/-! SUPPORT. Completion queues: records posted and their heads (R331, R347 to R350). -/

namespace Sys2Proof.Machine

set_option Elab.async false

variable {s t u : State} {ps : List Part} {ks : List Nat} {k : Nat}

/-! ### Rings that post -/

/-- A ring that differs at most in its held records, its queue's next place and whether anything was posted. -/
def Ring.postOn (r r' : Ring) : Prop := ∃ h p b, r' = { r with held := h, cqPos := p, posted := b }

theorem Ring.postOn.refl (r : Ring) : r.postOn r := ⟨_, _, _, rfl⟩

theorem Ring.postOn.trans {a b c : Ring} (h : a.postOn b) (g : b.postOn c) : a.postOn c := by
  obtain ⟨l, p, x, rfl⟩ := h
  obtain ⟨l', p', x', rfl⟩ := g
  exact ⟨l', p', x', rfl⟩

theorem State.cqPut_ring (s : State) (k : Nat) (ws : List Word) :
    (s.cqPut k ws).ringAt k = { s.ringAt k with cqPos := (s.ringAt k).cqPos + 1, posted := true } := by
  unfold State.cqPut
  dsimp only
  rw [State.ringAt_of ((State.tally_framed ..).1 .rings (by decide)), State.ringAt_setRing]

/-- The state of a queue's oldest held record posted. -/
def State.heldPut (s : State) (k : Nat) (x : Record) (rest : List Record) : State :=
  (s.setRing k { s.ringAt k with held := rest }).cqPut k (complWords x (s.ringAt k).phase)

/-- A posted record's request no longer tracked. -/
def State.untracked (s : State) (x : Record) : State :=
  match s.recordOf x with
  | some q => s.untrack q.handle
  | none => s

theorem State.untracked_framed (s : State) (x : Record) : framed [.reqs, .immutable, .handles] [] s (s.untracked x) := by
  unfold State.untracked
  split
  · exact State.untrack_framed ..
  · exact .refl

theorem State.heldPut_ring (s : State) (k : Nat) (x : Record) (rest : List Record) :
    (s.heldPut k x rest).ringAt k = { s.ringAt k with held := rest, cqPos := (s.ringAt k).cqPos + 1, posted := true } := by
  unfold State.heldPut
  rw [State.cqPut_ring, State.ringAt_setRing]

theorem State.postOne_ring (h : s.postOne k = some t) : (s.ringAt k).postOn (t.ringAt k) := by
  unfold State.postOne at h
  dsimp only at h
  split at h
  · cases h
  next x rest _ =>
    split at h
    · cases h
    · cases h
      have hring := s.heldPut_ring k x rest
      have hrest := (s.heldPut k x rest).untracked_framed x
      change (s.ringAt k).postOn (((s.heldPut k x rest).untracked x).ringAt k)
      rw [State.ringAt_of (hrest.1 .rings (by decide)), hring]
      exact ⟨_, _, _, rfl⟩

theorem State.postHeld_ring (k fuel : Nat) (s : State) : (s.ringAt k).postOn ((s.postHeld k fuel).ringAt k) := by
  induction fuel generalizing s with
  | zero => exact .refl _
  | succ fuel ih =>
    rw [State.postHeld]
    split
    next s1 h => exact (State.postOne_ring h).trans (ih s1)
    next => exact .refl _

/-! ### Heads -/

/-- The number of places that a head moves to reach an index. -/
def Ring.headStep (r : Ring) (h : Nat) : Nat :=
  let step := (h + r.depth - r.cqHead % r.depth) % r.depth
  if step = 0 ∧ r.cqPos - r.cqHead = r.depth then r.depth else step

/-- A head that moves reaches its index. -/
theorem Ring.headStep_reaches (r : Ring) {h : Nat} (hh : h < r.depth) : (r.cqHead + r.headStep h) % r.depth = h := by
  have hlt := Nat.mod_lt r.cqHead (Nat.zero_lt_of_lt hh)
  have hstep : (r.cqHead + (h + r.depth - r.cqHead % r.depth) % r.depth) % r.depth = h := by
    rw [Nat.add_mod_mod, ← Nat.mod_add_mod, show r.cqHead % r.depth + (h + r.depth - r.cqHead % r.depth) = h + r.depth by omega,
      Nat.add_mod_right, Nat.mod_eq_of_lt hh]
  unfold Ring.headStep
  dsimp only
  split
  next hfull =>
    rw [hfull.1, Nat.add_zero] at hstep
    rw [Nat.add_mod_right, hstep]
  next => exact hstep

/-- A queue's head moved, held records posted as room came. -/
def State.headMoved (s : State) (k h : Nat) : State :=
  (s.setRing k { s.ringAt k with cqHead := (s.ringAt k).cqHead + (s.ringAt k).headStep h }).postHeld k (s.ringAt k).held.length

/-- What a write of a queue's head does. -/
def State.headWrite (s : State) (k h : Nat) : State :=
  let r := s.ringAt k
  if r.state = 0 ∨ r.depth ≤ h then s
  else if r.cqHead + r.headStep h ≤ r.cqPos then
    ((s.headMoved k h).updRing k fun x => { x with posted := r.posted }).readRings r.inst
  else s

section
variable {fn : BitVec 6} {page : BitVec 14} {head : BitVec 16}

theorem exec_cqHeadWrite_none (h : s.servedRing fn.toNat page.toNat = none) : exec (.cqHeadWrite fn page head) s = .next s := by
  unfold exec
  dsimp only
  unfold execCqHeadWrite
  rw [← State.servedRing, h, keep_self]

theorem exec_cqHeadWrite_some (h : s.servedRing fn.toNat page.toNat = some k) :
    exec (.cqHeadWrite fn page head) s = keep s (s.headWrite k head.toNat) := by
  unfold exec
  dsimp only
  unfold execCqHeadWrite
  rw [← State.servedRing, h]
  rfl

end

/-- Settles O42: the head moves to an index between it and the records posted, and to no other. -/
theorem cqHeadMoves : Obligations.CqHeadMoves := by
  unfold Obligations.CqHeadMoves
  intro fn page head s
  refine ⟨fun hnone => exec_cqHeadWrite_none (State.servedRing_none hnone), ?_⟩
  intro k hserved hpage r h step moved
  have hrun := exec_cqHeadWrite_some (head := head) (State.servedRing_some hserved hpage)
  have hmoved : moved = r.headStep h := rfl
  refine ⟨fun hstays => ?_, fun hstate hdepth hposted => ?_⟩
  · rw [hrun, ← keep_self s]
    refine congrArg (keep s) ?_
    unfold State.headWrite
    dsimp only
    by_cases hidle : r.state = 0 ∨ r.depth ≤ h
    · exact if_pos hidle
    · rw [if_neg hidle]
      exact if_neg (Nat.not_le.mpr ((hstays.resolve_left fun g => hidle (.inl g)).resolve_left fun g => hidle (.inr g)))
  · have hwrite : s.headWrite k h = ((s.headMoved k h).updRing k fun x => { x with posted := r.posted }).readRings r.inst :=
      (if_neg (by simp [r, hstate, hdepth])).trans (if_pos hposted)
    rw [hwrite] at hrun
    have hset := s.setRing_framed k { r with cqHead := r.cqHead + moved }
    have hat : (s.setRing k { r with cqHead := r.cqHead + moved }).ringAt k = { r with cqHead := r.cqHead + moved } := State.ringAt_setRing ..
    have hpost := State.postHeld_framed k r.held.length (s.setRing k { r with cqHead := r.cqHead + moved })
    have hring := State.postHeld_ring k r.held.length (s.setRing k { r with cqHead := r.cqHead + moved })
    have hnoheld : r.held = [] → (s.headMoved k h).ringAt k = { r with cqHead := r.cqHead + moved } := fun hheld => by
      unfold State.headMoved
      rw [show (s.ringAt k).held.length = 0 from congrArg List.length hheld]
      exact hat
    rw [hat] at hring
    change framed postParts [] _ (s.headMoved k h) at hpost
    change Ring.postOn _ ((s.headMoved k h).ringAt k) at hring
    obtain ⟨l, p, b, hring⟩ := hring
    have hupd : ((s.headMoved k h).updRing k fun x => { x with posted := r.posted }).ringAt k =
        { r with cqHead := r.cqHead + moved, held := l, cqPos := p } := by
      unfold State.updRing
      rw [State.ringAt_setRing, hring]
    have hread := State.readRings_rings ((s.headMoved k h).updRing k fun x => { x with posted := r.posted }) r.inst k
    have hall : framed [.rings, .reqs, .handles, .immutable, .host, .win, .winM, .insts, .readCount, .entries, .lastRing, .cnt] [] s _ :=
      (((hset.widen).seq hpost (by simp [postParts])).seq ((s.headMoved k h).setRing_framed k { (s.headMoved k h).ringAt k with posted := r.posted })).seq (State.readRings_framed _ r.inst)
        (by simp [readParts])
    rw [hupd] at hread
    obtain ⟨q, m, hread⟩ := hread
    refine ⟨_, hrun, ?_, ?_, fun hheld => ?_, ?_, hall.kept.1⟩
    · rw [State.kept_ringAt, hread]
    · rw [State.kept_ringAt, hread]
      exact r.headStep_reaches hdepth
    · have hsame : p = r.cqPos := (congrArg Ring.cqPos (hring.symm.trans (hnoheld hheld)))
      rw [State.kept_ringAt, hread]
      exact hsame
    · rw [State.kept_ringAt, hread]

/-! ### A failed host write whose event freezes the ring's instance -/

/-- A record that waits for its host data. -/
def waitingRecord : Record := ⟨0, 3, 0, 5, 0, 2, 0, 0, 0, 0, 64, []⟩

/-- A request whose record waits for its host data. -/
def waitingRequest : Request := { inputRequest with state := 3, dataVisible := false, record := some waitingRecord }

/-- The instance number whose DEV_INST_STATE would stand at the offset of BBX_STATUS. -/
def collidingInst : Nat := 11136

/-- The request tracked on a ring of that instance, the black box recording events of the host side and BBX_STATUS showing a full buffer. -/
def waitingState : State :=
  let s := (State.reset.setReg Reg.BBX_MASK 0x10).setReg Reg.BBX_STATUS 0x60000000
  { s with hs := { s.hs with reqs := [waitingRequest], rings := [(0, { Ring.free with state := 1, inst := collidingInst })] } }

/-- Whether a command completes with nothing posted in ring 0. -/
def postsNothing (c : Instr) (s : State) : Bool :=
  match exec c s with
  | .next t => (t.ringAt 0).cqPos == 0
  | _ => false

theorem waitingState_ready : waitingState.reqAt 5 = some waitingRequest ∧ (waitingState.ringAt 0).state ≠ 0 ∧ (waitingState.ringAt 0).held = []
    ∧ (waitingState.ringAt 0).room = true ∧ waitingState.cqOpen (waitingState.ringAt 0) = true ∧ (waitingState.ringAt 0).cqPos = 0 := by
  decide +kernel

theorem waitingState_posts_nothing : postsNothing (.hostWriteTimeout 5 0) waitingState = true := by decide +kernel

/-- Refutes O43: on a ring whose instance number is out of range, the event's black-box record changes what the queue is held open by. -/
theorem not_hostDataCompletes : ¬Obligations.HostDataCompletes := by
  intro h
  obtain ⟨hreq, hstate, hheld, hroom, hopen, hpos⟩ := waitingState_ready
  obtain ⟨-, hfails, -⟩ := h 5 0 waitingState
  obtain ⟨t, hexec, -, -, hposted⟩ := hfails waitingRequest waitingRecord ⟨hreq, rfl, rfl⟩
  obtain ⟨-, hnext, -⟩ := hposted ⟨hstate, hheld, hroom, hopen⟩
  have hnone := waitingState_posts_nothing
  unfold postsNothing at hnone
  rw [hexec] at hnone
  have hzero : (t.ringAt 0).cqPos = 0 := by simpa using hnone
  have hone : (t.ringAt 0).cqPos = (waitingState.ringAt 0).cqPos + 1 := hnext
  rw [hpos, hzero] at hone
  exact absurd hone (by decide)

end Sys2Proof.Machine
end

section
/-! SUPPORT. Host writes into the window, and what an entry does in phase D (R330, R333, R344, R352, R354). -/

namespace Sys2Proof.Machine

set_option Elab.async false

variable {s t u : State} {ps : List Part} {ks : List Nat} {k : Nat}

/-! ### Host writes of one line -/

theorem lineCuts_one {a : Nat} {bs : List Byte} (hne : bs ≠ []) (hfits : a % 64 + bs.length ≤ 64) : lineCuts (bs.length / 64 + 2) a bs = [(a, bs)] := by
  have hempty : bs.isEmpty = false := List.isEmpty_eq_false_iff.mpr hne
  have htake : bs.take (64 - a % 64) = bs := List.take_of_length_le (by omega)
  have hdrop : bs.drop (64 - a % 64) = [] := List.drop_eq_nil_of_le (by omega)
  rw [lineCuts, hempty]
  dsimp only
  rw [htake, hdrop, if_neg (by decide), lineCuts]
  rfl

theorem State.tallyHostWrite_framed (s : State) (fn off n event : Nat) : framed [.cnt] [] s (s.tallyHostWrite fn off n event) :=
  (framed.foldl _ _ (fun _ _ => State.tally_framed ..) s).trans (State.tallyPort_framed ..)

/-- A function reaches a window offset. -/
def State.reaches (s : State) (fn off : Nat) : Prop := ∃ n, s.winOwner off = some n ∧ (fn = 0 ∨ n = fn)

theorem State.hostLine_outside {fn off : Nat} (bs : List Byte) (h : ¬s.reaches fn off) :
    s.hostLine fn off bs = s.countScoped Reg.WIN_OOB (some fn) 1 := by
  unfold State.hostLine
  cases howner : s.winOwner off with
  | none => rfl
  | some n =>
    have hfn : (fn == 0 || n == fn) = false := by
      by_contra hreach
      exact h ⟨n, howner, by simpa only [Bool.not_eq_false, Bool.or_eq_true, beq_iff_eq] using hreach⟩
    dsimp only
    rw [hfn]
    rfl

theorem State.hostLine_inside {fn off : Nat} (bs : List Byte) (h : s.reaches fn off) : s.hostLine fn off bs =
    match s.immutableBy off with
    | [] => s.winWrite off bs
    | r :: rs => (r :: rs).foldl (fun u x => u.noteInput off x) (s.countScoped Reg.WIN_IMMUT_WRITES (some r.inst) 1) := by
  obtain ⟨n, howner, hreach⟩ := h
  have hfn : (fn == 0 || n == fn) = true := by simpa using hreach
  unfold State.hostLine
  rw [howner]
  dsimp only
  rw [hfn]
  rfl

theorem State.hostLine_free {fn off : Nat} (bs : List Byte) (h : s.reaches fn off) (hfree : s.immutableBy off = []) :
    s.hostLine fn off bs = s.winWrite off bs := by
  rw [State.hostLine_inside bs h, hfree]

/-- A discarded write counted and noted for the requests it met. -/
def State.lineRefused (s : State) (off : Nat) (r : Request) (rs : List Request) : State :=
  (r :: rs).foldl (fun u x => u.noteInput off x) (s.countScoped Reg.WIN_IMMUT_WRITES (some r.inst) 1)

theorem State.hostLine_immutable {fn off : Nat} (bs : List Byte) (h : s.reaches fn off) {r : Request} {rs : List Request}
    (himm : s.immutableBy off = r :: rs) : s.hostLine fn off bs = s.lineRefused off r rs := by
  rw [State.hostLine_inside bs h, himm]
  rfl

theorem State.count_word (s : State) (off : Nat) : (s.count off 31 0 1).fld off 31 0 = satAdd 32 (s.fld off 31 0) 1 := by
  unfold State.count
  rw [State.fld_setFld _ _ 31 0 _ (by decide) (by decide)]
  refine Nat.mod_eq_of_lt ?_
  unfold satAdd
  omega

theorem State.countScoped_fld (s : State) (off inst : Nat) :
    (s.countScoped off (some inst) 1).fld off 31 0 = satAdd 32 (s.fld off 31 0) 1 := by
  have hkey : regKey 0 off ≠ regKey (inst + 1) off := by
    unfold regKey regSpan
    omega
  rw [← s.count_word off]
  unfold State.countScoped
  dsimp only
  exact congrArg (fun w => Word.field w 31 0) (State.regC_setRegC_ne _ _ _ _ _ _ hkey)

/-! ### Discarded writes noted -/

theorem State.noteInput_framed (s : State) (off : Nat) (r : Request) : framed (.reqs :: eventParts) eventRegs s (s.noteInput off r) :=
  ((s.updReq_framed r.handle _).widen (by simp) (by simp)).seq (State.raiseInst_framed ..) (fun _ h => List.mem_cons_of_mem _ h) (fun _ h => h)

theorem State.noteInput_events (s : State) (off : Nat) (r : Request) :
    (s.noteInput off r).events = s.events ++ [⟨0x4005, some r.inst, [handleWord r.gen r.handle, wordOf (off / 4096)], [r.inst]⟩] := by
  unfold State.noteInput
  rw [State.raiseInst_events, (State.updReq_framed ..).1 .events (by decide)]

theorem State.noteInputs_events (l : List Request) (s : State) (off : Nat) : (l.foldl (fun u x => u.noteInput off x) s).events =
    s.events ++ l.map fun x => ⟨0x4005, some x.inst, [handleWord x.gen x.handle, wordOf (off / 4096)], [x.inst]⟩ := by
  induction l generalizing s with
  | nil => exact (List.append_nil _).symm
  | cons r rs ih => rw [List.foldl_cons, ih, State.noteInput_events, List.append_assoc]; rfl

theorem State.noteInputs_framed (l : List Request) (s : State) (off : Nat) :
    framed (.reqs :: eventParts) eventRegs s (l.foldl (fun u x => u.noteInput off x) s) := .foldl _ _ (fun v x => v.noteInput_framed off x) s

theorem State.lineRefused_shows (s : State) (off : Nat) (r : Request) (rs : List Request) : let t := s.lineRefused off r rs
    t.events = s.events ++ (r :: rs).map (fun x => ⟨0x4005, some x.inst, [handleWord x.gen x.handle, wordOf (off / 4096)], [x.inst]⟩)
    ∧ t.fld Reg.WIN_IMMUT_WRITES 31 0 = satAdd 32 (s.fld Reg.WIN_IMMUT_WRITES 31 0) 1
    ∧ framed (.reqs :: .cnt :: eventParts) (Reg.WIN_IMMUT_WRITES :: regKey (r.inst + 1) Reg.WIN_IMMUT_WRITES :: eventRegs) s t := by
  have hcount := s.countScoped_some_framed Reg.WIN_IMMUT_WRITES r.inst 1
  have hfld := s.countScoped_fld Reg.WIN_IMMUT_WRITES r.inst
  unfold State.lineRefused
  generalize s.countScoped Reg.WIN_IMMUT_WRITES (some r.inst) 1 = u at hcount hfld ⊢
  have hnotes := State.noteInputs_framed (r :: rs) u off
  refine ⟨?_, ?_, ?_⟩
  · exact (State.noteInputs_events ..).trans (by rw [hcount.1 .events (by decide)])
  · exact (hnotes.fld (by decide)).trans hfld
  · exact (hcount.widen (by simp [eventParts]) (by simp [scopedRegs])).seq hnotes (by simp +contextual) (by simp +contextual)

/-! ### Host writes -/

theorem exec_windowWrites (fn : BitVec 6) (off : BitVec 40) (cxlMem : Bool) (data : List Byte) (s : State) :
    ∀ c ∈ [Instr.windowWrite fn off cxlMem data, .inputWrite fn off cxlMem data],
      exec c s = keep s (if s.barServed then s.hostWrite fn.toNat off.toNat (if cxlMem then 1 else 2) data else s) := by
  simp only [List.forall_mem_cons, List.not_mem_nil, false_implies, implies_true, and_true]
  exact ⟨rfl, rfl⟩

theorem State.hostWrite_line (s : State) (fn off event : Nat) {bs : List Byte} (hne : bs ≠ []) (hfits : s.winAbs fn off % 64 + bs.length ≤ 64) :
    s.hostWrite fn off event bs = (s.hostLine fn (s.winAbs fn off) bs).tallyHostWrite fn (s.winAbs fn off) bs.length event := by
  unfold State.hostWrite
  rw [lineCuts_one hne hfits, List.foldl_cons, List.foldl_nil]

/-- Settles O44: a write of one line is stored in both copies, is out of bounds, or meets immutable lines. -/
theorem hostWritesReachTheWindow : Obligations.HostWritesReachTheWindow := by
  unfold Obligations.HostWritesReachTheWindow
  intro fn off cxlMem data s hne a hfits reach c hc
  have hrun := exec_windowWrites fn off cxlMem data s c hc
  have htally : ∀ u : State, framed [.cnt] [] u (u.tallyHostWrite fn.toNat a data.length (if cxlMem then 1 else 2)) := fun u =>
    u.tallyHostWrite_framed _ _ _ _
  have hserves : s.barServed = true → exec c s =
      keep s ((s.hostLine fn.toNat a data).tallyHostWrite fn.toNat a data.length (if cxlMem then 1 else 2)) := fun hserved => by
    rw [hrun, if_pos hserved, State.hostWrite_line _ _ _ _ hne hfits]
  refine ⟨fun hclosed => ?_, fun hserved hreach hfree => ?_, fun hserved hreach => ?_, fun hserved hreach r rs himm => ?_⟩
  · rw [hrun, if_neg (by rw [hclosed]; decide), keep_self]
  · rw [hserves hserved, State.hostLine_free data hreach hfree]
    have hcnt := htally (s.winWrite a data)
    have hall := ((s.winWrite_framed a data).widen (qs := [.win, .winM, .cnt]) (js := [])).seq hcnt
    refine ⟨_, rfl, ?_, ?_, ?_, ?_, hall.kept⟩
    · rw [State.kept_mem, hcnt.mem (by decide)]
      exact memRead_write ..
    · rw [State.kept_mem, hcnt.mem (by decide)]
      exact memRead_write ..
    · rw [State.kept_mem, hcnt.mem (by decide)]
      exact sameOutside.write s.mem.win a 0 data
    · rw [State.kept_mem, hcnt.mem (by decide)]
      exact sameOutside.write s.mem.winM a 0 data
  · rw [hserves hserved, State.hostLine_outside data hreach]
    have hcnt := htally (s.countScoped Reg.WIN_OOB (some fn.toNat) 1)
    have hall := ((s.countScoped_framed Reg.WIN_OOB (some fn.toNat) 1).widen (qs := [.regs, .cnt])
      (js := [Reg.WIN_OOB, regKey (fn.toNat + 1) Reg.WIN_OOB]) (by simp) (by simp)).seq hcnt
    refine ⟨_, rfl, ?_, hall.kept⟩
    rw [State.kept_fld, hcnt.fld (by decide), State.countScoped_fld]
  · rw [hserves hserved, State.hostLine_immutable data hreach himm]
    obtain ⟨hevents, hfld, hframe⟩ := s.lineRefused_shows a r rs
    have hcnt := htally (s.lineRefused a r rs)
    refine ⟨_, rfl, ?_, ?_, (hframe.seq hcnt).kept⟩
    · rw [State.kept_events, hcnt.1 .events (by decide), hevents]
    · rw [State.kept_fld, hcnt.fld (by decide), hfld]

end Sys2Proof.Machine
end

section
/-! SUPPORT. What an entry does when it takes effect (R344, R352, R354). -/

namespace Sys2Proof.Machine

set_option Elab.async false

variable {s t u : State} {ps : List Part} {ks : List Nat}

theorem State.handleAt_of (h : t.hs.handles = s.hs.handles) (n : Nat) : t.handleAt n = s.handleAt n := by
  unfold State.handleAt
  rw [h]

theorem State.handleAt_setHandle_ne (s : State) (h n : Nat) (x : Handle) (hn : n ≠ h) : (s.setHandle h x).handleAt n = s.handleAt n :=
  smGet_set_ne _ _ _ hn

theorem State.answer_framed (s : State) (k op : Nat) (e : Entry) (d : Decision) : framed [.cmdRecords] [] s (s.answer k op e d) :=
  ⟨fun p hp => by cases p <;> first | (simp at hp; done) | rfl, .of_regs rfl⟩

/-- An answer's record, from a state that agrees on the records before it and on the tick. -/
theorem State.answer_records {k op : Nat} {e : Entry} {d : Decision} (hrecords : t.hs.cmdRecords = s.hs.cmdRecords) (hcount : t.tk.count = s.tk.count) :
    (t.answer k op e d).hs.cmdRecords = s.hs.cmdRecords ++ [(k, s.tk.count, ⟨d.status, op, e.seq.toNat, e.handle, e.tag, 0, 0, s.tk.count, d.field, d.detail,
      0, d.result ++ List.replicate (8 - d.result.length) 0⟩)] := by
  rw [← hrecords, ← hcount]
  rfl

section
variable {k op n h : Nat} {e : Entry}

theorem State.takeEffect_badField {f : Nat} (hring : (s.ringAt k).state ≠ 0) (hbad : s.badField (s.ringAt k).inst op e = some f) :
    s.takeEffect k op e = s.answer k op e ⟨St.badField, f, 0, []⟩ := by
  refine (if_neg hring).trans ?_
  rw [hbad]

theorem State.takeEffect_badHandle (hring : (s.ringAt k).state ≠ 0) (hfields : s.badField (s.ringAt k).inst op e = none)
    (hnames : namesHandle op = true) (hnone : s.handleOf (s.ringAt k).inst e.handle = none) :
    s.takeEffect k op e = s.answer k op e (.no St.badHandle) := by
  refine (if_neg hring).trans ?_
  rw [hfields, hnames, hnone]
  rfl

theorem State.takeEffect_applied {d : Decision} (hring : (s.ringAt k).state ≠ 0) (hfields : s.badField (s.ringAt k).inst op e = none)
    (hhandle : namesHandle op = false ∨ s.handleOf (s.ringAt k).inst e.handle = some h)
    (happly : s.applyOp k (s.ringAt k).inst (e.handle.field 15 0) op e = (t, some d)) : s.takeEffect k op e = t.answer k op e d := by
  have hfound : (namesHandle op && (s.handleOf (s.ringAt k).inst e.handle).isNone) = false := by
    rcases hhandle with hnames | hsome
    · rw [hnames, Bool.false_and]
    · rw [hsome, Option.isNone_some, Bool.and_false]
  refine (if_neg hring).trans ?_
  rw [hfields]
  dsimp only
  rw [hfound, happly]
  rfl

theorem State.applyCreate_lowest {i : Nat} (hi : i < s.handleCount n) (hfree : (s.handleAt (s.handleFirst n + i)).state = 0)
    (hused : ∀ j < i, (s.handleAt (s.handleFirst n + j)).state ≠ 0) : s.applyCreate n =
      (s.setHandle (s.handleFirst n + i) { Handle.free with state := 1, gen := (s.handleAt (s.handleFirst n + i)).gen },
        .give [handleWord (s.handleAt (s.handleFirst n + i)).gen (s.handleFirst n + i)]) := by
  have hfind : (((List.range (s.handleCount n)).map (· + s.handleFirst n)).find? fun h => (s.handleAt h).state == 0) = some (s.handleFirst n + i) := by
    rw [List.find?_map]
    have hrange : (List.range (s.handleCount n)).find? ((fun h => (s.handleAt h).state == 0) ∘ (· + s.handleFirst n)) = some i := by
      rw [List.find?_range_eq_some]
      refine ⟨?_, List.mem_range.mpr hi, fun j hj => ?_⟩
      · simpa [Nat.add_comm] using hfree
      · simpa [Nat.add_comm] using hused j hj
    rw [hrange, Option.map_some, Nat.add_comm]
  unfold State.applyCreate
  rw [hfind]

theorem State.applyBind_identity (hstate : (s.handleAt h).state ≠ 3) (hnone : (entryOp e 5).bit 0 = true) : s.applyBind n h e =
    (s.setHandle h { s.handleAt h with state := 2, route := (entryOp e 5).field 31 24, lexId := (entryOp e 4).field 23 0, noInfl := true }, .ok) := by
  unfold State.applyBind
  dsimp only
  rw [if_neg hstate, hnone]
  rfl

end

theorem State.endNext_framed (s : State) (h status : Nat) : framed [.reqs] [] s (s.endNext h status) :=
  (s.endReq_framed h status).seq (State.updReq_framed ..)

theorem State.applyDestroy_framed (s : State) (h : Nat) : framed [.handles, .reqs] [] s (s.applyDestroy h).1 :=
  ((s.setHandle_framed h _).widen).seq (State.endNext_framed ..)

theorem State.applyDestroy_handle (s : State) (h : Nat) : (s.applyDestroy h).1.handleAt h = { s.handleAt h with freeing := true } :=
  (State.handleAt_of ((State.endNext_framed ..).1 .handles (by decide)) h).trans (State.handleAt_setHandle ..)

/-- Settles O39: the checks come first, then what the opcode does. -/
theorem entriesTakeEffect : Obligations.EntriesTakeEffect := by
  unfold Obligations.EntriesTakeEffect
  intro k op e s hring n t h answered
  have hanswers : ∀ u : State, ∀ d : Decision, ∀ qs : List Part, framed qs [] s u → .cmdRecords ∉ qs → .tickCount ∉ qs → t = u.answer k op e d → d.detail = 0 →
      answered d.status d.field d.result ∧ changesOnly (.cmdRecords :: qs) s t := by
    intro u d qs hu hrecords hcount ht hdetail
    rw [ht]
    refine ⟨?_, ((hu.widen (js := []) (fun _ hp => List.mem_cons_of_mem _ hp)).seq (u.answer_framed k op e d)).1⟩
    have hall := State.answer_records (k := k) (op := op) (e := e) (d := d) (hu.1 .cmdRecords hrecords) (hu.1 .tickCount hcount)
    rw [hdetail] at hall
    change t.hs.cmdRecords = _
    rw [ht, hall]
  refine ⟨fun f hbad => ?_, fun hfields hnames hnone => ?_, fun hfields => ⟨fun hop => ?_, ?_, ?_, ?_⟩⟩
  · exact hanswers s ⟨St.badField, f, 0, []⟩ [] .refl (by decide) (by decide) (State.takeEffect_badField hring hbad) rfl
  · exact hanswers s (.no St.badHandle) [] .refl (by decide) (by decide) (State.takeEffect_badHandle hring hfields hnames hnone) rfl
  · subst hop
    exact hanswers s .ok [] .refl (by decide) (by decide) (State.takeEffect_applied (h := 0) hring hfields (.inl (by decide)) rfl) rfl
  · rintro hop i hi hfree hused
    subst hop
    intro g
    have happly := State.applyCreate_lowest hi hfree hused
    have hset := s.setHandle_framed (s.handleFirst n + i) { Handle.free with state := 1, gen := g }
    have htake : t = (s.setHandle (s.handleFirst n + i) { Handle.free with state := 1, gen := g }).answer k 0x01 e
        (.give [handleWord g (s.handleFirst n + i)]) :=
      State.takeEffect_applied (h := 0) hring hfields (.inl (by decide))
        (congrArg (fun x : State × Decision => (x.1, some x.2)) happly)
    obtain ⟨hanswered, hparts⟩ := hanswers _ _ _ hset (by decide) (by decide) htake rfl
    have hhandles : t.hs.handles = (s.setHandle (s.handleFirst n + i) { Handle.free with state := 1, gen := g }).hs.handles := by
      rw [htake]
      exact (State.answer_framed ..).1 .handles (by decide)
    refine ⟨?_, hanswered, fun j hj => ?_, hparts.widen⟩
    · rw [State.handleAt_of hhandles, State.handleAt_setHandle]
    · rw [State.handleAt_of hhandles, State.handleAt_setHandle_ne _ _ _ _ hj]
  · intro hop hhandle hstate hnone
    subst hop
    have happly := State.applyBind_identity (n := n) hstate hnone
    have hset := s.setHandle_framed h
      { s.handleAt h with state := 2, route := (entryOp e 5).field 31 24, lexId := (entryOp e 4).field 23 0, noInfl := true }
    have htake : t = (s.setHandle h { s.handleAt h with state := 2, route := (entryOp e 5).field 31 24, lexId := (entryOp e 4).field 23 0, noInfl := true }).answer
        k 0x02 e .ok :=
      State.takeEffect_applied hring hfields (.inr hhandle) (congrArg (fun x : State × Decision => (x.1, some x.2)) happly)
    obtain ⟨hanswered, hparts⟩ := hanswers _ _ _ hset (by decide) (by decide) htake rfl
    refine ⟨?_, hanswered, hparts.widen⟩
    rw [htake, State.handleAt_of ((State.answer_framed ..).1 .handles (by decide)), State.handleAt_setHandle]
  · intro hop hhandle
    subst hop
    have hdestroy := s.applyDestroy_framed h
    have htake : t = (s.applyDestroy h).1.answer k 0x04 e .ok := State.takeEffect_applied hring hfields (.inr hhandle) rfl
    obtain ⟨hanswered, hparts⟩ := hanswers _ _ _ hdestroy (by decide) (by decide) htake rfl
    refine ⟨?_, hanswered, hparts.widen⟩
    rw [htake, State.handleAt_of ((State.answer_framed ..).1 .handles (by decide)), State.applyDestroy_handle]

end Sys2Proof.Machine
end

section
/-! SUPPORT. Attachment, heartbeats and the management queue (R327, R341, R355, R360). -/

namespace Sys2Proof.Machine

set_option Elab.async false

variable {s t u : State} {ps : List Part} {ks : List Nat} {n m : Nat}

/-! ### Registers of copies -/

theorem regKey_ne_of_copy {c c' off off' : Nat} (hc : c ≠ c') (hoff : off < regSpan) (hoff' : off' < regSpan) : regKey c off ≠ regKey c' off' := by
  unfold regKey regSpan at *
  omega

theorem regKey_ne_of_off (c : Nat) {off off' : Nat} (h : off ≠ off') : regKey c off ≠ regKey c off' := by
  unfold regKey
  omega

theorem regKey_not_event (n off : Nat) : regKey (n + 1) off ∉ eventRegs := by
  unfold eventRegs regKey regSpan Reg.BBX_STATUS Reg.BBX_LOST
  simp only [List.mem_cons, List.not_mem_nil, or_false]
  omega

theorem State.regC_setFldC (s : State) (c off hi lo v : Nat) : (s.setFldC c off hi lo v).regC c off = (s.regC c off).setField hi lo v :=
  State.regC_setRegC ..

@[simp] theorem State.kept_instAt (s t : State) (n : Nat) : (s.kept t).instAt n = t.instAt n := rfl

theorem framed.attachState (h : framed ps ks s t) (n : Nat) (hk : regKey (n + 1) Reg.WIN_ATTACH_STATE ∉ ks) : t.attachState n = s.attachState n := by
  unfold State.attachState
  rw [h.regC hk]

theorem State.instAt_of (h : t.insts = s.insts) (n : Nat) : t.instAt n = s.instAt n := by
  unfold State.instAt
  rw [h]

theorem State.raiseInst_regC (s : State) (code inst : Nat) (ws : List Word) (n off : Nat) :
    (s.raiseInst code inst ws).regC (n + 1) off = s.regC (n + 1) off := (State.raiseInst_framed ..).regC (regKey_not_event n off)

/-! ### An instance detached -/

/-- An instance shown detached with its cause. -/
def State.detachShown (s : State) (n cause : Nat) : State :=
  (s.setFldC (n + 1) Reg.WIN_ATTACH_STATE 31 30 2).setFldC (n + 1) Reg.WIN_ATTACH_STATE 29 28 cause

theorem State.detachNow_attached (h : s.attachState n = 1) (cause : Nat) :
    s.detachNow n cause = (s.detachShown n cause).raiseInst 0x4003 n [wordOf cause] := if_neg (by omega)

theorem State.detachNow_other (h : s.attachState n ≠ 1) (cause : Nat) : s.detachNow n cause = s := if_pos h

theorem State.detachShown_framed (s : State) (n cause : Nat) : framed [.regs] [regKey (n + 1) Reg.WIN_ATTACH_STATE] s (s.detachShown n cause) :=
  (State.setFldC_framed ..).seq (State.setFldC_framed ..)

theorem State.detachNow_framed (s : State) (n cause : Nat) :
    framed eventParts (regKey (n + 1) Reg.WIN_ATTACH_STATE :: eventRegs) s (s.detachNow n cause) := by
  unfold State.detachNow
  split
  · exact .refl
  · exact ((s.detachShown_framed n cause).widen (by simp [eventParts]) (by simp)).seq (State.raiseInst_framed ..) (fun _ h => h) (by simp +contextual)

theorem State.detachShown_state (s : State) (n cause : Nat) : (s.detachShown n cause).attachState n = 2 := by
  unfold State.attachState State.detachShown
  rw [State.regC_setFldC, State.regC_setFldC, Word.field_setField_ne _ 29 28 _ 31 30 (by decide) (by decide) (by decide),
    Word.field_setField _ 31 30 _ (by decide) (by decide)]
  rfl

theorem State.detachShown_cause (s : State) (n cause : Nat) :
    ((s.detachShown n cause).regC (n + 1) Reg.WIN_ATTACH_STATE).field 29 28 = cause % 4 := by
  unfold State.detachShown
  rw [State.regC_setFldC, Word.field_setField _ 29 28 _ (by decide) (by decide)]
  rfl

/-- An ATTACHED instance detached: its state, its cause and its event. -/
theorem State.detachNow_shows (h : s.attachState n = 1) (cause : Nat) : (s.detachNow n cause).attachState n = 2
    ∧ ((s.detachNow n cause).regC (n + 1) Reg.WIN_ATTACH_STATE).field 29 28 = cause % 4
    ∧ (s.detachNow n cause).events = s.events ++ [⟨0x4003, some n, [wordOf cause], [n]⟩] := by
  rw [State.detachNow_attached h]
  refine ⟨?_, ?_, ?_⟩
  · exact ((State.raiseInst_framed ..).attachState n (regKey_not_event n _)).trans (s.detachShown_state n cause)
  · rw [State.raiseInst_regC, State.detachShown_cause]
  · rw [State.raiseInst_events, (s.detachShown_framed n cause).1 .events (by decide)]

theorem State.detachNow_regC_other (s : State) (cause : Nat) (h : m ≠ n ∨ s.attachState m ≠ 1) :
    (s.detachNow n cause).regC (m + 1) Reg.WIN_ATTACH_STATE = s.regC (m + 1) Reg.WIN_ATTACH_STATE := by
  by_cases hsame : m = n
  · subst hsame
    rw [State.detachNow_other (h.resolve_left fun g => g rfl)]
  · refine (s.detachNow_framed n cause).regC fun hk => ?_
    rcases List.mem_cons.mp hk with hk | hk
    · exact regKey_ne_of_copy (by omega) (by decide) (by decide) hk
    · exact regKey_not_event m _ hk

theorem State.detachNow_told (s : State) (n cause : Nat) : toldStays s (s.detachNow n cause) := by
  by_cases h : s.attachState n = 1
  · intro e he
    rw [(State.detachNow_shows h cause).2.2]
    exact List.mem_append_left _ he
  · rw [State.detachNow_other h]
    exact fun _ he => he

/-! ### Every instance detached -/

/-- Instances detached in turn. -/
def State.detachEach (s : State) (l : List Nat) (cause : Nat) : State := l.foldl (fun u n => u.detachNow n cause) s

theorem State.detachEach_told (s : State) (l : List Nat) (cause : Nat) : toldStays s (s.detachEach l cause) :=
  .foldl _ _ (fun v n => v.detachNow_told n cause) s

theorem State.detachEach_changes (s : State) (l : List Nat) (cause : Nat) : changesOnly eventParts s (s.detachEach l cause) :=
  .foldl _ _ (fun v n => (v.detachNow_framed n cause).1) s

theorem State.detachEach_regC (l : List Nat) (s : State) (cause : Nat) (h : m ∉ l ∨ s.attachState m ≠ 1) :
    (s.detachEach l cause).regC (m + 1) Reg.WIN_ATTACH_STATE = s.regC (m + 1) Reg.WIN_ATTACH_STATE := by
  induction l generalizing s with
  | nil => rfl
  | cons n l ih =>
    have hhead : m ≠ n ∨ s.attachState m ≠ 1 := h.imp_left fun g e => g (e ▸ List.mem_cons_self)
    have hone := s.detachNow_regC_other cause hhead
    have htail : m ∉ l ∨ (s.detachNow n cause).attachState m ≠ 1 := by
      refine h.imp (fun g e => g (List.mem_cons_of_mem _ e)) fun g => ?_
      unfold State.attachState at g ⊢
      rwa [hone]
    exact (ih (s.detachNow n cause) htail).trans hone

/-- An ATTACHED instance among those detached in turn. -/
theorem State.detachEach_shows (l : List Nat) (s : State) (cause : Nat) (hm : m ∈ l) (h : s.attachState m = 1) :
    (s.detachEach l cause).attachState m = 2 ∧ ((s.detachEach l cause).regC (m + 1) Reg.WIN_ATTACH_STATE).field 29 28 = cause % 4
    ∧ ⟨0x4003, some m, [wordOf cause], [m]⟩ ∈ (s.detachEach l cause).events := by
  induction l generalizing s with
  | nil => cases hm
  | cons n l ih =>
    by_cases hmn : m = n
    · subst hmn
      obtain ⟨hstate, hcause, htold⟩ := State.detachNow_shows h cause
      have hrest := State.detachEach_regC l (s.detachNow m cause) cause (m := m) (.inr (by omega))
      refine ⟨?_, ?_, (s.detachNow m cause).detachEach_told l cause _ ?_⟩
      · exact (congrArg (Word.field · 31 30) hrest).trans hstate
      · exact (congrArg (Word.field · 29 28) hrest).trans hcause
      · rw [htold]
        exact List.mem_append_right _ (List.mem_singleton.mpr rfl)
    · have hkeep := s.detachNow_regC_other (n := n) cause (.inl hmn)
      exact ih (s.detachNow n cause) ((List.mem_cons.mp hm).resolve_left hmn) ((congrArg (Word.field · 31 30) hkeep).trans h)

/-- Instances detached in turn leave the package's own registers, but those of the black box. -/
theorem State.detachEach_reg (l : List Nat) (s : State) (cause : Nat) {off : Nat} (hoff : off < regSpan) (hevent : off ∉ eventRegs) :
    (s.detachEach l cause).reg off = s.reg off := by
  induction l generalizing s with
  | nil => rfl
  | cons n l ih =>
    refine (ih (s.detachNow n cause)).trans ((s.detachNow_framed n cause).reg fun hk => ?_)
    rcases List.mem_cons.mp hk with hk | hk
    · exact regKey_ne_of_copy (c := 0) (c' := n + 1) (by omega) hoff (by decide) ((regKey_zero off).trans hk)
    · exact hevent hk

/-! ### IDE streams and the link -/

/-- No IDE streams, as SEC_STATUS shows it. -/
def State.ideCleared (s : State) : State := { s with trust := { s.trust with ideStreams := [] } }.setFld Reg.SEC_STATUS 28 28 (b2n false)

/-- No IDE streams, with the event where they were secure. -/
def State.ideTold (s : State) : State :=
  if false = (s.reg Reg.SEC_STATUS).bit 28 then s.ideCleared else s.ideCleared.raisePf 0x6007 [wordOf (b2n false), wordOf 0]

theorem State.setIde_none (s : State) :
    s.setIde [] 0 = if s.ideTold.ideBlocks then s.ideTold.detachEach (List.range 64) 1 else s.ideTold := by
  have hnone : ((List.range s.ideNeeded).all fun n => ([] : List (Nat × Bool)).contains (n, true)) = false := by
    unfold State.ideNeeded
    split
    · rfl
    · rfl
  unfold State.setIde
  dsimp only
  rw [hnone]
  unfold State.detachEach State.ideTold State.ideCleared
  with_reducible rfl

theorem State.detachEach_settled (l : List Nat) (s : State) (cause : Nat) (h : ∀ m ∈ l, s.attachState m ≠ 1) : s.detachEach l cause = s := by
  induction l with
  | nil => rfl
  | cons n l ih =>
    unfold State.detachEach at ih ⊢
    rw [List.foldl_cons, State.detachNow_other (h n List.mem_cons_self)]
    exact ih fun m hm => h m (List.mem_cons_of_mem _ hm)

theorem State.detachEach_twice (l : List Nat) (s : State) (cause : Nat) : (s.detachEach l cause).detachEach l cause = s.detachEach l cause := by
  refine State.detachEach_settled l _ cause fun m hm => ?_
  by_cases h : s.attachState m = 1
  · rw [(State.detachEach_shows l s cause hm h).1]
    decide
  · unfold State.attachState at h ⊢
    rwa [State.detachEach_regC l s cause (.inr h)]

/-- The link down in WIN_LINK, counted. -/
def State.linkShown (s : State) : State := (s.setReg Reg.WIN_LINK ((s.reg Reg.WIN_LINK).setField 31 22 0)).count Reg.WIN_LINK 15 0 1

/-- The link down. -/
def State.linkDown (s : State) : State := { s.linkShown with hs := { s.linkShown.hs with linkUp := false } }

theorem State.linkReset_eq (s : State) : s.linkReset = s.linkDown.ideTold.detachEach (List.range 64) 1 := by
  have hide : s.linkReset = (s.linkDown.setIde [] 0).detachEach (List.range 64) 1 := by
    unfold State.linkReset State.detachEach State.linkDown State.linkShown
    with_reducible rfl
  rw [hide, State.setIde_none]
  split
  · exact State.detachEach_twice ..
  · rfl

theorem State.linkShown_framed (s : State) : framed [.regs] [Reg.WIN_LINK] s s.linkShown := (s.setReg_framed _ _).seq (State.count_framed ..)

theorem State.linkDown_framed (s : State) : framed [.regs, .linkUp] [Reg.WIN_LINK] s s.linkDown :=
  (s.linkShown_framed.widen).seq (framed_linkUp _ false)

theorem State.linkDown_linkUp (s : State) : s.linkDown.hs.linkUp = false := rfl

theorem State.linkDown_reg (s : State) (off : Nat) : s.linkDown.reg off = s.linkShown.reg off := by
  unfold State.linkDown
  exact (framed_linkUp s.linkShown false).reg (by simp)

theorem State.linkShown_fields (s : State) : s.linkShown.fld Reg.WIN_LINK 31 22 = 0
    ∧ s.linkShown.fld Reg.WIN_LINK 15 0 = satAdd 16 (s.fld Reg.WIN_LINK 15 0) 1 := by
  have hset : State.fld (s.setReg Reg.WIN_LINK ((s.reg Reg.WIN_LINK).setField 31 22 0)) Reg.WIN_LINK 15 0 = s.fld Reg.WIN_LINK 15 0 := by
    unfold State.fld
    rw [State.reg_setReg, Word.field_setField_ne _ 31 22 _ 15 0 (by decide) (by decide) (by decide)]
  unfold State.linkShown State.count
  refine ⟨?_, ?_⟩
  · rw [State.fld_setFld_ne _ _ 15 0 _ 31 22 (by decide) (by decide) (by decide)]
    unfold State.fld
    rw [State.reg_setReg, Word.field_setField _ 31 22 _ (by decide) (by decide)]
    rfl
  · rw [State.fld_setFld _ _ 15 0 _ (by decide) (by decide), hset]
    refine Nat.mod_eq_of_lt ?_
    unfold satAdd
    omega

theorem State.ideCleared_framed (s : State) : framed [.trust, .regs] [Reg.SEC_STATUS] s s.ideCleared :=
  ((framed_trust s _).widen).seq (State.setFld_framed ..)

theorem State.ideTold_framed (s : State) : framed (.trust :: eventParts) (Reg.SEC_STATUS :: eventRegs) s s.ideTold := by
  have hclear : framed (.trust :: eventParts) (Reg.SEC_STATUS :: eventRegs) s s.ideCleared := s.ideCleared_framed.widen (by simp [eventParts]) (by simp)
  unfold State.ideTold
  split
  · exact hclear
  · exact hclear.seq (State.raisePf_framed ..) (by simp +contextual) (by simp +contextual)

theorem State.ideTold_streams (s : State) : s.ideTold.trust.ideStreams = [] ∧ s.ideTold.fld Reg.SEC_STATUS 28 28 = 0 := by
  have hfld : s.ideCleared.fld Reg.SEC_STATUS 28 28 = 0 := State.fld_setFld _ _ 28 28 _ (by decide) (by decide)
  unfold State.ideTold
  split
  · exact ⟨rfl, hfld⟩
  · have htold := s.ideCleared.raisePf_framed 0x6007 [wordOf (b2n false), wordOf 0]
    exact ⟨congrArg Trust.ideStreams (htold.1 .trust (by decide)), (htold.fld (by decide)).trans hfld⟩

theorem State.ideTold_told (s : State) : toldStays s s.ideTold := by
  have hclear : toldStays s s.ideCleared := .of_changes s.ideCleared_framed.1
  unfold State.ideTold
  split
  · exact hclear
  · refine hclear.trans fun e he => ?_
    rw [State.raisePf_events]
    exact List.mem_append_left _ he

/-- The link lost: down and counted, no IDE stream, every attached instance detached with cause 1, the clock's field and what was told kept. -/
def linkLost (s t : State) : Prop :=
  (t.hs.linkUp = false ∧ t.trust.ideStreams = [] ∧ t.fld Reg.WIN_LINK 31 22 = 0 ∧ t.fld Reg.WIN_LINK 15 0 = satAdd 16 (s.fld Reg.WIN_LINK 15 0) 1
    ∧ t.fld Reg.SEC_STATUS 28 28 = 0)
  ∧ (∀ m < 64, s.attachState m = 1 → t.attachState m = 2 ∧ (t.regC (m + 1) Reg.WIN_ATTACH_STATE).field 29 28 = 1
      ∧ ⟨0x4003, some m, [1], [m]⟩ ∈ t.events)
  ∧ (∀ m < 64, s.attachState m ≠ 1 → t.attachState m = s.attachState m) ∧ t.fld Reg.CLK_STATUS 30 30 = s.fld Reg.CLK_STATUS 30 30 ∧ toldStays s t

theorem linkLost.kept (h : linkLost s t) (k : State) : linkLost s (k.kept t) := h

/-- What changes no attachment and no WIN_LINK may come before. -/
theorem linkLost.after (h : linkLost u t) (hattach : ∀ m, u.attachState m = s.attachState m)
    (hlink : u.fld Reg.WIN_LINK 15 0 = s.fld Reg.WIN_LINK 15 0) :
    (t.hs.linkUp = false ∧ t.trust.ideStreams = [] ∧ t.fld Reg.WIN_LINK 31 22 = 0 ∧ t.fld Reg.WIN_LINK 15 0 = satAdd 16 (s.fld Reg.WIN_LINK 15 0) 1
      ∧ t.fld Reg.SEC_STATUS 28 28 = 0)
    ∧ (∀ m < 64, s.attachState m = 1 → t.attachState m = 2 ∧ (t.regC (m + 1) Reg.WIN_ATTACH_STATE).field 29 28 = 1
        ∧ ⟨0x4003, some m, [1], [m]⟩ ∈ t.events)
    ∧ (∀ m < 64, s.attachState m ≠ 1 → t.attachState m = s.attachState m) := by
  obtain ⟨hregs, hone, hother, -, -⟩ := h
  rw [hlink] at hregs
  refine ⟨hregs, fun m hm g => hone m hm ((hattach m).trans g), fun m hm g => ?_⟩
  rw [← hattach m]
  exact hother m hm (by rwa [hattach m])

theorem State.linkReset_changes (s : State) : changesOnly (.linkUp :: .trust :: eventParts) s s.linkReset := by
  rw [State.linkReset_eq]
  exact (((s.linkDown_framed.1.widen (by simp [eventParts])).seq s.linkDown.ideTold_framed.1 (by simp +contextual))).seq
    (State.detachEach_changes _ _ _) (by simp +contextual)

theorem State.linkReset_linkLost (s : State) : linkLost s s.linkReset := by
  have hdown := s.linkDown_framed
  have htold := s.linkDown.ideTold_framed
  have hboth : framed (.linkUp :: .trust :: eventParts) (Reg.WIN_LINK :: Reg.SEC_STATUS :: eventRegs) s s.linkDown.ideTold :=
    (hdown.widen (by simp [eventParts]) (by simp)).seq htold (by simp +contextual) (by simp +contextual)
  obtain ⟨hhigh, hlow⟩ := s.linkShown_fields
  obtain ⟨hstreams, hsecure⟩ := s.linkDown.ideTold_streams
  have hmono : toldStays s s.linkDown.ideTold := (toldStays.of_changes hdown.1).trans s.linkDown.ideTold_told
  have hlink : s.linkDown.ideTold.hs.linkUp = false := (htold.1 .linkUp (by decide)).trans s.linkDown_linkUp
  have hwin : s.linkDown.ideTold.reg Reg.WIN_LINK = s.linkShown.reg Reg.WIN_LINK := (htold.reg (by decide)).trans (s.linkDown_reg _)
  rw [State.linkReset_eq]
  generalize s.linkDown.ideTold = v at hboth hstreams hsecure hmono hlink hwin ⊢
  have hregs : ∀ {off hi lo : Nat}, off < regSpan → off ∉ eventRegs → (v.detachEach (List.range 64) 1).fld off hi lo = v.fld off hi lo :=
    fun hoff hevent => congrArg (Word.field · _ _) (State.detachEach_reg _ v 1 hoff hevent)
  have hattach : ∀ m, v.attachState m = s.attachState m := fun m => hboth.attachState m fun hk => by
    rcases List.mem_cons.mp hk with hk | hk
    · exact regKey_ne_of_copy (c := m + 1) (c' := 0) (by omega) (by decide) (by decide) (hk.trans (regKey_zero _).symm)
    · rcases List.mem_cons.mp hk with hk | hk
      · exact regKey_ne_of_copy (c := m + 1) (c' := 0) (by omega) (by decide) (by decide) (hk.trans (regKey_zero _).symm)
      · exact regKey_not_event m _ hk
  have hall := v.detachEach_changes (List.range 64) 1
  refine ⟨⟨?_, ?_, ?_, ?_, ?_⟩, fun m hm hone => ?_, fun m hm hother => ?_, ?_, hmono.trans (v.detachEach_told _ 1)⟩
  · rw [hall .linkUp (by decide), hlink]
  · rw [hall .trust (by decide), hstreams]
  · rw [hregs (by decide) (by decide), ← hhigh]
    exact congrArg (Word.field · 31 22) hwin
  · rw [hregs (by decide) (by decide), ← hlow]
    exact congrArg (Word.field · 15 0) hwin
  · rw [hregs (by decide) (by decide), hsecure]
  · obtain ⟨hstate, hcause, hevent⟩ := State.detachEach_shows (List.range 64) v 1 (List.mem_range.mpr hm) ((hattach m).trans hone)
    exact ⟨hstate, hcause, hevent⟩
  · rw [← hattach m] at hother ⊢
    exact congrArg (Word.field · 31 30) (State.detachEach_regC (List.range 64) v 1 (.inr hother))
  · rw [hregs (by decide) (by decide), hboth.fld (by decide)]


/-! ### Heartbeats -/

theorem exec_heartbeatWrite (fn : BitVec 6) (beat : Word) (s : State) :
    exec (.heartbeatWrite fn beat) s = keep s ((s.setRegC (fn.toNat + 1) Reg.WIN_HEARTBEAT beat).restartBeat fn.toNat) := rfl

theorem exec_heartbeatTimeout (fn : BitVec 6) (s : State) :
    exec (.heartbeatTimeout fn) s = keep s (if s.beatDue fn.toNat then s.detachNow fn.toNat 0 else s) := rfl

theorem State.restartBeat_framed (s : State) (n : Nat) : framed [.insts] [] s (s.restartBeat n) := State.updInst_framed ..

theorem State.restartBeat_instAt (s : State) (n : Nat) :
    (s.restartBeat n).instAt n = { s.instAt n with beat := if s.frozen n then 0 else s.tk.now } := State.instAt_updInst ..

theorem State.restartBeat_instAt_ne (s : State) (h : m ≠ n) : (s.restartBeat n).instAt m = s.instAt m := State.instAt_updInst_ne _ _ _ _ h

/-- The state of a link whose loss was that of HOST_REFCLK, or another. -/
def State.refclkLost (s : State) : State := (s.free.2.setFld Reg.CLK_STATUS 30 30 0).raisePf 0x8009 [1]

theorem exec_hostLinkReset (s : State) :
    exec .hostLinkReset s = keep s (if s.free.1 % 2 = 1 then s.refclkLost.linkReset else s.free.2.linkReset) := rfl

theorem State.refclkLost_framed (s : State) : framed (.freeCtr :: eventParts) (Reg.CLK_STATUS :: eventRegs) s s.refclkLost :=
  (((framed_freeCtr s _).widen (by simp) (by simp)).seq (State.setFld_framed s.free.2 _ _ _ _) (by simp [eventParts]) (by simp)).seq
    (State.raisePf_framed ..) (by simp +contextual) (by simp +contextual)

theorem State.refclkLost_fields (s : State) : s.refclkLost.fld Reg.CLK_STATUS 30 30 = 0 ∧ ⟨0x8009, none, [1], []⟩ ∈ s.refclkLost.events := by
  unfold State.refclkLost
  refine ⟨?_, ?_⟩
  · rw [(State.raisePf_framed ..).fld (by decide), State.fld_setFld _ _ 30 30 _ (by decide) (by decide)]
    rfl
  · rw [State.raisePf_events]
    exact List.mem_append_right _ (List.mem_singleton.mpr rfl)

theorem regKey_copy_ne_package (n : Nat) {off off' : Nat} (hoff : off < regSpan) (hoff' : off' < regSpan) : regKey (n + 1) off ≠ off' := by
  unfold regKey regSpan at *
  omega

/-- Settles O46: a heartbeat restarts the timer, and a missed one or the loss of the link detaches. -/
theorem attachmentIsLost : Obligations.AttachmentIsLost := by
  unfold Obligations.AttachmentIsLost
  intro fn s n
  refine ⟨fun beat => ?_, fun hdue hone => ?_, fun hno => ?_, ?_⟩
  · have hset := s.setRegC_framed (n + 1) Reg.WIN_HEARTBEAT beat
    have hfrozen : (s.setRegC (n + 1) Reg.WIN_HEARTBEAT beat).frozen n = s.frozen n := by
      have hstate : (s.setRegC (n + 1) Reg.WIN_HEARTBEAT beat).instState n = s.instState n := hset.fld fun hk => by
        have hn : n < 64 := fn.isLt
        rw [List.mem_singleton, ← regKey_zero (Reg.DEV_INST_STATE n)] at hk
        exact regKey_ne_of_copy (by omega) (by unfold Reg.DEV_INST_STATE regSpan; omega) (by decide) hk
      unfold State.frozen
      rw [hstate]
    refine ⟨_, exec_heartbeatWrite fn beat s, ?_, ?_, fun m hm => ?_, ((hset.widen).seq (State.restartBeat_framed ..)).kept⟩
    · rw [State.kept_regC, (State.restartBeat_framed ..).regC (by simp), State.regC_setRegC]
    · rw [State.kept_instAt, State.restartBeat_instAt, hfrozen, State.instAt_of (hset.1 .insts (by decide))]
      exact congrArg (fun x => { s.instAt n with beat := if s.frozen n then 0 else x }) (hset.1 .now (by decide))
    · rw [State.kept_instAt, State.restartBeat_instAt_ne _ hm, State.instAt_of (hset.1 .insts (by decide))]
  · obtain ⟨hstate, hcause, hevents⟩ := State.detachNow_shows hone 0
    rw [exec_heartbeatTimeout, if_pos hdue]
    exact ⟨_, rfl, hstate, hcause, hevents, (s.detachNow_framed n 0).kept⟩
  · have hstay : (if s.beatDue n then s.detachNow n 0 else s) = s := by
      by_cases hdue : s.beatDue n = true
      · rw [if_pos hdue]
        refine State.detachNow_other ?_ 0
        rcases hno with hms | hfrozen | hearly | hother
        · exact absurd hdue (by unfold State.beatDue; dsimp only; rw [hms]; exact Bool.false_ne_true)
        · exact absurd hdue (by unfold State.beatDue; dsimp only; rw [hfrozen, Bool.not_true, Bool.and_false, Bool.false_and]; exact Bool.false_ne_true)
        · rw [hearly] at hdue
          exact absurd hdue Bool.false_ne_true
        · exact hother
      · rw [if_neg hdue]
    exact (exec_heartbeatTimeout fn s).trans ((congrArg (keep s) hstay).trans (keep_self s))
  · rw [exec_hostLinkReset]
    by_cases hrefclk : s.free.1 % 2 = 1
    · have hbefore := s.refclkLost_framed
      have hattach : ∀ m, s.refclkLost.attachState m = s.attachState m := fun m => hbefore.attachState m (by
        simp [regKey_not_event, regKey_copy_ne_package m (off := Reg.WIN_ATTACH_STATE) (off' := Reg.CLK_STATUS) (by decide) (by decide)])
      have hlost := s.refclkLost.linkReset_linkLost.kept s
      have hall := s.refclkLost.linkReset_changes
      obtain ⟨hfld, hevent⟩ := s.refclkLost_fields
      rw [if_pos hrefclk]
      generalize s.refclkLost.linkReset = v at hlost hall ⊢
      obtain ⟨⟨hlink, hstreams, hhigh, hlow, hsecure⟩, hone, hother⟩ := hlost.after hattach (hbefore.fld (by decide))
      obtain ⟨-, -, -, hclk, htold⟩ := hlost
      exact ⟨_, rfl, hlink, hstreams, hhigh, hlow, hsecure, hone, hother, by rw [if_pos hrefclk]; exact ⟨hclk.trans hfld, htold _ hevent⟩,
        ((hbefore.1.widen (by simp +contextual)).seq hall (by simp +contextual)).kept⟩
    · have hlost := s.free.2.linkReset_linkLost.kept s
      have hall := s.free.2.linkReset_changes
      have hfree := framed_freeCtr s (s.freeCtr + 1)
      rw [if_neg hrefclk]
      generalize s.free.2.linkReset = v at hlost hall ⊢
      obtain ⟨⟨hlink, hstreams, hhigh, hlow, hsecure⟩, hone, hother⟩ := hlost.after (s := s) (fun _ => rfl) rfl
      obtain ⟨-, -, -, hclk, -⟩ := hlost
      exact ⟨_, rfl, hlink, hstreams, hhigh, hlow, hsecure, hone, hother, by rw [if_neg hrefclk]; exact hclk,
        ((hfree.1.widen (by simp +contextual)).seq hall (by simp +contextual)).kept⟩

end Sys2Proof.Machine
end

section
/-! SUPPORT. The management queue and what it decides (R341, R355, R360). -/

namespace Sys2Proof.Machine

set_option Elab.async false

variable {s t u : State} {ps : List Part} {ks : List Nat} {n m fn : Nat}

/-! ### A GO -/

/-- A management command taken with its arguments. -/
def State.mgqTaken (s : State) (fn op : Nat) : State :=
  let s1 := s.setFldC (fn + 1) Reg.MGQ_STATUS 31 30 1
  { s1 with hs := { s1.hs with mgq := s1.hs.mgq ++ [⟨fn, op, (List.range 6).map fun i => s.regC (fn + 1) (Reg.MGQ_ARG i)⟩] } }

theorem State.mgqGo_busy (h : (s.regC (fn + 1) Reg.MGQ_STATUS).field 31 30 = 1) (op : Nat) : s.mgqGo fn op = s := if_pos h

theorem State.mgqGo_taken (h : (s.regC (fn + 1) Reg.MGQ_STATUS).field 31 30 ≠ 1) (op : Nat) : s.mgqGo fn op = s.mgqTaken fn op := if_neg h

theorem State.mgqTaken_framed (s : State) (fn op : Nat) : framed [.mgq, .regs] [regKey (fn + 1) Reg.MGQ_STATUS] s (s.mgqTaken fn op) :=
  ((s.setFldC_framed (fn + 1) Reg.MGQ_STATUS 31 30 1).widen).seq (framed_mgq _ _)

theorem State.mgqTaken_busy (s : State) (fn op : Nat) : ((s.mgqTaken fn op).regC (fn + 1) Reg.MGQ_STATUS).field 31 30 = 1 := by
  have hset : ((s.setFldC (fn + 1) Reg.MGQ_STATUS 31 30 1).regC (fn + 1) Reg.MGQ_STATUS).field 31 30 = 1 := by
    rw [State.regC_setFldC, Word.field_setField _ 31 30 _ (by decide) (by decide)]
    rfl
  unfold State.mgqTaken
  dsimp only
  rw [(framed_mgq _ _).regC (by simp)]
  exact hset

theorem State.mgqTaken_mgq (s : State) (fn op : Nat) :
    (s.mgqTaken fn op).hs.mgq = s.hs.mgq ++ [⟨fn, op, (List.range 6).map fun i => s.regC (fn + 1) (Reg.MGQ_ARG i)⟩] := by
  unfold State.mgqTaken
  dsimp only
  rw [State.setFldC_hs]

theorem exec_management (fn : BitVec 6) (s : State) :
    ∀ x ∈ [(1, Instr.ringCreate fn), (2, .ringDestroy fn), (3, .ringResume fn), (4, .attach fn), (5, .detach fn)],
      exec x.2 s = keep s (s.mgqGo fn.toNat x.1) := by
  simp only [List.forall_mem_cons, List.not_mem_nil, false_implies, implies_true, and_true]
  exact ⟨rfl, rfl, rfl, rfl, rfl⟩

/-! ### Decisions shown -/

/-- A decision shown with DONE. -/
def State.mgqDone (s : State) (fn : Nat) (d : Decision) : State :=
  s.setRegC (fn + 1) Reg.MGQ_STATUS (wordOf (2 * 0x40000000 + d.status % 256 * 0x10000 + d.field % 512 * 128))

theorem State.mgqDone_framed (s : State) (fn : Nat) (d : Decision) : framed [.regs] [regKey (fn + 1) Reg.MGQ_STATUS] s (s.mgqDone fn d) :=
  s.setRegC_framed _ _ _

theorem State.mgqDone_status (s : State) (fn : Nat) {st : Nat} (hst : st < 256) :
    (s.mgqDone fn (.no st)).regC (fn + 1) Reg.MGQ_STATUS = wordOf (0x80000000 + st * 0x10000) := by
  unfold State.mgqDone
  rw [State.regC_setRegC, show (Decision.no st).status = st from rfl, show (Decision.no st).field = 0 from rfl, Nat.mod_eq_of_lt hst]
  rfl

theorem State.mgqStep_resume (s : State) (fn : Nat) (args : List Word) :
    s.mgqStep ⟨fn, 3, args⟩ = (s.mgqRingResume fn args).1.mgqDone fn (s.mgqRingResume fn args).2 := rfl

theorem State.mgqStep_attach (s : State) (fn : Nat) (args : List Word) : s.mgqStep ⟨fn, 4, args⟩ =
    (s.mgqAttach fn (BitVec.ofNat 64 ((wordAt args 0).toNat + 0x100000000 * (wordAt args 1).toNat))).1.mgqDone fn
      (s.mgqAttach fn (BitVec.ofNat 64 ((wordAt args 0).toNat + 0x100000000 * (wordAt args 1).toNat))).2 := rfl

theorem State.mgqStep_detach (s : State) (fn : Nat) (args : List Word) :
    s.mgqStep ⟨fn, 5, args⟩ = (s.mgqDetach fn).1.mgqDone fn (s.mgqDetach fn).2 := rfl

theorem State.mgqDone_attachState (s : State) (fn n : Nat) (d : Decision) : (s.mgqDone fn d).attachState n = s.attachState n :=
  (s.mgqDone_framed fn d).attachState n (by
    rw [List.mem_singleton]
    unfold regKey regSpan Reg.WIN_ATTACH_STATE Reg.MGQ_STATUS
    omega)

/-! ### A ring resumed -/

theorem State.mgqRingResume_valid {args : List Word} (hring : (wordAt args 0).field 13 0 < s.ringCount fn) (hrsv : (wordAt args 0).field 31 14 = 0) :
    s.mgqRingResume fn args = match (s.ringAt (s.ringFirst fn + (wordAt args 0).field 13 0)).state with
      | 0 => (s, .no St.notFound)
      | 2 => (s.updRing (s.ringFirst fn + (wordAt args 0).field 13 0) fun r => { r with state := 1, mismatch := none }, .ok)
      | _ => (s, .no St.busy) := by
  unfold State.mgqRingResume
  dsimp only
  rw [decide_eq_true hring, hrsv]
  rfl

/-! ### Tokens -/

/-- Every instance keeps its token. -/
def tokensKept (s t : State) : Prop := ∀ n, (t.instAt n).token = (s.instAt n).token

theorem tokensKept.trans (h : tokensKept s t) (g : tokensKept t u) : tokensKept s u := fun n => (g n).trans (h n)

theorem tokensKept.of_changes (h : changesOnly ps s t) (hp : Part.insts ∉ ps := by simp) : tokensKept s t := fun n =>
  congrArg Inst.token (State.instAt_of (h .insts hp) n)

theorem tokensKept.foldl {α : Type} (f : State → α → State) (l : List α) (h : ∀ v x, tokensKept v (f v x)) (s : State) :
    tokensKept s (l.foldl f s) := by
  induction l generalizing s with
  | nil => exact fun _ => rfl
  | cons x l ih => exact (h s x).trans (ih _)

theorem State.logPages_tokens (s : State) (n a len : Nat) (win : Bool) : tokensKept s (s.logPages n a len win) := by
  unfold State.logPages
  split
  · intro m
    by_cases hm : m = n
    · subst hm
      rw [State.instAt_updInst]
    · rw [State.instAt_updInst_ne _ _ _ _ hm]
  · exact fun _ => rfl

theorem State.placePut_tokens (s : State) (n : Nat) (host : Bool) (a : Nat) (bs : List Byte) : tokensKept s (s.placePut n host a bs) := by
  unfold State.placePut
  split
  · exact ((tokensKept.of_changes (framed_host s (memWrite s.mem.host a bs)).1).trans (State.logPages_tokens _ _ _ _ _)).trans
      (.of_changes (State.tallyCache_framed ..).1)
  · exact (tokensKept.of_changes (s.winWrite_framed a bs).1).trans (State.logPages_tokens _ _ _ _ _)

theorem State.cqPut_tokens (s : State) (k : Nat) (ws : List Word) : tokensKept s (s.cqPut k ws) :=
  ((s.placePut_tokens _ _ _ _).trans (.of_changes (State.setRing_framed ..).1)).trans (.of_changes (State.tally_framed ..).1)

theorem State.postOne_tokens {k : Nat} (h : s.postOne k = some t) : tokensKept s t := by
  unfold State.postOne at h
  dsimp only at h
  split at h
  · cases h
  · split at h
    · cases h
    · cases h
      exact ((tokensKept.of_changes (s.setRing_framed k _).1).trans (State.cqPut_tokens _ _ _)).trans (.of_changes (State.untracked_framed _ _).1)

theorem State.postHeld_tokens (k fuel : Nat) (s : State) : tokensKept s (s.postHeld k fuel) := by
  induction fuel generalizing s with
  | zero => exact fun _ => rfl
  | succ fuel ih =>
    rw [State.postHeld]
    split
    next s1 h => exact (State.postOne_tokens h).trans (ih s1)
    next => exact fun _ => rfl

theorem State.postEvents_tokens (s : State) (k : Nat) : tokensKept s (s.postEvents k) := by
  unfold State.postEvents
  dsimp only
  split
  · exact fun _ => rfl
  · exact (tokensKept.of_changes (s.setRing_framed k _).1).trans (.foldl _ _ (fun v ws => v.cqPut_tokens k ws) _)

/-! ### An instance attached -/

/-- An instance shown attached with its token. -/
def State.attachSet (s : State) (n : Nat) (token : BitVec 64) : State :=
  ((s.setFldC (n + 1) Reg.WIN_ATTACH_STATE 31 30 1).updInst n fun i => { i with token := some token }).restartBeat n

/-- Its event told. -/
def State.attachTold (s : State) (n : Nat) (token : BitVec 64) : State :=
  (s.attachSet n token).raiseInst 0x4004 n [wordOf (s.heldFor n)]

/-- The held records and events of rings posted. -/
def State.postRings (s : State) (l : List (Nat × Ring)) : State := l.foldl (fun u p => (u.postHeld p.1 p.2.held.length).postEvents p.1) s

theorem State.attachNow_eq (s : State) (n : Nat) (token : BitVec 64) :
    s.attachNow n token = (s.attachTold n token).postRings ((s.attachTold n token).hs.rings.filter fun p => p.2.inst == n) := by
  unfold State.attachNow State.postRings State.attachTold State.attachSet
  with_reducible rfl

theorem State.postRings_framed (s : State) (l : List (Nat × Ring)) : framed postParts [] s (s.postRings l) := by
  unfold State.postRings
  exact .foldl _ _ (fun v (p : Nat × Ring) => (State.postHeld_framed p.1 _ v).seq (State.postEvents_framed ..) (by simp [putParts, postParts])) s

theorem State.postRings_tokens (s : State) (l : List (Nat × Ring)) : tokensKept s (s.postRings l) := by
  unfold State.postRings
  exact .foldl _ _ (fun v (p : Nat × Ring) => (State.postHeld_tokens p.1 _ v).trans (State.postEvents_tokens _ _)) s

theorem State.attachSet_shows (s : State) (n : Nat) (token : BitVec 64) :
    (s.attachSet n token).attachState n = 1 ∧ ((s.attachSet n token).instAt n).token = some token := by
  unfold State.attachSet
  refine ⟨?_, ?_⟩
  · rw [(State.restartBeat_framed ..).attachState n (by simp), (State.updInst_framed ..).attachState n (by simp)]
    unfold State.attachState
    rw [State.regC_setFldC, Word.field_setField _ 31 30 _ (by decide) (by decide)]
    rfl
  · rw [State.restartBeat_instAt, State.instAt_updInst]

/-- An instance attached: its state, its token and its event. -/
theorem State.attachNow_shows (s : State) (n : Nat) (token : BitVec 64) : (s.attachNow n token).attachState n = 1
    ∧ ((s.attachNow n token).instAt n).token = some token ∧ ∃ e ∈ (s.attachNow n token).events, e.code = 0x4004 ∧ e.inst = some n := by
  obtain ⟨hstate, htoken⟩ := s.attachSet_shows n token
  have htold := (s.attachSet n token).raiseInst_framed 0x4004 n [wordOf (s.heldFor n)]
  have hevents := (s.attachSet n token).raiseInst_events 0x4004 n [wordOf (s.heldFor n)]
  rw [State.attachNow_eq]
  change framed _ _ _ (s.attachTold n token) at htold
  change (s.attachTold n token).events = _ at hevents
  generalize s.attachTold n token = v at htold hevents ⊢
  have hpost := v.postRings_framed (v.hs.rings.filter fun p => p.2.inst == n)
  refine ⟨?_, ?_, ⟨0x4004, some n, [wordOf (s.heldFor n)], [n]⟩, ?_, rfl, rfl⟩
  · rw [hpost.attachState n (by simp), htold.attachState n (regKey_not_event n _), hstate]
  · rw [State.postRings_tokens _ _ n, State.instAt_of (htold.1 .insts (by decide)), htoken]
  · rw [hpost.1 .events (by decide), hevents]
    exact List.mem_append_right _ (List.mem_singleton.mpr rfl)

theorem State.mgqDone_instAt (s : State) (fn n : Nat) (d : Decision) : (s.mgqDone fn d).instAt n = s.instAt n :=
  State.instAt_of ((s.mgqDone_framed fn d).1 .insts (by decide)) n

theorem State.mgqAttach_first (hide : s.ideBlocks = false) (hstate : s.attachState fn = 0) (token : BitVec 64) :
    s.mgqAttach fn token = (s.attachNow fn token, .ok) := by
  unfold State.mgqAttach
  rw [hide, hstate]
  rfl

theorem State.mgqDetach_attached (hstate : s.attachState fn = 1) : s.mgqDetach fn = (s.detachNow fn 2, .ok) := if_pos hstate

theorem State.mgqDetach_other (hstate : s.attachState fn ≠ 1) : s.mgqDetach fn = (s, .no St.busy) := if_neg hstate

theorem State.updRing_framed (s : State) (k : Nat) (f : Ring → Ring) : framed [.rings] [] s (s.updRing k f) := s.setRing_framed k _

/-- Settles O45: a GO waits with its arguments, and the landing decides it and shows DONE. -/
theorem managementDecided : Obligations.ManagementDecided := by
  unfold Obligations.ManagementDecided
  refine ⟨fun fn s x hx => ⟨fun hbusy => ?_, fun hfree => ?_⟩, fun fn args s hfn => ?_⟩
  · rw [exec_management fn s x hx, State.mgqGo_busy hbusy, keep_self]
  · refine ⟨_, (exec_management fn s x hx).trans (congrArg (keep s) (State.mgqGo_taken hfree x.1)), ?_, ?_, (s.mgqTaken_framed fn.toNat x.1).kept⟩
    · rw [State.kept_regC, State.mgqTaken_busy]
    · rw [State.kept_hs, State.mgqTaken_mgq]
  · intro w done
    refine ⟨?_, fun hide hstate => ?_, fun hstate => ?_, fun hstate => ?_⟩
    · intro k hring hrsv t
      have ht : t = (s.mgqRingResume fn args).1.mgqDone fn (s.mgqRingResume fn args).2 := State.mgqStep_resume s fn args
      rw [State.mgqRingResume_valid hring hrsv] at ht
      clear_value t
      have hsame : ∀ d, t = s.mgqDone fn d → t.ringAt k = s.ringAt k := fun d hd => by
        rw [hd]
        exact State.ringAt_of ((s.mgqDone_framed fn d).1 .rings (by decide)) k
      refine ⟨fun h2 => ?_, fun h1 => ?_, fun h0 => ?_, ?_⟩
      · rw [h2] at ht
        subst ht
        refine ⟨?_, State.mgqDone_status _ fn (by decide)⟩
        rw [State.ringAt_of ((State.mgqDone_framed ..).1 .rings (by decide)) k]
        exact State.ringAt_setRing ..
      · rw [h1] at ht
        exact ⟨hsame _ ht, by rw [ht]; exact State.mgqDone_status _ fn (by decide)⟩
      · rw [h0] at ht
        exact ⟨hsame _ ht, by rw [ht]; exact State.mgqDone_status _ fn (by decide)⟩
      · rw [ht]
        split
        · exact (State.mgqDone_framed ..).widen
        · exact ((State.updRing_framed ..).widen).seq (State.mgqDone_framed ..)
        · exact (State.mgqDone_framed ..).widen
    · intro t
      have ht : t = _ := State.mgqStep_attach s fn args
      rw [State.mgqAttach_first hide hstate] at ht
      obtain ⟨hattached, htoken, e, he, hcode, hinst⟩ :=
        s.attachNow_shows fn (BitVec.ofNat 64 ((wordAt args 0).toNat + 0x100000000 * (wordAt args 1).toNat))
      clear_value t
      subst ht
      generalize s.attachNow fn (BitVec.ofNat 64 ((wordAt args 0).toNat + 0x100000000 * (wordAt args 1).toNat)) = v at hattached htoken he ⊢
      refine ⟨?_, ?_, State.mgqDone_status _ fn (by decide), e, ?_, hcode, hinst⟩
      · rw [State.mgqDone_attachState, hattached]
      · rw [State.mgqDone_instAt, htoken]
      · rw [(State.mgqDone_framed ..).1 .events (by decide)]
        exact he
    · intro t
      have ht : t = _ := State.mgqStep_detach s fn args
      rw [State.mgqDetach_attached hstate] at ht
      obtain ⟨hdetached, hcause, hevents⟩ := State.detachNow_shows hstate 2
      clear_value t
      subst ht
      generalize s.detachNow fn 2 = v at hdetached hcause hevents ⊢
      refine ⟨?_, ?_, State.mgqDone_status _ fn (by decide), ?_⟩
      · rw [State.mgqDone_attachState, hdetached]
      · rw [(State.mgqDone_framed ..).regC (by
          rw [List.mem_singleton]
          exact regKey_ne_of_off _ (by decide)), hcause]
      · rw [(State.mgqDone_framed ..).1 .events (by decide), hevents]
        rfl
    · intro t
      have ht : t = _ := State.mgqStep_detach s fn args
      rw [State.mgqDetach_other hstate] at ht
      rw [ht]
      exact ⟨State.mgqDone_attachState .., State.mgqDone_status _ fn (by decide)⟩

end Sys2Proof.Machine
end

section
/-! SUPPORT. Instances: operations, pause, save, restore and reset (R370 to R381). -/

namespace Sys2Proof.Machine

set_option Elab.async false

variable {s t u : State} {ps : List Part} {ks : List Nat} {n m : Nat}

/-! ### States told -/

/-- The registers that an instance's change of state may change. -/
def instRegs (n : Nat) : List Nat := Reg.DEV_INST_STATE n :: eventRegs

theorem instState_reg_lt (hn : n < 64) : Reg.DEV_INST_STATE n < 0x2000 := by
  unfold Reg.DEV_INST_STATE
  omega

theorem instState_not_event (hn : n < 64) : Reg.DEV_INST_STATE n ∉ eventRegs := fun hk => by
  have hlt := instState_reg_lt hn
  unfold eventRegs Reg.BBX_STATUS Reg.BBX_LOST at hk
  simp only [List.mem_cons, List.not_mem_nil, or_false] at hk
  omega

theorem State.toInstState_framed (s : State) (n st status : Nat) : framed eventParts (instRegs n) s (s.toInstState n st status) :=
  ((s.setFld_framed (Reg.DEV_INST_STATE n) 31 28 st).widen (by simp [eventParts]) (by simp [instRegs])).seq (State.raiseInst_framed ..)
    (fun _ h => h) (by simp +contextual [instRegs])

theorem State.toInstState_events (s : State) (n st status : Nat) : (s.toInstState n st status).events =
    s.events ++ [⟨0x5003, some n, [n, st, status, s.tk.count.toNat].map wordOf, [n]⟩] := by
  unfold State.toInstState
  rw [State.raiseInst_events, State.setFld_events]

theorem State.toInstState_state (s : State) (hn : n < 64) {st : Nat} (hst : st < 16) (status : Nat) : (s.toInstState n st status).instState n = st := by
  unfold State.toInstState State.instState
  rw [(State.raiseInst_framed ..).fld (instState_not_event hn), State.fld_setFld _ _ 31 28 _ (by decide) (by decide)]
  exact Nat.mod_eq_of_lt hst

/-- An instance's change of state told. -/
def stateTold (n st status : Nat) (s t : State) : Prop := t.instState n = st
  ∧ t.events = s.events ++ [⟨0x5003, some n, [n, st, status, s.tk.count.toNat].map wordOf, [n]⟩]

/-- A change of state told after steps that raise no event. -/
theorem State.toInstState_told (h : changesOnly ps s u) (hevents : Part.events ∉ ps) (hcount : Part.tickCount ∉ ps) (hn : n < 64) {st : Nat}
    (hst : st < 16) (status : Nat) : stateTold n st status s (u.toInstState n st status) := by
  refine ⟨u.toInstState_state hn hst status, ?_⟩
  have hsame : u.tk.count = s.tk.count := h .tickCount hcount
  rw [State.toInstState_events, h .events hevents, hsame]

theorem stateTold.kept {st status : Nat} (h : stateTold n st status s t) (k : State) : stateTold n st status s (k.kept t) := h

/-! ### Operations queued -/

theorem exec_instOperations (inst : BitVec 6) (s : State) :
    ∀ x ∈ [(1, Instr.pause inst), (2, .freeze inst), (3, .thaw inst), (4, .save inst), (5, .restore inst), (6, .logStart inst), (7, .logStop inst)],
      exec x.2 s = keep s (s.queueInstOp inst.toNat x.1) := by
  simp only [List.forall_mem_cons, List.not_mem_nil, false_implies, implies_true, and_true]
  exact ⟨rfl, rfl, rfl, rfl, rfl, rfl, rfl⟩

theorem State.queueInstOp_framed (s : State) (n op : Nat) : framed [.instOps] [] s (s.queueInstOp n op) := framed_instOps s _

/-! ### Pause -/

theorem exec_instancePaused (inst : BitVec 6) (s : State) : exec (.instancePaused inst) s = keep s (s.pausedStep inst.toNat) := rfl

theorem State.pausedStep_busy (h : s.instState n ≠ 1 ∨ (s.hs.reqs.any fun r => r.inst == n) = true) : s.pausedStep n = s := if_pos h

theorem State.pausedStep_clean (hstate : s.instState n = 1) (hreqs : (s.hs.reqs.any fun r => r.inst == n) = false) (hclean : s.dirtyOf n = []) :
    s.pausedStep n = s.toInstState n 2 St.ok := by
  refine (if_neg (by rw [hstate, hreqs]; decide)).trans ?_
  rw [hclean]
  exact if_pos rfl

/-! ### Reset -/

theorem exec_instanceReset (inst : BitVec 6) (s : State) : exec (.instanceReset inst) s =
    keep s ((s.endReqs St.revoked fun r => r.inst == inst.toNat).updInst inst.toNat fun i => { i with reset := true }) := rfl

/-- Requests whose endings are decided in turn: none of an instance stays live whose live requests are among them. -/
theorem endReqs_none_live (l : List Request) (s : State) (status : Nat)
    (h : ∀ r ∈ s.hs.reqs, r.inst = n → r.live = true → ∃ q ∈ l, q.handle = r.handle) :
    ∀ r ∈ (l.foldl (fun u r => u.endReq r.handle status) s).hs.reqs, r.inst = n → r.live = false := by
  induction l generalizing s with
  | nil =>
    intro r hr hinst
    by_contra hlive
    obtain ⟨q, hq, -⟩ := h r hr hinst (by simpa using hlive)
    cases hq
  | cons q l ih =>
    refine ih _ fun r hr hinst hlive => ?_
    unfold State.endReq State.updReq at hr
    obtain ⟨r0, hr0, rfl⟩ := List.mem_map.mp hr
    by_cases hhandle : r0.handle = q.handle
    · rw [if_pos hhandle] at hlive
      dsimp only at hlive
      by_cases hlive0 : r0.live = true
      · rw [if_pos hlive0] at hlive
        simp [Request.live] at hlive
      · rw [if_neg hlive0] at hlive
        exact absurd hlive hlive0
    · rw [if_neg hhandle] at hinst hlive ⊢
      obtain ⟨x, hx, hxr⟩ := h r0 hr0 hinst hlive
      rcases List.mem_cons.mp hx with rfl | hx
      · exact absurd hxr.symm hhandle
      · exact ⟨x, hx, hxr⟩

theorem State.endReqs_of_inst (s : State) (n status : Nat) :
    ∀ r ∈ (s.endReqs status fun r => r.inst == n).hs.reqs, r.inst = n → r.live = false :=
  endReqs_none_live _ s status fun r hr hinst hlive => ⟨r, List.mem_filter.mpr ⟨hr, by simp [hlive, hinst]⟩, rfl⟩

/-! ### Save -/

/-- The image written. -/
def State.imageWritten (s : State) (n : Nat) (ok : Bool) : State :=
  { s with images := (s.migPlace n, { s.saveImage n with valid := ok }) :: s.images.filter fun p => p.1 != s.migPlace n }

/-- Bytes of an image charged to its instance. -/
def State.imageCharged (s : State) (n left : Nat) : State := if n = 0 then s else s.charge n left

/-- No bytes of an image left. -/
def State.imageMoved (s : State) (n : Nat) : State := s.updInst n fun i => { i with imgLeft := 0 }

/-- Whether the image that a save writes is valid. -/
def State.saveGood (s : State) (n : Nat) : Bool := !s.savePoisoned n && !(s.instAt n).stopped && (s.instAt n).migKey.isSome

/-- A save's image written, charged and noted. -/
def State.saved (s : State) (n : Nat) : State :=
  let u := ((s.imageWritten n (s.saveGood n)).imageCharged n (s.instAt n).imgLeft).imageMoved n
  if s.ckHostOn n then u.logPages n (s.devMig n) (s.saveBytes n) false else u


/-- The saved instance's registers. -/
def State.savedShown (s : State) (n : Nat) : State := (s.saved n).setFld (Reg.DEV_INST_STATE n) 27 27 (b2n (s.saveGood n))

section
variable {inst : BitVec 6}

theorem exec_saveComplete_waits (h : s.instState inst.toNat ≠ 4 ∨ s.covered inst.toNat (.image inst.toNat) (s.instAt inst.toNat).imgLeft ≠ true) :
    exec (.saveComplete inst) s = .next s := by
  have hwaits : s.instState inst.toNat ≠ 4 ∨ (!s.covered inst.toNat (.image inst.toNat) (s.instAt inst.toNat).imgLeft) = true :=
    h.imp_right fun g => by simpa using g
  unfold exec
  dsimp only
  unfold execSaveComplete
  dsimp only
  rw [if_pos hwaits, keep_self]

theorem exec_saveComplete_saves (hstate : s.instState inst.toNat = 4)
    (hmoved : s.covered inst.toNat (.image inst.toNat) (s.instAt inst.toNat).imgLeft = true) :
    exec (.saveComplete inst) s = keep s ((s.savedShown inst.toNat).toInstState inst.toNat 3 St.ok) := by
  unfold exec
  dsimp only
  unfold execSaveComplete
  dsimp only
  rw [if_neg (by simp [hstate, hmoved])]
  rfl

end

theorem State.imageMoved_framed (s : State) (n : Nat) : framed [.insts] [] s (s.imageMoved n) := s.updInst_framed n _

theorem State.imageWritten_framed (s : State) (n : Nat) (ok : Bool) : framed [.images] [] s (s.imageWritten n ok) := framed_images s _

theorem State.imageCharged_framed (s : State) (n left : Nat) : framed [.fetched] [] s (s.imageCharged n left) :=
  .ite (fun _ => .refl) fun _ => s.charge_framed n left

theorem State.logPages_inst (s : State) (n a len : Nat) (win : Bool) (m : Nat) :
    ∃ l, (s.logPages n a len win).instAt m = { s.instAt m with logPages := l } := by
  unfold State.logPages
  split
  · by_cases hm : m = n
    · subst hm
      rw [State.instAt_updInst]
      exact ⟨_, rfl⟩
    · rw [State.instAt_updInst_ne _ _ _ _ hm]
      exact ⟨_, rfl⟩
  · exact ⟨_, rfl⟩

theorem State.saved_framed (s : State) (n : Nat) : framed [.images, .insts, .fetched] [] s (s.saved n) := by
  have hmoved : framed [.images, .insts, .fetched] [] s (((s.imageWritten n (s.saveGood n)).imageCharged n (s.instAt n).imgLeft).imageMoved n) :=
    (((s.imageWritten_framed n _).widen).seq (State.imageCharged_framed ..)).seq (State.imageMoved_framed ..)
  unfold State.saved
  exact .ite (fun _ => hmoved.seq (State.logPages_framed ..)) fun _ => hmoved

theorem State.imageMoved_left (s : State) (n : Nat) : ((s.imageMoved n).instAt n).imgLeft = 0 := by
  unfold State.imageMoved
  rw [State.instAt_updInst]

/-- The state of a save whose image has moved. -/
theorem State.saved_shows (s : State) (n : Nat) : ((s.saved n).instAt n).imgLeft = 0
    ∧ (s.saved n).images = (s.migPlace n, { s.saveImage n with valid := s.saveGood n }) :: s.images.filter fun p => p.1 != s.migPlace n := by
  have himages : (((s.imageWritten n (s.saveGood n)).imageCharged n (s.instAt n).imgLeft).imageMoved n).images =
      (s.migPlace n, { s.saveImage n with valid := s.saveGood n }) :: s.images.filter fun p => p.1 != s.migPlace n :=
    ((State.imageMoved_framed ..).1 .images (by decide)).trans ((State.imageCharged_framed ..).1 .images (by decide))
  have hleft := State.imageMoved_left ((s.imageWritten n (s.saveGood n)).imageCharged n (s.instAt n).imgLeft) n
  unfold State.saved
  generalize ((s.imageWritten n (s.saveGood n)).imageCharged n (s.instAt n).imgLeft).imageMoved n = v at himages hleft ⊢
  dsimp only
  split
  · obtain ⟨l, hl⟩ := v.logPages_inst n (s.devMig n) (s.saveBytes n) false n
    refine ⟨?_, ?_⟩
    · rw [hl]
      exact hleft
    · rw [(State.logPages_framed ..).1 .images (by decide), himages]
  · exact ⟨hleft, himages⟩

theorem Word.bit_eq_field (w : Word) (i : Nat) : w.bit i = decide (w.field i i = 1) := by
  have hfield : w.field i i = (w.toNat.testBit i).toNat := by
    unfold Word.field
    rw [show i + 1 - i = 1 by omega, Nat.toNat_testBit, Nat.pow_one]
  rw [hfield]
  unfold Word.bit
  rw [← BitVec.testBit_toNat]
  cases w.toNat.testBit i
  · rfl
  · rfl

theorem State.toInstState_bit27 (s : State) (hn : n < 64) (b : Bool) (st status : Nat) :
    (((s.setFld (Reg.DEV_INST_STATE n) 27 27 (b2n b)).toInstState n st status).reg (Reg.DEV_INST_STATE n)).bit 27 = b := by
  unfold State.toInstState
  rw [(State.raiseInst_framed ..).reg (instState_not_event hn), Word.bit_eq_field]
  have hfld : State.fld ((s.setFld (Reg.DEV_INST_STATE n) 27 27 (b2n b)).setFld (Reg.DEV_INST_STATE n) 31 28 st) (Reg.DEV_INST_STATE n) 27 27 = b2n b := by
    rw [State.fld_setFld_ne _ _ 31 28 _ 27 27 (by decide) (by decide) (by decide), State.fld_setFld _ _ 27 27 _ (by decide) (by decide)]
    cases b
    · rfl
    · rfl
  unfold State.fld at hfld
  rw [hfld]
  cases b
  · rfl
  · rfl

/-! ### Restore -/

/-- An image read, its bytes charged. -/
def State.imageRead (s : State) (n : Nat) : State :=
  (s.imageCharged n (s.instAt n).imgLeft).updInst n fun i => { i with restored := true, imgLeft := 0 }

section
variable {inst : BitVec 6}

theorem exec_restoreComplete_waits (h : s.instState inst.toNat ≠ 5 ∨ (s.instAt inst.toNat).restored = true
      ∨ s.covered inst.toNat (.image inst.toNat) (s.instAt inst.toNat).imgLeft ≠ true) : exec (.restoreComplete inst) s = .next s := by
  have hwaits : s.instState inst.toNat ≠ 5 ∨ (s.instAt inst.toNat).restored = true
      ∨ (!s.covered inst.toNat (.image inst.toNat) (s.instAt inst.toNat).imgLeft) = true :=
    h.imp_right fun g => g.imp_right fun g => by simpa using g
  unfold exec
  dsimp only
  unfold execRestoreComplete
  dsimp only
  rw [if_pos hwaits, keep_self]

theorem exec_restoreComplete_reads (hstate : s.instState inst.toNat = 5) (hnew : (s.instAt inst.toNat).restored = false)
    (hmoved : s.covered inst.toNat (.image inst.toNat) (s.instAt inst.toNat).imgLeft = true) :
    exec (.restoreComplete inst) s = keep s ((s.imageRead inst.toNat).queueInstOp inst.toNat 8) := by
  unfold exec
  dsimp only
  unfold execRestoreComplete
  dsimp only
  rw [if_neg (by simp [hstate, hnew, hmoved])]
  rfl

end

theorem State.imageRead_framed (s : State) (n : Nat) : framed [.insts, .fetched] [] s (s.imageRead n) :=
  ((s.imageCharged_framed n _).widen).seq (State.updInst_framed ..)

theorem State.imageRead_inst (s : State) (n : Nat) : (s.imageRead n).instAt n = { s.instAt n with restored := true, imgLeft := 0 } := by
  unfold State.imageRead
  rw [State.instAt_updInst, State.instAt_of ((s.imageCharged_framed n _).1 .insts (by decide))]

theorem State.imageRead_inst_ne (s : State) (h : m ≠ n) : (s.imageRead n).instAt m = s.instAt m := by
  unfold State.imageRead
  rw [State.instAt_updInst_ne _ _ _ _ h, State.instAt_of ((s.imageCharged_framed n _).1 .insts (by decide))]

/-! ### A read image restored -/

/-- The note that an image was read taken away. -/
def State.readTaken (s : State) (n : Nat) : State := s.updInst n fun i => { i with restored := false }

theorem State.readTaken_framed (s : State) (n : Nat) : framed [.insts] [] s (s.readTaken n) := s.updInst_framed n _

theorem State.readTaken_inst (s : State) (n : Nat) : (s.readTaken n).instAt n = { s.instAt n with restored := false } := State.instAt_updInst ..

theorem State.restoreStep_unread (h : (s.instAt n).restored = false) : s.restoreStep n = s := if_pos (.inr (by rw [h]; rfl))

/-- A restore's outcome shown and told. -/
def State.restoreShown (s : State) (n st : Nat) : State := (s.instStatus st).toInstState n 3 st

theorem State.restoreStep_none (hstate : s.instState n = 5) (hread : (s.instAt n).restored = true)
    (himage : (s.images.find? fun p => p.1 == s.migPlace n) = none) : s.restoreStep n = (s.readTaken n).restoreShown n St.auth := by
  have hat : (s.readTaken n).imageAt n = none := by
    unfold State.imageAt
    exact congrArg (Option.map _) himage
  unfold State.restoreStep
  rw [if_neg (by simp [hstate, hread]), ← State.readTaken]
  dsimp only
  rw [hat]
  rfl

theorem State.readTaken_imageStatus (s : State) (n : Nat) (img : Image) : (s.readTaken n).imageStatus n img = s.imageStatus n img := by
  have hkey : ((s.readTaken n).instAt n).migKey = (s.instAt n).migKey := by rw [State.readTaken_inst]
  unfold State.imageStatus
  rw [hkey]
  rfl

theorem State.restoreStep_some {p : Nat × Image} (hstate : s.instState n = 5) (hread : (s.instAt n).restored = true)
    (himage : (s.images.find? fun p => p.1 == s.migPlace n) = some p) (hruns : (s.instAt n).stopped = false) (hok : s.imageStatus n p.2 = St.ok) :
    s.restoreStep n = ((s.readTaken n).restoreImage n p.2).restoreShown n St.ok := by
  have hat : (s.readTaken n).imageAt n = some p.2 := by
    unfold State.imageAt
    exact congrArg (Option.map _) himage
  have hstopped : ((s.readTaken n).instAt n).stopped = false := by rw [State.readTaken_inst]; exact hruns
  unfold State.restoreStep
  rw [if_neg (by simp [hstate, hread]), ← State.readTaken]
  dsimp only
  rw [hat]
  dsimp only
  simp only [hstopped, State.readTaken_imageStatus, hok, Bool.false_eq_true, if_false, if_true]
  rfl

theorem State.instStatus_framed (s : State) (st : Nat) : framed [.regs] [Reg.DEV_INST_CTRL] s (s.instStatus st) := s.setFld_framed _ _ _ _

/-- A restore's outcome after steps that raise no event. -/
theorem State.restoreShown_shows (hevents : u.events = s.events) (hcount : u.tk.count = s.tk.count) (hn : n < 64) {st : Nat} (hst : st < 256) :
    stateTold n 3 st s (u.restoreShown n st) ∧ (u.restoreShown n st).fld Reg.DEV_INST_CTRL 7 0 = st
      ∧ framed eventParts (Reg.DEV_INST_CTRL :: instRegs n) u (u.restoreShown n st) := by
  have hstatus := u.instStatus_framed st
  have hframe := (u.instStatus st).toInstState_framed n 3 st
  have hctrl : Reg.DEV_INST_CTRL ∉ instRegs n := fun hk => by
    rcases List.mem_cons.mp hk with hk | hk
    · unfold Reg.DEV_INST_CTRL Reg.DEV_INST_STATE at hk
      omega
    · exact absurd hk (by decide)
  refine ⟨⟨State.toInstState_state _ hn (by decide) st, ?_⟩, ?_, ?_⟩
  · have hall := (u.instStatus st).toInstState_events n 3 st
    rw [hstatus.1 .events (by decide), hevents, (show (u.instStatus st).tk.count = u.tk.count from hstatus.1 .tickCount (by decide)), hcount] at hall
    exact hall
  · refine (hframe.fld hctrl).trans ?_
    exact (State.fld_setFld _ _ 7 0 _ (by decide) (by decide)).trans (Nat.mod_eq_of_lt hst)
  · exact (hstatus.widen (by simp [eventParts]) (by simp)).seq hframe (fun _ h => h) (by simp +contextual)

/-- The parts that a restored image may change. -/
def imageParts : List Part :=
  [.handles, .rings, .reqs, .immutable, .lex, .lexCopies, .slots, .train, .insts, .obj, .req, .ctx, .slot, .hdr, .hdrM, .win, .winM]

/-- The requests of an image, seated in the instance that it is restored to. -/
def State.imageReqs (s : State) (n : Nat) (img : Image) : List Request :=
  img.reqs.map fun r =>
    let left := ((img.remaining.find? fun p => p.1 == r.handle).map (·.2)).getD r.deadline
    { r with inst := n, admitted := s.tk.count - BitVec.ofNat 64 (-left).toNat, told := (if r.state = 0 then none else some (r.told.getD r.admitted)), deadline := left.toNat }

/-- An image's tables and bytes in place. -/
def State.imagePlaced (s : State) (n : Nat) (img : Image) : State :=
  let add := fun {β : Type} (m : SMap β) (x : SMap β) => x.foldl (fun a p => smInsert a p.1 p.2) m
  { s with
    hs := { s.hs with handles := add s.hs.handles img.handles, rings := add s.hs.rings img.rings, reqs := s.hs.reqs ++ s.imageReqs n img
                      immutable := s.hs.immutable ++ img.immutable }
    ls := { s.ls with slots := add s.ls.slots img.slots, train := add s.ls.train img.train }
    mem := s.withImageMem n img.mem }

theorem State.imagePlaced_framed (s : State) (n : Nat) (img : Image) : framed imageParts [] s (s.imagePlaced n img) :=
  ⟨fun p hp => by cases p <;> first | (simp [imageParts] at hp; done) | rfl, .of_regs rfl⟩

/-- An image's entries in the lexicon's directory. -/
def State.imageListed (s : State) (l : List (Nat × LexEntry)) : State :=
  l.foldl (fun u p => u.setLex p.1 { p.2 with manifest := (p.2.man.bind (manifestPlace (u.manifestRuns none))).getD p.2.manifest }) s

/-- An image's window pages noted. -/
def State.imagePages (s : State) (n : Nat) (l : List Nat) : State := l.foldl (fun u p => u.logPages n (4096 * p) 1 true) s

theorem State.restoreImage_eq (s : State) (n : Nat) (img : Image) : s.restoreImage n img =
    ((((s.imagePlaced n img).imageListed img.lex).imagePages n ((img.mem.win.map fun c => c.1 / 4096).dedup)).updInst n fun i =>
      { i with credit := img.credit, eng := img.eng, frozenAt := s.tk.count }) := rfl

theorem State.imageListed_framed (s : State) (l : List (Nat × LexEntry)) : framed [.lex, .lexCopies] [] s (s.imageListed l) := by
  unfold State.imageListed
  exact .foldl _ _ (fun v (p : Nat × LexEntry) => v.setLex_framed p.1 _) s

theorem State.imagePages_framed (s : State) (n : Nat) (l : List Nat) : framed [.insts] [] s (s.imagePages n l) := by
  unfold State.imagePages
  exact .foldl _ _ (fun v p => v.logPages_framed n _ _ _) s

/-- A restored image: its bytes, its account and its requests. -/
theorem State.restoreImage_shows (s : State) (n : Nat) (img : Image) : (s.restoreImage n img).mem = s.withImageMem n img.mem
    ∧ ((s.restoreImage n img).instAt n).credit = img.credit ∧ ((s.restoreImage n img).instAt n).eng = img.eng
    ∧ (s.restoreImage n img).hs.reqs = s.hs.reqs ++ s.imageReqs n img ∧ framed imageParts [] s (s.restoreImage n img) := by
  have hplaced := s.imagePlaced_framed n img
  have hmem : (s.imagePlaced n img).mem = s.withImageMem n img.mem := rfl
  have hreqs : (s.imagePlaced n img).hs.reqs = s.hs.reqs ++ s.imageReqs n img := rfl
  rw [State.restoreImage_eq]
  generalize s.imagePlaced n img = v at hplaced hmem hreqs ⊢
  have hlisted := v.imageListed_framed img.lex
  generalize v.imageListed img.lex = w at hlisted ⊢
  have hpages := w.imagePages_framed n ((img.mem.win.map fun c => c.1 / 4096).dedup)
  generalize w.imagePages n ((img.mem.win.map fun c => c.1 / 4096).dedup) = x at hpages ⊢
  have hupd := x.updInst_framed n fun i => { i with credit := img.credit, eng := img.eng, frozenAt := s.tk.count }
  refine ⟨?_, ?_, ?_, ?_, ((hplaced.seq hlisted (by simp [imageParts])).seq hpages (by simp [imageParts])).seq hupd (by simp [imageParts])⟩
  · rw [hupd.mem (by decide), hpages.mem (by decide), hlisted.mem (by decide), hmem]
  · rw [State.instAt_updInst]
  · rw [State.instAt_updInst]
  · rw [hupd.1 .reqs (by decide), hpages.1 .reqs (by decide), hlisted.1 .reqs (by decide), hreqs]

@[simp] theorem State.kept_reqs (s t : State) : (s.kept t).hs.reqs = t.hs.reqs := rfl

/-- Settles O47: operations wait, and a pause, a save, a restore and a reset end as their conditions say. -/
theorem instancesChangeState : Obligations.InstancesChangeState := by
  unfold Obligations.InstancesChangeState
  intro inst s n told regs moved
  have hn : n < 64 := inst.isLt
  refine ⟨fun x hx => ?_, fun hstate hreqs hclean => ?_, fun hbusy => ?_, fun hstate hmoved => ?_, fun hwaits => ?_, fun hstate hnew hmoved => ?_,
    fun hstate hread himage => ?_, fun p hstate hread himage hruns hok => ?_, State.restoreStep_unread, fun hwaits => exec_restoreComplete_waits hwaits, ?_⟩
  · have hqueue := s.queueInstOp_framed n x.1
    exact ⟨_, exec_instOperations inst s x hx, rfl, hqueue.kept⟩
  · rw [exec_instancePaused, State.pausedStep_clean hstate hreqs hclean]
    have htold := State.toInstState_told (n := n) (.refl : changesOnly [] s s) (by decide) (by decide) hn (st := 2) (by decide) St.ok
    have hframe := s.toInstState_framed n 2 St.ok
    exact ⟨_, rfl, htold.kept s, hframe.kept⟩
  · rw [exec_instancePaused, State.pausedStep_busy hbusy, keep_self]
  · have hsaved := s.saved_framed n
    obtain ⟨hleft, himages⟩ := s.saved_shows n
    have hshown : framed [.images, .insts, .fetched, .regs] [Reg.DEV_INST_STATE n] s (s.savedShown n) := (hsaved.widen).seq (State.setFld_framed ..)
    have hset : framed [.regs] [Reg.DEV_INST_STATE n] (s.saved n) (s.savedShown n) := State.setFld_framed ..
    have htold := State.toInstState_told hshown.1 (by decide) (by decide) hn (st := 3) (by decide) St.ok
    have hframe := (s.savedShown n).toInstState_framed n 3 St.ok
    have hbit : (((s.savedShown n).toInstState n 3 St.ok).reg (Reg.DEV_INST_STATE n)).bit 27 = s.saveGood n :=
      State.toInstState_bit27 (s.saved n) hn (s.saveGood n) 3 St.ok
    have hall : framed (.images :: .insts :: .fetched :: eventParts) regs s ((s.savedShown n).toInstState n 3 St.ok) :=
      (hshown.widen (by simp [eventParts]) (by simp [regs])).seq hframe (by simp +contextual) (fun _ h => h)
    refine ⟨_, exec_saveComplete_saves hstate hmoved, htold.kept s, ?_, ⟨?_, ?_⟩, hall.kept⟩
    · rw [State.kept_instAt, State.instAt_of (hframe.1 .insts (by decide)), State.instAt_of (hset.1 .insts (by decide)), hleft]
    · rw [State.kept_reg, hbit]
      rfl
    · rw [State.kept_images, hframe.1 .images (by decide), hset.1 .images (by decide), himages]
      rfl
  · exact exec_saveComplete_waits hwaits
  · have hread := s.imageRead_framed n
    have hqueue := (s.imageRead n).queueInstOp_framed n 8
    refine ⟨_, exec_restoreComplete_reads hstate hnew hmoved, ?_, ?_, fun m hm => ?_, ((hread.widen).seq hqueue).kept⟩
    · rw [State.kept_instAt, State.instAt_of (hqueue.1 .insts (by decide)), State.imageRead_inst]
    · have hops : (s.imageRead n).hs.instOps = s.hs.instOps := hread.1 .instOps (by decide)
      rw [← hops]
      rfl
    · rw [State.kept_instAt, State.instAt_of (hqueue.1 .insts (by decide)), State.imageRead_inst_ne s hm]
  · have htaken := s.readTaken_framed n
    obtain ⟨htold, hctrl, hframe⟩ := State.restoreShown_shows (htaken.1 .events (by decide)) (htaken.1 .tickCount (by decide)) hn (st := St.auth) (by decide)
    rw [State.restoreStep_none hstate hread himage]
    exact ⟨htold, hctrl, (htaken.widen (by simp) (by simp)).seq hframe (by simp +contextual) (fun _ h => h)⟩
  · intro t
    have htaken := s.readTaken_framed n
    obtain ⟨hmem, hcredit, heng, hreqs, himg⟩ := (s.readTaken n).restoreImage_shows n p.2
    have hboth : framed imageParts [] s ((s.readTaken n).restoreImage n p.2) := (htaken.widen (by simp [imageParts])).trans himg
    obtain ⟨htold, hctrl, hframe⟩ := State.restoreShown_shows (hboth.1 .events (by decide)) (hboth.1 .tickCount (by decide)) hn (st := St.ok) (by decide)
    have ht : t = _ := State.restoreStep_some hstate hread himage hruns hok
    clear_value t
    subst ht
    have hsame : (s.readTaken n).withImageMem n p.2.mem = s.withImageMem n p.2.mem := rfl
    have hlist : (s.readTaken n).hs.reqs ++ (s.readTaken n).imageReqs n p.2 = s.hs.reqs ++ s.imageReqs n p.2 := rfl
    rw [hsame] at hmem
    rw [hlist] at hreqs
    generalize (s.readTaken n).restoreImage n p.2 = v at hmem hcredit heng hreqs hboth htold hctrl hframe ⊢
    refine ⟨htold, hctrl, ?_, ?_, ?_, fun h hh => ?_, (hboth.1.widen (by simp +contextual [imageParts])).seq hframe.1 (by simp +contextual)⟩
    · rw [hframe.mem (by decide), hmem]
    · rw [State.instAt_of (hframe.1 .insts (by decide)), hcredit]
    · rw [State.instAt_of (hframe.1 .insts (by decide)), heng]
    · rw [hframe.1 .reqs (by decide), hreqs]
      exact ⟨_, List.mem_append_right _ (List.mem_map_of_mem hh), rfl, rfl, rfl⟩
  · have hended := s.endReqs_framed St.revoked fun r => r.inst == n
    have hupd := (s.endReqs St.revoked fun r => r.inst == n).updInst_framed n fun i => { i with reset := true }
    refine ⟨_, exec_instanceReset inst s, ?_, ?_, ((hended.widen).seq hupd).kept⟩
    · rw [State.kept_instAt, State.instAt_updInst]
    · rw [State.kept_reqs, hupd.1 .reqs (by decide)]
      exact s.endReqs_of_inst n St.revoked

end Sys2Proof.Machine
end

section
/-! SUPPORT. Stem slots: load, switch, rolling, unload, ready, drained and retired (R242 to R244). -/

namespace Sys2Proof.Machine

set_option Elab.async false

variable {s t u : State} {ps : List Part} {ks : List Nat} {k : Nat}

/-! ### Slots set and statuses shown -/

theorem State.stemAt_of (h : t.ls.stems = s.ls.stems) (k : Nat) : t.stemAt k = s.stemAt k := by
  unfold State.stemAt
  rw [h]

theorem State.stemAt_setStem_ne (s : State) (a : StemSlot) {i j : Nat} (hj : j < 2) (h : j ≠ i) : (s.setStem i a).stemAt j = s.stemAt j := by
  have hlist : (s.setStem i a).ls.stems = (List.range 2).map fun m => if m = i then a else s.stemAt m := rfl
  rw [State.stemAt, hlist, List.getD_eq_getElem?_getD, List.getElem?_map, List.getElem?_range hj, Option.map_some, Option.getD_some, if_neg h]

@[simp] theorem State.kept_stemAt (s t : State) (k : Nat) : (s.kept t).stemAt k = t.stemAt k := rfl

theorem State.stemStatus_framed (s : State) (st : Nat) : framed [.regs] [Reg.LEX_STEM_CTRL] s (s.stemStatus st) := s.setFld_framed _ _ _ _

theorem State.stemStatus_shown (s : State) {st : Nat} (hst : st < 256) : (s.stemStatus st).fld Reg.LEX_STEM_CTRL 7 0 = st :=
  (s.fld_setFld Reg.LEX_STEM_CTRL 7 0 st (by decide) (by decide)).trans (Nat.mod_eq_of_lt hst)

/-- A command on a stem slot refused with a status. -/
def stemRefused (c : Instr) (st : Nat) (s : State) : Prop :=
  ∃ t, exec c s = .next t ∧ t.fld Reg.LEX_STEM_CTRL 7 0 = st ∧ framed [.regs] [Reg.LEX_STEM_CTRL] s t

/-- A command on a stem slot that makes a slot another. -/
def stemBecomes (c : Instr) (i : Nat) (x : StemSlot) (s : State) : Prop :=
  ∃ t, exec c s = .next t ∧ t.fld Reg.LEX_STEM_CTRL 7 0 = St.ok ∧ t.stemAt i = x ∧ t.stemAt (1 - i) = s.stemAt (1 - i)
    ∧ framed [.stems, .regs] [Reg.LEX_STEM_CTRL] s t

theorem stemRefused.of_exec {c : Instr} {st : Nat} (hst : st < 256) (h : exec c s = keep s (s.stemStatus st)) : stemRefused c st s :=
  ⟨_, h, s.stemStatus_shown hst, (s.stemStatus_framed st).kept⟩

theorem stemBecomes.of_exec {c : Instr} {i : Nat} {x : StemSlot} (hi : i < 2) (h : exec c s = keep s ((s.setStem i x).stemStatus St.ok)) :
    stemBecomes c i x s := by
  have hstatus := (s.setStem i x).stemStatus_framed St.ok
  refine ⟨_, h, (s.setStem i x).stemStatus_shown (by decide), ?_, ?_, (((s.setStem_framed i x).widen).seq hstatus).kept⟩
  · rw [State.kept_stemAt, State.stemAt_of (hstatus.1 .stems (by decide)), State.stemAt_setStem _ _ hi]
  · rw [State.kept_stemAt, State.stemAt_of (hstatus.1 .stems (by decide)), State.stemAt_setStem_ne _ _ (by omega) (by omega)]

/-! ### The commands -/

section
variable {slot : BitVec 1}

theorem exec_stemLoad_busy (h : (s.stemAt slot.toNat).state ≠ 0) : exec (.stemLoad slot) s = keep s (s.stemStatus St.busy) := by
  unfold exec
  dsimp only
  unfold execStemLoad
  dsimp only
  rw [if_pos h]

theorem exec_stemLoad_empty (h : (s.stemAt slot.toNat).state = 0) : exec (.stemLoad slot) s = keep s (match parseStem s.stemImage with
    | none => ((s.setStem slot.toNat { StemSlot.empty with state := 1 }).stemFail slot.toNat 0).stemStatus St.ok
    | some t => match s.placeStem none t with
      | none => s.stemStatus St.noCapacity
      | some t => if !s.stemFits slot.toNat t then s.stemStatus St.noCapacity
        else (s.setStem slot.toNat { t with state := 1, shards := stemShards s.tk.now t }).stemStatus St.ok) := by
  exact congrArg (keep s) (if_neg (fun g => g h))

theorem exec_stemSwitch (slot : BitVec 1) (s : State) : exec (.stemSwitch slot) s = keep s
    (if !((s.stemAt slot.toNat).state == 3 && (s.stemAt (1 - slot.toNat)).state == 2) || s.stemBusy then s.stemStatus St.busy
    else if stemLayout (s.stemAt slot.toNat) ≠ stemLayout (s.stemAt (1 - slot.toNat)) then s.stemStatus St.stemLayout
    else (s.setStem (1 - slot.toNat) { s.stemAt (1 - slot.toNat) with switching := true }).stemStatus St.ok) := rfl

theorem exec_stemRolling_busy (h : (s.stemAt slot.toNat).state ≠ 3 ∨ s.stemBusy = true) :
    exec (.stemRolling slot) s = keep s (s.stemStatus St.busy) := by
  unfold exec
  dsimp only
  unfold execStemRolling
  dsimp only
  rw [if_pos h]

theorem exec_stemRolling_parsed {x : StemSlot} (hstate : (s.stemAt slot.toNat).state = 3) (hbusy : s.stemBusy = false)
    (hx : parseStem s.stemImage = some x) : exec (.stemRolling slot) s = keep s
      (if stemLayout x ≠ stemLayout (s.stemAt slot.toNat) then s.stemStatus St.stemLayout
      else if (s.placeStem (some slot.toNat) x).isNone then s.stemStatus St.noCapacity
      else (s.setStem slot.toNat { s.stemAt slot.toNat with state := 5, next := some s.stemImage }).stemStatus St.ok) := by
  unfold exec
  dsimp only
  unfold execStemRolling
  dsimp only
  rw [if_neg (by simp [hstate, hbusy]), hx]

theorem exec_stemUnload (slot : BitVec 1) (s : State) : exec (.stemUnload slot) s = keep s
    (if (((s.stemAt slot.toNat).state == 2 && !(s.stemAt slot.toNat).switching) || (s.stemAt slot.toNat).state == 6)
      || ((s.stemAt slot.toNat).state == 3 && (!s.boundTo slot.toNat && (List.range 64).all fun n => s.stemSel n != slot.toNat)
        && !(s.stemAt (1 - slot.toNat)).switching) then (s.setStem slot.toNat StemSlot.empty).stemStatus St.ok
    else s.stemStatus St.busy) := rfl

end

/-! ### The transitions -/

/-- A loaded slot's event raised. -/
def State.stemShownReady (s : State) (k : Nat) : State :=
  ((s.setReg Reg.RES_QUANT_SAT (wordOf (Nat.min (s.stemAt k).quantSat 0xFFFFFFFF))).setStem k { s.stemAt k with state := 2 })

theorem State.stemReadyStep_waits (landing : Bool)
    (h : (s.stemAt k).state ≠ 1 ∨ (∃ p ∈ (s.stemAt k).shards, p.2.verified = false) ∨ ((s.stemAt k).inPlace = true ∧ landing = false)) :
    s.stemReadyStep k landing = s := by
  refine if_pos (h.imp_right (Or.imp (fun g => ?_) fun g => ⟨g.1, by rw [g.2]; rfl⟩))
  obtain ⟨p, hp, hunverified⟩ := g
  rw [Bool.not_eq_true']
  exact List.all_eq_false.mpr ⟨p, hp, by rw [hunverified]; decide⟩

theorem State.stemReadyStep_ready (landing : Bool) (hstate : (s.stemAt k).state = 1) (hplace : (s.stemAt k).inPlace = false)
    (hall : ∀ p ∈ (s.stemAt k).shards, p.2.verified = true) : s.stemReadyStep k landing =
      ((s.stemShownReady k).raiseStem 0x3040 k [k, (s.stemAt k).stemId.toNat]).wakeStem k := by
  have hverified : ((s.stemAt k).shards.all fun p => p.2.verified) = true := List.all_eq_true.mpr hall
  unfold State.stemReadyStep
  dsimp only
  rw [if_neg (by simp [hstate, hplace, hverified]), if_neg (by rw [hplace]; decide)]
  rfl

theorem State.wakeStem_framed (s : State) (k : Nat) : framed [.reqs] [] s (s.wakeStem k) := framed_reqs s _

theorem State.raiseStem_events (s : State) (code slot : Nat) (payload : List Nat) :
    (s.raiseStem code slot payload).events = s.events ++ [⟨code, none, payload.map wordOf, s.stemDests slot⟩] := s.raiseTo_events _ _ _ _

theorem State.stemShownReady_framed (s : State) (k : Nat) : framed [.stems, .regs] [Reg.RES_QUANT_SAT] s (s.stemShownReady k) :=
  ((s.setReg_framed _ _).widen).seq (State.setStem_framed ..)

theorem State.stemDrainStep_other (h : (s.stemAt k).state ≠ 5) : s.stemDrainStep k = s := if_pos (.inl h)

theorem State.stemDrainStep_drained {x : StemSlot} (hstate : (s.stemAt k).state = 5)
    (hreqs : ∀ r ∈ s.hs.reqs, r.live = true → r.stem = k → stemWait k ∈ r.waits)
    (hx : ((s.stemAt k).next.bind parseStem).bind (s.placeStem (some k)) = some x) :
    s.stemDrainStep k = s.setStem k { x with state := 1, inPlace := true, shards := stemShards s.tk.now x } := by
  have hnone : (s.hs.reqs.any fun r => r.live && r.stem == k && !r.waits.contains (stemWait k)) = false := by
    refine List.any_eq_false.mpr fun r hr => ?_
    simp only [Bool.and_eq_true, beq_iff_eq, Bool.not_eq_true', not_and]
    intro hlive
    simpa using hreqs r hr hlive.1 hlive.2
  unfold State.stemDrainStep
  dsimp only
  rw [if_neg (by rw [hstate, hnone]; decide), hx]

theorem State.stemRetireStep_waits (h : (s.stemAt k).state ≠ 4 ∨ s.boundTo k = true) : s.stemRetireStep k = s := if_pos h

theorem State.stemRetireStep_retired (hstate : (s.stemAt k).state = 4) (hbound : s.boundTo k = false) :
    s.stemRetireStep k = (s.setStem k StemSlot.empty).raiseStem 0x3042 k [k, s.tk.count.toNat] := if_neg (by simp [hstate, hbound])

theorem exec_stemReady (slot : BitVec 1) (s : State) : exec (.stemReady slot) s = keep s (s.stemReadyStep slot.toNat false) := rfl

theorem exec_stemDrained (slot : BitVec 1) (s : State) : exec (.stemDrained slot) s = keep s (s.stemDrainStep slot.toNat) := rfl

theorem exec_stemRetired (slot : BitVec 1) (s : State) : exec (.stemRetired slot) s = keep s (s.stemRetireStep slot.toNat) := rfl

theorem State.stemFail_state (s : State) (hk : k < 2) (proj : Nat) : ((s.stemFail k proj).stemAt k).state = 6 := by
  unfold State.stemFail
  dsimp only
  rw [State.stemAt_of ((State.endReqs_framed ..).1 .stems (by decide)), State.stemAt_of ((State.raiseStem_framed ..).1 .stems (by decide)),
    State.stemAt_setStem _ _ hk]

/-- Settles O48: a command moves a slot where Table 8-13 allows it and is refused elsewhere, and each transition waits for its condition. -/
theorem stemSlotsChangeState : Obligations.StemSlotsChangeState := by
  unfold Obligations.StemSlotsChangeState
  intro slot s k a b answered refused becomes pair free
  have hk : k < 2 := slot.isLt
  have hrefuses : ∀ c st, st < 256 → exec c s = keep s (s.stemStatus st) → refused c st := fun c st hst h => stemRefused.of_exec hst h
  have hbecomes : ∀ c i x, i < 2 → exec c s = keep s ((s.setStem i x).stemStatus St.ok) → becomes c i x := fun c i x hi h => stemBecomes.of_exec hi h
  have hpair : ∀ {v : State}, pair → s.stemBusy = false → ∀ w, (if !(a.state == 3 && b.state == 2) || s.stemBusy then v else w) = w :=
    fun h hbusy w => if_neg (by simp [h.1, h.2, hbusy])
  refine ⟨fun hstate => ?_, fun hstate hparse => ?_, fun x hstate hparse hnofit => ?_, fun x y hstate hparse hplace hfits => ?_, fun hno => ?_,
    fun h hbusy hlayout => ?_, fun h hbusy hlayout => ?_, fun hno => ?_, fun x hstate hbusy hparse hlayout => ?_,
    fun x hstate hbusy hparse hlayout => ⟨fun hplace => ?_, fun hplace => ?_⟩, fun hfree => ?_, fun hfree => ?_, fun hstate hplace hall => ?_,
    fun hwaits => ?_, fun x hstate hreqs hx => ?_, fun hstate => ?_, fun hstate hbound => ?_, fun hwaits => ?_⟩
  · exact hrefuses _ _ (by decide) (exec_stemLoad_busy hstate)
  · have hrun : exec (.stemLoad slot) s = keep s (((s.setStem k { StemSlot.empty with state := 1 }).stemFail k 0).stemStatus St.ok) :=
      (exec_stemLoad_empty hstate).trans (by rw [hparse])
    have hstatus := ((s.setStem k { StemSlot.empty with state := 1 }).stemFail k 0).stemStatus_framed St.ok
    refine ⟨_, hrun, State.stemStatus_shown _ (by decide), ?_⟩
    rw [State.kept_stemAt, State.stemAt_of (hstatus.1 .stems (by decide)), State.stemFail_state _ hk]
  · refine hrefuses _ _ (by decide) ((exec_stemLoad_empty hstate).trans ?_)
    rw [hparse]
    dsimp only
    cases hplace : s.placeStem none x with
    | none => rfl
    | some y =>
      dsimp only
      rw [hnofit y hplace]
      rfl
  · refine hbecomes _ _ _ hk ((exec_stemLoad_empty hstate).trans ?_)
    rw [hparse]
    dsimp only
    rw [hplace]
    dsimp only
    rw [hfits]
    rfl
  · refine hrefuses _ _ (by decide) ((exec_stemSwitch slot s).trans (congrArg (keep s) (if_pos ?_)))
    rw [Bool.or_eq_true, Bool.not_eq_true']
    refine hno.imp_left fun h => ?_
    rw [Bool.and_eq_false_iff]
    by_cases h3 : a.state = 3
    · exact .inr (beq_eq_false_iff_ne.mpr fun h2 => h ⟨h3, h2⟩)
    · exact .inl (beq_eq_false_iff_ne.mpr h3)
  · exact hrefuses _ _ (by decide) ((exec_stemSwitch slot s).trans (congrArg (keep s) ((hpair h hbusy _).trans (if_pos hlayout))))
  · exact hbecomes _ _ _ (by omega) ((exec_stemSwitch slot s).trans (congrArg (keep s) ((hpair h hbusy _).trans (if_neg (fun g => g hlayout)))))
  · exact hrefuses _ _ (by decide) (exec_stemRolling_busy hno)
  · exact hrefuses _ _ (by decide) ((exec_stemRolling_parsed hstate hbusy hparse).trans (congrArg (keep s) (if_pos hlayout)))
  · refine hbecomes _ _ _ hk ((exec_stemRolling_parsed hstate hbusy hparse).trans (congrArg (keep s) ((if_neg (fun g => g hlayout)).trans (if_neg ?_))))
    rw [Bool.not_eq_true, Option.isNone_eq_false_iff]
    exact hplace
  · refine hrefuses _ _ (by decide) ((exec_stemRolling_parsed hstate hbusy hparse).trans
      (congrArg (keep s) ((if_neg (fun g => g hlayout)).trans (if_pos ?_))))
    exact Option.isNone_iff_eq_none.mpr hplace
  · refine hbecomes _ _ _ hk ((exec_stemUnload slot s).trans (congrArg (keep s) (if_pos ?_)))
    simpa [free, a, b, k, List.all_eq_true, and_assoc] using hfree
  · refine hrefuses _ _ (by decide) ((exec_stemUnload slot s).trans (congrArg (keep s) (if_neg ?_)))
    simpa [free, a, b, k, List.all_eq_true, and_assoc] using hfree
  · rw [exec_stemReady, State.stemReadyStep_ready false hstate hplace hall]
    have hshown := s.stemShownReady_framed k
    have hslot : (s.stemShownReady k).stemAt k = { a with state := 2 } := State.stemAt_setStem _ _ hk
    have hreg : (s.stemShownReady k).reg Reg.RES_QUANT_SAT = wordOf (Nat.min a.quantSat 0xFFFFFFFF) :=
      ((State.setStem_framed ..).reg (by simp)).trans (State.reg_setReg ..)
    generalize s.stemShownReady k = v at hshown hslot hreg ⊢
    have htold := v.raiseStem_framed 0x3040 k [k, a.stemId.toNat]
    have hevents := v.raiseStem_events 0x3040 k [k, a.stemId.toNat]
    change framed _ _ v (v.raiseStem 0x3040 k [k, (s.stemAt k).stemId.toNat]) at htold
    change (v.raiseStem 0x3040 k [k, (s.stemAt k).stemId.toNat]).events = _ at hevents
    generalize v.raiseStem 0x3040 k [k, (s.stemAt k).stemId.toNat] = w at htold hevents ⊢
    have hwake := w.wakeStem_framed k
    have hall : framed (.stems :: .reqs :: eventParts) (Reg.RES_QUANT_SAT :: eventRegs) s (w.wakeStem k) :=
      ((hshown.widen (by simp [eventParts]) (by simp)).seq htold (by simp +contextual) (by simp +contextual)).seq hwake
    refine ⟨_, rfl, ?_, ?_, ⟨⟨0x3040, none, [k, a.stemId.toNat].map wordOf, v.stemDests k⟩, ?_, rfl⟩, hall.kept⟩
    · rw [State.kept_stemAt, State.stemAt_of (hwake.1 .stems (by decide)), State.stemAt_of (htold.1 .stems (by decide)), hslot]
    · rw [State.kept_reg, hwake.reg (by simp), htold.reg (by decide), hreg]
    · rw [State.kept_events, hwake.1 .events (by decide), hevents]
      exact List.mem_append_right _ (List.mem_singleton.mpr rfl)
  · rw [exec_stemReady, State.stemReadyStep_waits false (hwaits.imp_right (Or.imp_right fun g => ⟨g, rfl⟩)), keep_self]
  · rw [exec_stemDrained, State.stemDrainStep_drained hstate hreqs hx]
    exact ⟨_, rfl, State.stemAt_setStem _ _ hk, (s.setStem_framed k _).kept⟩
  · rw [exec_stemDrained, State.stemDrainStep_other hstate, keep_self]
  · rw [exec_stemRetired, State.stemRetireStep_retired hstate hbound]
    have hset := s.setStem_framed k StemSlot.empty
    have hslot : (s.setStem k StemSlot.empty).stemAt k = StemSlot.empty := State.stemAt_setStem _ _ hk
    have hother : (s.setStem k StemSlot.empty).stemAt (1 - k) = b := State.stemAt_setStem_ne _ _ (by omega) (by omega)
    generalize s.setStem k StemSlot.empty = v at hset hslot hother ⊢
    have htold := v.raiseStem_framed 0x3042 k [k, s.tk.count.toNat]
    have hevents := v.raiseStem_events 0x3042 k [k, s.tk.count.toNat]
    refine ⟨_, rfl, ?_, ?_, ⟨⟨0x3042, none, [k, s.tk.count.toNat].map wordOf, v.stemDests k⟩, ?_, rfl⟩,
      ((hset.widen).seq htold (by simp +contextual) (by simp +contextual)).kept⟩
    · rw [State.kept_stemAt, State.stemAt_of (htold.1 .stems (by decide)), hslot]
    · rw [State.kept_stemAt, State.stemAt_of (htold.1 .stems (by decide)), hother]
    · rw [State.kept_events, hevents]
      exact List.mem_append_right _ (List.mem_singleton.mpr rfl)
  · rw [exec_stemRetired, State.stemRetireStep_waits hwaits, keep_self]

end Sys2Proof.Machine
end

section
/-! SUPPORT. Tenant requests, attestation and sessions (R386 to R410). -/

namespace Sys2Proof.Machine

set_option Elab.async false

variable {s t u : State} {ps : List Part} {ks : List Nat} {n : Nat}

/-! ### Messages sent -/

/-- Messages sent and the trust state changed. -/
theorem framed_sent (s : State) (o : List Out) (x : Trust) : framed [.out, .trust] [] s { s with out := o, trust := x } :=
  ⟨fun p hp => by cases p <;> first | (simp at hp; done) | rfl, .of_regs rfl⟩

theorem State.spdmSend_framed (s : State) (port : SpdmPort) (code : Nat) (body : List Byte) : framed [.out, .trust] [] s (s.spdmSend port code body) :=
  framed_sent s _ _

@[simp] theorem State.spdmSend_out (s : State) (port : SpdmPort) (code : Nat) (body : List Byte) :
    (s.spdmSend port code body).out = s.out ++ [.spdm port code body] := rfl

@[simp] theorem State.queueKey_keyOps (s : State) (o : KeyOp) : (s.queueKey o).trust.keyOps = s.trust.keyOps ++ [o] := rfl

/-! ### Tenant requests -/

/-- A tenant request answered with its status and a body; no key changes. -/
def tenantAnswered (fn : BitVec 6) (req st : Nat) (body : List Byte) (s t : State) : Prop :=
  t.out = s.out ++ [.spdm (.doe fn) 0x7E ([byteOf req, byteOf st] ++ body)] ∧ t.trust.keys = s.trust.keys ∧ t.trust.keyOps = s.trust.keyOps
    ∧ framed [.out, .trust] [] s t

theorem tenantAnswered.kept {fn : BitVec 6} {req st : Nat} {body : List Byte} (h : tenantAnswered fn req st body s t) :
    tenantAnswered fn req st body s (s.kept t) :=
  ⟨h.1, h.2.1, h.2.2.1, h.2.2.2.kept⟩

theorem State.tenantAnswer_answered (s : State) (fn : BitVec 6) (req st : Nat) (body : List Byte) :
    tenantAnswered fn req st body s (s.tenantAnswer fn.toNat req st body) := by
  unfold State.tenantAnswer
  rw [BitVec.ofNat_toNat, BitVec.setWidth_eq]
  exact ⟨rfl, rfl, rfl, s.spdmSend_framed _ _ _⟩

/-- The answer that follows a nonce used up. -/
theorem State.dropNonce_answered (s : State) (port : SpdmPort) (session : Nat) (v : BitVec 256) (fn : BitVec 6) (req st : Nat) (body : List Byte) :
    tenantAnswered fn req st body s ((s.dropNonce port session v).tenantAnswer fn.toNat req st body) := by
  obtain ⟨hout, hkeys, hops, hframe⟩ := (s.dropNonce port session v).tenantAnswer_answered fn req st body
  exact ⟨hout, hkeys, hops, (s.dropNonce_framed ..).widen.trans hframe⟩

/-- A change of a key that waits for the next landing. -/
def keyQueued (o : KeyOp) (s t : State) : Prop := t.trust.keyOps = s.trust.keyOps ++ [o]
  ∧ t.trust.keys = s.trust.keys ∧ t.out = s.out ∧ framed [.trust, .reqs] [] s t

theorem keyQueued.kept {o : KeyOp} (h : keyQueued o s t) : keyQueued o s (s.kept t) := ⟨h.1, h.2.1, h.2.2.1, h.2.2.2.kept⟩

theorem State.queueKey_queued (s : State) (o : KeyOp) : keyQueued o s (s.queueKey o) := ⟨rfl, rfl, rfl, (s.queueKey_framed o).widen⟩

/-- A change queued after steps that touch requests alone. -/
theorem keyQueued.after {o : KeyOp} (h : framed [.reqs] [] s u) : keyQueued o s (u.queueKey o) := by
  have htrust : u.trust = s.trust := h.1 .trust (by decide)
  refine ⟨?_, ?_, ?_, h.widen.seq (u.queueKey_framed o)⟩
  · rw [State.queueKey_keyOps, htrust]
  · rw [State.queueKey_trust_keys, htrust]
  · exact h.1 .out (by decide)

theorem State.revokeReqs_framed (s : State) (slot : Nat) : framed [.reqs] [] s (s.revokeReqs slot) := s.endReqs_framed _ _

section requests

variable (fn : BitVec 6) (session : BitVec 8) (slot : BitVec 16) (nonce : BitVec 256) (mac : List Byte)

theorem State.sessionAt_isNone {port : SpdmPort} {id : Nat} (h : ¬(s.sessionAt port id).isSome = true) :
    (s.sessionAt port id).isNone = true := by
  rw [Option.isNone_iff_eq_none]
  exact Option.not_isSome_iff_eq_none.1 h

theorem State.sessionAt_not_isNone {port : SpdmPort} {id : Nat} (h : (s.sessionAt port id).isSome = true) :
    ¬(s.sessionAt port id).isNone = true := by
  rw [Option.isNone_iff_eq_none]
  exact fun hnone => absurd h (by rw [hnone]; decide)

/-! ### KEY_PROVISION -/

theorem keyProvision_denied (epoch : Word) (wrapped : List Byte)
    (h : ¬(s.sessionAt (.doe fn) session.toNat).isSome = true ∨ s.keysOpen = false) :
    exec (.keyProvision fn session slot epoch nonce wrapped mac) s = keep s (s.tenantAnswer fn.toNat 1 St.denied []) := by
  refine congrArg (keep s) (if_pos ?_)
  rcases h with h | h
  · exact .inl (State.sessionAt_isNone h)
  · exact .inr (by rw [h]; rfl)

theorem keyProvision_notFound (epoch : Word) (wrapped : List Byte) (ho : (s.sessionAt (.doe fn) session.toNat).isSome = true)
    (hk : s.keysOpen = true) (hr : s.keyInRange fn.toNat slot.toNat = false) :
    exec (.keyProvision fn session slot epoch nonce wrapped mac) s = keep s (s.tenantAnswer fn.toNat 1 St.notFound []) := by
  refine congrArg (keep s) ((if_neg ?_).trans (if_pos (by rw [hr]; rfl)))
  rw [hk]
  exact not_or.2 ⟨State.sessionAt_not_isNone ho, by decide⟩

/-- What KEY_PROVISION does where the session, the table and the range allow it: as its checks answer. -/
theorem keyProvision_checked (epoch : Word) (wrapped : List Byte) (ho : (s.sessionAt (.doe fn) session.toNat).isSome = true)
    (hk : s.keysOpen = true) (hr : s.keyInRange fn.toNat slot.toNat = true) :
    exec (.keyProvision fn session slot epoch nonce wrapped mac) s =
      keep s (match s.provisionChecks (.doe fn) session.toNat slot.toNat epoch nonce wrapped mac with
        | .inl st => (s.dropNonce (.doe fn) session.toNat nonce).tenantAnswer fn.toNat 1 st []
        | .inr key => (s.dropNonce (.doe fn) session.toNat nonce).queueKey (.provision slot.toNat epoch key fn.toNat session.toNat)) := by
  refine congrArg (keep s) ((if_neg ?_).trans ((if_neg (by rw [hr]; decide)).trans rfl))
  rw [hk]
  exact not_or.2 ⟨State.sessionAt_not_isNone ho, by decide⟩

/-! ### KEY_REVOKE -/

theorem keyRevoke_denied (h : ¬(s.sessionAt (.doe fn) session.toNat).isSome = true) :
    exec (.keyRevoke fn session slot nonce mac) s = keep s (s.tenantAnswer fn.toNat 2 St.denied []) :=
  congrArg (keep s) (if_pos (State.sessionAt_isNone h))

theorem keyRevoke_notFound (ho : (s.sessionAt (.doe fn) session.toNat).isSome = true)
    (h : s.keyInRange fn.toNat slot.toNat = false ∨ (s.keyAhead slot.toNat).state = 0) :
    exec (.keyRevoke fn session slot nonce mac) s = keep s (s.tenantAnswer fn.toNat 2 St.notFound []) :=
  congrArg (keep s) ((if_neg (State.sessionAt_not_isNone ho)).trans (if_pos (h.imp_left fun hr => by rw [hr]; rfl)))

theorem keyRevoke_auth (ho : (s.sessionAt (.doe fn) session.toNat).isSome = true) (hr : s.keyInRange fn.toNat slot.toNat = true)
    (hs : (s.keyAhead slot.toNat).state ≠ 0) (hm : macOk (s.keyAhead slot.toNat) 2 slot.toNat (s.keyAhead slot.toNat).cur nonce mac = false) :
    exec (.keyRevoke fn session slot nonce mac) s = keep s (s.tenantAnswer fn.toNat 2 St.auth []) :=
  congrArg (keep s) ((if_neg (State.sessionAt_not_isNone ho)).trans
    ((if_neg (not_or.2 ⟨by rw [hr]; decide, hs⟩)).trans (if_pos (by rw [hm]; rfl))))

theorem keyRevoke_queued (ho : (s.sessionAt (.doe fn) session.toNat).isSome = true) (hr : s.keyInRange fn.toNat slot.toNat = true)
    (hs : (s.keyAhead slot.toNat).state ≠ 0) (hm : macOk (s.keyAhead slot.toNat) 2 slot.toNat (s.keyAhead slot.toNat).cur nonce mac = true) :
    exec (.keyRevoke fn session slot nonce mac) s =
      keep s ((s.revokeReqs slot.toNat).queueKey (.revoke slot.toNat 0 fn.toNat session.toNat)) :=
  congrArg (keep s) ((if_neg (State.sessionAt_not_isNone ho)).trans
    ((if_neg (not_or.2 ⟨by rw [hr]; decide, hs⟩)).trans (if_neg (by rw [hm]; decide))))

/-! ### TENANT_REPORT -/

variable (start : BitVec 24)

theorem reportBody_eq (b : Byte) (cur prev blocks entries next sig : List Byte) :
    [b] ++ cur ++ prev ++ blocks ++ entries ++ next ++ sig = b :: cur ++ prev ++ (blocks ++ entries ++ next ++ sig) := by
  simp only [List.cons_append, List.nil_append, List.append_assoc]

theorem tenantReport_denied (h : ¬(s.sessionAt (.doe fn) session.toNat).isSome = true) :
    exec (.tenantReport fn session slot nonce start mac) s = keep s (s.tenantAnswer fn.toNat 3 St.denied []) :=
  congrArg (keep s) (if_pos (State.sessionAt_isNone h))

theorem tenantReport_notFound (ho : (s.sessionAt (.doe fn) session.toNat).isSome = true)
    (h : s.keyInRange fn.toNat slot.toNat = false ∨ (s.keyAt slot.toNat).state = 0) :
    exec (.tenantReport fn session slot nonce start mac) s = keep s (s.tenantAnswer fn.toNat 3 St.notFound []) :=
  congrArg (keep s) ((if_neg (State.sessionAt_not_isNone ho)).trans (if_pos (h.imp_left fun hr => by rw [hr]; rfl)))

theorem tenantReport_auth (ho : (s.sessionAt (.doe fn) session.toNat).isSome = true) (hr : s.keyInRange fn.toNat slot.toNat = true)
    (hs : (s.keyAt slot.toNat).state ≠ 0) (hm : macOk (s.keyAt slot.toNat) 3 slot.toNat (s.keyAt slot.toNat).cur nonce mac = false) :
    exec (.tenantReport fn session slot nonce start mac) s = keep s (s.tenantAnswer fn.toNat 3 St.auth []) :=
  congrArg (keep s) ((if_neg (State.sessionAt_not_isNone ho)).trans
    ((if_neg (not_or.2 ⟨by rw [hr]; decide, hs⟩)).trans (if_pos (by rw [hm]; rfl))))

theorem tenantReport_ok (ho : (s.sessionAt (.doe fn) session.toNat).isSome = true) (hr : s.keyInRange fn.toNat slot.toNat = true)
    (hs : (s.keyAt slot.toNat).state ≠ 0) (hm : macOk (s.keyAt slot.toNat) 3 slot.toNat (s.keyAt slot.toNat).cur nonce mac = true) :
    ∃ body, exec (.tenantReport fn session slot nonce start mac) s = keep s (s.tenantAnswer fn.toNat 3 St.ok
      (byteOf (s.keyAt slot.toNat).state :: (s.keyAt slot.toNat).cur.bytes ++ (s.keyAt slot.toNat).prev.bytes ++ body)) := by
  exact ⟨_, (congrArg (keep s) ((if_neg (State.sessionAt_not_isNone ho)).trans
    ((if_neg (not_or.2 ⟨by rw [hr]; decide, hs⟩)).trans (if_neg (by rw [hm]; decide))))).trans
    (congrArg (fun body => keep s (s.tenantAnswer fn.toNat 3 St.ok body)) (reportBody_eq _ _ _ _ _ _ _))⟩

end requests

/-- Settles O49: each answer by the check that fails, each change queued by the checks that pass. -/
theorem tenantRequestsAnswered : Obligations.TenantRequestsAnswered := by
  intro fn session slot nonce mac s f n port k open_ answered queued
  have answeredOf : ∀ {c : Instr} {req st : Nat}, exec c s = keep s (s.tenantAnswer fn.toNat req st []) → answered c req st := fun h =>
    ⟨_, h, (s.tenantAnswer_answered fn _ _ []).kept⟩
  have queuedOf : ∀ {c : Instr} {o : KeyOp} {u : State}, exec c s = keep s u → keyQueued o s u → queued c o := fun h hq =>
    ⟨_, h, hq.kept⟩
  refine ⟨fun epoch wrapped => ⟨fun h => answeredOf (keyProvision_denied fn session slot nonce mac epoch wrapped h),
      fun ho hk hr => answeredOf (keyProvision_notFound fn session slot nonce mac epoch wrapped ho hk hr), fun st ho hk hr hc => ?_,
      fun key ho hk hr hc => ?_⟩,
    fun h => answeredOf (keyRevoke_denied fn session slot nonce mac h), fun ho h => answeredOf (keyRevoke_notFound fn session slot nonce mac ho h),
    fun ho hr hs hm => answeredOf (keyRevoke_auth fn session slot nonce mac ho hr hs hm),
    fun ho hr hs hm => queuedOf (keyRevoke_queued fn session slot nonce mac ho hr hs hm) (.after (s.revokeReqs_framed n)), fun start =>
      ⟨fun h => answeredOf (tenantReport_denied fn session slot nonce mac start h),
      fun ho h => answeredOf (tenantReport_notFound fn session slot nonce mac start ho h),
      fun ho hr hs hm => answeredOf (tenantReport_auth fn session slot nonce mac start ho hr hs hm), fun ho hr hs hm => ?_⟩,
    queuedOf rfl (s.queueKey_queued _), queuedOf rfl (.after (s.revokeReqs_framed _))⟩
  · have hexec := keyProvision_checked fn session slot nonce mac epoch wrapped ho hk hr
    rw [hc] at hexec
    exact ⟨_, hexec, (s.dropNonce_answered port session.toNat nonce fn 1 st []).kept⟩
  · have hexec := keyProvision_checked fn session slot nonce mac epoch wrapped ho hk hr
    rw [hc] at hexec
    have hdrop : keyQueued (.provision n epoch key f session.toNat) s
        ((s.dropNonce port session.toNat nonce).queueKey (.provision n epoch key f session.toNat)) :=
      ⟨rfl, rfl, rfl, ((s.dropNonce_framed ..).widen).seq (State.queueKey_framed ..)⟩
    exact ⟨_, hexec, hdrop.kept⟩
  · obtain ⟨body, hexec⟩ := tenantReport_ok fn session slot nonce mac start ho hr hs hm
    obtain ⟨hout, hkeys, _, hframe⟩ := (s.tenantAnswer_answered fn 3 St.ok
      (byteOf (s.keyAt n).state :: (s.keyAt n).cur.bytes ++ (s.keyAt n).prev.bytes ++ body)).kept
    exact ⟨_, body, hexec, hout, hkeys, hframe⟩


end Sys2Proof.Machine
end

section
/-! SUPPORT. Key epochs, zeroisation, debug unlock and migration keys (R398 to R410, R460). -/

namespace Sys2Proof.Machine

set_option Elab.async false

variable {s t u : State} {ps : List Part} {ks : List Nat} {n m : Nat}

/-! ### Key slots -/

@[simp] theorem State.kept_keyAt (s t : State) (n : Nat) : (s.kept t).keyAt n = t.keyAt n := rfl

theorem State.keyAt_of (h : t.trust.keys = s.trust.keys) (n : Nat) : t.keyAt n = s.keyAt n := by
  unfold State.keyAt
  rw [h]

theorem State.keyAt_setKey_ne (s : State) (k : KeySlot) (h : m ≠ n) : (s.setKey n k).keyAt m = s.keyAt m := smGet_set_ne _ _ _ h

theorem State.keyAt_none (h : s.trust.keys = []) (n : Nat) : s.keyAt n = KeySlot.empty := by
  unfold State.keyAt
  rw [h]
  rfl

theorem State.raiseSlot_framed (s : State) (holder : Option Nat) (code : Nat) (payload : List Nat) :
    framed eventParts eventRegs s (s.raiseSlot holder code payload) := by
  unfold State.raiseSlot
  split
  · exact s.raiseInst_framed _ _ _
  · exact s.raisePf_framed _ _

theorem State.raiseSlot_raised (s : State) (holder : Option Nat) (code : Nat) (payload : List Nat) :
    ∃ e ∈ (s.raiseSlot holder code payload).events, e.code = code := by
  unfold State.raiseSlot
  split
  · exact ⟨_, by rw [State.raiseInst_events]; exact List.mem_append_right _ (List.mem_singleton_self _), rfl⟩
  · exact ⟨_, by rw [State.raisePf_events]; exact List.mem_append_right _ (List.mem_singleton_self _), rfl⟩

/-! ### The table sealed again -/

theorem State.sealOpen_of (howner : t.trust.owner = s.trust.owner) (h : framed ps ks s t) (hk : Reg.SEC_STATUS ∉ ks) : t.sealOpen = s.sealOpen := by
  unfold State.sealOpen
  rw [howner, h.reg hk]

/-- The sealed table that counts is the key table as it is, where it may be sealed. -/
def tableSealed (s t : State) : Prop := s.sealOpen = true → t.sealedNow.map (·.keys) = some t.trust.keys

theorem tableSealed.kept (h : tableSealed s t) (k : State) : tableSealed s (k.kept t) := h

/-- Events told of a changed slot, then the table sealed. -/
theorem tableSealed.seal (k : KeySlot) (h : framed eventParts eventRegs (s.setKey n k) u) : tableSealed s u.seal := by
  intro hopen
  have htrust : u.trust = (s.setKey n k).trust := h.1 .trust (by decide)
  have hsame : u.sealOpen = s.sealOpen :=
    State.sealOpen_of (by rw [htrust]; rfl) (((s.setKey_framed n k).widen (qs := .trust :: eventParts) (js := eventRegs)).seq h (by simp +contextual))
      (by decide)
  obtain ⟨c, hnow, _, _, hkeys⟩ := u.seal_sealedNow (hsame.trans hopen)
  rw [hnow, State.seal_keys, ← hkeys]
  rfl

/-- A slot changed and told of, and the table sealed. -/
theorem sealed_framed (k : KeySlot) (h : framed eventParts eventRegs (s.setKey n k) u) : framed (.trust :: eventParts) eventRegs s u.seal :=
  (((s.setKey_framed n k).widen).seq h (by simp +contextual)).seq u.seal_framed

theorem sealed_keyAt (k : KeySlot) (h : framed eventParts eventRegs (s.setKey n k) u) (m : Nat) : u.seal.keyAt m = (s.setKey n k).keyAt m := by
  refine State.keyAt_of ?_ m
  rw [State.seal_keys, h.1 .trust (by decide)]

/-! ### Epochs -/

/-- A slot whose previous epoch is retired. -/
def KeySlot.retired (k : KeySlot) : KeySlot := { k with state := 1, prev := 0, keyPrev := 0, ctrPrev := 0 }

/-- The previous epoch of a slot retired, and told of. -/
def State.epochRetired (s : State) (n : Nat) : State :=
  (s.setKey n (s.keyAt n).retired).raiseSlot (s.slotInst n) 0x6002 [n, (s.keyAt n).prev.toNat, 0, s.tk.count.toNat]

theorem State.epochRetired_framed (s : State) (n : Nat) : framed eventParts eventRegs (s.setKey n (s.keyAt n).retired) (s.epochRetired n) :=
  State.raiseSlot_framed ..

/-- A slot whose keys held after a forced retirement are destroyed but those under which a read is in flight. -/
def State.slotDestroyed (s : State) (n : Nat) : KeySlot :=
  let k := s.keyAt n
  let gone := k.condemned.filter fun c => s.readsUnder n c.1 == 0
  { k with condemned := k.condemned.filter fun c => !gone.contains c, destroyed := k.destroyed ++ gone.map (·.1) }

/-- The keys destroyed, and told of. -/
def State.epochsDestroyed (s : State) (n : Nat) : State :=
  ((s.keyAt n).condemned.filter fun c => s.readsUnder n c.1 == 0).foldl
    (fun u c => u.raiseSlot (s.slotInst n) 0x6002 [n, c.1.toNat, 1, s.tk.count.toNat]) (s.setKey n (s.slotDestroyed n))

theorem State.epochsDestroyed_framed (s : State) (n : Nat) : framed eventParts eventRegs (s.setKey n (s.slotDestroyed n)) (s.epochsDestroyed n) :=
  .foldl _ _ (fun _ _ => State.raiseSlot_framed ..) _

theorem State.destroyEpochs_some (h : ∃ c ∈ (s.keyAt n).condemned, s.readsUnder n c.1 = 0) : s.destroyEpochs n = (s.epochsDestroyed n).seal := by
  refine if_neg ?_
  obtain ⟨c, hc, hz⟩ := h
  rw [List.isEmpty_iff, List.filter_eq_nil_iff]
  exact fun hall => hall c hc (by rw [hz]; rfl)

theorem State.destroyEpochs_none (h : ∀ c ∈ (s.keyAt n).condemned, s.readsUnder n c.1 ≠ 0) : s.destroyEpochs n = s := by
  refine if_pos ?_
  rw [List.isEmpty_iff, List.filter_eq_nil_iff]
  exact fun c hc => by simpa using h c hc

theorem State.slotDestroyed_condemned (s : State) (n : Nat) :
    ∀ c ∈ (s.slotDestroyed n).condemned, c ∈ (s.keyAt n).condemned ∧ s.readsUnder n c.1 ≠ 0 := by
  intro c hc
  obtain ⟨hin, hkeep⟩ := List.mem_filter.1 hc
  refine ⟨hin, fun hz => ?_⟩
  have hgone : c ∈ (s.keyAt n).condemned.filter fun c => s.readsUnder n c.1 == 0 := List.mem_filter.2 ⟨hin, by rw [hz]; rfl⟩
  rw [List.contains_iff_mem.2 hgone] at hkeep
  exact absurd hkeep (by decide)

theorem State.slotDestroyed_destroyed (s : State) (n : Nat) :
    ∀ c ∈ (s.keyAt n).condemned, s.readsUnder n c.1 = 0 → c.1 ∈ (s.slotDestroyed n).destroyed := by
  intro c hc hz
  exact List.mem_append_right _ (List.mem_map_of_mem (List.mem_filter.2 ⟨hc, by rw [hz]; rfl⟩))

/-! ### Zeroisation -/

theorem State.forceEvict_framed (s : State) (id : Nat) : framed [.reqs, .lex, .lexCopies] [] s (s.forceEvict id) := by
  unfold State.forceEvict
  dsimp only
  have hends : framed [.reqs, .lex, .lexCopies] [] s (s.endReqs St.revoked fun r => r.lexId == some id || r.affixes.contains id) :=
    (s.endReqs_framed _ _).widen
  exact .ite (fun _ => hends.seq (State.setLex_framed ..)) fun _ => .ite (fun _ => hends.seq (State.setLex_framed ..)) fun _ => hends

/-- Instances updated in turn, each update taking the migration key: it is gone from those updated and from those that had none. -/
theorem foldl_updInst_migKey {f : State → Nat → Inst → Inst} (hf : ∀ u n i, (f u n i).migKey = none) (l : List Nat) (u : State)
    (h : m ∈ l ∨ (u.instAt m).migKey = none) : ((l.foldl (fun u n => u.updInst n (f u n)) u).instAt m).migKey = none := by
  induction l generalizing u with
  | nil => exact h.resolve_left List.not_mem_nil
  | cons n l ih =>
    refine ih _ ?_
    by_cases hmn : m = n
    · subst hmn
      right
      rw [State.instAt_updInst, hf]
    · rw [State.instAt_updInst_ne _ _ _ _ hmn]
      exact h.imp_left fun hm => (List.mem_cons.1 hm).resolve_left hmn

theorem State.instAt_unlisted (h : n ∉ s.insts.map (·.1)) : s.instAt n = Inst.fresh := by
  refine smGet_unlisted _ _ _ (Bool.eq_false_iff.2 fun hany => h ?_)
  obtain ⟨p, hp, heq⟩ := List.any_eq_true.1 hany
  exact List.mem_map.2 ⟨p, hp, beq_iff_eq.1 heq⟩

/-- The key table and its sealed copies cleared, and the changes that wait discarded. -/
def State.keysCleared (s : State) : State := { s with trust := { s.trust with keys := [], keyOps := [], copy0 := none, copy1 := none } }

theorem State.keysCleared_framed (s : State) : framed [.trust] [] s s.keysCleared := framed_trust s _

/-- The device zeroised but for its event. -/
def State.zeroed (s : State) : State :=
  let held := (s.trust.keys.filter fun p => p.2.state != 0).map (·.1)
  let gone := (s.ls.lex.filter fun p => p.2.kind != 0 && held.contains p.2.keySlot).map (·.1)
  let s2 := gone.foldl (fun u i => u.forceEvict i) s.keysCleared
  (s2.insts.map (·.1)).foldl (fun u n => u.updInst n fun i => { i with migKey := none, stopped := i.stopped || u.instState n == 4 }) s2

theorem State.zeroise_eq (s : State) (trigger : Nat) : s.zeroise trigger = s.zeroed.raisePf 0x6004 [wordOf trigger] := rfl

theorem State.zeroed_framed (s : State) : framed [.insts, .reqs, .lex, .lexCopies] [] s.keysCleared s.zeroed := by
  unfold State.zeroed
  dsimp only
  generalize (s.ls.lex.filter _).map _ = gone
  have hgone : framed [.insts, .reqs, .lex, .lexCopies] [] s.keysCleared (gone.foldl (fun u i => u.forceEvict i) s.keysCleared) :=
    .foldl _ _ (fun v i => (v.forceEvict_framed i).widen) _
  exact hgone.fold fun v x => (v.updInst_framed x _).widen

theorem State.zeroed_trust (s : State) : s.zeroed.trust = s.keysCleared.trust := s.zeroed_framed.1 .trust (by decide)

theorem State.zeroed_migKey (s : State) (m : Nat) : (s.zeroed.instAt m).migKey = none := by
  unfold State.zeroed
  dsimp only
  generalize List.foldl _ s.keysCleared _ = v
  refine foldl_updInst_migKey (f := fun u n i => { i with migKey := none, stopped := i.stopped || u.instState n == 4 }) (fun _ _ _ => rfl) _ v ?_
  by_cases hm : m ∈ v.insts.map (·.1)
  · exact .inl hm
  · exact .inr (by rw [State.instAt_unlisted hm]; rfl)

theorem State.zeroise_trust (s : State) (trigger : Nat) : (s.zeroise trigger).trust = s.keysCleared.trust := by
  rw [State.zeroise_eq, (State.raisePf_framed ..).1 .trust (by decide), State.zeroed_trust]

theorem State.zeroise_migKey (s : State) (trigger m : Nat) : ((s.zeroise trigger).instAt m).migKey = none := by
  rw [State.zeroise_eq, State.instAt_of ((State.raisePf_framed ..).1 .insts (by decide)), State.zeroed_migKey]

theorem State.zeroise_told (s : State) (trigger : Nat) : ⟨0x6004, none, [wordOf trigger], []⟩ ∈ (s.zeroise trigger).events := by
  rw [State.zeroise_eq, State.raisePf_events]
  exact List.mem_append_right _ (List.mem_singleton_self _)

/-! ### Migration keys -/

theorem State.migStatus_framed (s : State) (st : Nat) : framed [.regs] [Reg.SEC_MIG_CTRL] s (s.migStatus st) := s.setFld_framed _ _ _ _

theorem State.migStatus_shows (s : State) {st : Nat} (h : st < 256) : (s.migStatus st).fld Reg.SEC_MIG_CTRL 7 0 = st :=
  (s.fld_setFld _ 7 0 _ (by decide) (by decide)).trans (Nat.mod_eq_of_lt h)

/-- The key drawn and wrapped to the target's key. -/
def State.wrappedTo (s : State) (nonce dek : List Byte) : State :=
  let ws := wordsOfBytes (oaepSeal dek (migLabel nonce) (bytesOfNat 32 s.free.2.free.1) (bytesOfNat 32 (BitVec.ofNat 256 s.free.1).toNat))
  (List.range 96).foldl (fun u w => u.setReg (Reg.SEC_MIG_WRAPPED w) (wordAt ws w)) s.free.2.free.2

theorem State.wrappedTo_changes (s : State) (nonce dek : List Byte) : changesOnly [.regs, .freeCtr] s (s.wrappedTo nonce dek) := by
  unfold State.wrappedTo
  dsimp only
  have hfree : changesOnly [.regs, .freeCtr] s s.free.2.free.2 := (s.free_framed.1.widen).seq (State.free_framed _).1
  exact hfree.trans (.foldl _ _ (fun v w => (v.setReg_framed _ _).1.widen) _)

theorem setTarget_refused (inst : BitVec 6) (h : Config.targetStatement (s.aperture Reg.SEC_MIG_TARGET 2048) = none) :
    exec (.setTarget inst) s = keep s (s.migStatus St.auth) := by
  unfold exec
  dsimp only
  unfold execSetTarget
  rw [h]

theorem setTarget_drawn (inst : BitVec 6) {svn : Nat} {block6 : Word} {nonce dek : List Byte}
    (h : Config.targetStatement (s.aperture Reg.SEC_MIG_TARGET 2048) = some (svn, block6, nonce, dek)) (h31 : block6.bit 31 = false)
    (h30 : block6.bit 30 = false) (hsvn : s.fld Reg.SEC_STATUS 23 16 ≤ svn) : exec (.setTarget inst) s =
      keep s (((s.wrappedTo nonce dek).updInst inst.toNat fun i => { i with migKey := some (BitVec.ofNat 256 s.free.1), migOut := true }).migStatus
        St.ok) := by
  unfold exec
  dsimp only
  unfold execSetTarget
  rw [h]
  refine congrArg (keep s) (if_neg ?_)
  rw [h31, h30]
  simpa using hsvn

theorem import_refused (inst : BitVec 6)
    (h : unwrapUnder (s.aperture Reg.SEC_MIG_WRAPPED 96) (s.trust.nonces.filter s.nonceLive) = none) :
    exec (.import_ inst) s = keep s (s.migStatus St.auth) := by
  unfold exec
  dsimp only
  unfold execImport
  rw [h]

theorem import_set (inst : BitVec 6) {x : Nonce} {v : BitVec 256}
    (h : unwrapUnder (s.aperture Reg.SEC_MIG_WRAPPED 96) (s.trust.nonces.filter s.nonceLive) = some (x, v)) :
    exec (.import_ inst) s = keep s (((s.dropNonce x.port x.session x.value).updInst inst.toNat fun i =>
      { i with migKey := some v, migOut := false }).migStatus St.ok) := by
  unfold exec
  dsimp only
  unfold execImport
  rw [h]

/-- An instance's migration key set, and the status shown. -/
theorem State.migKeySet_shows {w : State} (h : changesOnly ps s w) (hp : Part.insts ∉ ps) (n : Nat) (k : BitVec 256) (out : Bool) :
    (((w.updInst n fun i => { i with migKey := some k, migOut := out }).migStatus St.ok).instAt n).migKey = some k
    ∧ (((w.updInst n fun i => { i with migKey := some k, migOut := out }).migStatus St.ok).instAt n).migOut = out
    ∧ ∀ m, m ≠ n → ((w.updInst n fun i => { i with migKey := some k, migOut := out }).migStatus St.ok).instAt m = s.instAt m := by
  have hinsts : ∀ m, ((w.updInst n fun i => { i with migKey := some k, migOut := out }).migStatus St.ok).instAt m =
      (w.updInst n fun i => { i with migKey := some k, migOut := out }).instAt m := fun m =>
    State.instAt_of ((State.migStatus_framed ..).1 .insts (by decide)) m
  refine ⟨?_, ?_, fun m hm => ?_⟩
  · rw [hinsts, State.instAt_updInst]
  · rw [hinsts, State.instAt_updInst]
  · rw [hinsts, State.instAt_updInst_ne _ _ _ _ hm, State.instAt_of (h .insts hp)]

/-! ### A package reset -/

/-- The state that a package reset keeps, before fresh job keys are drawn. -/
def State.packageKept (s : State) : State :=
  let z := State.reset
  let mem := { Mems.empty with host := s.mem.host, flash := s.mem.flash, boot := s.mem.boot, mram := s.mem.mram }
  let pw := { z.pw with switchA := s.pw.switchA, switchB := s.pw.switchB, lossTimer := s.pw.lossTimer, v18 := s.pw.v18 }
  let svc := { z.svc with dynAddr := s.svc.dynAddr, eid := s.svc.eid, tid := s.svc.tid, wakeReady := s.svc.wakeReady }
  { z with pending := s.pending, regs := s.keptRegs, mem := mem, out := s.out, images := s.images
           trust := { z.trust with copy0 := s.trust.copy0, copy1 := s.trust.copy1 }
           svc := svc, jtag := s.jtag, pw := pw, bbx := { s.bbx with reading := false }, freeCtr := s.freeCtr, tk := { z.tk with now := s.tk.now } }

theorem State.clearPackage_eq (s : State) :
    s.clearPackage = ((List.range 5).foldl State.freshJobs s.packageKept).setFld Reg.RST_STATUS 31 28 0 := rfl

theorem State.freshJobs_framed (s : State) (pair : Nat) : framed [.trust, .freeCtr] [] s (s.freshJobs pair) :=
  (s.free_framed.widen).seq (framed_trust _ _)

/-- What the drawing of job keys leaves of the trust state. -/
def sameKeys (s t : State) : Prop := t.trust.keys = s.trust.keys ∧ t.trust.copy0 = s.trust.copy0 ∧ t.trust.copy1 = s.trust.copy1

theorem foldl_freshJobs_sameKeys (l : List Nat) (s : State) : sameKeys s (l.foldl State.freshJobs s) := by
  induction l generalizing s with
  | nil => exact ⟨rfl, rfl, rfl⟩
  | cons x l ih =>
    obtain ⟨hkeys, h0, h1⟩ := ih (s.freshJobs x)
    exact ⟨hkeys.trans rfl, h0.trans rfl, h1.trans rfl⟩

/-- A package reset changes, of what it keeps, the trust state and the registers that show it. -/
theorem State.packageReset_framed (s : State) (cause : Nat) :
    framed [.trust, .freeCtr, .regs] [Reg.RST_STATUS, Reg.RST_CAUSE] s.packageKept (s.packageReset cause) := by
  unfold State.packageReset
  rw [State.clearPackage_eq]
  have hjobs : framed [.trust, .freeCtr, .regs] [Reg.RST_STATUS, Reg.RST_CAUSE] s.packageKept
      ((List.range 5).foldl State.freshJobs s.packageKept) := .foldl _ _ (fun v x => (v.freshJobs_framed x).widen) _
  exact ((hjobs.seq (State.setFld_framed ..)).seq (State.setFld_framed ..)).seq (State.count_framed ..)

theorem State.packageReset_keys (s : State) (cause : Nat) : sameKeys s.packageKept (s.packageReset cause) := by
  unfold State.packageReset sameKeys
  rw [State.clearPackage_eq, (State.count_framed ..).1 .trust (by decide), (State.setFld_framed ..).1 .trust (by decide),
    (State.setFld_framed ..).1 .trust (by decide)]
  exact foldl_freshJobs_sameKeys _ _

theorem State.packageReset_cause (s : State) {cause : Nat} (h : cause < 16) : (s.packageReset cause).fld Reg.RST_CAUSE 31 28 = cause := by
  unfold State.packageReset State.count
  rw [State.fld_setFld_ne _ _ 15 0 _ 31 28 (by decide) (by decide) (by decide), State.fld_setFld _ _ 31 28 _ (by decide) (by decide)]
  exact Nat.mod_eq_of_lt h

theorem State.packageKept_debug (s : State) : s.packageKept.fld Reg.SEC_STATUS 30 30 = s.fld Reg.SEC_STATUS 30 30 % 2 := by
  have hreg : s.packageKept.reg Reg.SEC_STATUS = (regDefault Reg.SEC_STATUS).setField 30 30 (s.fld Reg.SEC_STATUS 30 30) := smGet_set_self ..
  show (s.packageKept.reg Reg.SEC_STATUS).field 30 30 = _
  rw [hreg]
  exact Word.field_setField _ 30 30 _ (by decide) (by decide)

@[simp] theorem State.stopped_fld (s t : State) (off hi lo : Nat) : (s.stopped t).fld off hi lo = t.fld off hi lo := rfl

/-! ### Debug unlock -/

theorem State.randomWords_changes (s : State) (at_ : Nat → Nat) (n : Nat) : changesOnly [.regs, .freeCtr] s (s.randomWords at_ n) := by
  have hfree : changesOnly [.regs, .freeCtr] s s.free.2 := s.free_framed.1.widen
  exact hfree.trans (.foldl _ _ (fun v i => (v.setReg_framed _ _).1.widen) _)

/-- The status that a refused unlock shows. -/
def State.unlockRefused (s : State) (st : Nat) : State := (s.randomWords Reg.SEC_DBG_NONCE 8).setFld Reg.SEC_DBG_CTRL 7 0 st

theorem State.unlockRefused_shows (s : State) {st : Nat} (h : st < 256) : (s.stopped (s.unlockRefused st)).fld Reg.SEC_DBG_CTRL 7 0 = st
    ∧ changesOnly [.regs, .freeCtr] s (s.stopped (s.unlockRefused st)) := by
  refine ⟨?_, ((s.randomWords_changes _ _).setFld (by simp)).stopped (by simp)⟩
  rw [State.stopped_fld]
  exact (State.fld_setFld _ _ 7 0 _ (by decide) (by decide)).trans (Nat.mod_eq_of_lt h)

/-- The device zeroised for debug, its events published, before the reset. -/
def State.debugZeroed (s : State) : State :=
  ((((s.randomWords Reg.SEC_DBG_NONCE 8).zeroise 1).raisePf 0x6006 [wordOf s.tk.count.toNat]).publish).setFld Reg.SEC_STATUS 30 30 1

theorem State.debugZeroed_trust (s : State) : s.debugZeroed.trust = s.keysCleared.trust := by
  have hrandom : (s.randomWords Reg.SEC_DBG_NONCE 8).trust = s.trust := s.randomWords_changes _ _ .trust (by decide)
  unfold State.debugZeroed
  rw [(State.setFld_framed ..).1 .trust (by decide), State.publish_changes _ .trust (by decide), (State.raisePf_framed ..).1 .trust (by decide),
    State.zeroise_trust]
  unfold State.keysCleared
  rw [hrandom]

theorem State.debugZeroed_shows (s : State) : s.debugZeroed.fld Reg.SEC_STATUS 30 30 = 1 :=
  State.fld_setFld _ _ 30 30 _ (by decide) (by decide)

/-- A device unlocked for debug: no key is left and the reset shows its cause. -/
def debugUnlocked (t : State) : Prop := t.fld Reg.SEC_STATUS 30 30 = 1 ∧ t.fld Reg.RST_CAUSE 31 28 = 5 ∧ t.tk.running = false
  ∧ (∀ m, t.keyAt m = KeySlot.empty) ∧ t.trust.copy0 = none ∧ t.trust.copy1 = none

theorem debugUnlocked.stopped (h : debugUnlocked t) (s : State) : debugUnlocked (s.stopped t) := h

theorem State.debugZeroed_reset (s : State) : debugUnlocked (s.debugZeroed.packageReset 5) := by
  have hframe := s.debugZeroed.packageReset_framed 5
  obtain ⟨hkeys, h0, h1⟩ := s.debugZeroed.packageReset_keys 5
  refine ⟨?_, State.packageReset_cause _ (by decide), (hframe.1 .running (by decide)).trans rfl, State.keyAt_none (hkeys.trans rfl), ?_, ?_⟩
  · rw [hframe.fld (by decide), State.packageKept_debug, State.debugZeroed_shows]
  · refine h0.trans ?_
    show s.debugZeroed.trust.copy0 = none
    rw [State.debugZeroed_trust]
    rfl
  · refine h1.trans ?_
    show s.debugZeroed.trust.copy1 = none
    rw [State.debugZeroed_trust]
    rfl

theorem debugUnlock_denied (h : s.trust.debugTokens = false) : exec .debugUnlock s = .next (s.stopped (s.unlockRefused St.denied)) := by
  have hstep : s.debugUnlock = s.unlockRefused St.denied := if_pos (by rw [h]; rfl)
  rw [← hstep]
  rfl

theorem debugUnlock_auth (h : s.trust.debugTokens = true)
    (htoken : Config.debugToken s.debugTokenBytes ≠ some (sha256 s.trust.dik, s.aperture Reg.SEC_DBG_NONCE 8)) :
    exec .debugUnlock s = .next (s.stopped (s.unlockRefused St.auth)) := by
  have hstep : s.debugUnlock = s.unlockRefused St.auth :=
    (if_neg (by rw [h]; decide)).trans (if_pos (by rw [beq_eq_false_iff_ne.2 htoken]; rfl))
  rw [← hstep]
  rfl

theorem debugUnlock_ok (h : s.trust.debugTokens = true)
    (htoken : Config.debugToken s.debugTokenBytes = some (sha256 s.trust.dik, s.aperture Reg.SEC_DBG_NONCE 8)) :
    exec .debugUnlock s = .next (s.stopped (s.debugZeroed.packageReset 5)) := by
  have hstep : s.debugUnlock = s.debugZeroed.packageReset 5 :=
    (if_neg (by rw [h]; decide)).trans (if_neg (by rw [beq_iff_eq.2 htoken]; decide))
  rw [← hstep]
  rfl

/-- Settles O50: the retired and destroyed epochs are sealed away, a zeroised or unlocked device holds no key, and migration keys are set or refused. -/
theorem keysEnd : Obligations.KeysEnd := by
  intro slot inst s n k due sealed
  refine ⟨fun hdue => ?_, fun hdue => ?_, fun hgone => ?_, fun hnone => ?_, ?_, fun key hkey => ?_, fun h => ?_, fun h htoken => ?_,
    fun h htoken => ?_, fun h => ?_, fun svn block6 nonce dek h h31 h30 hsvn => ?_, fun h => ?_, fun x v h => ?_⟩
  · have hexec : exec (.epochRetired slot) s = keep s (s.epochRetired n).seal := congrArg (keep s) (if_pos hdue)
    have hframe := s.epochRetired_framed n
    refine ⟨_, hexec, ?_, fun m hm => ?_, ?_, (tableSealed.seal _ hframe).kept s, (sealed_framed _ hframe).kept⟩
    · rw [State.kept_keyAt, sealed_keyAt _ hframe, State.keyAt_setKey]
      rfl
    · rw [State.kept_keyAt, sealed_keyAt _ hframe, State.keyAt_setKey_ne _ _ hm]
    · rw [State.kept_events, (State.seal_framed _).1 .events (by decide)]
      exact State.raiseSlot_raised ..
  · have hexec : exec (.epochRetired slot) s = keep s s := congrArg (keep s) (if_neg hdue)
    rw [hexec, keep_self]
  · have hexec : exec (.epochKeyDestroy slot) s = keep s (s.epochsDestroyed n).seal := congrArg (keep s) (State.destroyEpochs_some hgone)
    have hframe := s.epochsDestroyed_framed n
    refine ⟨_, hexec, ?_, fun m hm => ?_, ?_, (tableSealed.seal _ hframe).kept s, (sealed_framed _ hframe).kept⟩
    · rw [State.kept_keyAt, sealed_keyAt _ hframe, State.keyAt_setKey]
      exact s.slotDestroyed_condemned n
    · rw [State.kept_keyAt, sealed_keyAt _ hframe, State.keyAt_setKey_ne _ _ hm]
    · rw [State.kept_keyAt, sealed_keyAt _ hframe, State.keyAt_setKey]
      exact s.slotDestroyed_destroyed n
  · have hexec : exec (.epochKeyDestroy slot) s = keep s s := congrArg (keep s) (State.destroyEpochs_none hnone)
    rw [hexec, keep_self]
  · have hexec : exec (.zeroise 0x5A45524F) s = keep s (s.zeroise 0) := congrArg (keep s) (if_pos rfl)
    have htrust := s.zeroise_trust 0
    refine ⟨_, hexec, fun m => ?_, ?_, ?_, ?_, fun m => ?_, ?_⟩
    · rw [State.kept_keyAt]
      exact State.keyAt_none (by rw [htrust]; rfl) m
    · rw [State.kept_trust, htrust]
      rfl
    · rw [State.kept_trust, htrust]
      rfl
    · rw [State.kept_trust, htrust]
      rfl
    · rw [State.kept_instAt, State.zeroise_migKey]
    · rw [State.kept_events]
      exact s.zeroise_told 0
  · have hexec : exec (.zeroise key) s = keep s s := congrArg (keep s) (if_neg hkey)
    rw [hexec, keep_self]
  · exact ⟨_, debugUnlock_denied h, s.unlockRefused_shows (by decide)⟩
  · exact ⟨_, debugUnlock_ok h htoken, s.debugZeroed_reset.stopped s⟩
  · exact ⟨_, debugUnlock_auth h htoken, s.unlockRefused_shows (by decide)⟩
  · exact ⟨_, setTarget_refused inst h, s.migStatus_shows (by decide), (s.migStatus_framed _).kept⟩
  · obtain ⟨hkey, hout, hother⟩ := State.migKeySet_shows (s.wrappedTo_changes nonce dek) (by decide) inst.toNat (BitVec.ofNat 256 s.free.1) true
    refine ⟨_, setTarget_drawn inst h h31 h30 hsvn, ?_, ?_, ?_, ?_, ?_⟩
    · rw [State.kept_fld]
      exact State.migStatus_shows _ (by decide)
    · rw [State.kept_instAt, hkey]
      rfl
    · rw [State.kept_instAt, hout]
    · intro m hm
      rw [State.kept_instAt, hother m hm]
    · exact ((((s.wrappedTo_changes nonce dek).widen).seq (State.updInst_framed ..).1).seq (State.migStatus_framed ..).1).kept
  · exact ⟨_, import_refused inst h, s.migStatus_shows (by decide), (s.migStatus_framed _).kept⟩
  · have hdrop := s.dropNonce_framed x.port x.session x.value
    obtain ⟨hkey, hout, hother⟩ := State.migKeySet_shows hdrop.1 (by decide) inst.toNat v false
    refine ⟨_, import_set inst h, ?_, ?_, ?_, ?_, ?_⟩
    · rw [State.kept_fld]
      exact State.migStatus_shows _ (by decide)
    · rw [State.kept_instAt, hkey]
    · rw [State.kept_instAt, hout]
    · intro m hm
      rw [State.kept_instAt, hother m hm]
    · exact ((hdrop.widen.seq (State.updInst_framed ..)).seq (State.migStatus_framed ..)).kept


end Sys2Proof.Machine
end


section
/-! SUPPORT. What an SPDM port and a DOE mailbox answer (R386, R391, R392, R326). -/

namespace Sys2Proof.Machine

set_option Elab.async false

variable {s t u : State} {ps : List Part} {ks : List Nat} {port : SpdmPort}

/-! ### Answers where the port is served -/

theorem State.spdmServed_of (h : framed ps ks s t) (hpw : Part.pw ∉ ps := by decide) (hlink : Part.linkUp ∉ ps := by decide)
    (hk : Reg.RST_STATUS ∉ ks := by decide) : t.spdmServed port = s.spdmServed port := by
  unfold State.spdmServed
  rw [h.fld hk]
  have hpow : t.pw = s.pw := h.1 .pw hpw
  have hup : t.hs.linkUp = s.hs.linkUp := h.1 .linkUp hlink
  rw [hpow, hup]

theorem State.spdm_served (h : s.spdmServed port = true) (code : Nat) (body : List Byte) : s.spdm port code body = s.spdmSend port code body := if_pos h

theorem State.spdm_unserved (h : s.spdmServed port = false) (code : Nat) (body : List Byte) : s.spdm port code body = s :=
  if_neg (by rw [h]; decide)

/-- One answer on a port; no key and no session changes. -/
def portSent (port : SpdmPort) (code : Nat) (body : List Byte) (s t : State) : Prop := t.out = s.out ++ [.spdm port code body]
  ∧ t.trust.keys = s.trust.keys ∧ t.trust.sessions = s.trust.sessions ∧ framed [.out, .trust, .freeCtr] [] s t

theorem portSent.kept {code : Nat} {body : List Byte} (h : portSent port code body s t) : portSent port code body s (s.kept t) :=
  ⟨h.1, h.2.1, h.2.2.1, h.2.2.2.kept⟩

/-- The parts of the trust state that no answer touches. -/
def sameTrust (s t : State) : Prop := t.trust.keys = s.trust.keys ∧ t.trust.sessions = s.trust.sessions

/-- An answer after steps that change the trust state and draw free values. -/
theorem State.spdm_sent (hs : s.spdmServed port = true) (h : framed [.trust, .freeCtr] [] s u) (hsame : sameTrust s u) (code : Nat) (body : List Byte) :
    portSent port code body s (u.spdm port code body) := by
  rw [State.spdm_served ((State.spdmServed_of h).trans hs)]
  refine ⟨?_, hsame.1, hsame.2, (h.widen).seq (u.spdmSend_framed port code body)⟩
  rw [State.spdmSend_out, h.1 .out (by decide)]

theorem State.spdm_sent_self (hs : s.spdmServed port = true) (code : Nat) (body : List Byte) : portSent port code body s (s.spdm port code body) :=
  State.spdm_sent hs .refl ⟨rfl, rfl⟩ code body

theorem State.spdm_framed (s : State) (port : SpdmPort) (code : Nat) (body : List Byte) : framed [.out, .trust] [] s (s.spdm port code body) :=
  .ite (fun _ => s.spdmSend_framed port code body) fun _ => .refl

theorem State.spdm_out (hs : s.spdmServed port = true) (code : Nat) (body : List Byte) :
    (s.spdm port code body).out = s.out ++ [.spdm port code body] := by
  rw [State.spdm_served hs, State.spdmSend_out]

theorem State.spdmError_sent (hs : s.spdmServed port = true) (e : Nat) : portSent port 0x7F [byteOf e, 0] s (s.spdmError port e) :=
  State.spdm_sent_self hs _ _

/-! ### Negotiation -/

/-- The algorithms chosen, kept for the port. -/
def State.chosen (s : State) (port : SpdmPort) (asym : Word) : State :=
  { s with trust := { s.trust with negotiated := (port, asymChoice asym, 1) :: s.trust.negotiated.filter fun n => n.1 != port } }

theorem negotiate_chosen (hs : s.spdmServed port = true) {asym hash : Word} (ha : asymChoice asym ≠ 0) (hh : hash.bit 0 = true) :
    exec (.negotiateAlgorithms port asym hash) s =
      keep s ((s.chosen port asym).spdm port 0x63 ((asymChoice asym).bytes ++ (1 : Word).bytes ++ algStructs)) := by
  unfold exec
  dsimp only
  unfold execNegotiateAlgorithms
  rw [hs, hh]
  exact congrArg (keep s) ((if_neg (by decide)).trans (if_neg (not_or.2 ⟨ha, by decide⟩)))

theorem negotiate_refused (hs : s.spdmServed port = true) {asym hash : Word} (h : asymChoice asym = 0 ∨ hash.bit 0 = false) :
    exec (.negotiateAlgorithms port asym hash) s = keep s (s.spdmError port 0x01) := by
  unfold exec
  dsimp only
  unfold execNegotiateAlgorithms
  rw [hs]
  exact congrArg (keep s) ((if_neg (by decide)).trans (if_pos (h.imp_right fun hh => by rw [hh]; rfl)))

/-! ### Certificates, challenges and measurements -/

theorem getCertificate_part (h : s.pufFail = false) (offset length : BitVec 16) :
    exec (.getCertificate port 0 offset length) s = keep s (s.spdm port 0x02 ([0]
      ++ bytesOfNat 2 ((s.certs.drop offset.toNat).take length.toNat).length
      ++ bytesOfNat 2 (s.certs.length - offset.toNat - ((s.certs.drop offset.toNat).take length.toNat).length)
      ++ (s.certs.drop offset.toNat).take length.toNat)) :=
  congrArg (keep s) ((if_neg (by rw [h]; decide)).trans (if_neg (by decide)))

theorem challenge_answered (hs : s.spdmServed port = true) (h : s.pufFail = false) (nonce : BitVec 256) :
    ∃ body, exec (.challenge port 0 nonce) s = keep s (s.free.2.spdm port 0x03 body) := by
  unfold exec
  dsimp only
  unfold execChallenge
  rw [hs, h]
  exact ⟨_, congrArg (keep s) ((if_neg (by decide)).trans ((if_neg (by decide)).trans (if_neg (by decide))))⟩

theorem challenge_refused (hs : s.spdmServed port = true) (h : s.pufFail = true) (slot : BitVec 8) (nonce : BitVec 256) :
    exec (.challenge port slot nonce) s = keep s (s.spdmError port 0x05) := by
  unfold exec
  dsimp only
  unfold execChallenge
  rw [hs, h]
  exact congrArg (keep s) ((if_neg (by decide)).trans (if_pos rfl))

theorem measurements_refused (hs : s.spdmServed port = true) (h : s.pufFail = true) (session index : BitVec 8) (signed : Bool) (nonce : BitVec 256) :
    exec (.getMeasurements port session index signed nonce) s = keep s (s.spdmError port 0x05) := by
  unfold exec
  dsimp only
  unfold execGetMeasurements
  rw [hs, h]
  exact congrArg (keep s) ((if_neg (by decide)).trans (if_pos rfl))

theorem measurements_noSession (hs : s.spdmServed port = true) (h : s.pufFail = false) {session : BitVec 8} (h0 : session ≠ 0)
    (hn : s.sessionAt port session.toNat = none) (index : BitVec 8) (signed : Bool) (nonce : BitVec 256) :
    exec (.getMeasurements port session index signed nonce) s = keep s (s.spdmError port 0x04) := by
  unfold exec
  dsimp only
  unfold execGetMeasurements
  rw [hs, h, hn]
  exact congrArg (keep s) ((if_neg (by decide)).trans ((if_neg (by decide)).trans (if_pos ⟨h0, rfl⟩)))

/-- One block measured, in a session or in the mailbox. -/
theorem measurements_block (hs : s.spdmServed port = true) (h : s.pufFail = false) {session index : BitVec 8}
    (ho : session = 0 ∨ (s.sessionAt port session.toNat).isSome = true) (h1 : 1 ≤ index.toNat) (h10 : index.toNat ≤ 10) (signed : Bool)
    (nonce : BitVec 256) : ∃ body, exec (.getMeasurements port session index signed nonce) s = keep s (s.spdm port 0x60 body) := by
  unfold exec
  dsimp only
  unfold execGetMeasurements
  have hblocks : (if index.toNat = 0xFF then [1, 2, 3, 4, 5, 6, 7, 8, 9, 10] else if 1 ≤ index.toNat ∧ index.toNat ≤ 10 then [index.toNat] else []) =
      [index.toNat] := (if_neg (by omega)).trans (if_pos ⟨h1, h10⟩)
  have hplain : (signed && (index.toNat == 0xF0 || index.toNat == 0xFF)) = false := by
    rw [beq_eq_false_iff_ne.2 (by omega), beq_eq_false_iff_ne.2 (by omega)]
    exact Bool.and_false _
  have hopen : ¬(session ≠ 0 ∧ (s.sessionAt port session.toNat).isNone = true) := fun ⟨h0, hn⟩ =>
    State.sessionAt_not_isNone (ho.resolve_left h0) hn
  dsimp only
  rw [hs, h, hblocks, hplain]
  exact ⟨_, congrArg (keep s) ((if_neg (by decide)).trans ((if_neg (by decide)).trans ((if_neg hopen).trans ((if_neg (by omega)).trans
    (if_neg Bool.false_ne_true)))))⟩

/-! ### Heartbeats and chunks -/

theorem heartbeat_answered (hs : s.spdmServed port = true) (session : BitVec 8) : ∃ body, portSent port
    (if (s.sessionAt port session.toNat).isSome = true then 0x68 else 0x7F) body s
    (if (s.sessionAt port session.toNat).isSome = true then s.spdm port 0x68 [] else s.spdmError port 0x04) := by
  split
  · exact ⟨_, State.spdm_sent_self hs _ _⟩
  · exact ⟨_, State.spdmError_sent hs _⟩

/-- The chunks that a port has gathered. -/
def State.chunksKept (s : State) (chunks : List (SpdmPort × Nat × List Byte)) : State := { s with trust := { s.trust with chunk := chunks } }

theorem State.chunksKept_framed (s : State) (chunks : List (SpdmPort × Nat × List Byte)) : framed [.trust] [] s (s.chunksKept chunks) :=
  framed_trust s _

theorem chunkSend_next (hs : s.spdmServed port = true) {seq : BitVec 16}
    (h : ((s.trust.chunk.find? fun c => c.1 == port).map (·.2.1)).getD 0 = seq.toNat) (last : Bool) (data : List Byte) :
    ∃ chunks, exec (.chunkSend port seq last data) s = keep s ((s.chunksKept chunks).spdm port 0x05 (bytesOfNat 2 seq.toNat)) := by
  unfold exec
  dsimp only
  unfold execChunkSend
  have hwant : (((s.trust.chunk.find? fun c => c.1 == port).map (·.2)).map (·.1)).getD 0 = seq.toNat := by
    rw [Option.map_map]
    exact h
  dsimp only
  rw [hs, hwant]
  exact ⟨_, congrArg (keep s) ((if_neg (by decide)).trans (if_neg (not_not_intro rfl)))⟩

/-- The answer to CHUNK_GET stands among the messages alone. -/
def State.outPut (s : State) (o : Out) : State := { s with out := s.out ++ [o] }

theorem State.outPut_framed (s : State) (o : Out) : framed [.out] [] s (s.outPut o) := framed_out s _

theorem chunkGet_chunk (hs : s.spdmServed port = true) {a : SpdmPort × List Byte} (ha : (s.trust.answers.find? fun a => a.1 == port) = some a)
    {seq : BitVec 16} (h : seq.toNat * chunkBytes < a.2.length) : exec (.chunkGet port seq) s =
      keep s (s.outPut (.spdm port 0x06 (bytesOfNat 2 seq.toNat ++ (a.2.drop (seq.toNat * chunkBytes)).take chunkBytes))) := by
  unfold exec
  dsimp only
  unfold execChunkGet
  dsimp only
  rw [ha, hs]
  exact congrArg (keep s) ((if_neg (Nat.not_le.2 h)).trans (if_pos rfl))

/-! ### DOE -/

theorem doeDiscovery_served (h : s.doeServed = true) (fn : BitVec 6) (index : BitVec 8) : exec (.doeDiscovery fn index) s =
    keep s (s.outPut (.doe fn.toNat 0 (bytesOfNat 2 (doeProtocols.getD index.toNat (0xFFFF, 0xFF)).1
      ++ [byteOf (doeProtocols.getD index.toNat (0xFFFF, 0xFF)).2, byteOf (if index.toNat + 1 < doeProtocols.length then index.toNat + 1 else 0)]))) :=
  congrArg (keep s) (if_pos h)

theorem cxlTable_served (h : s.doeServed = true) (fn : BitVec 6) (entry : BitVec 16) :
    ∃ body, exec (.cxlTableAccess fn entry) s = keep s (s.outPut (.doe fn.toNat 2 body)) :=
  ⟨_, congrArg (keep s) (if_pos h)⟩

theorem doe_unserved (h : s.doeServed = false) (fn : BitVec 6) (index : BitVec 8) (entry : BitVec 16) :
    exec (.doeDiscovery fn index) s = .next s ∧ exec (.cxlTableAccess fn entry) s = .next s := by
  have hoff : ¬s.doeServed = true := by
    rw [h]
    decide
  exact ⟨(congrArg (keep s) (if_neg hoff)).trans (keep_self s), (congrArg (keep s) (if_neg hoff)).trans (keep_self s)⟩

/-! ### The obligation -/

theorem plain_unserved (h : s.spdmServed port = false) : ∀ c ∈ [Instr.getVersion port, .getCapabilities port], exec c s = .next s := by
  simp only [List.forall_mem_cons, List.not_mem_nil, false_implies, implies_true, and_true]
  exact ⟨(congrArg (keep s) (State.spdm_unserved h _ _)).trans (keep_self s), (congrArg (keep s) (State.spdm_unserved h _ _)).trans (keep_self s)⟩

/-- Settles O51: each request's one answer, by what the port finds. -/
theorem attestationAnswers : Obligations.AttestationAnswers := by
  intro port s sent plain
  have sentOf : ∀ {c : Instr} {code : Nat} {body : List Byte} {u : State}, exec c s = keep s u → portSent port code body s u → sent c code :=
    fun {c code body u} h hsent => by
      obtain ⟨hout, hkeys, hsessions, hframe⟩ := hsent.kept
      exact ⟨_, body, h, hout, hkeys, hsessions, hframe⟩
  refine ⟨fun h => plain_unserved h, fun hs => ⟨?_, ?_, fun asym hash => ⟨fun ⟨ha, hh⟩ => ?_, fun h => ?_⟩, fun hpuf => ⟨?_, fun offset length => ?_,
      fun nonce => ?_, fun session index signed nonce ho h1 h10 => ?_, fun session index signed nonce h0 hn => ?_⟩,
      fun hpuf => ⟨?_, fun slot offset length => ?_, fun slot nonce => ?_, fun session index signed nonce => ?_⟩, fun session => ?_,
      fun seq last data h => ?_, fun a ha seq h => ?_⟩, fun fn index entry => ⟨fun h => ⟨?_, ?_⟩, fun h => doe_unserved h fn index entry⟩⟩
  · exact ⟨_, rfl, by rw [State.kept_out, State.spdm_out hs], (s.spdm_framed _ _ _).kept⟩
  · exact ⟨_, rfl, by rw [State.kept_out, State.spdm_out hs], (s.spdm_framed _ _ _).kept⟩
  · have hchosen : framed [.out, .trust] [] s (s.chosen port asym) := (framed_trust s _).widen
    have hserved : (s.chosen port asym).spdmServed port = true := (State.spdmServed_of hchosen).trans hs
    refine ⟨_, negotiate_chosen hs ha hh, ?_, ?_, (hchosen.trans (State.spdm_framed _ _ _ _)).kept⟩
    · rw [State.kept_out, State.spdm_out hserved]
      rfl
    · rw [State.kept_trust, State.spdm_served hserved]
      exact List.mem_cons_self
  · exact sentOf (negotiate_refused hs h) (State.spdmError_sent hs _)
  · refine ⟨_, congrArg (keep s) (if_neg (by rw [hpuf]; decide)), ?_, (s.spdm_framed _ _ _).kept⟩
    rw [State.kept_out, State.spdm_out hs]
    rfl
  · refine ⟨_, getCertificate_part hpuf offset length, ?_, (s.spdm_framed _ _ _).kept⟩
    rw [State.kept_out, State.spdm_out hs]
  · obtain ⟨body, hexec⟩ := challenge_answered hs hpuf nonce
    exact sentOf hexec (State.spdm_sent hs s.free_framed.widen ⟨rfl, rfl⟩ _ _)
  · obtain ⟨body, hexec⟩ := measurements_block hs hpuf ho h1 h10 signed nonce
    exact sentOf hexec (State.spdm_sent_self hs _ _)
  · exact sentOf (measurements_noSession hs hpuf h0 hn index signed nonce) (State.spdmError_sent hs _)
  · simp only [List.forall_mem_cons, List.not_mem_nil, false_implies, implies_true, and_true]
    exact sentOf (congrArg (keep s) (if_pos hpuf)) (State.spdmError_sent hs _)
  · exact sentOf (congrArg (keep s) (if_pos hpuf)) (State.spdmError_sent hs _)
  · exact sentOf (challenge_refused hs hpuf slot nonce) (State.spdmError_sent hs _)
  · exact sentOf (measurements_refused hs hpuf session index signed nonce) (State.spdmError_sent hs _)
  · obtain ⟨body, hsent⟩ := heartbeat_answered hs session
    exact sentOf rfl hsent
  · obtain ⟨chunks, hexec⟩ := chunkSend_next hs h last data
    exact sentOf hexec (State.spdm_sent hs (s.chunksKept_framed chunks).widen ⟨rfl, rfl⟩ _ _)
  · exact ⟨_, chunkGet_chunk hs ha h, rfl, (s.outPut_framed _).kept⟩
  · refine ⟨_, doeDiscovery_served h fn index, ?_, (s.outPut_framed _).kept⟩
    have hnext : (index.toNat + 1 < doeProtocols.length) = (index.toNat < 3) := propext Nat.add_lt_add_iff_right
    simp only [hnext]
    rfl
  · obtain ⟨body, hexec⟩ := cxlTable_served h fn entry
    exact ⟨_, body, hexec, rfl, (s.outPut_framed _).kept⟩


end Sys2Proof.Machine
end

section
/-! SUPPORT. Sessions and the streams of IDE (R391, R393, R405). -/

namespace Sys2Proof.Machine

set_option Elab.async false

variable {s t u : State} {ps : List Part} {ks : List Nat} {port : SpdmPort} {id : Nat}

/-! ### KEY_EXCHANGE -/

/-- A free session id of a port: it is not 0, and no session of the port has it. -/
def freeId (own : List Session) : Nat := ((List.range 256).find? fun n => n != 0 && !own.any fun x => x.id == n).getD 0

/-- Fewer sessions than ids: some id is free. -/
theorem freeId_exists {own : List Session} (h : own.length < 255) : ∃ n ∈ List.range 256, (n != 0 && !own.any fun x => x.id == n) = true := by
  by_contra hnone
  have hsub : List.range' 1 255 ⊆ own.map (·.id) := by
    intro n hn
    rw [List.mem_range'_1] at hn
    by_contra hfree
    refine hnone ⟨n, List.mem_range.2 (by omega), ?_⟩
    rw [Bool.and_eq_true, bne_iff_ne, Bool.not_eq_true', List.any_eq_false]
    exact ⟨by omega, fun x hx hid => hfree (List.mem_map.2 ⟨x, hx, beq_iff_eq.1 hid⟩)⟩
  have hlen := (List.subperm_of_subset List.nodup_range' hsub).length_le
  rw [List.length_range', List.length_map] at hlen
  omega

theorem freeId_fresh {own : List Session} (h : own.length < 255) : ∀ y ∈ own, y.id ≠ freeId own := by
  obtain ⟨n, hn, hfree⟩ := freeId_exists h
  unfold freeId
  cases hfind : (List.range 256).find? fun n => n != 0 && !own.any fun x => x.id == n with
  | none => exact absurd hfree (by simpa using List.find?_eq_none.1 hfind n hn)
  | some k =>
    have hk := List.find?_some hfind
    rw [Bool.and_eq_true, Bool.not_eq_true', List.any_eq_false] at hk
    exact fun y hy hid => hk.2 y hy (beq_iff_eq.2 hid)

theorem sessionLimit_le (port : SpdmPort) : sessionLimit port ≤ 8 := by
  cases port
  · exact Nat.le_of_ble_eq_true rfl
  · exact Nat.le_refl 8

/-- A session added. -/
def State.withSession (s : State) (x : Session) : State := { s with trust := { s.trust with sessions := s.trust.sessions ++ [x] } }

theorem State.withSession_framed (s : State) (x : Session) : framed [.trust] [] s (s.withSession x) := framed_trust s _

theorem keyExchange_opens (hs : s.spdmServed port = true) (hpuf : s.pufFail = false)
    (h : (s.trust.sessions.filter fun x => x.port == port).length < sessionLimit port) (random : BitVec 256) (exchange : List Byte) :
    ∃ key body, exec (.keyExchange port random exchange) s = keep s
      ((s.free.2.withSession ⟨port, freeId (s.trust.sessions.filter fun x => x.port == port), false, key, 0⟩).spdm port 0x64 body) := by
  unfold exec
  dsimp only
  unfold execKeyExchange
  rw [hs, hpuf]
  exact ⟨_, _, congrArg (keep s) ((if_neg (by decide)).trans ((if_neg (by decide)).trans (if_neg (Nat.not_le.2 h))))⟩

theorem keyExchange_refused (hs : s.spdmServed port = true)
    (h : s.pufFail = true ∨ sessionLimit port ≤ (s.trust.sessions.filter fun x => x.port == port).length) (random : BitVec 256)
    (exchange : List Byte) : ∃ e, exec (.keyExchange port random exchange) s = keep s (s.spdmError port e) := by
  unfold exec
  dsimp only
  unfold execKeyExchange
  rw [hs]
  cases hpuf : s.pufFail with
  | true => exact ⟨_, congrArg (keep s) ((if_neg (by decide)).trans (if_pos rfl))⟩
  | false =>
    have hfull := h.resolve_left (by rw [hpuf]; decide)
    exact ⟨_, congrArg (keep s) ((if_neg (by decide)).trans ((if_neg (by decide)).trans (if_pos hfull)))⟩

/-! ### Sessions changed and ended -/

theorem State.updSession_framed (s : State) (port : SpdmPort) (id : Nat) (f : Session → Option Session) :
    framed [.trust] [] s (s.updSession port id f) := framed_trust s _

theorem State.dropSession_framed (s : State) (port : SpdmPort) (id : Nat) : framed [.trust] [] s (s.dropSession port id) :=
  (s.updSession_framed port id _).seq (framed_trust _ _)

/-- A port's session of an id. -/
def isSession (port : SpdmPort) (id : Nat) (x : Session) : Bool := x.port == port && x.id == id

theorem isSession_iff (x : Session) : isSession port id x = true ↔ x.port = port ∧ x.id = id := by
  unfold isSession
  rw [Bool.and_eq_true, beq_iff_eq, beq_iff_eq]

/-- Sessions changed, none removed. -/
theorem State.updSession_map (s : State) (port : SpdmPort) (id : Nat) (g : Session → Session) :
    (s.updSession port id fun x => some (g x)).trust.sessions = s.trust.sessions.map fun x => if x.port = port ∧ x.id = id then g x else x := by
  show s.trust.sessions.filterMap _ = _
  rw [← List.filterMap_eq_map]
  refine List.filterMap_congr fun x _ => ?_
  split
  · next h => exact congrArg some (if_pos h).symm
  · next h => exact congrArg some (if_neg h).symm

/-- Sessions ended: those that stay. -/
theorem filterMap_ended (port : SpdmPort) (id : Nat) (l : List Session) :
    (l.filterMap fun x => if x.port = port ∧ x.id = id then none else some x) = l.filter fun x => !(x.port == port && x.id == id) := by
  induction l with
  | nil => rfl
  | cons x l ih =>
    by_cases h : x.port = port ∧ x.id = id
    · rw [List.filterMap_cons, if_pos h, List.filter_cons_of_neg (by simpa using h), ih]
    · rw [List.filterMap_cons, if_neg h, List.filter_cons_of_pos (by simpa [or_iff_not_imp_left] using h), ih]

theorem State.dropSession_sessions (s : State) (port : SpdmPort) (id : Nat) :
    (s.dropSession port id).trust.sessions = s.trust.sessions.filter fun x => !(x.port == port && x.id == id) := filterMap_ended ..

/-- A session ended with the nonces bound to it. -/
def sessionGone (port : SpdmPort) (id : Nat) (s t : State) : Prop :=
  t.trust.sessions = s.trust.sessions.filter (fun x => !(x.port == port && x.id == id)) ∧ ∀ n ∈ t.trust.nonces, ¬(n.port = port ∧ n.session = id)

theorem State.dropSession_gone (s : State) (port : SpdmPort) (id : Nat) : sessionGone port id s (s.dropSession port id) := by
  refine ⟨s.dropSession_sessions port id, fun n hn ⟨hport, hid⟩ => ?_⟩
  have hkeep := (List.mem_filter.1 hn).2
  rw [hport, hid, beq_self_eq_true, beq_self_eq_true] at hkeep
  exact absurd hkeep (by decide)

theorem State.spdm_sessions (s : State) (port : SpdmPort) (code : Nat) (body : List Byte) :
    (s.spdm port code body).trust.sessions = s.trust.sessions := by
  unfold State.spdm
  split <;> rfl

theorem State.spdm_nonces (s : State) (port : SpdmPort) (code : Nat) (body : List Byte) : (s.spdm port code body).trust.nonces = s.trust.nonces := by
  unfold State.spdm
  split <;> rfl

theorem sessionGone.spdm (h : sessionGone port id s t) (code : Nat) (body : List Byte) : sessionGone port id s (t.spdm port code body) := by
  unfold sessionGone
  rw [State.spdm_sessions, State.spdm_nonces]
  exact h

theorem sessionGone.kept (h : sessionGone port id s t) : sessionGone port id s (s.kept t) := h

/-! ### FINISH -/

theorem finish_right (hs : s.spdmServed port = true) {session : BitVec 8} {proof : List Byte} {x : Session}
    (hx : (s.trust.sessions.find? fun x => x.port == port && x.id == session.toNat && !x.established) = some x)
    (h : Config.mac x.key.toNat [byteOf session.toNat] = proof) : exec (.finish port session proof) s =
      keep s ((s.updSession port session.toNat fun y => some { y with established := true }).spdm port 0x65 []) := by
  unfold exec
  dsimp only
  unfold execFinish
  dsimp only
  rw [hs, hx]
  exact congrArg (keep s) ((if_neg (by decide)).trans (if_pos h))

theorem finish_wrong (hs : s.spdmServed port = true) {session : BitVec 8} {proof : List Byte} {x : Session}
    (hx : (s.trust.sessions.find? fun x => x.port == port && x.id == session.toNat && !x.established) = some x)
    (h : Config.mac x.key.toNat [byteOf session.toNat] ≠ proof) : exec (.finish port session proof) s =
      keep s ((s.dropSession port session.toNat).spdmError port 0x06) := by
  unfold exec
  dsimp only
  unfold execFinish
  dsimp only
  rw [hs, hx]
  exact congrArg (keep s) ((if_neg (by decide)).trans (if_neg h))

/-- The sessions of a port and an id are established. -/
def sessionUp (port : SpdmPort) (id : Nat) (t : State) : Prop := (t.sessionAt port id).isSome = true
  ∧ ∀ y ∈ t.trust.sessions, y.port = port → y.id = id → y.established = true

theorem sessionUp.of_sessions (h : sessionUp port id t) (hsame : u.trust.sessions = t.trust.sessions) : sessionUp port id u := by
  unfold sessionUp State.sessionAt at h ⊢
  rw [hsame]
  exact h

theorem State.sessionEstablished_up {x : Session} (hx : (s.trust.sessions.find? fun x => x.port == port && x.id == id && !x.established) = some x) :
    sessionUp port id (s.updSession port id fun y => some { y with established := true }) := by
  unfold sessionUp State.sessionAt
  rw [State.updSession_map]
  have hp := List.find?_some hx
  rw [Bool.and_eq_true] at hp
  have hid := (isSession_iff (port := port) (id := id) x).1 hp.1
  refine ⟨List.find?_isSome.2 ⟨{ x with established := true }, List.mem_map.2 ⟨x, List.mem_of_find?_eq_some hx, if_pos hid⟩, ?_⟩, ?_⟩
  · rw [Bool.and_true]
    exact hp.1
  · intro y hy hport hyid
    obtain ⟨z, _, rfl⟩ := List.mem_map.1 hy
    split at hport
    next h => rw [if_pos h]
    next h =>
      rw [if_neg h] at hyid
      exact absurd ⟨hport, hyid⟩ h

/-! ### KEY_UPDATE and END_SESSION -/

/-- A session with its next key. -/
def Session.rekeyed (x : Session) (op : Nat) : Session :=
  { x with key := BitVec.ofNat 256 (Config.kdf x.key.toNat [byteOf op]), updates := x.updates + 1 }

/-- The first session changed by steps that keep what a session is: the changed first one. -/
theorem find?_map_changed {l : List Session} {p : Session → Bool} {g : Session → Session} {x : Session} (hg : ∀ y, p (g y) = p y)
    (h : l.find? p = some x) : (l.map g).find? p = some (g x) := by
  rw [List.find?_map]
  have hsame : p ∘ g = p := funext hg
  rw [hsame, h]
  rfl

theorem State.sessionAt_rekeyed {x : Session} (hx : s.sessionAt port id = some x) (op : Nat) :
    (s.updSession port id fun y => some (y.rekeyed op)).sessionAt port id = some (x.rekeyed op) := by
  have hp := List.find?_some hx
  rw [Bool.and_eq_true] at hp
  have hid := (isSession_iff (port := port) (id := id) x).1 hp.1
  unfold State.sessionAt
  rw [State.updSession_map]
  refine (find?_map_changed (fun y => ?_) hx).trans (congrArg some (if_pos hid))
  split <;> rfl

theorem State.sessionAt_of (h : t.trust.sessions = s.trust.sessions) (port : SpdmPort) (id : Nat) : t.sessionAt port id = s.sessionAt port id := by
  unfold State.sessionAt
  rw [h]

theorem keyUpdate_rekeys (hs : s.spdmServed port = true) {session : BitVec 8} {x : Session} (hx : s.sessionAt port session.toNat = some x)
    {op : BitVec 8} (hop : op = 1 ∨ op = 2) : exec (.keyUpdate port session op) s =
      keep s ((s.updSession port session.toNat fun y => some (y.rekeyed op.toNat)).spdm port 0x69 [byteOf op.toNat]) := by
  have hnat : op.toNat = 1 ∨ op.toNat = 2 := hop.imp (fun h => by rw [h]; rfl) fun h => by rw [h]; rfl
  unfold exec
  dsimp only
  unfold execKeyUpdate
  dsimp only
  rw [hs, hx]
  exact congrArg (keep s) ((if_neg (by decide)).trans ((if_neg Bool.false_ne_true).trans (if_pos hnat)))

theorem endSession_ends (hs : s.spdmServed port = true) {session : BitVec 8} (h : (s.sessionAt port session.toNat).isSome = true) :
    exec (.endSession port session) s = keep s ((s.dropSession port session.toNat).spdm port 0x6C []) := by
  unfold exec
  dsimp only
  unfold execEndSession
  rw [hs]
  exact congrArg (keep s) ((if_neg (by decide)).trans (if_pos h))

theorem endSession_none (hs : s.spdmServed port = true) {session : BitVec 8} (h : s.sessionAt port session.toNat = none) :
    exec (.endSession port session) s = keep s (s.spdmError port 0x04) := by
  unfold exec
  dsimp only
  unfold execEndSession
  rw [hs, h]
  exact congrArg (keep s) ((if_neg (by decide)).trans (if_neg Bool.false_ne_true))

/-! ### IDE streams -/

/-- The streams set, as SEC_STATUS shows them. -/
def State.ideShown (s : State) (streams : List (Nat × Bool)) : State :=
  { s with trust := { s.trust with ideStreams := streams } }.setFld Reg.SEC_STATUS 28 28
    (b2n ((List.range s.ideNeeded).all fun n => streams.contains (n, true)))

/-- The streams set, with the event where their security changes. -/
def State.ideNoted (s : State) (streams : List (Nat × Bool)) (changed : Nat) : State :=
  let secure := (List.range s.ideNeeded).all fun n => streams.contains (n, true)
  if secure = (s.reg Reg.SEC_STATUS).bit 28 then s.ideShown streams else (s.ideShown streams).raisePf 0x6007 [wordOf (b2n secure), wordOf changed]

theorem State.setIde_eq (s : State) (streams : List (Nat × Bool)) (changed : Nat) : s.setIde streams changed =
    if (s.ideNoted streams changed).ideBlocks then (s.ideNoted streams changed).detachEach (List.range 64) 1 else s.ideNoted streams changed := by
  unfold State.setIde State.detachEach State.ideNoted State.ideShown
  with_reducible rfl

theorem State.ideShown_changes (s : State) (streams : List (Nat × Bool)) : changesOnly [.trust, .regs] s (s.ideShown streams) :=
  ((framed_trust s _).1.widen).seq (State.setFld_framed ..).1

theorem State.ideNoted_of_shown (s : State) (streams : List (Nat × Bool)) (changed : Nat) :
    framed eventParts eventRegs (s.ideShown streams) (s.ideNoted streams changed) := .ite (fun _ => .refl) fun _ => State.raisePf_framed ..

theorem State.setIde_of_noted (s : State) (streams : List (Nat × Bool)) (changed : Nat) :
    changesOnly eventParts (s.ideNoted streams changed) (s.setIde streams changed)
    ∧ (s.setIde streams changed).reg Reg.SEC_STATUS = (s.ideNoted streams changed).reg Reg.SEC_STATUS := by
  rw [State.setIde_eq]
  split
  · exact ⟨State.detachEach_changes _ _ _, State.detachEach_reg _ _ _ (by decide) (by decide)⟩
  · exact ⟨.refl, rfl⟩

theorem State.setIde_changes (s : State) (streams : List (Nat × Bool)) (changed : Nat) :
    changesOnly (.trust :: eventParts) s (s.setIde streams changed) :=
  ((((s.ideShown_changes streams).widen (by simp [eventParts])).seq (s.ideNoted_of_shown streams changed).1 (by simp +contextual)).seq
    (s.setIde_of_noted streams changed).1 (by simp +contextual))

theorem State.setIde_streams (s : State) (streams : List (Nat × Bool)) (changed : Nat) : (s.setIde streams changed).trust.ideStreams = streams := by
  rw [(s.setIde_of_noted streams changed).1 .trust (by decide), (s.ideNoted_of_shown streams changed).1 .trust (by decide)]
  rfl

theorem State.setIde_secure (s : State) (streams : List (Nat × Bool)) (changed : Nat) : (s.setIde streams changed).fld Reg.SEC_STATUS 28 28 =
    b2n ((List.range s.ideNeeded).all fun n => streams.contains (n, true)) := by
  unfold State.fld
  rw [(s.setIde_of_noted streams changed).2, (s.ideNoted_of_shown streams changed).reg (by decide)]
  refine (State.fld_setFld _ Reg.SEC_STATUS 28 28 _ (by decide) (by decide)).trans ?_
  cases (List.range s.ideNeeded).all fun n => streams.contains (n, true) <;> rfl

theorem ideKm_sets (hs : s.spdmServed (.doe 0) = true) {session stream : BitVec 8} (h : (s.sessionAt (.doe 0) session.toNat).isSome = true)
    (hn : stream.toNat < 6) (secure : Bool) : exec (.ideKm session stream secure) s =
      keep s (s.setIde ((stream.toNat, secure) :: s.trust.ideStreams.filter fun x => x.1 != stream.toNat) stream.toNat) := by
  unfold exec
  dsimp only
  unfold execIdeKm
  rw [hs]
  exact congrArg (keep s) ((if_neg (by decide)).trans ((if_neg (State.sessionAt_not_isNone h)).trans (if_neg (Nat.not_le.2 hn))))

/-- Settles O52: sessions by the list that holds them, and the streams by what SEC_STATUS shows of them. -/
theorem sessionsLive : Obligations.SessionsLive := by
  intro port session s hs id own gone
  refine ⟨fun random exchange hpuf hroom => ?_, fun random exchange h => ?_, fun proof x hx => ⟨fun h => ?_, fun h => ?_⟩,
    fun x hx => ⟨fun op hop => ?_, ?_⟩, fun h => ?_, fun hport h stream secure hn => ?_⟩
  · obtain ⟨key, body, hexec⟩ := keyExchange_opens hs hpuf hroom random exchange
    have hframe := s.free_framed.widen (qs := [.out, .trust, .freeCtr]) (js := [])
      |>.seq (s.free.2.withSession_framed ⟨port, freeId own, false, key, 0⟩)
    refine ⟨_, ⟨port, freeId own, false, key, 0⟩, hexec, ?_, rfl, rfl, freeId_fresh (lt_of_lt_of_le hroom ((sessionLimit_le port).trans (by decide))),
      (hframe.seq (State.spdm_framed ..)).kept⟩
    rw [State.kept_trust, State.spdm_sessions]
    rfl
  · obtain ⟨e, hexec⟩ := keyExchange_refused hs h random exchange
    refine ⟨_, hexec, ?_, (s.spdm_framed _ _ _).kept⟩
    rw [State.kept_trust]
    exact State.spdm_sessions ..
  · have hup := (State.sessionEstablished_up hx).of_sessions (State.spdm_sessions _ port 0x65 [])
    exact ⟨_, finish_right hs hx h, hup.1, hup.2, (((s.updSession_framed ..).widen).seq (State.spdm_framed ..)).kept⟩
  · exact ⟨_, finish_wrong hs hx h, ((s.dropSession_gone port id).spdm _ _).kept, (((s.dropSession_framed ..).widen).seq (State.spdm_framed ..)).kept⟩
  · refine ⟨_, keyUpdate_rekeys hs hx hop, ?_, (((s.updSession_framed ..).widen).seq (State.spdm_framed ..)).kept⟩
    refine (State.sessionAt_of ?_ port id).trans (State.sessionAt_rekeyed hx op.toNat)
    rw [State.kept_trust, State.spdm_sessions]
  · exact ⟨_, endSession_ends hs (by rw [hx]; rfl), ((s.dropSession_gone port id).spdm _ _).kept,
      (((s.dropSession_framed ..).widen).seq (State.spdm_framed ..)).kept⟩
  · refine ⟨_, endSession_none hs h, ?_, (s.spdm_framed _ _ _).kept⟩
    rw [State.kept_trust]
    exact State.spdm_sessions ..
  · subst hport
    have hstreams := s.setIde_streams ((stream.toNat, secure) :: s.trust.ideStreams.filter fun x => x.1 != stream.toNat) stream.toNat
    refine ⟨_, ideKm_sets hs h hn secure, ?_, ?_, ?_, ?_, (s.setIde_changes _ _).kept⟩
    · rw [State.kept_trust, hstreams]
      exact List.mem_cons_self
    · rw [State.kept_trust, hstreams]
      intro hmem
      rcases List.mem_cons.1 hmem with heq | hmem
      · exact Bool.not_ne_self secure (congrArg Prod.snd heq)
      · exact absurd (List.mem_filter.1 hmem).2 (by simp)
    · rw [State.kept_trust, hstreams, List.all_eq_true]
      exact fun x hx => List.contains_iff_mem.2 (List.mem_cons_of_mem _ hx)
    · rw [State.kept_fld, State.kept_trust, hstreams]
      exact s.setIde_secure _ _


end Sys2Proof.Machine
end

section
/-! SUPPORT. Ordered stops (R415, R441 to R446, R453, R454). -/

namespace Sys2Proof.Machine

set_option Elab.async false

variable {s t u : State} {ps : List Part} {ks : List Nat}

/-! ### The black box drained -/

theorem State.bbxStore_framed (s : State) (a : Nat) (bs : List Byte) : framed [.mram] [] s (s.bbxStore a bs) := framed_mram s _

theorem State.bbxPop_framed (s : State) : framed [.bbx, .regs] eventRegs s s.bbxPop :=
  ((framed_bbx s _).widen).seq (State.bbxShow_framed _) (by simp) (by simp [eventRegs])

theorem State.bbxLostRecord_framed (s : State) : framed [.bbx, .regs] eventRegs s s.bbxLostRecord :=
  .ite (fun _ => .refl) fun _ => ((framed_bbx s _).widen).seq (State.bbxPut_framed ..) (by simp) (fun _ h => h)

theorem State.bbxDrain_framed (fuel : Nat) (s : State) : framed [.mram, .bbx, .regs] eventRegs s (s.bbxDrain fuel) := by
  induction fuel generalizing s with
  | zero => exact .refl
  | succ fuel ih =>
    unfold State.bbxDrain
    split
    · exact .refl
    · exact .ite (fun _ => .refl) fun _ => ((((s.bbxStore_framed ..).widen).seq (State.bbxPop_framed _) (by simp) (fun _ h => h)).seq
        (State.bbxLostRecord_framed _) (by simp) (fun _ h => h)).trans (ih _)

/-! ### The stop at its end -/

/-- A package that is off after a stop with a cause; what no reset touches is as it was. -/
def stopEnded (cause : Nat) (s t : State) : Prop := t.tk.running = false ∧ t.pw.stopping = true ∧ t.fld Reg.PWR_STATE 31 29 = 4
  ∧ t.fld Reg.RST_CAUSE 31 28 = cause ∧ t.pending = s.pending ∧ t.mem.host = s.mem.host ∧ t.mem.flash = s.mem.flash ∧ t.mem.boot = s.mem.boot
  ∧ t.images = s.images

/-- A package reset shown as P4. -/
def State.resetOff (s : State) (cause : Nat) : State := (s.packageReset cause).setFld Reg.PWR_STATE 31 29 4

theorem State.resetOff_framed (s : State) (cause : Nat) :
    framed [.trust, .freeCtr, .regs] [Reg.RST_STATUS, Reg.RST_CAUSE, Reg.PWR_STATE] s.packageKept (s.resetOff cause) :=
  ((s.packageReset_framed cause).widen (by simp) (by simp +contextual)).seq (State.setFld_framed ..)

theorem State.resetOff_state (s : State) (cause : Nat) : (s.resetOff cause).fld Reg.PWR_STATE 31 29 = 4 :=
  State.fld_setFld _ _ 31 29 _ (by decide) (by decide)

theorem State.resetOff_cause (s : State) {cause : Nat} (h : cause < 16) : (s.resetOff cause).fld Reg.RST_CAUSE 31 28 = cause := by
  unfold State.resetOff
  rw [State.fld_setFld_off _ _ _ _ _ _ _ _ (by decide), State.packageReset_cause _ h]

/-- A power state changed. -/
def State.withPw (s : State) (x : Power) : State := { s with pw := x }

theorem State.withPw_framed (s : State) (x : Power) : framed [.pw] [] s (s.withPw x) := framed_pw s x

theorem State.packageKept_keeps (s : State) : s.packageKept.tk.running = false ∧ s.packageKept.pending = s.pending
    ∧ s.packageKept.mem.host = s.mem.host ∧ s.packageKept.mem.flash = s.mem.flash ∧ s.packageKept.mem.boot = s.mem.boot
    ∧ s.packageKept.images = s.images := by
  unfold State.packageKept
  exact ⟨rfl, rfl, rfl, rfl, rfl, rfl⟩

/-- A stop held until a feed is OK. -/
def State.heldOff (s : State) : State := s.withPw { s.pw with stopping := true }

theorem State.endStop_eq (s : State) (cause : Nat) : s.endStop cause =
    ((s.bbxDrain 66).resetOff cause).heldOff := rfl

theorem stopEnded.of_reset {cause : Nat} (h : framed ps ks s.packageKept t) (hp : ∀ p ∈ [Part.running, .pending, .host, .flash, .bootMem, .images], p ∉ ps)
    (hstate : t.fld Reg.PWR_STATE 31 29 = 4) (hcause : t.fld Reg.RST_CAUSE 31 28 = cause) : stopEnded cause s t.heldOff := by
  obtain ⟨hrun, hpending, hhost, hflash, hboot, himages⟩ := s.packageKept_keeps
  have hr : t.tk.running = s.packageKept.tk.running := h.1 .running (hp _ (by simp))
  have hq : t.pending = s.packageKept.pending := h.1 .pending (hp _ (by simp))
  have hh : t.mem.host = s.packageKept.mem.host := h.1 .host (hp _ (by simp))
  have hf : t.mem.flash = s.packageKept.mem.flash := h.1 .flash (hp _ (by simp))
  have hb : t.mem.boot = s.packageKept.mem.boot := h.1 .bootMem (hp _ (by simp))
  have hi : t.images = s.packageKept.images := h.1 .images (hp _ (by simp))
  exact ⟨hr.trans hrun, rfl, hstate, hcause, hq.trans hpending, hh.trans hhost, hf.trans hflash, hb.trans hboot, hi.trans himages⟩

theorem State.endStop_ended (h : changesOnly (.pw :: eventParts) s u) {cause : Nat} (hcause : cause < 16) : stopEnded cause s (u.endStop cause) := by
  have hdrain : changesOnly (.mram :: .pw :: eventParts) s (u.bbxDrain 66) :=
    (h.widen (by simp +contextual)).seq (u.bbxDrain_framed 66).1 (by simp [eventParts])
  rw [State.endStop_eq]
  generalize u.bbxDrain 66 = w at hdrain ⊢
  have hpending : w.pending = s.pending := hdrain .pending (by decide)
  have hhost : w.mem.host = s.mem.host := hdrain .host (by decide)
  have hflash : w.mem.flash = s.mem.flash := hdrain .flash (by decide)
  have hboot : w.mem.boot = s.mem.boot := hdrain .bootMem (by decide)
  have himages : w.images = s.images := hdrain .images (by decide)
  have hended := stopEnded.of_reset (w.resetOff_framed cause) (by decide) (w.resetOff_state cause) (w.resetOff_cause hcause)
  unfold stopEnded at hended ⊢
  rw [hpending, hhost, hflash, hboot, himages] at hended
  exact hended

/-! ### A stop begins -/

/-- The event and the record of a stop. -/
def State.stopTold (s : State) (cause : Nat) : State :=
  (s.raisePf 0x800A [wordOf cause, wordOf s.tk.count.toNat]).bbxPut 4 none 0 [wordOf cause, wordOf s.tk.count.toNat]

/-- A stop that waits for the landing. -/
def State.stopWaits (s : State) (cause : Nat) : State :=
  (s.stopTold cause).withPw { (s.stopTold cause).pw with alertLow := true, stopCause := some cause }

theorem State.stopTold_framed (s : State) (cause : Nat) : framed eventParts eventRegs s (s.stopTold cause) :=
  (s.raisePf_framed _ _).seq (State.bbxPut_framed ..) (by simp [eventParts]) (fun _ h => h)

theorem State.orderedStop_fresh (hstop : s.pw.stopCause = none) (hoff : s.packageOff = false) (cause : Nat) :
    s.orderedStop cause = if s.tk.running = true then s.stopWaits cause else (s.stopWaits cause).endStop cause := by
  have hrun : (s.stopTold cause).tk.running = s.tk.running := (s.stopTold_framed cause).1 .running (by decide)
  unfold State.orderedStop
  refine (if_neg ?_).trans ?_
  · rw [hstop, hoff]
    decide
  · unfold State.stopWaits State.withPw State.stopTold
    with_reducible rfl

/-- An ordered stop after steps that raise events and note the window: it begins. -/
theorem State.orderedStop_begun (h : changesOnly (.pw :: eventParts) s u) (hpw : u.pw = { s.pw with lastWindowHigh := u.pw.lastWindowHigh })
    (hstop : s.pw.stopCause = none) (hoff : u.packageOff = false) {cause : Nat} (hcause : cause < 16) :
    stopBegun cause [] s (u.orderedStop cause) := by
  have hnone : u.pw.stopCause = none := by
    rw [hpw]
    exact hstop
  have hrun : u.tk.running = s.tk.running := h .running (by decide)
  have hcount : u.tk.count = s.tk.count := h .tickCount (by decide)
  have htold := u.stopTold_framed cause
  have hwait : changesOnly (.pw :: eventParts) s (u.stopWaits cause) :=
    (h.seq htold.1 (by simp +contextual)).seq (State.withPw_framed ..).1 (by simp)
  rw [State.orderedStop_fresh hnone hoff, hrun]
  refine ⟨fun hr => ?_, fun hr => ?_⟩
  · rw [if_pos hr]
    refine ⟨?_, ?_, hwait⟩
    · have hsame : (u.stopTold cause).pw = u.pw := htold.1 .pw (by decide)
      unfold State.stopWaits State.withPw
      dsimp only
      rw [hsame, hpw]
    · unfold State.stopWaits State.withPw State.stopTold
      dsimp only
      rw [State.bbxPut_events, State.raisePf_events, hcount]
      exact List.mem_append_right _ (List.mem_singleton_self _)
  · rw [if_neg (by rw [hr]; decide)]
    exact State.endStop_ended hwait hcause

theorem stopBegun.stopped {cause : Nat} (h : stopBegun cause [] s t) : stopBegun cause [] s (s.stopped t) := by
  obtain ⟨hwait, hend⟩ := h
  refine ⟨fun hr => ?_, fun hr => ?_⟩
  · obtain ⟨hpw, htold, hframe⟩ := hwait hr
    exact ⟨hpw, htold, hframe.stopped⟩
  · obtain ⟨hrun, hstopping, hstate, hcause, _, hhost, hflash, hboot, himages⟩ := hend hr
    exact ⟨hrun, hstopping, hstate, hcause, rfl, hhost, hflash, hboot, himages⟩

theorem State.packageOff_of (h : framed ps ks s t) (hk : Reg.PWR_STATE ∉ ks := by decide) : t.packageOff = s.packageOff := by
  unfold State.packageOff
  rw [h.fld hk]

/-- A stop with no step before it. -/
theorem State.orderedStop_self (hstop : s.pw.stopCause = none) (hoff : s.packageOff = false) {cause : Nat} (hcause : cause < 16) :
    stopBegun cause [] s (s.stopped (s.orderedStop cause)) := (State.orderedStop_begun .refl rfl hstop hoff hcause).stopped

/-- A stop after steps that raise events. -/
theorem State.orderedStop_after (h : framed eventParts ks s u) (hk : Reg.PWR_STATE ∉ ks) (hstop : s.pw.stopCause = none)
    (hoff : s.packageOff = false) {cause : Nat} (hcause : cause < 16) : stopBegun cause [] s (s.stopped (u.orderedStop cause)) := by
  have hpw : u.pw = s.pw := h.1 .pw (by decide)
  exact (State.orderedStop_begun (h.1.widen (by simp +contextual)) (by rw [hpw]) hstop ((State.packageOff_of h hk).trans hoff) hcause).stopped

/-! ### The causes -/

theorem State.stop_none {c : Instr} (h : exec c s = stopOutcome s s) : exec c s = .next s := by
  rw [h, stopOutcome_eq, State.stopped_self]

theorem State.replayLimit_stops (h : 8 ≤ s.fld Reg.ERR_REPLAY 31 24) :
    s.replayLimit = (s.raisePf 0x7020 [s.reg Reg.FLT_POS, wordOf s.tk.count.toNat]).orderedStop 4 := if_neg (Nat.not_lt.2 h)

/-- The window noted. -/
def State.powerNoted (s : State) (high : Bool) : State := s.withPw { s.pw with lastWindowHigh := high }

theorem State.powerNoted_framed (s : State) (high : Bool) : framed [.pw] [] s (s.powerNoted high) := s.withPw_framed _

theorem powerWindow_eq (w : BitVec 16) (s : State) : exec (.powerWindow w) s =
    .next (s.stopped (if 5600 < w.toNat ∨ (decide (s.fld Reg.PWR_LIMIT 31 16 < w.toNat) = true ∧ s.pw.lastWindowHigh = true) then
      (s.powerNoted (decide (s.fld Reg.PWR_LIMIT 31 16 < w.toNat))).orderedStop 7
    else s.powerNoted (decide (s.fld Reg.PWR_LIMIT 31 16 < w.toNat)))) := rfl

/-- The reference clock shown as lost. -/
def State.clockShown (s : State) : State := (s.setFld Reg.CLK_STATUS 31 31 0).setFld Reg.CLK_STATUS 29 29 1

/-- The reference clock lost, and told of. -/
def State.clockTold (s : State) : State := s.clockShown.raisePf 0x8009 [0]

theorem State.clockShown_framed (s : State) : framed [.regs] [Reg.CLK_STATUS] s s.clockShown :=
  (s.setFld_framed ..).seq (State.setFld_framed ..)

theorem State.clockTold_framed (s : State) : framed eventParts (Reg.CLK_STATUS :: eventRegs) s s.clockTold :=
  (s.clockShown_framed.widen (by simp [eventParts])).seq (State.raisePf_framed ..) (fun _ h => h) (by simp +contextual)

theorem clockLost_eq (s : State) : exec .clockLost s = .next (s.stopped (s.clockTold.orderedStop 6)) := rfl

/-- A stop that waits leaves the registers but those of the black box. -/
theorem State.orderedStop_fld (hstop : s.pw.stopCause = none) (hoff : s.packageOff = false) (hr : s.tk.running = true) (cause : Nat)
    {off hi lo : Nat} (hk : off ∉ eventRegs) : (s.orderedStop cause).fld off hi lo = s.fld off hi lo := by
  rw [State.orderedStop_fresh hstop hoff, if_pos hr]
  unfold State.stopWaits
  rw [(State.withPw_framed ..).fld List.not_mem_nil, (State.stopTold_framed ..).fld hk]

theorem State.clockTold_fld (s : State) {off hi lo : Nat} (hk : off ∉ eventRegs) : s.clockTold.fld off hi lo = s.clockShown.fld off hi lo :=
  (State.raisePf_framed ..).fld hk

theorem State.clockShown_shows (s : State) : s.clockShown.fld Reg.CLK_STATUS 31 31 = 0 ∧ s.clockShown.fld Reg.CLK_STATUS 29 29 = 1 := by
  unfold State.clockShown
  refine ⟨?_, State.fld_setFld _ _ 29 29 _ (by decide) (by decide)⟩
  rw [State.fld_setFld_ne _ _ 29 29 _ 31 31 (by decide) (by decide) (by decide), State.fld_setFld _ _ 31 31 _ (by decide) (by decide)]
  rfl

theorem clockLost_shows (hstop : s.pw.stopCause = none) (hoff : s.packageOff = false) (hr : s.tk.running = true) :
    (s.stopped (s.clockTold.orderedStop 6)).fld Reg.CLK_STATUS 31 31 = 0 ∧ (s.stopped (s.clockTold.orderedStop 6)).fld Reg.CLK_STATUS 29 29 = 1 := by
  have hframe := s.clockTold_framed
  have hpw : s.clockTold.pw = s.pw := hframe.1 .pw (by decide)
  have hrun : s.clockTold.tk.running = s.tk.running := hframe.1 .running (by decide)
  have hsame : ∀ {hi lo}, (s.clockTold.orderedStop 6).fld Reg.CLK_STATUS hi lo = s.clockShown.fld Reg.CLK_STATUS hi lo := fun {hi lo} =>
    (State.orderedStop_fld (by rw [hpw, hstop]) ((State.packageOff_of hframe).trans hoff) (by rw [hrun, hr]) 6 (by decide)).trans
      (s.clockTold_fld (by decide))
  rw [State.stopped_fld, State.stopped_fld, hsame, hsame]
  exact s.clockShown_shows

/-- Settles O33: each cause by the stop it begins, and by its condition where it does not. -/
theorem stopsBegin : Obligations.StopsBegin := by
  intro s hstop hoff
  refine ⟨fun h => ?_, fun h => ?_, fun w => ⟨fun h => ?_, fun h => ?_⟩, fun die temp => ⟨fun h => ?_, fun h => ?_⟩, ?_, fun h => ?_, fun h => ?_,
    fun h => ?_, fun key hkey => ?_⟩
  · refine ⟨_, rfl, ?_⟩
    rw [State.replayLimit_stops h]
    exact State.orderedStop_after (s.raisePf_framed _ _) (by decide) hstop hoff (by decide)
  · exact State.stop_none (congrArg (stopOutcome s) (if_pos h))
  · refine ⟨_, powerWindow_eq w s, ?_⟩
    rw [if_pos h]
    exact (State.orderedStop_begun ((s.powerNoted_framed _).1.widen) rfl hstop ((State.packageOff_of (s.powerNoted_framed _)).trans hoff)
      (by decide)).stopped
  · refine ⟨_, powerWindow_eq w s, ?_⟩
    rw [if_neg h]
    exact ⟨rfl, (s.powerNoted_framed _).1.stopped (by decide)⟩
  · refine ⟨_, congrArg (stopOutcome s) (if_neg (Nat.not_lt.2 h)), ?_⟩
    exact State.orderedStop_after (s.raisePf_framed _ _) (by decide) hstop hoff (by decide)
  · exact State.stop_none (congrArg (stopOutcome s) (if_pos h))
  · exact ⟨_, clockLost_eq s, State.orderedStop_after s.clockTold_framed (by decide) hstop hoff (by decide), clockLost_shows hstop hoff⟩
  · exact ⟨_, congrArg (stopOutcome s) (if_pos h), State.orderedStop_self hstop hoff (by decide)⟩
  · exact State.stop_none (congrArg (stopOutcome s) (if_neg (by rw [h]; decide)))
  · exact ⟨_, congrArg (stopOutcome s) ((if_neg (not_not_intro rfl)).trans (if_neg h)), State.orderedStop_self hstop hoff (by decide)⟩
  · exact State.stop_none (congrArg (stopOutcome s) (if_pos hkey))


end Sys2Proof.Machine
end

section
/-! SUPPORT. Readings and drives (R291, R292, R444, R447, R503). -/

namespace Sys2Proof.Machine

set_option Elab.async false

variable {s t u : State} {ps : List Part} {ks : List Nat} {d cause : Nat}

/-! ### Words built from fields -/

theorem wordOf_field {n : Nat} (h : n < 2 ^ 32) (hi lo : Nat) : (wordOf n).field hi lo = n / 2 ^ lo % 2 ^ (hi + 1 - lo) := by
  unfold Word.field wordOf
  rw [BitVec.toNat_ofNat, Nat.mod_eq_of_lt h]

/-! ### Power readings -/

/-- PWR_READING of two averages and a count. -/
def readingWord (avg max n : Nat) : Word := wordOf (avg * 0x1000000 + max * 0x10000 + n)

theorem readingWord_fields {avg max n : Nat} (ha : avg < 256) (hm : max < 256) (hn : n < 65536) :
    (readingWord avg max n).field 31 24 = avg ∧ (readingWord avg max n).field 23 16 = max ∧ (readingWord avg max n).field 15 0 = n := by
  have hlt : avg * 0x1000000 + max * 0x10000 + n < 2 ^ 32 := by omega
  unfold readingWord
  rw [wordOf_field hlt, wordOf_field hlt, wordOf_field hlt]
  omega

/-- A power reading shown with its count. -/
def State.readingShown (s : State) (avg max : Nat) : State :=
  s.setReg Reg.PWR_READING (readingWord avg max ((s.fld Reg.PWR_READING 15 0 + 1) % 65536))

/-- The hottest junction and its die shown. -/
def State.hottestShown (s : State) (jmax die : Nat) : State := (s.setFld Reg.PWR_TEMP 31 24 jmax).setFld Reg.PWR_TEMP 23 20 die

theorem State.readingShown_framed (s : State) (avg max : Nat) : framed [.regs] [Reg.PWR_READING] s (s.readingShown avg max) := s.setReg_framed _ _

theorem State.hottestShown_framed (s : State) (jmax die : Nat) : framed [.regs] [Reg.PWR_TEMP] s (s.hottestShown jmax die) :=
  (s.setFld_framed ..).seq (State.setFld_framed ..)

theorem powerReading_eq (avg max jmax : BitVec 8) (die : BitVec 4) (s : State) : exec (.powerReadingUpdate avg max jmax die) s =
    keep s ((s.readingShown avg.toNat max.toNat).hottestShown jmax.toNat die.toNat) := rfl

theorem State.hottestShown_fields (s : State) {jmax die : Nat} (hj : jmax < 256) (hd : die < 16) :
    (s.hottestShown jmax die).fld Reg.PWR_TEMP 31 24 = jmax ∧ (s.hottestShown jmax die).fld Reg.PWR_TEMP 23 20 = die
    ∧ (s.hottestShown jmax die).fld Reg.PWR_TEMP 15 8 = s.fld Reg.PWR_TEMP 15 8 := by
  unfold State.hottestShown
  refine ⟨?_, ?_, ?_⟩
  · rw [State.fld_setFld_ne _ _ 23 20 _ 31 24 (by decide) (by decide) (by decide), State.fld_setFld _ _ 31 24 _ (by decide) (by decide)]
    exact Nat.mod_eq_of_lt hj
  · rw [State.fld_setFld _ _ 23 20 _ (by decide) (by decide)]
    exact Nat.mod_eq_of_lt hd
  · rw [State.fld_setFld_ne _ _ 23 20 _ 15 8 (by decide) (by decide) (by decide),
      State.fld_setFld_ne _ _ 31 24 _ 15 8 (by decide) (by decide) (by decide)]

/-! ### Junction alarms -/

/-- The thermal cap's second starts. -/
def State.thermalStarted (s : State) : State := s.withPw { s.pw with thermal := some s.tk.now }

theorem junction_alarms (die : BitVec 4) (temp : BitVec 8) (h : s.fld Reg.PWR_TEMP 15 8 ≤ temp.toNat) : exec (.junctionAboveThr die temp) s =
    keep s (s.thermalStarted.raisePf 0x8007 [wordOf die.toNat, wordOf temp.toNat]) := congrArg (keep s) (if_neg (Nat.not_lt.2 h))

/-! ### Drives -/

/-- A drive's fault told of. -/
def faultTold (d cause : Nat) (s t : State) : Prop := ∃ e, t.events = s.events ++ [e] ∧ e.code = 0x3006 ∧ e.payload.take 2 = [wordOf d, wordOf cause]

theorem State.driveFault_framed (s : State) (d cause : Nat) : framed (.freeCtr :: eventParts) eventRegs s (s.driveFault d cause) :=
  (s.free_framed.widen).seq (State.raisePf_framed ..) (by simp +contextual) (fun _ h => h)

theorem State.driveFault_told (s : State) (d cause : Nat) : faultTold d cause s (s.driveFault d cause) :=
  ⟨_, State.raisePf_events .., rfl, rfl⟩

/-- A drive's state and cause shown. -/
def driveShown (d st cause : Nat) (t : State) : Prop := t.fld (Reg.RES_DRIVE_STATUS d) 31 30 = st ∧ t.fld (Reg.RES_DRIVE_STATUS d) 26 24 = cause

theorem driveStatus_not_event (h : d < 8) : Reg.RES_DRIVE_STATUS d ∉ eventRegs := fun hk => by
  unfold eventRegs Reg.BBX_STATUS Reg.BBX_LOST Reg.RES_DRIVE_STATUS at hk
  simp only [List.mem_cons, List.not_mem_nil, or_false] at hk
  omega

/-- A drive that fails: its state, its cause and its event. -/
def driveTold (d st cause : Nat) (s t : State) : Prop := driveShown d st cause t ∧ faultTold d cause s t
  ∧ framed (.freeCtr :: eventParts) (Reg.RES_DRIVE_STATUS d :: eventRegs) s t

theorem driveTold.kept {st : Nat} (h : driveTold d st cause s t) : driveTold d st cause s (s.kept t) := ⟨h.1, h.2.1, h.2.2.kept⟩

/-- A drive shown, then its fault told of. -/
theorem State.driveFault_of {st : Nat} (h : framed [.regs] [Reg.RES_DRIVE_STATUS d] s u) (hd : d < 8) (hshown : driveShown d st cause u) :
    driveTold d st cause s (u.driveFault d cause) := by
  have hfault := u.driveFault_framed d cause
  refine ⟨⟨?_, ?_⟩, ?_, (h.widen (by simp [eventParts])).seq hfault (fun _ hp => hp) (by simp +contextual)⟩
  · rw [hfault.fld (driveStatus_not_event hd)]
    exact hshown.1
  · rw [hfault.fld (driveStatus_not_event hd)]
    exact hshown.2
  · obtain ⟨e, he, hcode, hpayload⟩ := u.driveFault_told d cause
    exact ⟨e, by rw [he, h.1 .events (by decide)], hcode, hpayload⟩

/-- A drive's state and cause set. -/
def State.driveFailed (s : State) (d : Nat) : State := (s.setFld (Reg.RES_DRIVE_STATUS d) 31 30 3).setFld (Reg.RES_DRIVE_STATUS d) 26 24 3

theorem State.driveFailed_shown (s : State) (d : Nat) : driveShown d 3 3 (s.driveFailed d) := by
  unfold State.driveFailed
  refine ⟨?_, State.fld_setFld _ _ 26 24 _ (by decide) (by decide)⟩
  rw [State.fld_setFld_ne _ _ 26 24 _ 31 30 (by decide) (by decide) (by decide)]
  exact State.fld_setFld _ _ 31 30 _ (by decide) (by decide)

theorem State.driveFailed_framed (s : State) (d : Nat) : framed [.regs] [Reg.RES_DRIVE_STATUS d] s (s.driveFailed d) :=
  (s.setFld_framed ..).seq (State.setFld_framed ..)

theorem State.driveFails_used (h : s.fld (Reg.RES_DRIVE_STATUS d) 31 30 = 1) : s.driveFails d 3 = (s.driveFailed d).driveFault d 3 :=
  if_neg (not_not_intro h)

theorem State.driveFails_unused (h : s.fld (Reg.RES_DRIVE_STATUS d) 31 30 ≠ 1) : s.driveFails d 3 = s := if_pos h

theorem exec_driveFails (port : BitVec 3) (s : State) :
    ∀ c ∈ [Instr.driveRemoved port, .driveLinkLost port], exec c s = keep s (s.driveFails port.toNat 3) := by
  simp only [List.forall_mem_cons, List.not_mem_nil, false_implies, implies_true, and_true]
  exact ⟨rfl, rfl⟩

/-- The cause for which an enumerated drive is bad; 0 where it is good (R291). -/
def driveCause (identify width : Nat) : Nat := if width = 0 then 3 else if identify = 1 then 1 else if identify = 2 then 2 else 0

theorem driveCause_lt (identify width : Nat) : driveCause identify width < 4 := by
  unfold driveCause
  split_ifs <;> omega

theorem State.setDrive_framed (s : State) (d st width cause cap : Nat) : framed [.regs] [Reg.RES_DRIVE_STATUS d] s (s.setDrive d st width cause cap) :=
  s.setReg_framed _ _

theorem State.setDrive_shown (s : State) {st width cap : Nat} (hst : st < 4) (hc : cause < 8) :
    driveShown d st cause (s.setDrive d st width cause cap) := by
  have hlt : st * 0x40000000 + width % 8 * 0x8000000 + cause * 0x1000000 + cap / 1024 % 0x1000000 < 2 ^ 32 := by omega
  unfold driveShown State.fld State.setDrive
  rw [State.reg_setReg, wordOf_field hlt, wordOf_field hlt]
  omega

theorem driveInserted_idle (port : BitVec 3) (identify : BitVec 2) (width : BitVec 3) (cap : BitVec 34)
    (h : s.fld (Reg.RES_DRIVE_STATUS port.toNat) 31 30 = 1 ∨ s.fld (Reg.RES_DRIVE_STATUS port.toNat) 31 30 = 3
      ∨ driveCause identify.toNat width.toNat = 0) : exec (.driveInserted port identify width cap) s = .next s := by
  refine (congrArg (keep s) (?_ : _ = s)).trans (keep_self s)
  by_cases hused : s.fld (Reg.RES_DRIVE_STATUS port.toNat) 31 30 = 1 ∨ s.fld (Reg.RES_DRIVE_STATUS port.toNat) 31 30 = 3
  · exact if_pos hused
  · have hgood : driveCause identify.toNat width.toNat = 0 := (or_assoc.2 h).resolve_left hused
    exact (if_neg hused).trans ((if_pos hgood).trans (if_neg Bool.false_ne_true))

theorem driveInserted_bad (port : BitVec 3) (identify : BitVec 2) (width : BitVec 3) (cap : BitVec 34)
    (h1 : s.fld (Reg.RES_DRIVE_STATUS port.toNat) 31 30 ≠ 1) (h3 : s.fld (Reg.RES_DRIVE_STATUS port.toNat) 31 30 ≠ 3)
    (hc : driveCause identify.toNat width.toNat ≠ 0) : exec (.driveInserted port identify width cap) s =
      keep s ((s.setDrive port.toNat 2 width.toNat (driveCause identify.toNat width.toNat) cap.toNat).driveFault port.toNat
        (driveCause identify.toNat width.toNat)) :=
  congrArg (keep s) ((if_neg (not_or.2 ⟨h1, h3⟩)).trans (if_neg hc))

/-- Settles O55: readings and alarms by what they show, drives by their status and their event. -/
theorem readingsAndDrives : Obligations.ReadingsAndDrives := by
  intro s
  refine ⟨fun avg max jmax die => ?_, fun die temp => ⟨fun h => ?_, fun h => ?_⟩, fun port => ?_⟩
  · have hshown := s.readingShown_framed avg.toNat max.toNat
    have hhot := (s.readingShown avg.toNat max.toNat).hottestShown_framed jmax.toNat die.toNat
    obtain ⟨havg, hmax, hcount⟩ := readingWord_fields avg.isLt max.isLt (Nat.mod_lt (s.fld Reg.PWR_READING 15 0 + 1) (by decide : 0 < 65536))
    obtain ⟨hj, hd, hthr⟩ := (s.readingShown avg.toNat max.toNat).hottestShown_fields jmax.isLt die.isLt
    have hreg : ((s.readingShown avg.toNat max.toNat).hottestShown jmax.toNat die.toNat).reg Reg.PWR_READING =
        readingWord avg.toNat max.toNat ((s.fld Reg.PWR_READING 15 0 + 1) % 65536) := (hhot.reg (by decide)).trans (State.reg_setReg ..)
    refine ⟨_, powerReading_eq avg max jmax die s, ?_, ?_, ?_, ?_, ?_, ?_, ((hshown.widen).seq hhot).kept⟩
    · rw [State.kept_fld, State.fld, hreg, havg]
    · rw [State.kept_fld, State.fld, hreg, hmax]
    · rw [State.kept_fld, State.fld, hreg, hcount]
    · rw [State.kept_fld, hj]
    · rw [State.kept_fld, hd]
    · rw [State.kept_fld, hthr, hshown.fld (by decide)]
  · exact (congrArg (keep s) (if_pos h)).trans (keep_self s)
  · have hstart : framed [.pw] [] s s.thermalStarted := s.withPw_framed _
    refine ⟨_, junction_alarms die temp h, ?_, ?_, ((hstart.widen).seq (State.raisePf_framed ..) (by simp +contextual) (fun _ hk => hk)).kept⟩
    · rw [State.kept_pw, (State.raisePf_framed ..).1 .pw (by decide)]
      rfl
    · rw [State.kept_events, State.raisePf_events]
      rfl
  · intro r fault
    refine ⟨fun c hc => ⟨fun h => ?_, fun h => ?_⟩, fun identify width cap => ?_⟩
    · obtain ⟨hshown, htold, hframe⟩ := (State.driveFault_of (s.driveFailed_framed port.toNat) port.isLt (s.driveFailed_shown port.toNat)).kept
      exact ⟨_, (exec_driveFails port s c hc).trans (congrArg (keep s) (State.driveFails_used h)), hshown.1, hshown.2, htold, hframe⟩
    · exact (exec_driveFails port s c hc).trans ((congrArg (keep s) (State.driveFails_unused h)).trans (keep_self s))
    · intro cause
      refine ⟨fun h => driveInserted_idle port identify width cap h, fun h1 h3 hc => ?_⟩
      have hbad : driveCause identify.toNat width.toNat < 8 := lt_trans (driveCause_lt _ _) (by decide)
      obtain ⟨hshown, htold, hframe⟩ := (State.driveFault_of (s.setDrive_framed port.toNat 2 width.toNat _ cap.toNat) port.isLt
        (s.setDrive_shown (by decide) hbad)).kept
      exact ⟨_, driveInserted_bad port identify width cap h1 h3 hc, hshown.1, hshown.2, htold, hframe⟩

end Sys2Proof.Machine
end

section
/-! SUPPORT. Black-box records, counters and calibration as written (R133, R431 to R434, R481 to R489). -/

namespace Sys2Proof.Machine

set_option Elab.async false

variable {s t u : State} {ps : List Part} {ks : List Nat} {r : BbxRecord} {rest : List BbxRecord}

/-! ### Records written -/

/-- The oldest record's place written. -/
def State.recordPut (s : State) (r : BbxRecord) (bs : List Byte) : State := (s.bbxStore (bbxOffset r.seq) bs).bbxPop

theorem State.recordPut_framed (s : State) (r : BbxRecord) (bs : List Byte) : framed [.mram, .bbx, .regs] eventRegs s (s.recordPut r bs) :=
  ((s.bbxStore_framed _ _).widen).seq (State.bbxPop_framed _) (by simp) (fun _ h => h)

theorem State.bbxPop_bbx (s : State) : s.bbxPop.bbx = { s.bbx with queue := s.bbx.queue.drop 1 } := State.bbxShow_bbx _

theorem State.recordPut_bbx (s : State) (r : BbxRecord) (bs : List Byte) :
    (s.recordPut r bs).bbx = { s.bbx with queue := s.bbx.queue.drop 1 } := (State.bbxPop_bbx _).trans rfl

theorem State.recordPut_mram (s : State) (r : BbxRecord) (bs : List Byte) :
    (s.recordPut r bs).mem.mram = memWrite s.mem.mram (bbxOffset r.seq) bs := ((State.bbxPop_framed _).1 .mram (by decide)).trans rfl

theorem sameOutside.record (m : Mem) (a n : Nat) (bs : List Byte) (h : bs.length = n) : sameOutside 0 [(a, n)] m (memWrite m a bs) := by
  subst h
  simpa using sameOutside.write m 0 a bs

/-! ### Records lost -/

/-- The count of lost records taken. -/
def State.lostTaken (s : State) : State := { s with bbx := { s.bbx with lostMark := 0 } }

theorem State.bbxLostRecord_none (h : s.bbx.lostMark = 0) : s.bbxLostRecord = s := if_pos h

theorem State.bbxLostRecord_some (h : s.bbx.lostMark ≠ 0) :
    s.bbxLostRecord = s.lostTaken.bbxPut 5 none 0 [wordOf s.bbx.lostMark] := if_neg h

/-- A record put in a buffer with room counts no loss. -/
theorem State.bbxPut_lostMark (hroom : s.bbx.queue.length < 64) (rclass : Nat) (inst : Option Nat) (code : Nat) (payload : List Word) :
    (s.bbxPut rclass inst code payload).bbx.lostMark = s.bbx.lostMark := by
  unfold State.bbxPut
  split
  · rfl
  · rw [if_neg (Nat.not_le.2 hroom), State.bbxShow_bbx]

theorem State.bbxLostRecord_lostMark (hroom : s.bbx.queue.length < 64) : s.bbxLostRecord.bbx.lostMark = 0 := by
  by_cases h : s.bbx.lostMark = 0
  · rw [State.bbxLostRecord_none h, h]
  · rw [State.bbxLostRecord_some h]
    exact State.bbxPut_lostMark (s := s.lostTaken) hroom ..

/-! ### A readback that fails -/

/-- With the black box in FAULT nothing is recorded (R432). -/
theorem State.bbxPut_fault (h : s.fld Reg.BBX_STATUS 31 30 = 3) (rclass : Nat) (inst : Option Nat) (code : Nat) (payload : List Word) :
    s.bbxPut rclass inst code payload = s := if_pos h

/-- An event raised. -/
def State.eventPut (s : State) (e : Event) : State := { s with events := s.events ++ [e] }

theorem State.eventPut_events (s : State) (e : Event) : (s.eventPut e).events = s.events ++ [e] := rfl

theorem State.eventPut_bbx (s : State) (e : Event) : (s.eventPut e).bbx = s.bbx := rfl

theorem State.eventPut_fld (s : State) (e : Event) (off hi lo : Nat) : (s.eventPut e).fld off hi lo = s.fld off hi lo := rfl

theorem State.raisePf_fault (h : s.fld Reg.BBX_STATUS 31 30 = 3) (code : Nat) (payload : List Word) :
    s.raisePf code payload = s.eventPut ⟨code, none, payload, []⟩ := by
  unfold State.raisePf State.raiseTo
  dsimp only
  split
  · exact State.bbxPut_fault (s := s.eventPut ⟨code, none, payload, []⟩) h ..
  · rfl

/-- The black box in FAULT. -/
def State.bbxFaulty (s : State) : State := s.setFld Reg.BBX_STATUS 31 30 3

theorem State.bbxFaulty_state (s : State) : s.bbxFaulty.fld Reg.BBX_STATUS 31 30 = 3 := State.fld_setFld _ _ 31 30 _ (by decide) (by decide)

theorem State.bbxFault_eq (s : State) (cause : Nat) : s.bbxFault cause = s.bbxFaulty.eventPut ⟨0x7030, none, [wordOf cause], []⟩ :=
  State.raisePf_fault s.bbxFaulty_state ..

theorem State.bbxFault_framed (s : State) (cause : Nat) : framed eventParts eventRegs s (s.bbxFault cause) :=
  ((s.setFld_framed ..).widen (by simp [eventParts]) (by simp [eventRegs])).seq (State.raisePf_framed ..) (fun _ h => h) (fun _ h => h)

theorem State.bbxFault_shows (s : State) (cause : Nat) : (s.bbxFault cause).fld Reg.BBX_STATUS 31 30 = 3
    ∧ (s.bbxFault cause).bbx = s.bbx ∧ (s.bbxFault cause).events = s.events ++ [⟨0x7030, none, [wordOf cause], []⟩] := by
  have hfaulty : framed [.regs] [Reg.BBX_STATUS] s s.bbxFaulty := s.setFld_framed ..
  rw [State.bbxFault_eq, State.eventPut_fld, State.eventPut_bbx, State.eventPut_events]
  exact ⟨s.bbxFaulty_state, hfaulty.1 .bbx (by decide), congrArg (· ++ _) (hfaulty.1 .events (by decide))⟩

/-! ### BBX_RECORD_WRITTEN -/

theorem recordWritten_idle (h : s.fld Reg.BBX_STATUS 31 30 ≠ 1 ∨ s.bbx.queue = []) (ok : Bool) : exec (.bbxRecordWritten ok) s = .next s := by
  refine Eq.trans ?_ (keep_self s)
  unfold exec
  dsimp only
  unfold execBbxRecordWritten
  by_cases hstate : s.fld Reg.BBX_STATUS 31 30 = 1
  · rw [h.resolve_left (not_not_intro hstate)]
    exact congrArg (keep s) (if_neg (not_not_intro hstate))
  · exact congrArg (keep s) (if_pos hstate)

theorem recordWritten_ok (hstate : s.fld Reg.BBX_STATUS 31 30 = 1) (hq : s.bbx.queue = r :: rest) :
    exec (.bbxRecordWritten true) s = keep s (s.recordPut r (bbxBytes r)).bbxLostRecord := by
  unfold exec
  dsimp only
  unfold execBbxRecordWritten
  rw [hq]
  exact congrArg (keep s) ((if_neg (not_not_intro hstate)).trans (if_pos rfl))

theorem recordWritten_bad (hstate : s.fld Reg.BBX_STATUS 31 30 = 1) (hq : s.bbx.queue = r :: rest) :
    exec (.bbxRecordWritten false) s = keep s ((s.free.2.recordPut r (bytesOfNat 256 s.free.1)).bbxFault 1) := by
  unfold exec
  dsimp only
  unfold execBbxRecordWritten
  rw [hq]
  exact congrArg (keep s) ((if_neg (not_not_intro hstate)).trans (if_neg Bool.false_ne_true))

/-! ### Records read back -/

/-- BBX_INDEX shown, with no data ready. -/
def State.indexShown (s : State) (index : Nat) : State := (s.setReg Reg.BBX_INDEX (wordOf index)).setFld Reg.BBX_STATUS 0 0 0

/-- A read of a record started or done. -/
def State.readingSet (s : State) (reading : Bool) : State := { s with bbx := { s.bbx with reading := reading } }

theorem State.readingSet_framed (s : State) (reading : Bool) : framed [.bbx] [] s (s.readingSet reading) := framed_bbx s _

theorem State.indexShown_framed (s : State) (index : Nat) : framed [.regs] [Reg.BBX_INDEX, Reg.BBX_STATUS] s (s.indexShown index) :=
  ((s.setReg_framed _ _).widen).seq (State.setFld_framed ..)

/-- A read started or done after registers are shown. -/
theorem State.readingSet_shows {w : State} (h : framed [.regs] ks s w) (reading : Bool) (off hi lo : Nat) :
    (s.kept (w.readingSet reading)).bbx = { s.bbx with reading := reading } ∧ (s.kept (w.readingSet reading)).fld off hi lo = w.fld off hi lo
    ∧ framed [.bbx, .regs] ks s (s.kept (w.readingSet reading)) := by
  have hsame : w.bbx = s.bbx := h.1 .bbx (by decide)
  refine ⟨?_, rfl, ((h.widen).seq (w.readingSet_framed reading)).kept⟩
  rw [State.kept_bbx, ← hsame]
  rfl

theorem bbxIndexWrite_eq (index : BitVec 15) (s : State) :
    exec (.bbxIndexWrite index) s = keep s ((s.indexShown index.toNat).readingSet true) := rfl

theorem State.indexShown_shows (s : State) (index : Nat) : (s.indexShown index).reg Reg.BBX_INDEX = wordOf index
    ∧ (s.indexShown index).fld Reg.BBX_STATUS 0 0 = 0 := by
  refine ⟨((State.setFld_framed ..).reg (by decide)).trans (State.reg_setReg ..), ?_⟩
  exact State.fld_setFld _ _ 0 0 _ (by decide) (by decide)

theorem dataReady_some (hr : s.bbx.reading = true) (hstate : s.fld Reg.BBX_STATUS 31 30 = 1) :
    exec .bbxDataReady s = keep s ((s.setFld Reg.BBX_STATUS 0 0 1).readingSet false) :=
  congrArg (keep s) (if_pos (by rw [hr, hstate]; rfl))

theorem dataReady_none (h : s.bbx.reading = false ∨ s.fld Reg.BBX_STATUS 31 30 ≠ 1) : exec .bbxDataReady s = .next s := by
  refine (congrArg (keep s) (if_neg ?_)).trans (keep_self s)
  rw [Bool.and_eq_true, beq_iff_eq]
  rintro ⟨hr, hstate⟩
  rcases h with h | h
  · rw [h] at hr
    cases hr
  · exact h hstate

/-! ### Counters -/

theorem State.cntQueue_mine {fn : Nat} (h : (cntBlockExists (s.cntSel fn).1 && s.ownsCounter fn (s.cntSel fn).2) = true)
    (ws : List (Option CntReg × Word)) : s.cntQueue fn ws =
      { s with cnt := { s.cnt with writes := s.cnt.writes ++ ws.map fun w => ⟨(s.cntSel fn).1, (s.cntSel fn).2, w.1, w.2⟩ } } := if_pos h

theorem State.cntQueue_other {fn : Nat} (h : ¬(cntBlockExists (s.cntSel fn).1 && s.ownsCounter fn (s.cntSel fn).2) = true)
    (ws : List (Option CntReg × Word)) : s.cntQueue fn ws = s := if_neg h

/-- Writes that wait for a landing stand in the counters' state alone. -/
def State.cntSet (s : State) (x : Counting) : State := { s with cnt := x }

theorem State.cntSet_framed (s : State) (x : Counting) : framed [.cnt] [] s (s.cntSet x) := framed_cnt s x

theorem cntSet_shows {c : Instr} {x : Counting} (h : exec c s = keep s (s.cntSet x)) : ∃ t, exec c s = .next t ∧ t.cnt = x ∧ framed [.cnt] [] s t :=
  ⟨_, h, rfl, (s.cntSet_framed x).kept⟩

theorem cntClear_map (b k : Nat) (r : CntReg) (v : Word) :
    ((some r, v) :: if r = .cfg ∧ v.bit 27 then [((none : Option CntReg), (0 : Word))] else []).map
      (fun w => (⟨b, k, w.1, w.2⟩ : CntWrite)) = ⟨b, k, some r, v⟩ :: (if r = .cfg ∧ v.bit 27 then [⟨b, k, none, 0⟩] else []) := by
  split <;> rfl

/-- HOLD shown. -/
def State.holdShown (s : State) (hold : Bool) : State := s.setFld Reg.CNT_CTRL 31 31 (b2n hold)

theorem State.holdShown_shows (s : State) (hold : Bool) : (s.holdShown hold).fld Reg.CNT_CTRL 31 31 = b2n hold := by
  refine (State.fld_setFld _ _ 31 31 _ (by decide) (by decide)).trans ?_
  cases hold <;> rfl

theorem cntHold_eq (hold : Bool) (s : State) : exec (.cntHold hold) s = keep s ((s.holdShown hold).cntSet { s.cnt with holdDue := some hold }) := rfl

/-- Calibration writes that wait. -/
def State.calSet (s : State) (x : Cal) : State := { s with cal := x }

theorem State.calSet_framed (s : State) (x : Cal) : framed [.cal] [] s (s.calSet x) := framed_cal s x

/-- Settles O56: the record at its place, the read by its bits, and the writes by what waits. -/
theorem recordsAndCountersWritten : Obligations.RecordsAndCountersWritten := by
  intro s
  refine ⟨fun r rest hstate hq => ⟨fun hroom => ?_, ?_⟩, fun h ok => recordWritten_idle h ok, fun index => ?_, fun hr hstate => ?_,
    fun h => dataReady_none h, fun fn => ?_, fun j v => cntSet_shows rfl, fun hold => ?_, fun v => cntSet_shows rfl, fun gal r v => ?_⟩
  · have hput := s.recordPut_framed r (bbxBytes r)
    have hbbx := s.recordPut_bbx r (bbxBytes r)
    have hmram := s.recordPut_mram r (bbxBytes r)
    have hlost := (s.recordPut r (bbxBytes r)).bbxLostRecord_framed
    have hmem : (s.recordPut r (bbxBytes r)).bbxLostRecord.mem.mram = memWrite s.mem.mram (bbxOffset r.seq) (bbxBytes r) :=
      (hlost.1 .mram (by decide)).trans hmram
    rw [hq, List.drop_one, List.tail_cons] at hbbx
    refine ⟨_, recordWritten_ok hstate hq, ?_, ?_, fun hmark => ?_, ?_, (hput.seq hlost (by simp) (fun _ h => h)).kept⟩
    · rw [State.kept_mem, hmem]
      exact memRead_write ..
    · rw [State.kept_mem, hmem]
      exact .record _ _ _ _ rfl
    · rw [State.kept_bbx, State.bbxLostRecord_none (by rw [hbbx]; exact hmark), hbbx]
    · rw [State.kept_bbx]
      exact State.bbxLostRecord_lostMark (by rw [hbbx]; exact hroom)
  · have hput := s.free.2.recordPut_framed r (bytesOfNat 256 s.free.1)
    have hbbx := s.free.2.recordPut_bbx r (bytesOfNat 256 s.free.1)
    have hmram := s.free.2.recordPut_mram r (bytesOfNat 256 s.free.1)
    have hfault := (s.free.2.recordPut r (bytesOfNat 256 s.free.1)).bbxFault_framed 1
    obtain ⟨hfield, hsame, htold⟩ := (s.free.2.recordPut r (bytesOfNat 256 s.free.1)).bbxFault_shows 1
    have hfree : s.free.2.bbx = s.bbx := s.free_framed.1 .bbx (by decide)
    have hevents : s.free.2.events = s.events := s.free_framed.1 .events (by decide)
    have hsameMram : s.free.2.mem.mram = s.mem.mram := s.free_framed.1 .mram (by decide)
    rw [hfree, hq, List.drop_one, List.tail_cons] at hbbx
    rw [hsameMram] at hmram
    refine ⟨_, recordWritten_bad hstate hq, ?_, ?_, ?_, ?_,
      (((s.free_framed.widen).seq hput (by simp [eventParts]) (fun _ h => h)).seq hfault (by simp +contextual) (fun _ h => h)).kept⟩
    · rw [State.kept_fld, hfield]
    · rw [State.kept_bbx, hsame, hbbx]
    · rw [State.kept_events, htold, hput.1 .events (by decide), hevents]
      rfl
    · have hmem : ((s.free.2.recordPut r (bytesOfNat 256 s.free.1)).bbxFault 1).mem.mram =
          memWrite s.mem.mram (bbxOffset r.seq) (bytesOfNat 256 s.free.1) := (hfault.1 .mram (by decide)).trans hmram
      rw [State.kept_mem, hmem]
      exact .record _ _ _ _ (bytesOfNat_length ..)
  · obtain ⟨hindex, hready⟩ := s.indexShown_shows index.toNat
    obtain ⟨hbbx, hfld, hframe⟩ := State.readingSet_shows (s.indexShown_framed index.toNat) true Reg.BBX_STATUS 0 0
    refine ⟨_, bbxIndexWrite_eq index s, ?_, hfld.trans hready, hbbx, hframe⟩
    rw [State.kept_reg, (State.readingSet_framed ..).reg List.not_mem_nil, hindex]
  · obtain ⟨hbbx, hfld, hframe⟩ := State.readingSet_shows (s.setFld_framed Reg.BBX_STATUS 0 0 1) false Reg.BBX_STATUS 0 0
    exact ⟨_, dataReady_some hr hstate, hfld.trans (State.fld_setFld _ _ 0 0 _ (by decide) (by decide)), hbbx, hframe⟩
  · intro b k mine
    refine ⟨fun h r v => ?_, fun h => cntSet_shows (congrArg (keep s) (State.cntQueue_mine h _)), fun h =>
      ⟨fun r v => (congrArg (keep s) (State.cntQueue_other h _)).trans (keep_self s),
        (congrArg (keep s) (State.cntQueue_other h _)).trans (keep_self s)⟩⟩
    have hexec := congrArg (keep s) (State.cntQueue_mine h ((some r, v) :: if r = .cfg ∧ v.bit 27 then [(none, 0)] else []))
    rw [cntClear_map] at hexec
    exact cntSet_shows (c := .cntCfgWrite fn r v) hexec
  · refine ⟨_, cntHold_eq hold s, rfl, ?_, (((s.setFld_framed ..).widen).seq (State.cntSet_framed ..)).kept⟩
    rw [State.kept_fld, (State.cntSet_framed ..).fld List.not_mem_nil, s.holdShown_shows hold]
  · exact ⟨_, rfl, rfl, (s.calSet_framed _).kept⟩

end Sys2Proof.Machine
end

section
/-! SUPPORT. Registers read and written through BAR0 (R9, R11, R328, R339, R405, R456, R484). -/

namespace Sys2Proof.Machine

set_option Elab.async false

variable {s t u : State} {ps : List Part} {ks : List Nat} {f lo hi : Nat}

/-! ### Entries found in a map -/

theorem lookup_smInsert {β : Type} (m : SMap β) (k : Nat) (v : β) : (smInsert m k v).lookup k = some v := by
  induction m with
  | nil => simp [smInsert]
  | cons p m ih =>
    unfold smInsert
    split_ifs with heq hlt
    · simp
    · simp
    · rw [List.lookup_cons, beq_eq_false_iff_ne.2 heq]
      exact ih

theorem lookup_smInsert_ne {β : Type} (m : SMap β) {k j : Nat} (v : β) (h : j ≠ k) : (smInsert m k v).lookup j = m.lookup j := by
  have hne : (j == k) = false := beq_eq_false_iff_ne.2 h
  induction m with
  | nil => simp [smInsert, List.lookup_cons, hne]
  | cons p m ih =>
    unfold smInsert
    split_ifs with heq hlt
    · subst heq
      rw [List.lookup_cons, List.lookup_cons, hne]
    · rw [List.lookup_cons, hne]
    · rw [List.lookup_cons, List.lookup_cons, ih]

/-! ### Reads -/

theorem State.whenServed_on (h : s.barServed = true) (t : State) : s.whenServed t = keep s t := congrArg (keep s) (if_pos h)

theorem State.whenServed_off (h : s.barServed = false) (t : State) : s.whenServed t = .next s :=
  (congrArg (keep s) (if_neg (by rw [h]; decide))).trans (keep_self s)

/-- A LO register read, and its HI half latched for the function. -/
def loRead (f lo hi v : Nat) (s t : State) : Prop := t.out = s.out ++ [.readData f lo (wordOf v)]
  ∧ t.latched f hi = some (wordOf (v / 0x100000000)) ∧ (∀ j, j ≠ regKey (f + 1) hi → t.latch.lookup j = s.latch.lookup j)
  ∧ framed [.latch, .out] [] s t

theorem State.answerRead_framed (s : State) (fn off : Nat) (v : Word) : framed [.out] [] s (s.answerRead fn off v) := framed_out s _

theorem State.latchRead_framed (s : State) (fn lo hi v : Nat) : framed [.latch, .out] [] s (s.latchRead fn lo hi v) :=
  ((s.setLatch_framed ..).widen).seq (State.answerRead_framed ..)

theorem State.latchRead_shows (s : State) (f lo hi v : Nat) : loRead f lo hi v s (s.kept (s.latchRead f lo hi v)) :=
  ⟨rfl, lookup_smInsert .., fun _ hj => lookup_smInsert_ne _ _ hj, (s.latchRead_framed f lo hi v).kept⟩

/-- A command that reads a LO register. -/
theorem reads_of {c : Instr} {v : Nat} (h : s.barServed = true) (hc : exec c s = s.whenServed (s.latchRead f lo hi v)) :
    ∃ t, exec c s = .next t ∧ loRead f lo hi v s t := ⟨_, hc.trans (State.whenServed_on h _), s.latchRead_shows f lo hi v⟩

/-- A command that a virtual function reads 0 with. -/
theorem zero_of {c : Instr} (h : s.barServed = true) (hc : exec c s = s.whenServed (s.answerRead f lo 0)) :
    ∃ t, exec c s = .next t ∧ t.out = s.out ++ [.readData f lo 0] ∧ framed [.out] [] s t :=
  ⟨_, hc.trans (State.whenServed_on h _), rfl, (s.answerRead_framed f lo 0).kept⟩

theorem reads_unserved (h : s.barServed = false) (fn : BitVec 6) :
    ∀ c ∈ [Instr.tckCountLoRead fn, .devAcctCycLoRead fn, .errLastTickLoRead fn, .bbxSeqLoRead fn, .cntBwLoRead fn .tx, .cntBwLoRead fn .rx,
      .cntSnapTickLoRead fn], exec c s = .next s := by
  simp only [List.forall_mem_cons, List.not_mem_nil, false_implies, implies_true, and_true]
  exact ⟨State.whenServed_off h _, State.whenServed_off h _, State.whenServed_off h _, State.whenServed_off h _, State.whenServed_off h _,
    State.whenServed_off h _, State.whenServed_off h _⟩

/-- The snapshot that a function latches. -/
def State.snapLatched (s : State) (f : Nat) (snaps : SMap Nat) : State :=
  { s with cnt := { s.cnt with latched := smInsert s.cnt.latched f (s.cnt.snapTick, snaps) } }

theorem State.snapLatched_framed (s : State) (f : Nat) (snaps : SMap Nat) : framed [.cnt] [] s (s.snapLatched f snaps) := framed_cnt s _

theorem State.snapLatched_tick (s : State) (f : Nat) (snaps : SMap Nat) : (s.snapLatched f snaps).snapTickOf f = s.cnt.snapTick.toNat := by
  have hlook : (s.snapLatched f snaps).cnt.latched.lookup f = some (s.cnt.snapTick, snaps) := lookup_smInsert ..
  unfold State.snapTickOf
  rw [hlook]

theorem State.snapTickOf_of (h : t.cnt = s.cnt) (f : Nat) : t.snapTickOf f = s.snapTickOf f := by
  unfold State.snapTickOf
  rw [h]

theorem snapTick_read (fn : BitVec 6) (s : State) : ∃ snaps, exec (.cntSnapTickLoRead fn) s =
    s.whenServed ((s.snapLatched fn.toNat snaps).answerRead fn.toNat Reg.CNT_SNAP_TICK_LO (wordOf s.cnt.snapTick.toNat)) := ⟨_, rfl⟩

/-! ### Writes by access codes -/

/-- A register of one RW field over the whole word takes the word written. -/
theorem written_whole {r : RegSpec} (h : r.fields = [⟨31, 0, .rw, 0, false⟩]) (locked : Bool) (old v : Word) : r.written locked old v = v := by
  unfold RegSpec.written
  rw [h]
  show old.setField 31 0 (v.field 31 0) = v
  refine BitVec.eq_of_toNat_eq ?_
  unfold Word.setField Word.field
  have hold := old.isLt
  have hv := v.isLt
  simp only [BitVec.toNat_ofNat]
  omega

/-- The registers MGQ_ARG0 to 5 are a function's own, each one field. -/
theorem mgqArg_spec {i : Nat} (h : i < 6) : ∃ r, regLookup (Reg.MGQ_ARG i) = some r ∧ r.view = .perFn ∧ r.fields = [⟨31, 0, .rw, 0, false⟩] := by
  have hall : ∀ i < 6, (regLookup (Reg.MGQ_ARG i)).map (fun r => (r.view, r.fields)) = some (.perFn, [⟨31, 0, .rw, 0, false⟩]) := by decide +kernel
  obtain ⟨r, hr, heq⟩ := Option.map_eq_some_iff.1 (hall i h)
  exact ⟨r, hr, congrArg Prod.fst heq, congrArg Prod.snd heq⟩

theorem plainWrite_mgqArg {i : Nat} (h : i < 6) (f : Nat) (v : Word) : s.plainWrite f (Reg.MGQ_ARG i) v = s.setRegC (f + 1) (Reg.MGQ_ARG i) v := by
  obtain ⟨r, hr, hview, hfields⟩ := mgqArg_spec h
  unfold State.plainWrite
  rw [hr]
  dsimp only
  rw [hview]
  dsimp only
  rw [written_whole hfields]

theorem doorbellAt_low {o : Nat} (h : o < 0x400000) (f : Nat) : doorbellAt f o = none := by
  unfold doorbellAt
  by_cases hf : f = 0
  · rw [if_pos hf]
    exact if_neg (by omega)
  · rw [if_neg hf]
    exact if_neg (by omega)

/-- The offset of a register that is a function's own stands in every function's map. -/
theorem vfOffset_own {o : Nat} {r : RegSpec} (hlow : o < 0x90000) (hr : regLookup o = some r) (hview : r.view = .perFn) (f : Nat) :
    vfOffset f o = some o := by
  unfold vfOffset
  rw [if_neg (by omega), hr]
  dsimp only
  rw [hview]
  exact ite_self _

/-! ### Register writes -/

theorem registerWrite_unserved (h : s.barServed = false) (fn : BitVec 6) (off : BitVec 28) (v : Word) : exec (.registerWrite fn off v) s = .next s :=
  (if_pos (by rw [h]; rfl)).trans (keep_self s)

theorem registerWrite_served (h : s.barServed = true) {fn : BitVec 6} {off : BitVec 28} {o : Nat} (ho : off.toNat / 4 * 4 = o) (v : Word) :
    exec (.registerWrite fn off v) s = match doorbellAt fn.toNat o with
      | some x => s.pageWrite fn x.1 x.2 v
      | none =>
        if fn.toNat ≠ 0 ∧ (vfOffset fn.toNat o).isNone then keep s s
        else if o = Reg.MGQ_CMD then keep s (if v.bit 31 then s.mgqGo fn.toNat (v.field 30 28) else s)
        else if o = Reg.LEX_GATE_CMD then
          keep s (if v.field 31 30 = 1 ∨ v.field 31 30 = 2 then s.lexGate fn.toNat (v.field 31 30) else s)
        else if o = Reg.WIN_HEARTBEAT then execHeartbeatWrite fn v s
        else match cntRegAt o with
          | some r => keep s (s.writeCntReg fn.toNat r v)
          | none =>
            if fn.toNat ≠ 0 then keep s (s.plainWrite fn.toNat o v)
            else match s.goWrite o v with
              | some r => r
              | none => keep s (s.pfWrite o v) := by
  subst ho
  exact if_neg (by rw [h]; decide)

theorem registerWrite_page (h : s.barServed = true) {fn : BitVec 6} {off : BitVec 28} {page rest : Nat}
    (hd : doorbellAt fn.toNat (off.toNat / 4 * 4) = some (page, rest)) (v : Word) :
    exec (.registerWrite fn off v) s = s.pageWrite fn page rest v := by
  rw [registerWrite_served h rfl, hd]

/-- Writes at the places of a doorbell page that act (Table 12-5). -/
theorem pageWrite_acts (s : State) (fn : BitVec 6) (page : Nat) (v : Word) : s.pageWrite fn page 0 v =
      exec (.doorbell fn (BitVec.ofNat 14 page) (BitVec.ofNat 16 (v.field 31 16)) (BitVec.ofNat 16 (v.field 15 0))) s
    ∧ s.pageWrite fn page 8 v = exec (.cqHeadWrite fn (BitVec.ofNat 14 page) (BitVec.ofNat 16 (v.field 15 0))) s := by
  unfold State.pageWrite
  dsimp only
  rw [if_pos rfl, if_neg (by decide), if_pos rfl]
  exact ⟨rfl, rfl⟩

theorem registerWrite_unseen (h : s.barServed = true) {fn : BitVec 6} {off : BitVec 28} (hfn : fn.toNat ≠ 0)
    (hd : doorbellAt fn.toNat (off.toNat / 4 * 4) = none) (hv : vfOffset fn.toNat (off.toNat / 4 * 4) = none) (v : Word) :
    exec (.registerWrite fn off v) s = .next s := by
  rw [registerWrite_served h rfl, hd]
  exact (if_pos ⟨hfn, by rw [hv]; rfl⟩).trans (keep_self s)

theorem mgqArg_plain {i : Nat} (h : i < 6) : Reg.MGQ_ARG i ≠ Reg.MGQ_CMD ∧ Reg.MGQ_ARG i ≠ Reg.LEX_GATE_CMD ∧ Reg.MGQ_ARG i ≠ Reg.WIN_HEARTBEAT
    ∧ cntRegAt (Reg.MGQ_ARG i) = none := by
  revert i
  decide +kernel

theorem goWrite_mgqArg {i : Nat} (h : i < 6) (s : State) (v : Word) : s.goWrite (Reg.MGQ_ARG i) v = none := by
  interval_cases i <;> rfl

theorem pfWrite_mgqArg {i : Nat} (h : i < 6) (s : State) (v : Word) : s.pfWrite (Reg.MGQ_ARG i) v = s.plainWrite 0 (Reg.MGQ_ARG i) v := by
  interval_cases i <;> rfl

/-- A write to MGQ_ARG sets the function's own copy. -/
theorem registerWrite_mgqArg (h : s.barServed = true) (fn : BitVec 6) {off : BitVec 28} {i : Nat} (hi : i < 6) (hoff : off.toNat = Reg.MGQ_ARG i)
    (v : Word) : exec (.registerWrite fn off v) s = keep s (s.setRegC (fn.toNat + 1) (Reg.MGQ_ARG i) v) := by
  have ho : off.toNat / 4 * 4 = Reg.MGQ_ARG i := by
    rw [hoff]
    unfold Reg.MGQ_ARG
    omega
  have hlow : Reg.MGQ_ARG i < 0x90000 := by
    unfold Reg.MGQ_ARG
    omega
  obtain ⟨r, hr, hview, _⟩ := mgqArg_spec hi
  obtain ⟨hcmd, hgate, hbeat, hcnt⟩ := mgqArg_plain hi
  rw [registerWrite_served h ho, doorbellAt_low (by omega)]
  dsimp only
  rw [vfOffset_own hlow hr hview, if_neg (fun hb => by cases hb.2), if_neg hcmd, if_neg hgate, if_neg hbeat, hcnt]
  dsimp only
  by_cases hfn : fn.toNat = 0
  · rw [if_neg (not_not_intro hfn), goWrite_mgqArg hi, pfWrite_mgqArg hi, plainWrite_mgqArg hi, hfn]
  · rw [if_pos hfn, plainWrite_mgqArg hi]

/-- WIN_HEARTBEAT is a function's own. -/
theorem heartbeat_spec : ∃ r, regLookup Reg.WIN_HEARTBEAT = some r ∧ r.view = .perFn := by
  have hview : (regLookup Reg.WIN_HEARTBEAT).map (·.view) = some .perFn := by decide +kernel
  obtain ⟨r, hr, heq⟩ := Option.map_eq_some_iff.1 hview
  exact ⟨r, hr, heq⟩

theorem registerWrite_heartbeat (h : s.barServed = true) (fn : BitVec 6) (v : Word) :
    exec (.registerWrite fn (BitVec.ofNat 28 Reg.WIN_HEARTBEAT) v) s = exec (.heartbeatWrite fn v) s := by
  obtain ⟨r, hr, hview⟩ := heartbeat_spec
  rw [registerWrite_served (o := Reg.WIN_HEARTBEAT) h (by decide), doorbellAt_low (by decide)]
  dsimp only
  rw [vfOffset_own (by decide) hr hview, if_neg (fun hb => by cases hb.2), if_neg (by decide), if_neg (by decide), if_pos rfl]
  rfl

/-- The physical function's write to a register that is none of every function's. -/
theorem registerWrite_pf (h : s.barServed = true) {o : Nat} (hlow : o < 0x400000) (hdiv : o / 4 * 4 = o) (hcmd : o ≠ Reg.MGQ_CMD)
    (hgate : o ≠ Reg.LEX_GATE_CMD) (hbeat : o ≠ Reg.WIN_HEARTBEAT) (hcnt : cntRegAt o = none) (v : Word) :
    exec (.registerWrite 0 (BitVec.ofNat 28 o) v) s = (s.goWrite o v).getD (keep s (s.pfWrite o v)) := by
  have ho : (BitVec.ofNat 28 o).toNat / 4 * 4 = o := by
    rw [BitVec.toNat_ofNat, Nat.mod_eq_of_lt (by omega), hdiv]
  rw [registerWrite_served h ho, doorbellAt_low hlow]
  dsimp only
  rw [if_neg (fun hb => hb.1 rfl), if_neg hcmd, if_neg hgate, if_neg hbeat, hcnt]
  dsimp only
  rw [if_neg (fun hb => hb rfl)]
  cases s.goWrite o v <;> rfl

theorem goWrite_commands (s : State) (v : Word) : s.goWrite Reg.SEC_ZEROISE v = some (execZeroise v s)
    ∧ s.goWrite Reg.RST_PACKAGE v = some (execRstPackage v s) ∧ s.goWrite Reg.TCK_SYNC_CTRL v = none ∧ s.goWrite Reg.CNT_BW_CFG v = none :=
  ⟨rfl, rfl, rfl, rfl⟩

theorem pfWrite_commands (s : State) (v : Word) : s.pfWrite Reg.TCK_SYNC_CTRL v = s.writeSyncCtrl v
    ∧ s.pfWrite Reg.CNT_BW_CFG v = s.writeBwCfg v :=
  ⟨if_pos rfl, (if_neg (by decide)).trans ((if_neg (by decide)).trans (if_pos rfl))⟩

theorem registerWrite_commands (h : s.barServed = true) (v : Word) :
    exec (.registerWrite 0 (BitVec.ofNat 28 Reg.SEC_ZEROISE) v) s = exec (.zeroise v) s
    ∧ exec (.registerWrite 0 (BitVec.ofNat 28 Reg.RST_PACKAGE) v) s = exec (.rstPackage v) s
    ∧ exec (.registerWrite 0 (BitVec.ofNat 28 Reg.TCK_SYNC_CTRL) v) s = exec (.tckSyncCtrlWrite v) s
    ∧ exec (.registerWrite 0 (BitVec.ofNat 28 Reg.CNT_BW_CFG) v) s = exec (.cntBwCfgWrite v) s := by
  have hpf : ∀ o ∈ [Reg.SEC_ZEROISE, Reg.RST_PACKAGE, Reg.TCK_SYNC_CTRL, Reg.CNT_BW_CFG],
      exec (.registerWrite 0 (BitVec.ofNat 28 o) v) s = (s.goWrite o v).getD (keep s (s.pfWrite o v)) := by
    have hplain : ∀ o ∈ [Reg.SEC_ZEROISE, Reg.RST_PACKAGE, Reg.TCK_SYNC_CTRL, Reg.CNT_BW_CFG], o < 0x400000 ∧ o / 4 * 4 = o ∧ o ≠ Reg.MGQ_CMD
        ∧ o ≠ Reg.LEX_GATE_CMD ∧ o ≠ Reg.WIN_HEARTBEAT ∧ cntRegAt o = none := by decide +kernel
    intro o ho
    obtain ⟨hlow, hdiv, hcmd, hgate, hbeat, hcnt⟩ := hplain o ho
    exact registerWrite_pf h hlow hdiv hcmd hgate hbeat hcnt v
  obtain ⟨hzeroise, hreset, hsync, hbw⟩ := goWrite_commands s v
  obtain ⟨hsyncPf, hbwPf⟩ := pfWrite_commands s v
  refine ⟨(hpf _ (by simp)).trans ?_, (hpf _ (by simp)).trans ?_, (hpf _ (by simp)).trans ?_, (hpf _ (by simp)).trans ?_⟩
  · rw [hzeroise]
    rfl
  · rw [hreset]
    rfl
  · rw [hsync, hsyncPf]
    rfl
  · rw [hbw, hbwPf]
    rfl

/-- Settles O57: reads by what they latch and answer, writes by the command or the copy that their offset names. -/
theorem registersReadAndWritten : Obligations.RegistersReadAndWritten := by
  intro fn s f reads zero
  refine ⟨fun h => ⟨registerWrite_unserved h fn, reads_unserved h fn, fun n => State.whenServed_off h _, fun gal slot => State.whenServed_off h _⟩,
    fun h => ⟨reads_of h rfl, reads_of h rfl, fun hfn => ?_, fun hfn => ?_, ?_, fun off v hf hd hv => registerWrite_unseen h hf hd hv v,
      fun off v page rest hd => ⟨fun h0 => ?_, fun h8 => ?_, fun h0 h8 => ?_⟩, fun i off v hi hoff => ?_, registerWrite_heartbeat h fn,
      fun hfn v => ?_⟩⟩
  · subst hfn
    exact ⟨reads_of h rfl, reads_of h rfl, reads_of h rfl, reads_of h rfl, fun n => reads_of h rfl, fun gal slot => reads_of h rfl⟩
  · have hoff : ∀ a b : State, (if fn = 0 then a else b) = b := fun _ _ => if_neg hfn
    refine ⟨zero_of h (congrArg s.whenServed (hoff _ _)), zero_of h (congrArg s.whenServed (hoff _ _)),
      zero_of h (congrArg s.whenServed (hoff _ _)), zero_of h (congrArg s.whenServed (hoff _ _)), fun n hn => ?_,
      fun gal slot => zero_of h (congrArg s.whenServed (hoff _ _))⟩
    exact zero_of h (congrArg s.whenServed (if_neg (not_or.2 ⟨hfn, hn⟩)))
  · obtain ⟨snaps, hexec⟩ := snapTick_read fn s
    refine ⟨_, hexec.trans (State.whenServed_on h _), rfl, ?_, (((s.snapLatched_framed f snaps).widen).seq (State.answerRead_framed ..)).kept⟩
    exact (State.snapTickOf_of (State.kept_cnt ..) f).trans ((State.snapTickOf_of rfl f).trans (s.snapLatched_tick f snaps))
  · subst h0
    exact (registerWrite_page h hd v).trans (pageWrite_acts s fn page v).1
  · subst h8
    exact (registerWrite_page h hd v).trans (pageWrite_acts s fn page v).2
  · exact (registerWrite_page h hd v).trans ((if_neg h0).trans ((if_neg h8).trans (keep_self s)))
  · refine ⟨_, registerWrite_mgqArg h fn hi hoff v, ?_, (s.setRegC_framed _ _ _).kept⟩
    rw [State.kept_regC]
    exact State.regC_setRegC ..
  · subst hfn
    exact registerWrite_commands h v


end Sys2Proof.Machine
end

section
/-! SUPPORT. The service port and JTAG (R470 to R472, R503, R506). -/

namespace Sys2Proof.Machine

set_option Elab.async false

variable {s t u : State} {ps : List Part} {ks : List Nat}

/-! ### Steps that keep the queue and the flight images -/

/-- A state with the queue and the flight images of another. -/
def State.ranOn (s t : State) : State := { t with pending := s.pending, flights := s.flights }

theorem keepRun_eq (s t : State) : keepRun s t = .next (s.ranOn t) := rfl

theorem State.ranOn_self (s : State) : s.ranOn s = s := rfl

theorem changesOnly.ranOn (h : changesOnly ps s t) : changesOnly ps s (s.ranOn t) := by
  intro p hp
  have hsame := h p hp
  cases p <;> first | exact hsame | rfl

theorem framed.ranOn (h : framed ps ks s t) : framed ps ks s (s.ranOn t) := ⟨h.1.ranOn, h.2⟩

@[simp] theorem State.ranOn_tk (s t : State) : (s.ranOn t).tk = t.tk := rfl

@[simp] theorem State.ranOn_pw (s t : State) : (s.ranOn t).pw = t.pw := rfl

@[simp] theorem State.ranOn_out (s t : State) : (s.ranOn t).out = t.out := rfl

@[simp] theorem State.ranOn_svc (s t : State) : (s.ranOn t).svc = t.svc := rfl

@[simp] theorem State.ranOn_events (s t : State) : (s.ranOn t).events = t.events := rfl

@[simp] theorem State.ranOn_fld (s t : State) (off hi lo : Nat) : (s.ranOn t).fld off hi lo = t.fld off hi lo := rfl

/-! ### Messages of the port -/

theorem State.onPort_open (h : s.svc.dynAddr.isSome = true) (g : State → State) : s.onPort g = g s := if_pos h

theorem State.onPort_shut (h : s.svc.dynAddr = none) (g : State → State) : s.onPort g = s := if_neg (by rw [h]; decide)

theorem run_onPort (h : s.svc.dynAddr.isSome = true) (g : State → State) : keepRun s (s.onPort g) = .next (s.ranOn (g s)) := by
  rw [State.onPort_open h, keepRun_eq]

/-- A message answered by the step that its function takes. -/
theorem run_to (h : s.svc.dynAddr.isSome = true) {g : State → State} (hg : g s = t) : keepRun s (s.onPort g) = .next (s.ranOn t) := by
  rw [run_onPort h, hg]

theorem run_shut (h : s.svc.dynAddr = none) (g : State → State) : keepRun s (s.onPort g) = .next s := by
  rw [State.onPort_shut h, keepRun_eq, State.ranOn_self]

/-- With no address no message does anything. -/
theorem messages_shut (h : s.svc.dynAddr = none) (b : BitVec 8) (cs : List (BitVec 16)) (z : Word) (i : BitVec 15) :
    ∀ c ∈ [Instr.setEndpointId b, .getEndpointId, .getVersionSupport b, .getMessageTypeSupport, .getVendorDefinedMessageSupport b, .getTid,
      .setTid b, .getPldmVersion b, .getPldmTypes, .getPldmCommands b, .requestUpdate, .passComponentTable cs,
      .updateComponent 1 z, .requestFirmwareData z [], .activateFirmware, .status, .wake, .bbxRead i, .bbxInfo], exec c s = .next s := by
  simp only [List.forall_mem_cons, List.not_mem_nil, false_implies, implies_true, and_true]
  exact ⟨run_shut h _, run_shut h _, run_shut h _, run_shut h _, run_shut h _, run_shut h _, run_shut h _, run_shut h _, run_shut h _, run_shut h _,
    run_shut h _, run_shut h _, run_shut h _, run_shut h _, run_shut h _, run_shut h _, run_shut h _, run_shut h _, run_shut h _⟩

/-- One message sent over MCTP. -/
def State.mctpPut (s : State) (code : Nat) (body : List Byte) : State := { s with out := s.out ++ [.mctp code body] }

theorem State.mctpPut_framed (s : State) (code : Nat) (body : List Byte) : framed [.out] [] s (s.mctpPut code body) := framed_out s _

@[simp] theorem State.mctpPut_out (s : State) (code : Nat) (body : List Byte) : (s.mctpPut code body).out = s.out ++ [.mctp code body] := rfl

/-- A command that sends one message and changes nothing else. -/
def mctpSent (c : Instr) (code : Nat) (body : List Byte) (s : State) : Prop :=
  ∃ t, exec c s = .next t ∧ t.out = s.out ++ [.mctp code body] ∧ framed [.out] [] s t

theorem mctpSent.of_exec {c : Instr} {code : Nat} {body : List Byte} (h : exec c s = .next (s.ranOn (s.mctpPut code body))) : mctpSent c code body s :=
  ⟨_, h, rfl, (s.mctpPut_framed code body).ranOn⟩

/-- A command that sends one message, which may hold a value of its own. -/
def mctpAnswered (c : Instr) (code : Nat) (s : State) : Prop :=
  ∃ t body, exec c s = .next t ∧ t.out = s.out ++ [.mctp code body] ∧ framed [.out, .freeCtr] [] s t

theorem mctpSent.answered {c : Instr} {code : Nat} {body : List Byte} (h : mctpSent c code body s) : mctpAnswered c code s := by
  obtain ⟨t, hexec, hout, hframe⟩ := h
  exact ⟨t, body, hexec, hout, hframe.widen⟩

theorem mctpAnswered.of_free {c : Instr} {code : Nat} {body : List Byte} (h : exec c s = .next (s.ranOn (s.free.2.mctpPut code body))) :
    mctpAnswered c code s := by
  have hout : s.free.2.out = s.out := s.free_framed.1 .out (by decide)
  refine ⟨_, body, h, ?_, ((s.free_framed.widen).seq (State.mctpPut_framed ..)).ranOn⟩
  rw [State.ranOn_out, State.mctpPut_out, hout]

/-- The port's own state changed. -/
def State.svcSet (s : State) (x : Service) : State := { s with svc := x }

theorem State.svcSet_framed (s : State) (x : Service) : framed [.svc] [] s (s.svcSet x) := framed_svc s x

/-- A command that changes the port's state and sends one message. -/
def svcSent (c : Instr) (x : Service) (code : Nat) (body : List Byte) (s : State) : Prop :=
  ∃ t, exec c s = .next t ∧ t.svc = x ∧ t.out = s.out ++ [.mctp code body] ∧ framed [.svc, .out] [] s t

theorem svcSent.of_exec {c : Instr} {x : Service} {code : Nat} {body : List Byte}
    (h : exec c s = .next (s.ranOn ((s.svcSet x).mctpPut code body))) : svcSent c x code body s :=
  ⟨_, h, rfl, rfl, (((s.svcSet_framed x).widen).seq (State.mctpPut_framed ..)).ranOn⟩

section answers
variable (h : s.svc.dynAddr.isSome = true)
include h

theorem setEndpointId_set {eid : BitVec 8} (h0 : eid ≠ 0) (hf : eid ≠ 0xFF) :
    svcSent (.setEndpointId eid) { s.svc with eid := eid } 1 ([0, 0, eid.toNat, 0].map byteOf) s :=
  .of_exec (run_to h (if_neg (not_or.2 ⟨h0, hf⟩)))

theorem setEndpointId_refused {eid : BitVec 8} (he : eid = 0 ∨ eid = 0xFF) :
    mctpSent (.setEndpointId eid) 1 ([2, 0, s.svc.eid.toNat, 0].map byteOf) s :=
  .of_exec (run_to h (if_pos he))

theorem getVersionSupport_answered (b : BitVec 8) : mctpAnswered (.getVersionSupport b) 4 s := by
  by_cases hb : b = 0xFF#8 ∨ s.messageTypes.contains b.toNat = true
  · exact .of_free (run_to h (if_pos hb))
  · exact mctpSent.answered (.of_exec (run_to h (if_neg hb)))

theorem getVendorSupport_answered (b : BitVec 8) : mctpAnswered (.getVendorDefinedMessageSupport b) 6 s := by
  by_cases hb : b = 0
  · exact .of_free (run_to h (if_neg (not_not_intro hb)))
  · exact mctpSent.answered (.of_exec (run_to h (if_pos hb)))

theorem setTid_set {tid : BitVec 8} (h0 : tid ≠ 0) (hf : tid ≠ 0xFF) :
    svcSent (.setTid tid) { s.svc with tid := tid } 0x10001 ([0].map byteOf) s :=
  .of_exec (run_to h (if_neg (not_or.2 ⟨h0, hf⟩)))

theorem setTid_refused {tid : BitVec 8} (ht : tid = 0 ∨ tid = 0xFF) : mctpSent (.setTid tid) 0x10001 ([2].map byteOf) s :=
  .of_exec (run_to h (if_pos ht))

theorem getPldmVersion_answered (b : BitVec 8) : mctpAnswered (.getPldmVersion b) 0x10003 s := by
  by_cases hb : b = 0 ∨ b = 5
  · exact .of_free (run_to h (if_pos hb))
  · exact mctpSent.answered (.of_exec (run_to h (if_neg hb)))

theorem getPldmCommands_base : mctpSent (.getPldmCommands 0) 0x10005 ((0 :: commandMap [1, 2, 3, 4, 5]).map byteOf) s :=
  .of_exec (run_to h (if_pos rfl))

theorem getPldmCommands_answered (b : BitVec 8) : mctpAnswered (.getPldmCommands b) 0x10005 s := by
  by_cases h0 : b = 0
  · subst h0
    exact (getPldmCommands_base h).answered
  · by_cases h5 : b = 5
    · exact mctpSent.answered (.of_exec (run_to h ((if_neg h0).trans (if_pos h5))))
    · exact mctpSent.answered (.of_exec (run_to h ((if_neg h0).trans (if_neg h5))))

theorem bbxRead_record (i : BitVec 15) (hstate : s.fld Reg.BBX_STATUS 31 30 = 1) :
    mctpSent (.bbxRead i) 0x7E0003 (0 :: memRead s.mem.mram (256 * i.toNat) 256) s :=
  .of_exec (run_to h (if_neg (not_not_intro hstate)))

theorem recovery_silent (hr : s.pw.recovery = true) : exec .bbxInfo s = .next s ∧ exec .wake s = .next s :=
  ⟨run_to h (if_pos hr), run_to h (if_pos hr)⟩

theorem bbxInfo_answered (hr : s.pw.recovery = false) : mctpAnswered .bbxInfo 0x7E0004 s :=
  mctpSent.answered (.of_exec (run_to h (if_neg (by rw [hr]; decide))))

end answers

end Sys2Proof.Machine
end

section
/-! SUPPORT. The end of P3 (R387, R389, R450, R506). -/

namespace Sys2Proof.Machine

set_option Elab.async false

variable {s t u : State} {ps : List Part} {ks : List Nat} {k : Nat}

/-! ### Keys at the end of P3 -/

theorem State.zeroise_framed (s : State) (trigger : Nat) :
    framed (.trust :: .insts :: .reqs :: .lex :: .lexCopies :: eventParts) eventRegs s (s.zeroise trigger) :=
  ((s.keysCleared_framed.widen).seq s.zeroed_framed).seq (State.raisePf_framed ..) (by simp +contextual) (fun _ h => h)

/-- The parts that the keys' check at the end of P3 may change. -/
def keysParts : List Part := .trust :: .insts :: .reqs :: .lex :: .lexCopies :: eventParts

/-- The key table under an owner and the one that it names. -/
def State.sealedUnder (s : State) (owner named : List Word) : State := { s with trust := { s.trust with owner := owner, nextOwner := named } }

/-- The key table unsealed. -/
def State.unsealed (s : State) (keys : SMap KeySlot) : State := { s with trust := { s.trust with keys := keys } }

theorem State.unsealed_framed (s : State) (keys : SMap KeySlot) : framed [.trust] [] s (s.unsealed keys) := framed_trust s _

theorem State.unsealFor_framed (s : State) (owner named : List Word) : framed keysParts eventRegs s (s.unsealFor owner named) := by
  have hheld : framed keysParts eventRegs s (s.sealedUnder owner named) := (framed_trust s _).widen (by simp [keysParts])
  unfold State.unsealFor
  split
  · exact hheld
  next c _ =>
    have hopen : framed keysParts eventRegs s ((s.sealedUnder owner named).unsealed (resumeAll c.keys)) :=
      hheld.seq (State.unsealed_framed ..) (by simp [keysParts])
    exact .ite (fun _ => hopen.seq (State.seal_framed _) (by simp [keysParts]))
      fun _ => .ite (fun _ => (hopen.seq (State.seal_framed _) (by simp [keysParts])).seq (State.seal_framed _) (by simp [keysParts]))
        fun _ => hheld.trans (State.zeroise_framed _ _)

theorem State.unsealFor_own {owner named : List Word} {c : SealedCopy} (h : s.sealedNow = some c) (ho : c.owner = owner) :
    (s.unsealFor owner named).trust.keys = resumeAll c.keys := by
  unfold State.unsealFor
  rw [h]
  dsimp only
  rw [if_pos ho, State.seal_keys]

/-- No key held. -/
def State.noKeys (s : State) : State := s.unsealed []

theorem State.noKeys_framed (s : State) : framed [.trust] [] s s.noKeys := s.unsealed_framed []

theorem State.wakeKeys_eq (s : State) : s.wakeKeys = if (s.reg Reg.SEC_STATUS).bit 31 = true then s.noKeys.raisePf 0x6005 [wordOf s.trust.pufCause]
    else if s.boot.cfg.isEmpty = true then s.noKeys else s.noKeys.unsealFor s.trust.owner s.trust.nextOwner := rfl

theorem State.wakeKeys_framed (s : State) : framed keysParts eventRegs s s.wakeKeys := by
  have hnone : framed keysParts eventRegs s s.noKeys := s.noKeys_framed.widen (by simp [keysParts])
  rw [State.wakeKeys_eq]
  exact .ite (fun _ => hnone.seq (State.raisePf_framed ..) (by simp +contextual [keysParts]) (fun _ h => h))
    fun _ => .ite (fun _ => hnone) fun _ => hnone.trans (State.unsealFor_framed ..)

theorem State.wakeKeys_unsealed {c : SealedCopy} (hopen : s.sealOpen = true) (hnow : s.sealedNow = some c) (hcfg : s.boot.cfg.isEmpty = false)
    (hown : c.owner = s.trust.owner) : s.wakeKeys.trust.keys = resumeAll c.keys := by
  have hpuf : (s.reg Reg.SEC_STATUS).bit 31 = false := by
    unfold State.sealOpen at hopen
    rw [Bool.and_eq_true, Bool.not_eq_true', Bool.not_eq_true'] at hopen
    exact hopen.2
  rw [State.wakeKeys_eq, if_neg (by rw [hpuf]; decide), if_neg (by rw [hcfg]; decide)]
  exact State.unsealFor_own (s := s.noKeys) hnow hown

theorem State.wakeKeys_none (h : (s.reg Reg.SEC_STATUS).bit 31 = true ∨ s.boot.cfg.isEmpty = true) : s.wakeKeys.trust.keys = [] := by
  rw [State.wakeKeys_eq]
  by_cases hpuf : (s.reg Reg.SEC_STATUS).bit 31 = true
  · rw [if_pos hpuf, (State.raisePf_framed ..).1 .trust (by decide)]
    rfl
  · rw [if_neg hpuf, if_pos (h.resolve_left hpuf)]
    rfl

/-! ### Stems at the end of P3 -/

theorem State.stemFail_framed (s : State) (slot proj : Nat) : framed (.stems :: .reqs :: eventParts) eventRegs s (s.stemFail slot proj) :=
  (((s.setStem_framed slot _).widen).seq (State.raiseStem_framed ..) (by simp +contextual) (fun _ h => h)).seq (State.endReqs_framed ..)

theorem State.stemFail_other (s : State) {slot : Nat} (hk : k < 2) (h : k ≠ slot) (proj : Nat) : (s.stemFail slot proj).stemAt k = s.stemAt k := by
  unfold State.stemFail
  dsimp only
  rw [State.stemAt_of ((State.endReqs_framed ..).1 .stems (by decide)), State.stemAt_of ((State.raiseStem_framed ..).1 .stems (by decide)),
    State.stemAt_setStem_ne _ _ hk h]

/-- What one poisoned page does to the stem slot that it belongs to. -/
def State.wakeStemOf (u : State) (q : Poison) : State := match q.kind with
  | .stemShard slot proj => if (u.stemAt slot.toNat).state = 0 ∨ (u.stemAt slot.toNat).state = 6 then u else u.stemFail slot.toNat proj.toNat
  | _ => u

theorem State.wakeStemOf_shard {q : Poison} {slot : BitVec 1} {proj : BitVec 16} (h : q.kind = .stemShard slot proj) (u : State) :
    u.wakeStemOf q = if (u.stemAt slot.toNat).state = 0 ∨ (u.stemAt slot.toNat).state = 6 then u else u.stemFail slot.toNat proj.toNat := by
  unfold State.wakeStemOf
  rw [h]

theorem State.wakeStemOf_other {q : Poison} (h : ∀ slot proj, q.kind ≠ .stemShard slot proj) (u : State) : u.wakeStemOf q = u := by
  unfold State.wakeStemOf
  split
  next slot proj hq => exact absurd hq (h slot proj)
  next => rfl

theorem State.wakeStems_eq (s : State) : s.wakeStems = s.faults.poison.foldl State.wakeStemOf s := rfl

theorem State.wakeStemOf_framed (u : State) (q : Poison) : framed (.stems :: .reqs :: eventParts) eventRegs u (u.wakeStemOf q) := by
  by_cases h : ∃ slot proj, q.kind = .stemShard slot proj
  · obtain ⟨slot, proj, hq⟩ := h
    rw [State.wakeStemOf_shard hq]
    exact .ite (fun _ => .refl) fun _ => u.stemFail_framed _ _
  · rw [State.wakeStemOf_other fun slot proj hq => h ⟨slot, proj, hq⟩]
    exact .refl

/-- A slot in use stays in use, and a FAILED one FAILED. -/
theorem State.wakeStemOf_keeps (u : State) (q : Poison) (hk : k < 2) (h : (u.stemAt k).state ≠ 0) :
    ((u.wakeStemOf q).stemAt k).state ≠ 0 ∧ ((u.stemAt k).state = 6 → ((u.wakeStemOf q).stemAt k).state = 6) := by
  by_cases hq : ∃ slot proj, q.kind = .stemShard slot proj
  · obtain ⟨slot, proj, hq⟩ := hq
    rw [State.wakeStemOf_shard hq]
    split
    · exact ⟨h, id⟩
    · by_cases hslot : k = slot.toNat
      · subst hslot
        rw [State.stemFail_state _ hk]
        exact ⟨by decide, fun _ => rfl⟩
      · rw [State.stemFail_other _ hk hslot]
        exact ⟨h, id⟩
  · rw [State.wakeStemOf_other fun slot proj hq' => hq ⟨slot, proj, hq'⟩]
    exact ⟨h, id⟩

/-- A slot in use with a page that cannot be read is FAILED. -/
theorem foldl_wakeStemOf_fails (l : List Poison) (u : State) (hk : k < 2) (h : (u.stemAt k).state ≠ 0)
    (hq : (u.stemAt k).state = 6 ∨ ∃ q ∈ l, ∃ slot proj, q.kind = .stemShard slot proj ∧ slot.toNat = k) :
    ((l.foldl State.wakeStemOf u).stemAt k).state = 6 := by
  induction l generalizing u with
  | nil => exact hq.resolve_right fun ⟨q, hmem, _⟩ => absurd hmem List.not_mem_nil
  | cons p l ih =>
    obtain ⟨hused, hfailed⟩ := u.wakeStemOf_keeps p hk h
    refine ih _ hused ?_
    rcases hq with h6 | ⟨q, hmem, slot, proj, hkind, hslot⟩
    · exact .inl (hfailed h6)
    · rcases List.mem_cons.1 hmem with rfl | hmem
      · left
        subst hslot
        rw [State.wakeStemOf_shard hkind]
        split
        next hcase => exact hcase.resolve_left h
        next => exact State.stemFail_state _ hk _
      · exact .inr ⟨q, hmem, slot, proj, hkind, hslot⟩

theorem State.wakeStems_framed (s : State) : framed (.stems :: .reqs :: eventParts) eventRegs s s.wakeStems := by
  rw [State.wakeStems_eq]
  exact .foldl _ _ (fun v q => v.wakeStemOf_framed q) s

/-! ### Ticks run on -/

/-- Keys and stems checked. -/
def State.wakeChecked (s : State) : State := s.wakeKeys.wakeStems

/-- The parts that the end of P3 may change before the power is shown. -/
def checkParts : List Part := .stems :: keysParts

theorem State.wakeChecked_framed (s : State) : framed checkParts eventRegs s s.wakeChecked :=
  (s.wakeKeys_framed.widen (by simp +contextual [checkParts]) (fun _ h => h)).seq (State.wakeStems_framed _)
    (by simp +contextual [checkParts, keysParts]) (fun _ h => h)

/-- The hall core and the galleries powered, and the tick after the one held. -/
def State.poweredOn (s : State) : State :=
  { s with pw := { s.pw with hallOn := true, hbmRefresh := false }, tk := { s.tk with running := true, count := s.tk.count + 1 } }

theorem State.poweredOn_framed (s : State) : framed [.pw, .running, .tickCount] [] s s.poweredOn :=
  ⟨fun p hp => by cases p <;> first | (simp at hp; done) | rfl, .of_regs rfl⟩

theorem State.stopExtest_framed (s : State) : framed [.jtag] [] s s.stopExtest := .ite (fun _ => framed_jtag s _) fun _ => .refl

theorem State.wakeP3_eq (h : s.fld Reg.PWR_STATE 31 29 = 3) : s.wakeP3 = (s.wakeChecked.poweredOn.showPower 256).stopExtest :=
  if_neg (not_not_intro h)

theorem State.showPower_framed (s : State) (factor : Nat) : framed eventParts (Reg.PWR_STATE :: eventRegs) s (s.showPower factor) := by
  unfold State.showPower
  dsimp only
  exact .ite (fun _ => .refl) fun _ => ((s.setFld_framed ..).widen (by simp [eventParts])).seq (State.raisePf_framed ..) (fun _ h => h)
    (by simp +contextual)

/-- STATE as the out galleries give it at the factor 256. -/
def State.powerShown (s : State) : Nat := if s.fld Reg.PWR_STATE 23 16 ≠ 0 then 2 else 0

theorem State.showPower_state (s : State) (h : s.fld Reg.PWR_STATE 31 29 = 3) : (s.showPower 256).fld Reg.PWR_STATE 31 29 = s.powerShown := by
  have hst : (if s.fld Reg.PWR_STATE 23 16 ≠ 0 then 2 else if (256 : Nat) = 256 then 0 else 1) = s.powerShown := rfl
  have hlt : s.powerShown < 3 := by
    unfold State.powerShown
    split <;> omega
  unfold State.showPower
  dsimp only
  rw [hst, if_neg (by omega), (State.raisePf_framed ..).fld (by decide), State.fld_setFld _ _ 31 29 _ (by decide) (by decide)]
  exact Nat.mod_eq_of_lt (by omega)

/-- P3 ended. -/
def wokenUp (s t : State) : Prop := t.tk.running = true ∧ t.tk.count = s.tk.count + 1 ∧ t.pw.hallOn = true ∧ t.pw.hbmRefresh = false
  ∧ t.fld Reg.PWR_STATE 31 29 = s.powerShown ∧ t.trust = s.wakeKeys.trust ∧ t.ls.stems = s.wakeChecked.ls.stems

theorem wokenUp.ranOn (h : wokenUp s t) : wokenUp s (s.ranOn t) := h

theorem State.wakeChecked_trust (s : State) : s.wakeChecked.trust = s.wakeKeys.trust := (State.wakeStems_framed _).1 .trust (by decide)

/-- What the end of P3 changes after keys and stems are checked. -/
theorem State.wakeP3_of_checked (h : s.fld Reg.PWR_STATE 31 29 = 3) :
    framed ([.pw, .running, .tickCount, .jtag] ++ eventParts) (Reg.PWR_STATE :: eventRegs) s.wakeChecked s.wakeP3 := by
  rw [State.wakeP3_eq h]
  exact ((s.wakeChecked.poweredOn_framed.widen).seq (State.showPower_framed ..) (by simp +contextual) (fun _ h => h)).seq
    (State.stopExtest_framed _)

theorem State.wakeP3_woken (h : s.fld Reg.PWR_STATE 31 29 = 3) : wokenUp s s.wakeP3 := by
  have hchecked := s.wakeChecked_framed
  have hwake := State.wakeP3_of_checked h
  have hon := s.wakeChecked.poweredOn_framed
  have hshow := s.wakeChecked.poweredOn.showPower_framed 256
  have hstop := (s.wakeChecked.poweredOn.showPower 256).stopExtest_framed
  have hcount : s.wakeChecked.tk.count = s.tk.count := hchecked.1 .tickCount (by decide)
  have htrust : s.wakeP3.trust = s.wakeChecked.trust := hwake.1 .trust (by decide)
  have hstems : s.wakeP3.ls.stems = s.wakeChecked.ls.stems := hwake.1 .stems (by decide)
  have hrun : s.wakeP3.tk.running = s.wakeChecked.poweredOn.tk.running := by
    rw [State.wakeP3_eq h]
    exact (hstop.1 .running (by decide)).trans (hshow.1 .running (by decide))
  have htick : s.wakeP3.tk.count = s.wakeChecked.poweredOn.tk.count := by
    rw [State.wakeP3_eq h]
    exact (hstop.1 .tickCount (by decide)).trans (hshow.1 .tickCount (by decide))
  have hpw : s.wakeP3.pw = s.wakeChecked.poweredOn.pw := by
    rw [State.wakeP3_eq h]
    exact (hstop.1 .pw (by decide)).trans (hshow.1 .pw (by decide))
  refine ⟨hrun.trans rfl, ?_, ?_, ?_, ?_, htrust.trans s.wakeChecked_trust, hstems⟩
  · rw [htick, ← hcount]
    rfl
  · rw [hpw]
    rfl
  · rw [hpw]
    rfl
  · have hstate : s.wakeChecked.poweredOn.fld Reg.PWR_STATE 31 29 = 3 := by
      rw [hon.fld List.not_mem_nil, hchecked.fld (by decide), h]
    have hout : s.wakeChecked.poweredOn.powerShown = s.powerShown := by
      unfold State.powerShown
      rw [hon.fld List.not_mem_nil, hchecked.fld (by decide)]
    rw [State.wakeP3_eq h, hstop.fld List.not_mem_nil, State.showPower_state _ hstate, hout]

/-! ### WAKE -/

section wakes
variable (h : s.svc.dynAddr.isSome = true) (hr : s.pw.recovery = false)
include h hr

theorem wake_P3 (hp : s.fld Reg.PWR_STATE 31 29 = 3) : exec .wake s = .next (s.ranOn (s.wakeP3.mctpPut 0x7E0002 [0])) :=
  run_to h ((if_neg (by rw [hr]; decide)).trans (if_pos hp))

theorem wake_off (hoff : s.packageOff = true) : svcSent .wake { s.svc with wakeReady := true } 0x7E0002 [0] s := by
  have h4 : s.fld Reg.PWR_STATE 31 29 = 4 := beq_iff_eq.1 hoff
  exact .of_exec (run_to h ((if_neg (by rw [hr]; decide)).trans ((if_neg (by omega)).trans (if_pos hoff))))

theorem wake_busy (hp : s.fld Reg.PWR_STATE 31 29 ≠ 3) (hoff : s.packageOff = false) :
    mctpSent .wake 0x7E0002 ([St.busy].map byteOf) s :=
  .of_exec (run_to h ((if_neg (by rw [hr]; decide)).trans ((if_neg hp).trans (if_neg (by rw [hoff]; decide)))))

theorem wake_woken (hp : s.fld Reg.PWR_STATE 31 29 = 3) : ∃ t, exec .wake s = .next t ∧ t.tk.running = true ∧ t.tk.count = s.tk.count + 1
    ∧ t.pw.hallOn = true ∧ .mctp 0x7E0002 [0] ∈ t.out := by
  obtain ⟨hrun, hcount, hhall, _⟩ := State.wakeP3_woken hp
  have hput := s.wakeP3.mctpPut_framed 0x7E0002 [0]
  have hpw : (s.wakeP3.mctpPut 0x7E0002 [0]).pw = s.wakeP3.pw := hput.1 .pw (by decide)
  have hrunning : (s.wakeP3.mctpPut 0x7E0002 [0]).tk.running = s.wakeP3.tk.running := hput.1 .running (by decide)
  have htick : (s.wakeP3.mctpPut 0x7E0002 [0]).tk.count = s.wakeP3.tk.count := hput.1 .tickCount (by decide)
  refine ⟨_, wake_P3 h hr hp, ?_, ?_, ?_, ?_⟩
  · rw [State.ranOn_tk, hrunning, hrun]
  · rw [State.ranOn_tk, htick, hcount]
  · rw [State.ranOn_pw, hpw, hhall]
  · rw [State.ranOn_out, State.mctpPut_out]
    exact List.mem_append_right _ (List.mem_singleton_self _)

end wakes

/-! ### JTAG -/

/-- A JTAG register selected. -/
def State.jtagSet (s : State) (j : Jtag) : State := { s with jtag := j }

theorem jtagSet_shows {c : Instr} {j : Jtag} (h : exec c s = .next (s.ranOn (s.jtagSet j))) :
    ∃ t, exec c s = .next t ∧ t.jtag = j ∧ t.out = s.out ∧ framed [.jtag] [] s t :=
  ⟨_, h, rfl, rfl, ((framed_jtag s j : framed [.jtag] [] s (s.jtagSet j))).ranOn⟩

theorem status_sent (h : s.svc.dynAddr.isSome = true) : mctpSent .status 0x7E0001 (0 :: ((s.reg Reg.PWR_STATE).bytes ++ (s.reg Reg.RST_STATUS).bytes
    ++ (s.reg Reg.DEV_BOOT_STATUS).bytes ++ (s.reg Reg.DEV_FW_VER).bytes)) s := by
  refine .of_exec (run_to h (congrArg (fun body => s.mctpPut 0x7E0001 (0 :: body)) ?_))
  simp only [List.flatMap_cons, List.flatMap_nil, List.append_nil, List.append_assoc]

/-- Settles O58: with an address each message gets its answer, with none it does nothing, and each JTAG instruction selects its register. -/
theorem servicePortAnswers : Obligations.ServicePortAnswers := by
  intro s sent someAnswer jtag
  refine ⟨fun a => ⟨_, rfl, rfl, (s.svcSet_framed _).ranOn⟩, ⟨_, rfl, rfl, (s.svcSet_framed _).ranOn⟩, fun h b cs z i => messages_shut h b cs z i,
    fun h => ⟨fun eid => ⟨fun h0 hf => setEndpointId_set h h0 hf, fun he => setEndpointId_refused h he⟩, mctpSent.of_exec (run_onPort h _),
      getVersionSupport_answered h, getVendorSupport_answered h, mctpSent.of_exec (run_onPort h _), mctpSent.of_exec (run_onPort h _),
      fun tid => ⟨fun h0 hf => setTid_set h h0 hf, fun ht => setTid_refused h ht⟩, getPldmVersion_answered h, mctpSent.of_exec (run_onPort h _),
      getPldmCommands_answered h, getPldmCommands_base h, status_sent h, fun i hstate => bbxRead_record h i hstate, recovery_silent h,
      fun hr => ⟨bbxInfo_answered h hr, wake_woken h hr, wake_off h hr, fun hp hoff => wake_busy h hr hp hoff⟩⟩,
    jtagSet_shows rfl, jtagSet_shows rfl, jtagSet_shows rfl, ?_, fun hoff => jtagSet_shows ?_, fun hon => jtagSet_shows ?_⟩
  · exact ⟨_, rfl, rfl, rfl, (((framed_jtag s ⟨false, 1, false⟩).widen).seq (framed_out _ _)).ranOn⟩
  · exact congrArg (fun j => keepRun s (s.jtagSet j)) (if_pos hoff)
  · exact congrArg (fun j => keepRun s (s.jtagSet j)) (if_neg (by rw [hon]; exact Bool.false_ne_true))


end Sys2Proof.Machine
end

section
/-! SUPPORT. Power states and gallery resets as asked for (R449 to R451, R454). -/

namespace Sys2Proof.Machine

set_option Elab.async false

variable {s t u : State} {ps : List Part} {ks : List Nat} {k g : Nat}

/-! ### Requests answered -/

theorem State.stateStatus_framed (s : State) (st : Nat) : framed [.regs] [Reg.PWR_STATE_CTRL] s (s.stateStatus st) := s.setFld_framed _ _ _ _

theorem State.stateStatus_shows (s : State) {st : Nat} (h : st < 256) : (s.stateStatus st).fld Reg.PWR_STATE_CTRL 7 0 = st :=
  (State.fld_setFld _ _ 7 0 _ (by decide) (by decide)).trans (Nat.mod_eq_of_lt h)

theorem framed.stopped (h : framed ps ks s t) (hf : Part.flights ∉ ps := by decide) : framed ps ks s (s.stopped t) := ⟨h.1.stopped hf, h.2⟩

/-- A request refused with its status. -/
def stateRefused (st : Nat) (s t : State) : Prop := t.fld Reg.PWR_STATE_CTRL 7 0 = st ∧ framed [.regs] [Reg.PWR_STATE_CTRL] s t

/-- A request accepted, with what waits for it. -/
def stateAccepted (p : Power) (s t : State) : Prop :=
  t.fld Reg.PWR_STATE_CTRL 7 0 = St.ok ∧ t.pw = p ∧ framed [.pw, .regs] [Reg.PWR_STATE_CTRL] s t

theorem State.stateStatus_refused (s : State) {st : Nat} (h : st < 256) : stateRefused st s (s.stateStatus st) :=
  ⟨s.stateStatus_shows h, s.stateStatus_framed st⟩

theorem State.stateStatus_accepted (s : State) (p : Power) : stateAccepted p s ((s.stateStatus St.ok).withPw p) :=
  ⟨s.stateStatus_shows (by decide), rfl, ((s.stateStatus_framed _).widen).seq (State.withPw_framed ..)⟩

theorem stateRefused.kept {st : Nat} (h : stateRefused st s t) : stateRefused st s (s.kept t) := ⟨h.1, h.2.kept⟩

theorem stateAccepted.kept {p : Power} (h : stateAccepted p s t) : stateAccepted p s (s.kept t) := ⟨h.1, h.2.1, h.2.2.kept⟩

theorem stateRefused.stopped {st : Nat} (h : stateRefused st s t) : stateRefused st s (s.stopped t) := ⟨h.1, framed.stopped h.2⟩

theorem stateAccepted.stopped {p : Power} (h : stateAccepted p s t) : stateAccepted p s (s.stopped t) := ⟨h.1, h.2.1, framed.stopped h.2.2⟩

theorem State.stateStatus_pw (s : State) (st : Nat) : (s.stateStatus st).pw = s.pw := (s.stateStatus_framed st).1 .pw (by decide)

/-! ### Parks -/

theorem ite_status {c : Prop} [Decidable c] (h : (if c then St.busy else St.ok) ≠ St.ok) : (if c then St.busy else St.ok) = St.busy := by
  by_cases hc : c
  · exact if_pos hc
  · exact absurd (if_neg hc) h

theorem State.writePark_ok {m : Nat} (h : s.parkStatus (galsOf m) = St.ok) :
    s.writePark m = (s.stateStatus St.ok).withPw { s.pw with parkQ := s.pw.parkQ ++ [.park m] } := by
  unfold State.writePark
  dsimp only
  rw [h, if_pos rfl, State.stateStatus_pw]
  rfl

theorem State.writePark_busy {m : Nat} (h : s.parkStatus (galsOf m) ≠ St.ok) : s.writePark m = s.stateStatus St.busy := by
  have hbusy : s.parkStatus (galsOf m) = St.busy := ite_status h
  unfold State.writePark
  dsimp only
  rw [hbusy]
  exact if_neg (by decide)

theorem State.writeUnpark_eq (s : State) (m : Nat) : s.writeUnpark m = (s.stateStatus St.ok).withPw
    { s.pw with unparking := s.pw.unparking ++ (galsOf m).filter fun g => s.galParked g && !s.pw.unparking.contains g } := by
  unfold State.writeUnpark
  dsimp only
  rw [State.stateStatus_pw]
  rfl

theorem unparkComplete_waits (gal : BitVec 3) (fails : List (BitVec 4 × BitVec 5)) (h : gal.toNat ∈ s.pw.unparking) :
    exec (.unparkComplete gal fails) s = keep s (s.withPw { s.pw with
      unparking := s.pw.unparking.filter (· != gal.toNat)
      parkQ := s.pw.parkQ ++ [.unpark gal.toNat (fails.map fun f => (f.1.toNat, f.2.toNat))] }) :=
  congrArg (keep s) (if_neg (by rw [List.contains_iff_mem.2 h]; decide))

theorem unparkComplete_idle (gal : BitVec 3) (fails : List (BitVec 4 × BitVec 5)) (h : gal.toNat ∉ s.pw.unparking) :
    exec (.unparkComplete gal fails) s = .next s :=
  (congrArg (keep s) (if_pos (by simpa using h))).trans (keep_self s)

/-! ### P3 and P4 -/

theorem State.writeP3_busy (h : s.packageOff = true ∨ s.tk.running = false ∨ s.p3Status ≠ St.ok) : s.writeP3 = s.stateStatus St.busy := by
  unfold State.writeP3
  dsimp only
  by_cases hoff : s.packageOff = true ∨ (!s.tk.running) = true
  · exact if_pos hoff
  · rw [if_neg hoff]
    have hrun : s.tk.running ≠ false := fun hr => hoff (.inr (by rw [hr]; rfl))
    have hp3 : s.p3Status ≠ St.ok := (h.resolve_left fun ho => hoff (.inl ho)).resolve_left hrun
    have hbusy : s.p3Status = St.busy := ite_status hp3
    rw [hbusy]
    exact if_neg (by decide)

theorem State.writeP3_ok (hoff : s.packageOff = false) (hr : s.tk.running = true) (h : s.p3Status = St.ok) :
    s.writeP3 = (s.stateStatus St.ok).withPw { s.pw with p3Due := true } := by
  unfold State.writeP3
  dsimp only
  rw [hoff, hr, h, if_neg (by decide), if_pos rfl, State.stateStatus_pw]
  rfl

theorem State.writeP4_off (h : s.packageOff = true) : s.writeP4 = s := if_pos h

theorem State.writeP4_busy (hoff : s.packageOff = false) (h : s.updateOpen = true) : s.writeP4 = s.stateStatus St.busy :=
  (if_neg (by rw [hoff]; decide)).trans (if_pos h)

theorem State.writeP4_ok (hoff : s.packageOff = false) (h : s.updateOpen = false) (hr : s.tk.running = true) :
    s.writeP4 = (s.stateStatus St.ok).withPw { s.pw with p4Due := true } :=
  (if_neg (by rw [hoff]; decide)).trans ((if_neg (by rw [h]; decide)).trans (if_pos hr))

theorem State.writeP4_now (h3 : s.fld Reg.PWR_STATE 31 29 = 3) (h : s.updateOpen = false) (hr : s.tk.running = false) : s.writeP4 = s.enterP4 := by
  have hoff : s.packageOff = false := by
    unfold State.packageOff
    rw [h3]
    rfl
  exact (if_neg (by rw [hoff]; decide)).trans ((if_neg (by rw [h]; decide)).trans ((if_neg (by rw [hr]; decide)).trans (if_pos h3)))

/-- A package cleared and shown as P4. -/
def State.clearedOff (s : State) : State := s.clearPackage.setFld Reg.PWR_STATE 31 29 4

theorem State.clearedOff_framed (s : State) : framed [.trust, .freeCtr, .regs] [Reg.RST_STATUS, Reg.PWR_STATE] s.packageKept s.clearedOff := by
  unfold State.clearedOff
  rw [State.clearPackage_eq]
  have hjobs : framed [.trust, .freeCtr, .regs] [Reg.RST_STATUS, Reg.PWR_STATE] s.packageKept
      ((List.range 5).foldl State.freshJobs s.packageKept) := .foldl _ _ (fun v x => (v.freshJobs_framed x).widen) _
  exact (hjobs.seq (State.setFld_framed ..)).seq (State.setFld_framed ..)

/-- The event of P4, and the black box drained. -/
def State.offTold (s : State) : State :=
  (s.raisePf 0x8008 ([s.fld Reg.PWR_STATE 31 29, 4, s.fld Reg.PWR_STATE 23 16].map wordOf)).bbxDrain 66

theorem State.offTold_changes (s : State) : changesOnly (.mram :: eventParts) s s.offTold :=
  ((s.raisePf_framed _ _).1.widen (by simp +contextual)).seq (State.bbxDrain_framed ..).1 (by simp [eventParts])

/-- P4 entered. -/
def enteredP4 (s t : State) : Prop := t.fld Reg.PWR_STATE 31 29 = 4 ∧ t.pw.alertLow = false ∧ t.mem.hbm = [] ∧ t.mem.host = s.mem.host
  ∧ t.mem.flash = s.mem.flash

theorem State.packageKept_hbm (s : State) : s.packageKept.mem.hbm = [] := by
  unfold State.packageKept
  rfl

/-- DEV_ALERT_N released. -/
def State.alertFreed (s : State) : State := s.withPw { s.pw with alertLow := false }

theorem enteredP4.of_kept (h : framed ps ks s.packageKept t) (hp : ∀ p ∈ [Part.hbm, .host, .flash], p ∉ ps)
    (hstate : t.fld Reg.PWR_STATE 31 29 = 4) : enteredP4 s t.alertFreed := by
  obtain ⟨_, _, hhost, hflash, _, _⟩ := s.packageKept_keeps
  have hh : t.mem.host = s.packageKept.mem.host := h.1 .host (hp _ (by simp))
  have hf : t.mem.flash = s.packageKept.mem.flash := h.1 .flash (hp _ (by simp))
  have hb : t.mem.hbm = s.packageKept.mem.hbm := h.1 .hbm (hp _ (by simp))
  exact ⟨hstate, rfl, hb.trans s.packageKept_hbm, hh.trans hhost, hf.trans hflash⟩

theorem State.clearedOff_state (s : State) : s.clearedOff.fld Reg.PWR_STATE 31 29 = 4 := State.fld_setFld _ _ 31 29 _ (by decide) (by decide)

theorem State.enterP4_eq (s : State) : s.enterP4 = s.offTold.clearedOff.alertFreed := rfl

theorem State.enterP4_entered (s : State) : enteredP4 s s.enterP4 := by
  have htold := s.offTold_changes
  have hhost : s.offTold.mem.host = s.mem.host := htold .host (by decide)
  have hflash : s.offTold.mem.flash = s.mem.flash := htold .flash (by decide)
  rw [State.enterP4_eq]
  have hentered := enteredP4.of_kept s.offTold.clearedOff_framed (by decide) s.offTold.clearedOff_state
  unfold enteredP4 at hentered ⊢
  rw [hhost, hflash] at hentered
  exact hentered

theorem enteredP4.stopped (h : enteredP4 s t) : enteredP4 s (s.stopped t) := h

/-! ### Gallery resets -/

/-- A register key of a gallery in the domain that a gallery reset clears. -/
def galleryKey (g k : Nat) : Bool := decide (0x100000 * (g + 1) ≤ k ∧ k < 0x100000 * (g + 2)) && match regLookup k with
  | some r => r.dom == .gallery
  | none => false

theorem galleryKey_of {r : RegSpec} (hlo : 0x100000 * (g + 1) ≤ k) (hhi : k < 0x100000 * (g + 2)) (hr : regLookup k = some r) (hd : r.dom = .gallery) :
    galleryKey g k = true := by
  unfold galleryKey
  rw [hr, decide_eq_true ⟨hlo, hhi⟩, Bool.true_and]
  exact beq_iff_eq.2 hd

theorem State.galleryRegs_changes (s : State) (g : Nat) : changesOnly [.regs, .cal] s (s.galleryRegs g) := fun p hp => by
  cases p <;> first | (simp at hp; done) | rfl

theorem State.galleryRegs_regs (s : State) (g : Nat) : (s.galleryRegs g).regs = s.regs.filter fun p => !galleryKey g p.1 := rfl

theorem State.galleryRegs_reg (s : State) (g k : Nat) :
    (s.galleryRegs g).reg k = if galleryKey g k = true then regDefault k else s.reg k := by
  have hkey : regKey 0 k = k := by
    unfold regKey
    omega
  unfold State.reg State.regC
  rw [hkey, State.galleryRegs_regs, smGet_filter regDefault s.regs (fun k => !galleryKey g k)]
  cases galleryKey g k <;> rfl

/-- Galleries reset in turn: the registers of each are at their reset values. -/
theorem foldl_galleryRegs_reg (l : List Nat) (s : State) (h : (∃ g ∈ l, galleryKey g k = true) ∨ s.reg k = regDefault k) :
    (l.foldl (fun u g => u.galleryRegs g) s).reg k = regDefault k := by
  induction l generalizing s with
  | nil => exact h.resolve_left fun ⟨g, hg, _⟩ => absurd hg List.not_mem_nil
  | cons a l ih =>
    refine ih _ ?_
    rw [State.galleryRegs_reg]
    by_cases ha : galleryKey a k = true
    · exact .inr (if_pos ha)
    · rw [if_neg ha]
      refine h.imp_left fun ⟨g, hg, hk⟩ => ?_
      rcases List.mem_cons.1 hg with rfl | hg
      · exact absurd hk ha
      · exact ⟨g, hg, hk⟩

/-- The answer to RST_GALLERY. -/
def State.galleryStatus (s : State) (st : Nat) : State := s.setFld Reg.RST_GALLERY 7 0 st

theorem State.galleryStatus_framed (s : State) (st : Nat) : framed [.regs] [Reg.RST_GALLERY] s (s.galleryStatus st) := s.setFld_framed _ _ _ _

theorem State.galleryStatus_shows (s : State) {st : Nat} (h : st < 256) : (s.galleryStatus st).fld Reg.RST_GALLERY 7 0 = st :=
  (State.fld_setFld _ _ 7 0 _ (by decide) (by decide)).trans (Nat.mod_eq_of_lt h)

theorem rstGallery_refused {mask : BitVec 8} (h : ∃ g ∈ galsOf mask.toNat, s.galFenced g = false ∧ s.galParked g = false) :
    exec (.rstGallery mask) s = keep s (s.galleryStatus St.busy) := by
  refine congrArg (keep s) (if_pos ?_)
  obtain ⟨g, hg, hfence, hpark⟩ := h
  exact List.any_eq_true.2 ⟨g, hg, by rw [hfence, hpark]; rfl⟩

/-- The galleries of a mask reset. -/
def State.galleriesReset (s : State) (l : List Nat) : State := l.foldl (fun u g => u.galleryRegs g) s

theorem rstGallery_ok {mask : BitVec 8} (h : ∀ g ∈ galsOf mask.toNat, s.galFenced g = true ∨ s.galParked g = true) :
    exec (.rstGallery mask) s = keep s ((s.galleriesReset (galsOf mask.toNat)).galleryStatus St.ok) := by
  refine congrArg (keep s) (if_neg ?_)
  rw [List.any_eq_true]
  rintro ⟨g, hg, hin⟩
  rw [Bool.and_eq_true, Bool.not_eq_true', Bool.not_eq_true'] at hin
  rcases h g hg with hf | hp
  · exact absurd hf (by rw [hin.1]; decide)
  · exact absurd hp (by rw [hin.2]; decide)

theorem State.galleriesReset_changes (s : State) (l : List Nat) : changesOnly [.regs, .cal] s (s.galleriesReset l) :=
  .foldl _ _ (fun v g => v.galleryRegs_changes g) s

/-! ### The end of P3 -/

theorem State.wakeP3_changes (h : s.fld Reg.PWR_STATE 31 29 = 3) :
    changesOnly ([.running, .tickCount, .trust, .pw, .jtag, .lex, .lexCopies, .reqs, .insts, .stems] ++ eventParts) s s.wakeP3 :=
  (s.wakeChecked_framed.1.widen (by simp +contextual [checkParts, keysParts])).seq (State.wakeP3_of_checked h).1 (by simp +contextual)

theorem State.wakeChecked_fails (hk : k < 2) (hused : (s.stemAt k).state ≠ 0)
    (h : ∃ q ∈ s.faults.poison, ∃ slot proj, q.kind = .stemShard slot proj ∧ slot.toNat = k) : (s.wakeChecked.stemAt k).state = 6 := by
  have hfaults : s.wakeKeys.faults = s.faults := s.wakeKeys_framed.1 .faults (by decide)
  have hstem : s.wakeKeys.stemAt k = s.stemAt k := State.stemAt_of (s.wakeKeys_framed.1 .stems (by decide)) k
  unfold State.wakeChecked
  rw [State.wakeStems_eq, hfaults]
  exact foldl_wakeStemOf_fails _ _ hk (by rw [hstem]; exact hused) (.inr h)

theorem State.wakeChecked_stems (h : s.faults.poison = []) : s.wakeChecked.ls.stems = s.ls.stems := by
  have hfaults : s.wakeKeys.faults = s.faults := s.wakeKeys_framed.1 .faults (by decide)
  have hstems : s.wakeKeys.ls.stems = s.ls.stems := s.wakeKeys_framed.1 .stems (by decide)
  unfold State.wakeChecked
  rw [State.wakeStems_eq, hfaults, h]
  exact hstems

@[simp] theorem State.ranOn_trust (s t : State) : (s.ranOn t).trust = t.trust := rfl

@[simp] theorem State.ranOn_ls (s t : State) : (s.ranOn t).ls = t.ls := rfl

@[simp] theorem State.ranOn_stemAt (s t : State) (k : Nat) : (s.ranOn t).stemAt k = t.stemAt k := rfl

/-- Settles O53: requests by the status that they show and what then waits, and the end of P3 by what it finds. -/
theorem powerStatesRequested : Obligations.PowerStatesRequested := by
  intro mask gal s m gs answered ctrl refused accepted
  have hrefuse : ∀ {c : Instr}, exec c s = keep s (s.stateStatus St.busy) → refused c St.busy := fun h =>
    ⟨_, h, (s.stateStatus_refused (by decide)).kept⟩
  have haccept : ∀ {c : Instr} {p : Power}, exec c s = keep s ((s.stateStatus St.ok).withPw p) → accepted c p := fun h =>
    ⟨_, h, (s.stateStatus_accepted _).kept⟩
  refine ⟨fun h => haccept (congrArg (keep s) (State.writePark_ok h)), fun h => hrefuse (congrArg (keep s) (State.writePark_busy h)),
    haccept (congrArg (keep s) (s.writeUnpark_eq m)), fun fails h => ⟨_, unparkComplete_waits gal fails h, rfl, (s.withPw_framed _).kept⟩,
    fun fails h => unparkComplete_idle gal fails h, fun h => hrefuse (congrArg (keep s) (State.writeP3_busy h)),
    fun hoff hr h => haccept (congrArg (keep s) (State.writeP3_ok hoff hr h)), fun h => State.stop_none (congrArg (stopOutcome s) (State.writeP4_off h)),
    fun hoff h => ⟨_, congrArg (stopOutcome s) (State.writeP4_busy hoff h), (s.stateStatus_refused (by decide)).stopped⟩,
    fun hoff h hr => ⟨_, congrArg (stopOutcome s) (State.writeP4_ok hoff h hr), (s.stateStatus_accepted _).stopped⟩, fun h3 h hr => ?_, fun h => ?_,
    fun h => ?_, fun h => ?_, fun h => ?_⟩
  · obtain ⟨hstate, halert, hhbm, hhost, hflash⟩ := s.enterP4_entered.stopped
    exact ⟨_, congrArg (stopOutcome s) (State.writeP4_now h3 h hr), hstate, halert, hhbm, hhost, hflash, rfl⟩
  · exact ⟨_, rstGallery_refused h, s.galleryStatus_shows (by decide), (s.galleryStatus_framed _).kept⟩
  · refine ⟨_, rstGallery_ok h, State.galleryStatus_shows _ (by decide),
      (((s.galleriesReset_changes gs)).seq (State.galleryStatus_framed ..).1).kept, fun g hg k hlo hhi r hr hd => ?_⟩
    have hne : k ≠ Reg.RST_GALLERY := by
      unfold Reg.RST_GALLERY
      omega
    rw [State.kept_reg, (State.galleryStatus_framed ..).reg (by simpa using hne)]
    exact foldl_galleryRegs_reg gs s (.inl ⟨g, hg, galleryKey_of hlo hhi hr hd⟩)
  · exact congrArg (keepRun s) (if_pos h)
  · obtain ⟨hrun, hcount, hhall, hrefresh, hstate, htrust, hstems⟩ := State.wakeP3_woken h
    refine ⟨_, keepRun_eq s s.wakeP3, ?_, ?_, ?_, ?_, ?_, ?_, fun hopen c hnow hcfg hown => ?_, fun hnone => ?_, fun k hk hused hq => ?_, fun hclean => ?_,
      (State.wakeP3_changes h).ranOn⟩
    · rw [State.ranOn_tk, hrun]
    · rw [State.ranOn_tk, hcount]
    · rw [State.ranOn_pw, hhall]
    · rw [State.ranOn_pw, hrefresh]
    · rw [State.ranOn_fld, hstate]
      rfl
    · rw [State.ranOn_trust, htrust]
    · rw [State.ranOn_trust, htrust]
      exact State.wakeKeys_unsealed hopen hnow hcfg hown
    · rw [State.ranOn_trust, htrust]
      exact State.wakeKeys_none hnone
    · rw [State.ranOn_stemAt, State.stemAt_of hstems]
      exact State.wakeChecked_fails hk hused hq
    · rw [State.ranOn_ls, hstems]
      exact State.wakeChecked_stems hclean


end Sys2Proof.Machine
end

section
/-! SUPPORT. Feeds: what a feed's entry into a state shows and switches (R435 to R441, Table 16-2). -/

namespace Sys2Proof.Machine

set_option Elab.async false

variable {s t u w : State} {ps : List Part} {ks : List Nat} {x y st v : Nat}

/-! ### What shows the feeds -/

/-- The voltage shown of a feed. -/
def State.feedVolt (s : State) (x : Nat) : Nat := if x = 0 then s.fld Reg.PWR_FEED_STATUS 23 12 else s.fld Reg.PWR_FEED_STATUS 11 0

/-- The count of switch-overs. -/
def State.feedCount (s : State) : Nat := s.fld Reg.PWR_FEED_COUNT 31 16

/-- The registers that a feed's entry may change. -/
def feedRegs : List Nat := Reg.PWR_FEED_STATUS :: Reg.PWR_FEED_COUNT :: eventRegs

theorem State.feedState_of (h : t.reg Reg.PWR_FEED_STATUS = s.reg Reg.PWR_FEED_STATUS) (y : Nat) : t.feedState y = s.feedState y := by
  unfold State.feedState State.fld
  rw [h]

theorem State.feedVolt_of (h : t.reg Reg.PWR_FEED_STATUS = s.reg Reg.PWR_FEED_STATUS) (y : Nat) : t.feedVolt y = s.feedVolt y := by
  unfold State.feedVolt State.fld
  rw [h]

theorem State.feedActive_of (h : t.reg Reg.PWR_FEED_STATUS = s.reg Reg.PWR_FEED_STATUS) : t.feedActive = s.feedActive := by
  unfold State.feedActive State.fld
  rw [h]

/-! ### A feed's state and voltage shown -/

theorem State.setFeed_framed (s : State) (x st v : Nat) : framed [.regs] [Reg.PWR_FEED_STATUS] s (s.setFeed x st v) :=
  .ite (fun _ => (s.setFld_framed ..).seq (State.setFld_framed ..)) fun _ => (s.setFld_framed ..).seq (State.setFld_framed ..)

theorem State.setFeed_zero (s : State) (st v : Nat) :
    s.setFeed 0 st v = (s.setFld Reg.PWR_FEED_STATUS 29 27 st).setFld Reg.PWR_FEED_STATUS 23 12 v := if_pos rfl

theorem State.setFeed_one (s : State) (st v : Nat) :
    s.setFeed 1 st v = (s.setFld Reg.PWR_FEED_STATUS 26 24 st).setFld Reg.PWR_FEED_STATUS 11 0 v := if_neg Nat.one_ne_zero

theorem State.feedState_zero (s : State) : s.feedState 0 = s.fld Reg.PWR_FEED_STATUS 29 27 := if_pos rfl

theorem State.feedState_one (s : State) : s.feedState 1 = s.fld Reg.PWR_FEED_STATUS 26 24 := if_neg Nat.one_ne_zero

theorem State.feedVolt_zero (s : State) : s.feedVolt 0 = s.fld Reg.PWR_FEED_STATUS 23 12 := if_pos rfl

theorem State.feedVolt_one (s : State) : s.feedVolt 1 = s.fld Reg.PWR_FEED_STATUS 11 0 := if_neg Nat.one_ne_zero

theorem State.setFeed_state (s : State) (hx : x < 2) (hst : st < 8) (v : Nat) : (s.setFeed x st v).feedState x = st := by
  obtain rfl | rfl : x = 0 ∨ x = 1 := by omega
  · rw [State.setFeed_zero, State.feedState_zero, State.fld_setFld_ne _ _ 23 12 _ 29 27 (by decide) (by decide) (by decide),
      State.fld_setFld _ _ 29 27 _ (by decide) (by decide)]
    exact Nat.mod_eq_of_lt hst
  · rw [State.setFeed_one, State.feedState_one, State.fld_setFld_ne _ _ 11 0 _ 26 24 (by decide) (by decide) (by decide),
      State.fld_setFld _ _ 26 24 _ (by decide) (by decide)]
    exact Nat.mod_eq_of_lt hst

theorem State.setFeed_volt (s : State) (hx : x < 2) (hv : v < 4096) (st : Nat) : (s.setFeed x st v).feedVolt x = v := by
  obtain rfl | rfl : x = 0 ∨ x = 1 := by omega
  · rw [State.setFeed_zero, State.feedVolt_zero, State.fld_setFld _ _ 23 12 _ (by decide) (by decide)]
    exact Nat.mod_eq_of_lt hv
  · rw [State.setFeed_one, State.feedVolt_one, State.fld_setFld _ _ 11 0 _ (by decide) (by decide)]
    exact Nat.mod_eq_of_lt hv

theorem State.setFeed_other (s : State) (hx : x < 2) (st v : Nat) : (s.setFeed x st v).feedState (1 - x) = s.feedState (1 - x) := by
  obtain rfl | rfl : x = 0 ∨ x = 1 := by omega
  · rw [Nat.sub_zero, State.setFeed_zero, State.feedState_one, State.feedState_one,
      State.fld_setFld_ne _ _ 23 12 _ 26 24 (by decide) (by decide) (by decide),
      State.fld_setFld_ne _ _ 29 27 _ 26 24 (by decide) (by decide) (by decide)]
  · rw [Nat.sub_self, State.setFeed_one, State.feedState_zero, State.feedState_zero,
      State.fld_setFld_ne _ _ 11 0 _ 29 27 (by decide) (by decide) (by decide),
      State.fld_setFld_ne _ _ 26 24 _ 29 27 (by decide) (by decide) (by decide)]

theorem State.setFeed_active (s : State) (hx : x < 2) (st v : Nat) : (s.setFeed x st v).feedActive = s.feedActive := by
  unfold State.feedActive
  obtain rfl | rfl : x = 0 ∨ x = 1 := by omega
  · rw [State.setFeed_zero, State.fld_setFld_ne _ _ 23 12 _ 31 30 (by decide) (by decide) (by decide),
      State.fld_setFld_ne _ _ 29 27 _ 31 30 (by decide) (by decide) (by decide)]
  · rw [State.setFeed_one, State.fld_setFld_ne _ _ 11 0 _ 31 30 (by decide) (by decide) (by decide),
      State.fld_setFld_ne _ _ 26 24 _ 31 30 (by decide) (by decide) (by decide)]

/-! ### A feed's entry -/

/-- A feed shown in a state at a voltage, and nothing else changed but what an entry may change. -/
def feedShown (x st v : Nat) (s t : State) : Prop := t.feedState x = st ∧ t.feedState (1 - x) = s.feedState (1 - x) ∧ t.feedVolt x = v
  ∧ framed (.pw :: eventParts) feedRegs s t

theorem feedShown.kept (h : feedShown x st v s t) : feedShown x st v s (s.kept t) := ⟨h.1, h.2.1, h.2.2.1, h.2.2.2.kept⟩

/-- Steps that leave every feed's state and voltage. -/
def feedsKept (s t : State) : Prop := (∀ y, t.feedState y = s.feedState y) ∧ (∀ y, t.feedVolt y = s.feedVolt y)
  ∧ framed (.pw :: eventParts) feedRegs s t

theorem feedsKept.refl : feedsKept s s := ⟨fun _ => rfl, fun _ => rfl, .refl⟩

theorem feedsKept.trans (h : feedsKept s t) (g : feedsKept t u) : feedsKept s u :=
  ⟨fun y => (g.1 y).trans (h.1 y), fun y => (g.2.1 y).trans (h.2.1 y), h.2.2.trans g.2.2⟩

theorem feedShown.step (h : feedShown x st v s t) (g : feedsKept t u) : feedShown x st v s u :=
  ⟨(g.1 _).trans h.1, (g.1 _).trans h.2.1, (g.2.1 _).trans h.2.2.1, h.2.2.2.trans g.2.2⟩

theorem feedsKept.of_framed (h : framed ps ks s t) (hp : ∀ p ∈ ps, p ∈ Part.pw :: eventParts) (hk : ∀ k ∈ ks, k ∈ feedRegs)
    (hs : Reg.PWR_FEED_STATUS ∉ ks) : feedsKept s t :=
  ⟨fun y => State.feedState_of (h.reg hs) y, fun y => State.feedVolt_of (h.reg hs) y, h.mono hp hk⟩

/-- What an entry leaves until a switch acts: events, the active feed, the count, the loss timer and the cap. -/
def feedQuiet (s t : State) : Prop := t.events = s.events ∧ t.feedActive = s.feedActive ∧ t.feedCount = s.feedCount
  ∧ t.pw.lossTimer = s.pw.lossTimer ∧ t.tk.now = s.tk.now

theorem State.enterFeed_eq (s : State) (x st v : Nat) : s.enterFeed x st v =
    if x = 0 ∧ st ≠ 3 then (s.setFeed x st v).withPw { (s.setFeed x st v).pw with returnDue := false } else s.setFeed x st v := rfl

theorem State.enterFeed_entered (s : State) (hx : x < 2) (hst : st < 8) (hv : v < 4096) :
    feedShown x st v s (s.enterFeed x st v) ∧ feedQuiet s (s.enterFeed x st v) := by
  have hset := s.setFeed_framed x st v
  have hshown : feedShown x st v s (s.setFeed x st v) := ⟨s.setFeed_state hx hst v, s.setFeed_other hx st v, s.setFeed_volt hx hv st,
    hset.mono (by simp [eventParts]) (by simp [feedRegs])⟩
  have hpw : (s.setFeed x st v).pw = s.pw := hset.1 .pw (by decide)
  have hevents : (s.setFeed x st v).events = s.events := hset.1 .events (by decide)
  have hnow : (s.setFeed x st v).tk.now = s.tk.now := hset.1 .now (by decide)
  have hcount : (s.setFeed x st v).feedCount = s.feedCount := hset.fld (by decide)
  have hactive := s.setFeed_active hx st v
  rw [State.enterFeed_eq]
  split
  · refine ⟨hshown.step (.of_framed (State.withPw_framed ..) (by simp) (by simp) (by simp)), hevents, hactive, hcount, ?_, hnow⟩
    show (s.setFeed x st v).pw.lossTimer = s.pw.lossTimer
    rw [hpw]
  · exact ⟨hshown, hevents, hactive, hcount, by rw [hpw], hnow⟩

/-! ### Events of feeds -/

theorem State.feedEvent_framed (s : State) (code : Nat) (payload : List Nat) : framed eventParts eventRegs s (s.feedEvent code payload) :=
  (s.raisePf_framed _ _).seq (State.bbxPut_framed ..) (by simp [eventParts]) (fun _ h => h)

theorem State.feedEvent_events (s : State) (code : Nat) (payload : List Nat) :
    (s.feedEvent code payload).events = s.events ++ [⟨code, none, payload.map wordOf, []⟩] := by
  unfold State.feedEvent
  rw [State.bbxPut_events, State.raisePf_events]

theorem State.feedEvent_kept (s : State) (code : Nat) (payload : List Nat) : feedsKept s (s.feedEvent code payload) :=
  .of_framed (s.feedEvent_framed _ _) (by simp +contextual) (by simp +contextual [feedRegs]) (by decide)

theorem State.feedEvent_active (s : State) (code : Nat) (payload : List Nat) : (s.feedEvent code payload).feedActive = s.feedActive :=
  State.feedActive_of ((s.feedEvent_framed _ _).reg (by decide))

theorem State.feedEvent_count (s : State) (code : Nat) (payload : List Nat) : (s.feedEvent code payload).feedCount = s.feedCount :=
  (s.feedEvent_framed _ _).fld (by decide)

theorem State.feedEvent_pw (s : State) (code : Nat) (payload : List Nat) : (s.feedEvent code payload).pw = s.pw :=
  (s.feedEvent_framed _ _).1 .pw (by decide)

theorem State.feedEvent_now (s : State) (code : Nat) (payload : List Nat) : (s.feedEvent code payload).tk.now = s.tk.now :=
  (s.feedEvent_framed _ _).1 .now (by decide)

/-! ### Switches -/

/-- The active feed shown. -/
def State.activeShown (s : State) (x : Nat) : State := s.setFld Reg.PWR_FEED_STATUS 31 30 x

theorem State.activeShown_framed (s : State) (x : Nat) : framed [.regs] [Reg.PWR_FEED_STATUS] s (s.activeShown x) := s.setFld_framed _ _ _ _

theorem State.activeShown_kept (s : State) (x : Nat) : feedsKept s (s.activeShown x) := by
  have hsame : ∀ {a b : Nat}, a < 30 → (s.activeShown x).fld Reg.PWR_FEED_STATUS a b = s.fld Reg.PWR_FEED_STATUS a b := fun ha =>
    State.fld_setFld_ne _ _ 31 30 _ _ _ (by decide) (by decide) (.inr ha)
  refine ⟨fun y => ?_, fun y => ?_, (s.activeShown_framed x).mono (by simp [eventParts]) (by simp [feedRegs])⟩
  · unfold State.feedState
    rw [hsame (by decide), hsame (by decide)]
  · unfold State.feedVolt
    rw [hsame (by decide), hsame (by decide)]

theorem State.activeShown_active (s : State) (hx : x < 4) : (s.activeShown x).feedActive = x :=
  (State.fld_setFld _ _ 31 30 _ (by decide) (by decide)).trans (Nat.mod_eq_of_lt hx)

theorem State.closeFeed_eq (s : State) (x : Nat) :
    s.closeFeed x = (s.activeShown x).withPw { s.pw with switchA := x == 0, switchB := x == 1 } := rfl

theorem State.closeFeed_kept (s : State) (x : Nat) : feedsKept s (s.closeFeed x) := by
  rw [State.closeFeed_eq]
  exact (s.activeShown_kept x).trans (.of_framed (State.withPw_framed ..) (by simp) (by simp) (by simp))

/-- The active feed set beside its register. -/
theorem State.closeFeed_framed (s : State) (x : Nat) : framed [.pw] [] (s.activeShown x) (s.closeFeed x) := by
  rw [State.closeFeed_eq]
  exact State.withPw_framed ..

theorem State.closeFeed_active (s : State) (hx : x < 4) : (s.closeFeed x).feedActive = x :=
  (State.feedActive_of ((s.closeFeed_framed x).reg List.not_mem_nil)).trans (s.activeShown_active hx)

theorem State.closeFeed_events (s : State) (x : Nat) : (s.closeFeed x).events = s.events := by
  rw [(s.closeFeed_framed x).1 .events (by decide), (s.activeShown_framed x).1 .events (by decide)]

theorem State.withPw_pw (s : State) (q) : (s.withPw q).pw = q := rfl

theorem State.closeFeed_pw (s : State) (x : Nat) : (s.closeFeed x).pw = { s.pw with switchA := x == 0, switchB := x == 1 } := by
  rw [State.closeFeed_eq, State.withPw_pw]

theorem State.closeFeed_count (s : State) (x : Nat) : (s.closeFeed x).feedCount = s.feedCount := by
  unfold State.feedCount
  rw [(s.closeFeed_framed x).fld List.not_mem_nil, (s.activeShown_framed x).fld (by decide)]

theorem State.switchFeed_framed (s : State) (x : Nat) : framed [.regs] [Reg.PWR_FEED_COUNT] (s.closeFeed x) (s.switchFeed x) := State.count_framed ..

theorem State.switchFeed_kept (s : State) (x : Nat) : feedsKept s (s.switchFeed x) :=
  (s.closeFeed_kept x).trans (.of_framed (s.switchFeed_framed x) (by simp [eventParts]) (by simp [feedRegs]) (by decide))

theorem State.switchFeed_active (s : State) (hx : x < 4) : (s.switchFeed x).feedActive = x :=
  (State.feedActive_of ((s.switchFeed_framed x).reg (by decide))).trans (s.closeFeed_active hx)

theorem State.switchFeed_events (s : State) (x : Nat) : (s.switchFeed x).events = s.events := by
  rw [(s.switchFeed_framed x).1 .events (by decide), State.closeFeed_events]

theorem State.switchFeed_pw (s : State) (x : Nat) : (s.switchFeed x).pw = { s.pw with switchA := x == 0, switchB := x == 1 } := by
  rw [(s.switchFeed_framed x).1 .pw (by decide), State.closeFeed_pw]

theorem State.switchFeed_count (s : State) (x : Nat) : (s.switchFeed x).feedCount = satAdd 16 s.feedCount 1 := by
  have hcount : (s.switchFeed x).feedCount = satAdd 16 (s.closeFeed x).feedCount 1 % 2 ^ 16 :=
    State.fld_setFld _ _ 31 16 _ (by decide) (by decide)
  rw [hcount, State.closeFeed_count]
  exact Nat.mod_eq_of_lt (lt_of_le_of_lt (Nat.min_le_right _ _) (by decide))

end Sys2Proof.Machine
end

section
/-! SUPPORT. The loss timer, the feed-warning cap, and what each feed command does (R437 to R441, Table 16-2). -/

namespace Sys2Proof.Machine

set_option Elab.async false

variable {s t u w : State} {ps : List Part} {ks : List Nat} {x y st v code : Nat} {payload : List Nat}

/-! ### The loss timer -/

/-- The loss timer started with the switch of every feed that is not REJECTED closed (R441). -/
def State.lossStarted (s : State) : State :=
  s.withPw { s.pw with lossTimer := true, switchA := s.feedState 0 != 4, switchB := s.feedState 1 != 4 }

theorem State.feedGood_either (hx : x < 2) : (s.feedGood 0 || s.feedGood 1) = (s.feedGood x || s.feedGood (1 - x)) := by
  obtain rfl | rfl : x = 0 ∨ x = 1 := by omega
  · rfl
  · exact Bool.or_comm _ _

theorem State.feedGood_iff : s.feedGood x = true ↔ s.feedState x = 3 ∨ s.feedState x = 2 := by
  unfold State.feedGood
  rw [Bool.or_eq_true, beq_iff_eq, beq_iff_eq]

theorem State.lossStep_good (hx : x < 2) (hl : s.pw.lossTimer = false) (hg : s.feedGood x = true ∨ s.feedGood (1 - x) = true) (y : Nat) :
    s.lossStep y = s := by
  have hsome : (s.feedGood 0 || s.feedGood 1) = true := by
    rw [State.feedGood_either hx, Bool.or_eq_true]
    exact hg
  exact (if_pos hsome).trans (if_neg (by rw [hl]; decide))

theorem State.lossStep_none (hx : x < 2) (hg : s.feedGood x = false) (ho : s.feedGood (1 - x) = false) (y : Nat) : s.lossStep y = s.lossStarted := by
  have hnone : (s.feedGood 0 || s.feedGood 1) = false := by rw [State.feedGood_either hx, hg, ho]; rfl
  exact if_neg (by rw [hnone]; decide)

theorem State.lossStep_ends (hx : x < 2) (hl : s.pw.lossTimer = true) (hg : s.feedGood x = true) :
    s.lossStep x = (s.withPw { s.pw with lossTimer := false }).closeFeed x := by
  have hsome : (s.feedGood 0 || s.feedGood 1) = true := by rw [State.feedGood_either hx, hg]; rfl
  exact (if_pos hsome).trans ((if_pos hl).trans (if_pos hg))

theorem State.lossStarted_framed (s : State) : framed [.pw] [] s s.lossStarted := s.withPw_framed _

/-- Steps that change the power side alone. -/
theorem feedsKept.of_pw (h : framed [.pw] [] s t) : feedsKept s t := .of_framed h (by simp) (by simp) (by simp)

theorem State.lossStarted_pw (s : State) :
    s.lossStarted.pw = { s.pw with lossTimer := true, switchA := s.feedState 0 != 4, switchB := s.feedState 1 != 4 } := s.withPw_pw _

/-! ### The feed-warning cap -/

/-- The power side with the cap asked for. -/
def Power.asksCap (p : Power) (now : Nat) : Power := if p.warnCap.isSome then { p with warnCap := some now } else { p with warnReq := true }

theorem State.askCap_eq (s : State) : s.askCap = s.withPw (s.pw.asksCap s.tk.now) := rfl

theorem State.askCap_framed (s : State) : framed [.pw] [] s s.askCap := by
  rw [State.askCap_eq]
  exact s.withPw_framed _

theorem State.askCap_asked (s : State) : s.askCap.pw.warnReq = true ∨ s.askCap.pw.warnCap = some s.tk.now := by
  rw [State.askCap_eq, State.withPw_pw]
  unfold Power.asksCap
  split
  · exact .inr rfl
  · exact .inl rfl

theorem State.keepCap_framed (s : State) : framed [.pw] [] s s.keepCap := .ite (fun _ => .refl) fun _ => s.askCap_framed

theorem State.keepCap_capped (s : State) : s.keepCap.pw.warnReq = true ∨ s.keepCap.pw.warnCap.isSome = true := by
  unfold State.keepCap
  split
  · exact .inr ‹_›
  · exact s.askCap_asked.imp_right fun h => by rw [h]; rfl

theorem State.keepCap_switches (s : State) : s.keepCap.pw.switchA = s.pw.switchA ∧ s.keepCap.pw.switchB = s.pw.switchB
    ∧ s.keepCap.pw.lossTimer = s.pw.lossTimer := by
  unfold State.keepCap
  split
  · exact ⟨rfl, rfl, rfl⟩
  · rw [State.askCap_eq, State.withPw_pw]
    unfold Power.asksCap
    split <;> exact ⟨rfl, rfl, rfl⟩

/-! ### What an entry tells and switches -/

/-- One event more, with a feed's payload. -/
def feedTold (code : Nat) (payload : List Nat) (s t : State) : Prop := t.events = s.events ++ [⟨code, none, payload.map wordOf, []⟩]

/-- The active feed and the count stay. -/
def feedStays (s t : State) : Prop := t.feedActive = s.feedActive ∧ t.feedCount = s.feedCount

/-- The other feed is the active one, counted. -/
def feedSwitched (y : Nat) (s t : State) : Prop := t.feedActive = y ∧ t.pw.switchA = (y == 0) ∧ t.pw.switchB = (y == 1)
  ∧ t.feedCount = satAdd 16 s.feedCount 1

theorem feedTold.of (h : t.events = u.events) (g : feedTold code payload s u) : feedTold code payload s t := h.trans g

theorem State.feedActive_framed (h : framed ps ks s t) (hk : Reg.PWR_FEED_STATUS ∉ ks) : t.feedActive = s.feedActive := State.feedActive_of (h.reg hk)

theorem State.feedCount_framed (h : framed ps ks s t) (hk : Reg.PWR_FEED_COUNT ∉ ks) : t.feedCount = s.feedCount := h.fld hk

/-- A step that changes the power side alone tells nothing and leaves the active feed and the count. -/
theorem framed.pw_quiet (h : framed [.pw] [] s t) : t.events = s.events ∧ t.feedActive = s.feedActive ∧ t.feedCount = s.feedCount :=
  ⟨h.1 .events (by decide), State.feedActive_framed h List.not_mem_nil, State.feedCount_framed h List.not_mem_nil⟩

/-- The event of a feed that does not switch. -/
theorem State.feedEvent_tells (s : State) (code : Nat) (payload : List Nat) :
    feedTold code payload s (s.feedEvent code payload) ∧ feedStays s (s.feedEvent code payload) :=
  ⟨s.feedEvent_events code payload, s.feedEvent_active code payload, s.feedEvent_count code payload⟩

/-- A switch-over with its event. -/
def State.switchTold (s : State) (y code : Nat) (payload : List Nat) : State := (s.switchFeed y).feedEvent code payload

theorem State.switchTold_kept (s : State) (y code : Nat) (payload : List Nat) : feedsKept s (s.switchTold y code payload) :=
  (s.switchFeed_kept y).trans (State.feedEvent_kept _ _ _)

theorem State.switchTold_pw (s : State) (y code : Nat) (payload : List Nat) :
    (s.switchTold y code payload).pw = { s.pw with switchA := y == 0, switchB := y == 1 } := by
  unfold State.switchTold
  rw [State.feedEvent_pw, State.switchFeed_pw]

theorem State.switchTold_switches (s : State) (hy : y < 2) (code : Nat) (payload : List Nat) :
    feedTold code payload s (s.switchTold y code payload) ∧ feedSwitched y s (s.switchTold y code payload) := by
  refine ⟨?_, ?_, ?_, ?_, ?_⟩
  · unfold feedTold State.switchTold
    rw [State.feedEvent_events, State.switchFeed_events]
  · unfold State.switchTold
    rw [State.feedEvent_active, s.switchFeed_active (by omega)]
  · rw [State.switchTold_pw]
  · rw [State.switchTold_pw]
  · unfold State.switchTold
    rw [State.feedEvent_count, State.switchFeed_count]

/-! ### An entry taken, or not -/

theorem State.feedEntry_open (h4 : s.feedState x ≠ 4) (hst : s.feedFor x v = st) (t : State) : s.feedEntry x st v t = t :=
  if_neg fun h => h.elim h4 fun hne => hne hst

theorem State.feedEntry_shut (h : s.feedState x = 4 ∨ s.feedFor x v ≠ st) (t : State) : s.feedEntry x st v t = s := if_pos h

theorem State.idleFalls_kept (s : State) (x old st v : Nat) : feedsKept s (s.idleFalls x old st v) := by
  unfold State.idleFalls
  split
  · exact s.feedEvent_kept _ _
  · exact .refl

/-- What a feed that is not active tells of its fall. -/
def feedFell (x old st v : Nat) (s t : State) : Prop := if st < old then feedTold 0x8001 [x, st, v] s t else t.events = s.events

theorem State.idleFalls_fell (s : State) (x old st v : Nat) :
    feedFell x old st v s (s.idleFalls x old st v) ∧ feedStays s (s.idleFalls x old st v) ∧ (s.idleFalls x old st v).pw = s.pw := by
  unfold feedFell State.idleFalls
  split
  · exact ⟨s.feedEvent_events _ _, (s.feedEvent_tells _ _).2, s.feedEvent_pw _ _⟩
  · exact ⟨rfl, ⟨rfl, rfl⟩, rfl⟩

end Sys2Proof.Machine
end

section
/-! SUPPORT. The feed commands case by case, and O54. -/

namespace Sys2Proof.Machine

set_option Elab.async false

variable {s t u e : State} {ps : List Part} {ks : List Nat} {x y st v old code : Nat} {payload : List Nat}

/-! ### What a quiet entry leaves to say -/

theorem feedTold.after (hq : feedQuiet s e) (h : feedTold code payload e t) : feedTold code payload s t := by
  unfold feedTold at *
  rw [h, hq.1]

theorem feedStays.after (hq : feedQuiet s e) (h : feedStays e t) : feedStays s t := ⟨h.1.trans hq.2.1, h.2.trans hq.2.2.1⟩

theorem feedSwitched.after (hq : feedQuiet s e) (h : feedSwitched y e t) : feedSwitched y s t :=
  ⟨h.1, h.2.1, h.2.2.1, h.2.2.2.trans (congrArg (satAdd 16 · 1) hq.2.2.1)⟩

theorem feedFell.after (hq : feedQuiet s e) (h : feedFell x old st v e t) : feedFell x old st v s t := by
  unfold feedFell at *
  split
  · exact .after hq ((if_pos ‹_›).mp h)
  · exact ((if_neg ‹_›).mp h).trans hq.1

theorem feedTold.kept (h : feedTold code payload s t) : feedTold code payload s (s.kept t) := h

theorem feedStays.kept (h : feedStays s t) : feedStays s (s.kept t) := h

theorem feedSwitched.kept (h : feedSwitched y s t) : feedSwitched y s (s.kept t) := h

theorem feedFell.kept (h : feedFell x old st v s t) : feedFell x old st v s (s.kept t) := h

theorem feedStays.quiet (h : feedStays s t) (g : framed [.pw] [] t u) : feedStays s u := ⟨g.pw_quiet.2.1.trans h.1, g.pw_quiet.2.2.trans h.2⟩

theorem feedFell.quiet (h : feedFell x old st v s t) (g : t.events = u.events) : feedFell x old st v s u := by
  unfold feedFell feedTold at *
  rw [← g]
  exact h

theorem feedsKept.good (h : feedsKept s t) (y : Nat) : t.feedGood y = s.feedGood y := by
  unfold State.feedGood
  rw [h.1 y]

/-- The loss timer after its step where it did not run: the power side alone may change, and the timer runs where no feed is good. -/
theorem State.lossStep_steps (hx : x < 2) (hl : s.pw.lossTimer = false) (y : Nat) : framed [.pw] [] s (s.lossStep y)
    ∧ (s.lossStep y).pw.lossTimer = !(s.feedGood x || s.feedGood (1 - x)) := by
  cases hg : (s.feedGood x || s.feedGood (1 - x)) with
  | true =>
    rw [State.lossStep_good hx hl ((Bool.or_eq_true ..).mp hg)]
    exact ⟨.refl, hl⟩
  | false =>
    obtain ⟨hgx, hgo⟩ := (Bool.or_eq_false_iff ..).mp hg
    rw [State.lossStep_none hx hgx hgo]
    exact ⟨s.lossStarted_framed, by rw [State.lossStarted_pw]; rfl⟩

/-! ### The active feed's fall -/

theorem State.activeFalls_ok (h : s.feedState (1 - x) = 3) (st v : Nat) :
    s.activeFalls x st v = s.switchTold (1 - x) 0x8002 [x, 1 - x, if st = 2 then 0 else 1] := if_pos h

theorem State.activeFalls_warn (h : s.feedState (1 - x) ≠ 3) (v : Nat) : s.activeFalls x 2 v = (s.feedEvent 0x8001 [x, 2, v]).askCap :=
  (if_neg h).trans (if_pos rfl)

theorem State.activeFalls_second (h : s.feedState (1 - x) = 2) (hst : st < 2) (v : Nat) :
    s.activeFalls x st v = (s.switchTold (1 - x) 0x8002 [x, 1 - x, 1]).keepCap := by
  have hne : ¬st = 2 := by omega
  have hcause : (if st = 2 then 0 else 1) = 1 := if_neg hne
  refine (if_neg (by rw [h]; decide)).trans ((if_neg hne).trans ((if_pos h).trans ?_))
  unfold State.switchTold
  rw [hcause]

theorem State.activeFalls_last (h : s.feedGood (1 - x) = false) (hst : st < 2) (v : Nat) :
    s.activeFalls x st v = s.feedEvent 0x8001 [x, st, v] := by
  have hne : ¬st = 2 := by omega
  have h3 : ¬s.feedState (1 - x) = 3 := fun h3 => by rw [State.feedGood_iff.2 (.inl h3)] at h; exact absurd h (by decide)
  have h2 : ¬s.feedState (1 - x) = 2 := fun h2 => by rw [State.feedGood_iff.2 (.inr h2)] at h; exact absurd h (by decide)
  exact (if_neg h3).trans ((if_neg hne).trans (if_neg h2))

/-- The fall to LOW or below, with the loss timer's step. -/
def State.lowFall (s : State) (x st v : Nat) : State := (s.activeFalls x st v).lossStep x

theorem State.lowFall_ok (hx : x < 2) (hl : s.pw.lossTimer = false) (h : s.feedState (1 - x) = 3) (hst : st < 2) (v : Nat) :
    s.lowFall x st v = s.switchTold (1 - x) 0x8002 [x, 1 - x, 1] := by
  have hcause : (if st = 2 then 0 else 1) = 1 := if_neg (by omega)
  unfold State.lowFall
  rw [State.activeFalls_ok h, hcause]
  refine State.lossStep_good hx (by rw [State.switchTold_pw]; exact hl) (.inr ?_) x
  rw [(s.switchTold_kept _ _ _).good]
  exact State.feedGood_iff.2 (.inl h)

theorem State.lowFall_second (hx : x < 2) (hl : s.pw.lossTimer = false) (h : s.feedState (1 - x) = 2) (hst : st < 2) (v : Nat) :
    s.lowFall x st v = (s.switchTold (1 - x) 0x8002 [x, 1 - x, 1]).keepCap := by
  unfold State.lowFall
  rw [State.activeFalls_second h hst]
  refine State.lossStep_good hx (by rw [(State.keepCap_switches _).2.2, State.switchTold_pw]; exact hl) (.inr ?_) x
  rw [(feedsKept.of_pw (State.keepCap_framed _)).good, (s.switchTold_kept _ _ _).good]
  exact State.feedGood_iff.2 (.inr h)

theorem State.lowFall_last (hx : x < 2) (hg : s.feedGood x = false) (h : s.feedGood (1 - x) = false) (hst : st < 2) (v : Nat) :
    s.lowFall x st v = (s.feedEvent 0x8001 [x, st, v]).lossStarted := by
  unfold State.lowFall
  rw [State.activeFalls_last h hst]
  refine State.lossStep_none hx ?_ ?_ x
  · rw [(s.feedEvent_kept _ _).good, hg]
  · rw [(s.feedEvent_kept _ _).good, h]

/-- What the fall of the active feed to LOW or below does: a switch to the other feed, or the loss timer. -/
theorem State.lowFall_fallen (hx : x < 2) (hl : s.pw.lossTimer = false) (hg : s.feedGood x = false) (hst : st < 2) (v : Nat) :
    feedsKept s (s.lowFall x st v)
    ∧ (s.feedState (1 - x) = 3 → feedTold 0x8002 [x, 1 - x, 1] s (s.lowFall x st v) ∧ feedSwitched (1 - x) s (s.lowFall x st v))
    ∧ (s.feedState (1 - x) = 2 → feedTold 0x8002 [x, 1 - x, 1] s (s.lowFall x st v) ∧ feedSwitched (1 - x) s (s.lowFall x st v)
      ∧ ((s.lowFall x st v).pw.warnReq = true ∨ (s.lowFall x st v).pw.warnCap.isSome = true))
    ∧ (s.feedGood (1 - x) = false → feedTold 0x8001 [x, st, v] s (s.lowFall x st v) ∧ feedStays s (s.lowFall x st v)
      ∧ (s.lowFall x st v).pw.lossTimer = true) := by
  have hy : 1 - x < 2 := by omega
  obtain ⟨htold, hswitch⟩ := s.switchTold_switches hy 0x8002 [x, 1 - x, 1]
  refine ⟨?_, fun h => ?_, fun h => ?_, fun h => ?_⟩
  · by_cases h3 : s.feedState (1 - x) = 3
    · rw [State.lowFall_ok hx hl h3 hst]
      exact s.switchTold_kept _ _ _
    · by_cases h2 : s.feedState (1 - x) = 2
      · rw [State.lowFall_second hx hl h2 hst]
        exact (s.switchTold_kept _ _ _).trans (.of_pw (State.keepCap_framed _))
      · rw [State.lowFall_last hx hg (Bool.eq_false_iff.2 fun h => (State.feedGood_iff.1 h).elim h3 h2) hst]
        exact (s.feedEvent_kept _ _).trans (.of_pw (State.lossStarted_framed _))
  · rw [State.lowFall_ok hx hl h hst]
    exact ⟨htold, hswitch⟩
  · rw [State.lowFall_second hx hl h hst]
    obtain ⟨ha, hA, hB, hc⟩ := hswitch
    obtain ⟨hevents, hactive, hcount⟩ := (s.switchTold (1 - x) 0x8002 [x, 1 - x, 1]).keepCap_framed.pw_quiet
    obtain ⟨hA', hB', -⟩ := (s.switchTold (1 - x) 0x8002 [x, 1 - x, 1]).keepCap_switches
    exact ⟨htold.of hevents, ⟨hactive.trans ha, hA'.trans hA, hB'.trans hB, hcount.trans hc⟩, State.keepCap_capped _⟩
  · rw [State.lowFall_last hx hg h hst]
    obtain ⟨htold, hstays⟩ := s.feedEvent_tells 0x8001 [x, st, v]
    have hloss := (s.feedEvent 0x8001 [x, st, v]).lossStarted_framed
    exact ⟨htold.of hloss.pw_quiet.1, hstays.quiet hloss, by rw [State.lossStarted_pw]⟩

/-! ### The commands -/

theorem feedEntersWarn_eq (feed : BitVec 1) (dv : BitVec 12) (h4 : s.feedState feed.toNat ≠ 4) (hst : s.feedFor feed.toNat dv.toNat = 2)
    (he : e = s.enterFeed feed.toNat 2 dv.toNat) (hloss : e.lossStep feed.toNat = e) : exec (.feedEntersWarn feed dv) s =
      keep s (if e.feedActive = feed.toNat then e.activeFalls feed.toNat 2 dv.toNat else e.idleFalls feed.toNat (s.feedState feed.toNat) 2 dv.toNat) := by
  refine congrArg (keep s) ((State.feedEntry_open h4 hst _).trans ?_)
  rw [← he, hloss]

theorem feedEntersLow_idle (feed : BitVec 1) (dv : BitVec 12) (h4 : s.feedState feed.toNat ≠ 4) (hst : s.feedFor feed.toNat dv.toNat = 1)
    (he : e = s.enterFeed feed.toNat 1 dv.toNat) (ha : e.feedActive ≠ feed.toNat) : exec (.feedEntersLow feed dv) s =
      keep s ((e.idleFalls feed.toNat (s.feedState feed.toNat) 1 dv.toNat).lossStep feed.toNat) := by
  refine congrArg (keep s) ((State.feedEntry_open h4 hst _).trans ?_)
  rw [← he, if_neg ha]

theorem feedEntersLow_active (feed : BitVec 1) (dv : BitVec 12) (h4 : s.feedState feed.toNat ≠ 4) (hst : s.feedFor feed.toNat dv.toNat = 1)
    (he : e = s.enterFeed feed.toNat 1 dv.toNat) (ha : e.feedActive = feed.toNat) :
    exec (.feedEntersLow feed dv) s = keep s (e.lowFall feed.toNat 1 dv.toNat) := by
  refine congrArg (keep s) ((State.feedEntry_open h4 hst _).trans ?_)
  rw [← he, if_pos ha]
  rfl

theorem feedEntersAbsent_idle (feed : BitVec 1) (dv : BitVec 12) (h4 : s.feedState feed.toNat ≠ 4) (hst : s.feedFor feed.toNat dv.toNat = 0)
    (he : e = s.enterFeed feed.toNat 0 dv.toNat) (ha : ¬(e.feedActive = feed.toNat ∧ s.feedGood feed.toNat = true)) :
    exec (.feedEntersAbsent feed dv) s = keep s (e.lossStep feed.toNat) := by
  refine congrArg (keep s) ((State.feedEntry_open h4 hst _).trans ?_)
  rw [← he, if_neg ha]

theorem feedEntersAbsent_active (feed : BitVec 1) (dv : BitVec 12) (h4 : s.feedState feed.toNat ≠ 4) (hst : s.feedFor feed.toNat dv.toNat = 0)
    (he : e = s.enterFeed feed.toNat 0 dv.toNat) (ha : e.feedActive = feed.toNat ∧ s.feedGood feed.toNat = true) :
    exec (.feedEntersAbsent feed dv) s = keep s (e.lowFall feed.toNat 0 dv.toNat) := by
  refine congrArg (keep s) ((State.feedEntry_open h4 hst _).trans ?_)
  rw [← he, if_pos ha]
  rfl

/-- A REJECTED active feed with no other to switch to: neither switch is closed. -/
def State.feedsOpened (s : State) : State := (s.activeShown 2).withPw { (s.activeShown 2).pw with switchA := false, switchB := false }

theorem feedEntersRejected_idle (feed : BitVec 1) (dv : BitVec 12) (h4 : s.feedState feed.toNat ≠ 4) (hst : s.feedFor feed.toNat dv.toNat = 4)
    (he : e = s.enterFeed feed.toNat 4 dv.toNat) (ha : e.feedActive ≠ feed.toNat) :
    exec (.feedEntersRejected feed dv) s = keep s (e.lossStep feed.toNat) := by
  refine congrArg (keep s) ((State.feedEntry_open h4 hst _).trans ?_)
  rw [← he, if_pos ha]

theorem feedEntersRejected_switch (feed : BitVec 1) (dv : BitVec 12) (h4 : s.feedState feed.toNat ≠ 4) (hst : s.feedFor feed.toNat dv.toNat = 4)
    (he : e = s.enterFeed feed.toNat 4 dv.toNat) (ha : e.feedActive = feed.toNat) (ho : e.feedState (1 - feed.toNat) ≠ 4) :
    exec (.feedEntersRejected feed dv) s =
      keep s ((e.switchTold (1 - feed.toNat) 0x8004 [feed.toNat, dv.toNat]).lossStep feed.toNat) := by
  refine congrArg (keep s) ((State.feedEntry_open h4 hst _).trans ?_)
  rw [← he, if_neg (not_not.2 ha), if_pos ho]
  rfl

theorem feedEntersRejected_last (feed : BitVec 1) (dv : BitVec 12) (h4 : s.feedState feed.toNat ≠ 4) (hst : s.feedFor feed.toNat dv.toNat = 4)
    (he : e = s.enterFeed feed.toNat 4 dv.toNat) (ha : e.feedActive = feed.toNat) (ho : e.feedState (1 - feed.toNat) = 4) :
    exec (.feedEntersRejected feed dv) s = keep s ((e.feedsOpened.feedEvent 0x8004 [feed.toNat, dv.toNat]).lossStep feed.toNat) := by
  refine congrArg (keep s) ((State.feedEntry_open h4 hst _).trans ?_)
  rw [← he, if_neg (not_not.2 ha), if_neg (not_not.2 ho)]
  rfl

theorem State.feedsOpened_framed (s : State) : framed [.pw] [] (s.activeShown 2) s.feedsOpened := State.withPw_framed _ _

theorem State.feedsOpened_opens (s : State) : feedsKept s s.feedsOpened ∧ s.feedsOpened.events = s.events ∧ s.feedsOpened.feedActive = 2
    ∧ s.feedsOpened.pw = { s.pw with switchA := false, switchB := false } := by
  obtain ⟨hevents, hactive, -⟩ := s.feedsOpened_framed.pw_quiet
  refine ⟨(s.activeShown_kept 2).trans (.of_pw s.feedsOpened_framed), ?_, ?_, ?_⟩
  · rw [hevents, (s.activeShown_framed 2).1 .events (by decide)]
  · rw [hactive, s.activeShown_active (by decide)]
  · unfold State.feedsOpened
    rw [State.withPw_pw, (s.activeShown_framed 2).1 .pw (by decide)]

end Sys2Proof.Machine
end

section
/-! SUPPORT. What each feed command shows, and O54. -/

namespace Sys2Proof.Machine

set_option Elab.async false

variable {s t u e : State} {ps : List Part} {ks : List Nat} {x y st v old code : Nat} {payload : List Nat}

/-! ### Warnings -/

/-- A feed that is not active falls: shown, told of, and the loss timer stepped. -/
theorem State.idleFalls_steps (hx : x < 2) (hl : s.pw.lossTimer = false) (hg : s.feedGood x = false) (old st v : Nat) :
    feedsKept s ((s.idleFalls x old st v).lossStep x) ∧ feedFell x old st v s ((s.idleFalls x old st v).lossStep x)
    ∧ feedStays s ((s.idleFalls x old st v).lossStep x) ∧ ((s.idleFalls x old st v).lossStep x).pw.lossTimer = !s.feedGood (1 - x) := by
  obtain ⟨hfell, hstays, hpw⟩ := s.idleFalls_fell x old st v
  have hkept := s.idleFalls_kept x old st v
  obtain ⟨hframe, htimer⟩ := (s.idleFalls x old st v).lossStep_steps hx (by rw [hpw]; exact hl) x
  refine ⟨hkept.trans (.of_pw hframe), hfell.quiet hframe.pw_quiet.1.symm, hstays.quiet hframe, ?_⟩
  rw [htimer, hkept.good, hkept.good, hg, Bool.false_or]

/-- The step of the loss timer alone. -/
theorem State.lossStep_idle (hx : x < 2) (hl : s.pw.lossTimer = false) (hg : s.feedGood x = false) :
    feedsKept s (s.lossStep x) ∧ (s.lossStep x).events = s.events ∧ feedStays s (s.lossStep x) ∧ (s.lossStep x).pw.lossTimer = !s.feedGood (1 - x) := by
  obtain ⟨hframe, htimer⟩ := s.lossStep_steps hx hl x
  obtain ⟨hevents, hactive, hcount⟩ := hframe.pw_quiet
  refine ⟨.of_pw hframe, hevents, ⟨hactive, hcount⟩, ?_⟩
  rw [htimer, hg, Bool.false_or]

theorem State.feedGood_low (h : s.feedState x = st) (hst : st ≠ 2) (hst' : st ≠ 3) : s.feedGood x = false :=
  Bool.eq_false_iff.2 fun hg => (State.feedGood_iff.1 hg).elim (fun h3 => hst' (h.symm.trans h3)) fun h2 => hst (h.symm.trans h2)

/-- The warning of the active feed with no other that is OK. -/
theorem State.warnAsked (s : State) (x v : Nat) : feedsKept s (s.feedEvent 0x8001 [x, 2, v]).askCap
    ∧ feedTold 0x8001 [x, 2, v] s (s.feedEvent 0x8001 [x, 2, v]).askCap ∧ feedStays s (s.feedEvent 0x8001 [x, 2, v]).askCap
    ∧ ((s.feedEvent 0x8001 [x, 2, v]).askCap.pw.warnReq = true ∨ (s.feedEvent 0x8001 [x, 2, v]).askCap.pw.warnCap = some s.tk.now) := by
  obtain ⟨htold, hstays⟩ := s.feedEvent_tells 0x8001 [x, 2, v]
  have hcap := (s.feedEvent 0x8001 [x, 2, v]).askCap_framed
  refine ⟨(s.feedEvent_kept _ _).trans (.of_pw hcap), htold.of hcap.pw_quiet.1, hstays.quiet hcap, ?_⟩
  have hasked := (s.feedEvent 0x8001 [x, 2, v]).askCap_asked
  rw [State.feedEvent_now] at hasked
  exact hasked

/-! ### A REJECTED feed -/

/-- A switch from a feed that is REJECTED, with the step of the loss timer. -/
theorem State.rejected_switches (hx : x < 2) (hl : s.pw.lossTimer = false) (v : Nat) :
    feedsKept s ((s.switchTold (1 - x) 0x8004 [x, v]).lossStep x) ∧ feedTold 0x8004 [x, v] s ((s.switchTold (1 - x) 0x8004 [x, v]).lossStep x)
    ∧ ((s.switchTold (1 - x) 0x8004 [x, v]).lossStep x).feedActive = 1 - x := by
  obtain ⟨htold, hactive, -⟩ := s.switchTold_switches (by omega : 1 - x < 2) 0x8004 [x, v]
  obtain ⟨hframe, -⟩ := (s.switchTold (1 - x) 0x8004 [x, v]).lossStep_steps hx (by rw [State.switchTold_pw]; exact hl) x
  exact ⟨(s.switchTold_kept _ _ _).trans (.of_pw hframe), htold.of hframe.pw_quiet.1, hframe.pw_quiet.2.1.trans hactive⟩

/-- Both feeds REJECTED: no feed is active and neither switch is closed. -/
theorem State.rejected_last (hx : x < 2) (h4 : s.feedState x = 4) (ho : s.feedState (1 - x) = 4) (v : Nat) :
    feedsKept s ((s.feedsOpened.feedEvent 0x8004 [x, v]).lossStep x) ∧ feedTold 0x8004 [x, v] s ((s.feedsOpened.feedEvent 0x8004 [x, v]).lossStep x)
    ∧ ((s.feedsOpened.feedEvent 0x8004 [x, v]).lossStep x).feedActive = 2
    ∧ ((s.feedsOpened.feedEvent 0x8004 [x, v]).lossStep x).pw.switchA = false ∧ ((s.feedsOpened.feedEvent 0x8004 [x, v]).lossStep x).pw.switchB = false := by
  obtain ⟨hopened, hevents, hactive, -⟩ := s.feedsOpened_opens
  have hkept : feedsKept s (s.feedsOpened.feedEvent 0x8004 [x, v]) := hopened.trans (State.feedEvent_kept _ _ _)
  have hgood : ∀ {y}, s.feedState y = 4 → (s.feedsOpened.feedEvent 0x8004 [x, v]).feedGood y = false := fun h => by
    rw [hkept.good]
    exact State.feedGood_low h (by decide) (by decide)
  have hboth : s.feedState 0 = 4 ∧ s.feedState 1 = 4 := by
    obtain rfl | rfl : x = 0 ∨ x = 1 := by omega
    · exact ⟨h4, ho⟩
    · exact ⟨ho, h4⟩
  rw [State.lossStep_none hx (hgood h4) (hgood ho)]
  have hframe := (s.feedsOpened.feedEvent 0x8004 [x, v]).lossStarted_framed
  refine ⟨hkept.trans (.of_pw hframe), ?_, ?_, ?_, ?_⟩
  · unfold feedTold
    rw [hframe.pw_quiet.1, State.feedEvent_events, hevents]
  · rw [hframe.pw_quiet.2.1, State.feedEvent_active, hactive]
  · rw [State.lossStarted_pw, hkept.1 0, hboth.1]
    rfl
  · rw [State.lossStarted_pw, hkept.1 1, hboth.2]
    rfl

/-! ### A feed that recovers -/

theorem State.feedOk_eq (s : State) (he : e = (s.enterFeed x 3 v).lossStep x) : s.feedOk x v = if e.feedActive = 2 then e.closeFeed x else e := by
  subst he
  rfl

/-- A feed enters OK while the loss timer does not run. -/
theorem State.feedOk_shown (s : State) (hx : x < 2) (hv : v < 4096) (hl : s.pw.lossTimer = false) : feedShown x 3 v s (s.feedOk x v)
    ∧ (s.feedOk x v).events = s.events ∧ (s.feedOk x v).pw.lossTimer = false
    ∧ (s.feedOk x v).feedActive = if s.feedActive = 2 then x else s.feedActive := by
  obtain ⟨hshown, hevents, hactive, -, hloss, -⟩ := s.enterFeed_entered hx (by decide : 3 < 8) hv
  have hstep := (State.lossStep_good hx (hloss.trans hl) (.inl (State.feedGood_iff.2 (.inl hshown.1))) x).symm
  rw [State.feedOk_eq s hstep, hactive]
  split
  · refine ⟨hshown.step (State.closeFeed_kept _ _), ?_, ?_, State.closeFeed_active _ (by omega)⟩
    · rw [State.closeFeed_events, hevents]
    · rw [State.closeFeed_pw]
      exact hloss.trans hl
  · exact ⟨hshown, hevents, hloss.trans hl, hactive⟩

/-- The feed that enters OK while the loss timer runs is the active one. -/
theorem State.feedOk_recovers (s : State) (hx : x < 2) (hv : v < 4096) (hl : s.pw.lossTimer = true) : (s.feedOk x v).feedState x = 3
    ∧ (s.feedOk x v).feedActive = x ∧ (s.feedOk x v).pw.lossTimer = false ∧ (s.feedOk x v).pw.switchA = (x == 0)
    ∧ (s.feedOk x v).pw.switchB = (x == 1) := by
  obtain ⟨hshown, -, -, -, hloss, -⟩ := s.enterFeed_entered hx (by decide : 3 < 8) hv
  have hstep := (State.lossStep_ends hx (hloss.trans hl) (State.feedGood_iff.2 (.inl hshown.1))).symm
  have hkept := ((feedsKept.of_pw (State.withPw_framed _ _)).trans
    (((s.enterFeed x 3 v).withPw { (s.enterFeed x 3 v).pw with lossTimer := false }).closeFeed_kept x))
  have hactive := ((s.enterFeed x 3 v).withPw { (s.enterFeed x 3 v).pw with lossTimer := false }).closeFeed_active (x := x) (by omega)
  rw [State.feedOk_eq s hstep, hactive, if_neg (by omega)]
  refine ⟨(hshown.step hkept).1, hactive, ?_, ?_, ?_⟩ <;> rw [State.closeFeed_pw, State.withPw_pw]

/-- A feed that the loss timer's step leaves shown may then be the active one. -/
theorem State.released_shown (hx : x < 2) (hst : st < 8) (hv : v < 4096) (hl : s.pw.lossTimer = false)
    (he : e = (s.enterFeed x st v).lossStep x) (c : Prop) [Decidable c] : feedShown x st v s (if c then e.closeFeed x else e)
    ∧ (if c then e.closeFeed x else e).events = s.events := by
  obtain ⟨hshown, hevents, -, -, hloss, -⟩ := s.enterFeed_entered hx hst hv
  obtain ⟨hframe, -⟩ := (s.enterFeed x st v).lossStep_steps hx (hloss.trans hl) x
  rw [← he] at hframe
  have hquiet : e.events = s.events := hframe.pw_quiet.1.trans hevents
  have hkept := hshown.step (.of_pw hframe)
  split
  · exact ⟨hkept.step (State.closeFeed_kept _ _), (State.closeFeed_events _ _).trans hquiet⟩
  · exact ⟨hkept, hquiet⟩

theorem State.feedFor_le (hv : v ≤ 580) : s.feedFor x v ≤ 3 := by
  unfold State.feedFor
  dsimp only
  rw [if_neg (by omega)]
  split_ifs <;> decide

theorem feedRejectRelease_idle (feed : BitVec 1) (dv : BitVec 12) (h : s.feedState feed.toNat ≠ 4 ∨ 580 < dv.toNat) :
    exec (.feedRejectRelease feed dv) s = .next s := (congrArg (keep s) (if_pos h)).trans (keep_self s)

theorem feedRejectRelease_ok (feed : BitVec 1) (dv : BitVec 12) (h4 : s.feedState feed.toNat = 4) (hv : dv.toNat ≤ 580)
    (h3 : s.feedFor feed.toNat dv.toNat = 3) : exec (.feedRejectRelease feed dv) s = keep s (s.feedOk feed.toNat dv.toNat) :=
  congrArg (keep s) ((if_neg (not_or.2 ⟨not_not.2 h4, by omega⟩)).trans (if_pos h3))

theorem feedRejectRelease_other (feed : BitVec 1) (dv : BitVec 12) (h4 : s.feedState feed.toNat = 4) (hv : dv.toNat ≤ 580)
    (hst : s.feedFor feed.toNat dv.toNat = st) (h3 : st ≠ 3) (he : e = (s.enterFeed feed.toNat st dv.toNat).lossStep feed.toNat) :
    exec (.feedRejectRelease feed dv) s = keep s (if e.feedActive = 2 ∧ st = 2 then e.closeFeed feed.toNat else e) := by
  subst hst he
  exact congrArg (keep s) ((if_neg (not_or.2 ⟨not_not.2 h4, by omega⟩)).trans (if_neg h3))

/-! ### The feed-warning cap -/

theorem State.capEnd_due {at_ : Nat} (h : s.pw.warnCap = some at_) (hdue : at_ + secondUnits ≤ s.tk.now) (hmay : s.mayStretch = true) :
    s.capEnd = (s.withPw { s.pw with warnCap := none }).bbxPut 3 none 0 [wordOf s.tk.count.toNat] := by
  unfold State.capEnd
  rw [h]
  exact if_pos ⟨hdue, hmay⟩

theorem State.capEnd_idle (h : s.pw.warnCap = none ∨ s.mayStretch = false) : s.capEnd = s := by
  unfold State.capEnd
  split
  · next hc =>
    have hmay := h.resolve_left (by rw [hc]; simp)
    exact if_neg (by rw [hmay]; simp)
  · rfl

theorem feedEntry_idle (feed : BitVec 1) (dv : BitVec 12) {c : Nat × Instr}
    (hc : c ∈ [(2, Instr.feedEntersWarn feed dv), (1, .feedEntersLow feed dv), (0, .feedEntersAbsent feed dv), (4, .feedEntersRejected feed dv),
      (3, .feedEntersOk feed dv)]) (h : s.feedState feed.toNat = 4 ∨ s.feedFor feed.toNat dv.toNat ≠ c.1) : exec c.2 s = .next s := by
  have hshut : ∀ t, keep s (s.feedEntry feed.toNat c.1 dv.toNat t) = .next s := fun t =>
    (congrArg (keep s) (State.feedEntry_shut h t)).trans (keep_self s)
  simp only [List.mem_cons, List.not_mem_nil, or_false] at hc
  rcases hc with rfl | rfl | rfl | rfl | rfl <;> exact hshut _

theorem feedEntersOk_eq (feed : BitVec 1) (dv : BitVec 12) (h4 : s.feedState feed.toNat ≠ 4) (hst : s.feedFor feed.toNat dv.toNat = 3) :
    exec (.feedEntersOk feed dv) s = keep s (s.feedOk feed.toNat dv.toNat) := congrArg (keep s) (State.feedEntry_open h4 hst _)

/-- A command that leaves a feed shown in a state, and what else it says. -/
def feedEnters (c : Instr) (x st v : Nat) (s : State) (q : State → Prop) : Prop := ∃ t, exec c s = keep s t ∧ feedShown x st v s t ∧ q t

/-- The entry to WARN of the active or the other feed. -/
theorem feedEntersWarn_shows (feed : BitVec 1) (dv : BitVec 12) (hl : s.pw.lossTimer = false) (h4 : s.feedState feed.toNat ≠ 4)
    (hst : s.feedFor feed.toNat dv.toNat = 2) :
    (s.feedActive ≠ feed.toNat → feedEnters (.feedEntersWarn feed dv) feed.toNat 2 dv.toNat s fun t =>
      feedFell feed.toNat (s.feedState feed.toNat) 2 dv.toNat s t ∧ feedStays s t)
    ∧ (s.feedActive = feed.toNat → s.feedState (1 - feed.toNat) = 3 → feedEnters (.feedEntersWarn feed dv) feed.toNat 2 dv.toNat s fun t =>
      feedTold 0x8002 [feed.toNat, 1 - feed.toNat, 0] s t ∧ feedSwitched (1 - feed.toNat) s t)
    ∧ (s.feedActive = feed.toNat → s.feedState (1 - feed.toNat) ≠ 3 → feedEnters (.feedEntersWarn feed dv) feed.toNat 2 dv.toNat s fun t =>
      feedTold 0x8001 [feed.toNat, 2, dv.toNat] s t ∧ feedStays s t ∧ (t.pw.warnReq = true ∨ t.pw.warnCap = some s.tk.now)) := by
  have hx := feed.isLt
  obtain ⟨hshown, hq⟩ := s.enterFeed_entered hx (by decide : 2 < 8) dv.isLt
  generalize he : s.enterFeed feed.toNat 2 dv.toNat = e at hshown hq
  have heq := feedEntersWarn_eq feed dv h4 hst he.symm
    (State.lossStep_good hx (hq.2.2.2.1.trans hl) (.inl (State.feedGood_iff.2 (.inr hshown.1))) _)
  refine ⟨fun ha => ?_, fun ha ho => ?_, fun ha ho => ?_⟩
  · obtain ⟨hfell, hstays, -⟩ := e.idleFalls_fell feed.toNat (s.feedState feed.toNat) 2 dv.toNat
    rw [if_neg (by rw [hq.2.1]; exact ha)] at heq
    exact ⟨_, heq, hshown.step (e.idleFalls_kept _ _ _ _), .after hq hfell, .after hq hstays⟩
  · obtain ⟨htold, hswitch⟩ := e.switchTold_switches (by omega : 1 - feed.toNat < 2) 0x8002 [feed.toNat, 1 - feed.toNat, 0]
    rw [if_pos (hq.2.1.trans ha), State.activeFalls_ok (hshown.2.1.trans ho)] at heq
    exact ⟨_, heq, hshown.step (e.switchTold_kept _ _ _), .after hq htold, .after hq hswitch⟩
  · obtain ⟨hkept, htold, hstays, hcap⟩ := e.warnAsked feed.toNat dv.toNat
    rw [if_pos (hq.2.1.trans ha), State.activeFalls_warn (by rw [hshown.2.1]; exact ho)] at heq
    rw [hq.2.2.2.2] at hcap
    exact ⟨_, heq, hshown.step hkept, .after hq htold, .after hq hstays, hcap⟩

/-- The active feed's fall to LOW or below, by the equation of its command. -/
theorem feedFalls_shows (feed : BitVec 1) (dv : BitVec 12) {c : Instr} (hl : s.pw.lossTimer = false) (hst : st < 2)
    (heq : exec c s = keep s ((s.enterFeed feed.toNat st dv.toNat).lowFall feed.toNat st dv.toNat)) :
    (s.feedState (1 - feed.toNat) = 3 → feedEnters c feed.toNat st dv.toNat s fun t =>
      feedTold 0x8002 [feed.toNat, 1 - feed.toNat, 1] s t ∧ feedSwitched (1 - feed.toNat) s t)
    ∧ (s.feedState (1 - feed.toNat) = 2 → feedEnters c feed.toNat st dv.toNat s fun t =>
      feedTold 0x8002 [feed.toNat, 1 - feed.toNat, 1] s t ∧ feedSwitched (1 - feed.toNat) s t ∧ (t.pw.warnReq = true ∨ t.pw.warnCap.isSome = true))
    ∧ (s.feedGood (1 - feed.toNat) = false → feedEnters c feed.toNat st dv.toNat s fun t =>
      feedTold 0x8001 [feed.toNat, st, dv.toNat] s t ∧ feedStays s t ∧ t.pw.lossTimer = true) := by
  have hx := feed.isLt
  obtain ⟨hshown, hq⟩ := s.enterFeed_entered hx (by omega : st < 8) dv.isLt
  generalize s.enterFeed feed.toNat st dv.toNat = e at hshown hq heq
  obtain ⟨hkept, hok, hwarn, hlast⟩ := e.lowFall_fallen hx (hq.2.2.2.1.trans hl) (State.feedGood_low hshown.1 (by omega) (by omega)) hst dv.toNat
  have hgood : e.feedGood (1 - feed.toNat) = s.feedGood (1 - feed.toNat) := by
    unfold State.feedGood
    rw [hshown.2.1]
  refine ⟨fun ho => ?_, fun ho => ?_, fun ho => ?_⟩
  · obtain ⟨htold, hswitch⟩ := hok (hshown.2.1.trans ho)
    exact ⟨_, heq, hshown.step hkept, .after hq htold, .after hq hswitch⟩
  · obtain ⟨htold, hswitch, hcap⟩ := hwarn (hshown.2.1.trans ho)
    exact ⟨_, heq, hshown.step hkept, .after hq htold, .after hq hswitch, hcap⟩
  · obtain ⟨htold, hstays, hloss⟩ := hlast (hgood.trans ho)
    exact ⟨_, heq, hshown.step hkept, .after hq htold, .after hq hstays, hloss⟩

/-- A feed that is not active enters LOW. -/
theorem feedEntersLow_shows (feed : BitVec 1) (dv : BitVec 12) (hl : s.pw.lossTimer = false) (h4 : s.feedState feed.toNat ≠ 4)
    (hst : s.feedFor feed.toNat dv.toNat = 1) (ha : s.feedActive ≠ feed.toNat) :
    feedEnters (.feedEntersLow feed dv) feed.toNat 1 dv.toNat s fun t =>
      feedFell feed.toNat (s.feedState feed.toNat) 1 dv.toNat s t ∧ feedStays s t ∧ (t.pw.lossTimer = !s.feedGood (1 - feed.toNat)) := by
  have hx := feed.isLt
  obtain ⟨hshown, hq⟩ := s.enterFeed_entered hx (by decide : 1 < 8) dv.isLt
  have heq := feedEntersLow_idle feed dv h4 hst rfl (by rw [hq.2.1]; exact ha)
  generalize s.enterFeed feed.toNat 1 dv.toNat = e at hshown hq heq
  obtain ⟨hkept, hfell, hstays, hloss⟩ := e.idleFalls_steps hx (hq.2.2.2.1.trans hl) (State.feedGood_low hshown.1 (by decide) (by decide))
    (s.feedState feed.toNat) 1 dv.toNat
  refine ⟨_, heq, hshown.step hkept, .after hq hfell, .after hq hstays, hloss.trans (congrArg not ?_)⟩
  unfold State.feedGood
  rw [hshown.2.1]

/-- A feed that acts no more enters ABSENT. -/
theorem feedEntersAbsent_shows (feed : BitVec 1) (dv : BitVec 12) (hl : s.pw.lossTimer = false) (h4 : s.feedState feed.toNat ≠ 4)
    (hst : s.feedFor feed.toNat dv.toNat = 0) (ha : ¬(s.feedActive = feed.toNat ∧ s.feedGood feed.toNat = true)) :
    feedEnters (.feedEntersAbsent feed dv) feed.toNat 0 dv.toNat s fun t =>
      t.events = s.events ∧ feedStays s t ∧ (t.pw.lossTimer = !s.feedGood (1 - feed.toNat)) := by
  have hx := feed.isLt
  obtain ⟨hshown, hq⟩ := s.enterFeed_entered hx (by decide : 0 < 8) dv.isLt
  have heq := feedEntersAbsent_idle feed dv h4 hst rfl (by rw [hq.2.1]; exact ha)
  generalize s.enterFeed feed.toNat 0 dv.toNat = e at hshown hq heq
  obtain ⟨hkept, hevents, hstays, hloss⟩ := State.lossStep_idle hx (hq.2.2.2.1.trans hl) (State.feedGood_low hshown.1 (by decide) (by decide))
  refine ⟨_, heq, hshown.step hkept, hevents.trans hq.1, .after hq hstays, hloss.trans (congrArg not ?_)⟩
  unfold State.feedGood
  rw [hshown.2.1]

/-- The entry to REJECTED. -/
theorem feedEntersRejected_shows (feed : BitVec 1) (dv : BitVec 12) (hl : s.pw.lossTimer = false) (h4 : s.feedState feed.toNat ≠ 4)
    (hst : s.feedFor feed.toNat dv.toNat = 4) :
    (s.feedActive ≠ feed.toNat → feedEnters (.feedEntersRejected feed dv) feed.toNat 4 dv.toNat s fun t => t.events = s.events ∧ feedStays s t)
    ∧ (s.feedActive = feed.toNat → s.feedState (1 - feed.toNat) ≠ 4 → feedEnters (.feedEntersRejected feed dv) feed.toNat 4 dv.toNat s fun t =>
      feedTold 0x8004 [feed.toNat, dv.toNat] s t ∧ t.feedActive = 1 - feed.toNat)
    ∧ (s.feedActive = feed.toNat → s.feedState (1 - feed.toNat) = 4 → feedEnters (.feedEntersRejected feed dv) feed.toNat 4 dv.toNat s fun t =>
      feedTold 0x8004 [feed.toNat, dv.toNat] s t ∧ t.feedActive = 2 ∧ t.pw.switchA = false ∧ t.pw.switchB = false) := by
  have hx := feed.isLt
  obtain ⟨hshown, hq⟩ := s.enterFeed_entered hx (by decide : 4 < 8) dv.isLt
  generalize he : s.enterFeed feed.toNat 4 dv.toNat = e at hshown hq
  have hloss := hq.2.2.2.1.trans hl
  refine ⟨fun ha => ?_, fun ha ho => ?_, fun ha ho => ?_⟩
  · obtain ⟨hkept, hevents, hstays, -⟩ := State.lossStep_idle hx hloss (State.feedGood_low hshown.1 (by decide) (by decide))
    exact ⟨_, feedEntersRejected_idle feed dv h4 hst he.symm (by rw [hq.2.1]; exact ha), hshown.step hkept, hevents.trans hq.1, .after hq hstays⟩
  · obtain ⟨hkept, htold, hactive⟩ := State.rejected_switches hx hloss dv.toNat
    exact ⟨_, feedEntersRejected_switch feed dv h4 hst he.symm (hq.2.1.trans ha) (by rw [hshown.2.1]; exact ho), hshown.step hkept,
      .after hq htold, hactive⟩
  · obtain ⟨hkept, htold, hactive, hA, hB⟩ := State.rejected_last hx hshown.1 (hshown.2.1.trans ho) dv.toNat
    exact ⟨_, feedEntersRejected_last feed dv h4 hst he.symm (hq.2.1.trans ha) (hshown.2.1.trans ho), hshown.step hkept,
      .after hq htold, hactive, hA, hB⟩

/-- A REJECTED feed's release. -/
theorem feedRejectRelease_shows (feed : BitVec 1) (dv : BitVec 12) (hl : s.pw.lossTimer = false) (h4 : s.feedState feed.toNat = 4)
    (hv : dv.toNat ≤ 580) : feedEnters (.feedRejectRelease feed dv) feed.toNat (s.feedFor feed.toNat dv.toNat) dv.toNat s fun t =>
      t.events = s.events := by
  by_cases h3 : s.feedFor feed.toNat dv.toNat = 3
  · obtain ⟨hshown, hevents, -⟩ := s.feedOk_shown feed.isLt dv.isLt hl
    rw [h3]
    exact ⟨_, feedRejectRelease_ok feed dv h4 hv h3, hshown, hevents⟩
  · have hle : s.feedFor feed.toNat dv.toNat ≤ 3 := State.feedFor_le hv
    obtain ⟨hshown, hevents⟩ := State.released_shown feed.isLt (lt_of_le_of_lt hle (by decide : 3 < 8)) dv.isLt hl rfl
      (((s.enterFeed feed.toNat (s.feedFor feed.toNat dv.toNat) dv.toNat).lossStep feed.toNat).feedActive = 2 ∧ s.feedFor feed.toNat dv.toNat = 2)
    exact ⟨_, feedRejectRelease_other feed dv h4 hv rfl h3 rfl, hshown, hevents⟩

/-- Settles O54: each command by what it shows and switches, or by why it changes nothing. -/
theorem feedsSwitch : Obligations.FeedsSwitch := by
  intro feed dv s x o v enters told fell stays switched capAsked capped level
  have hx : x < 2 := feed.isLt
  have hv : v < 4096 := dv.isLt
  have hgive : ∀ {c : Instr} {st : Nat} {q r : State → Prop}, feedEnters c x st v s q → (∀ t, q t → r (s.kept t)) → enters c st r :=
    fun ⟨t, hexec, hshown, hq⟩ hr => ⟨_, hexec, hshown.kept.1, hshown.kept.2.1, hshown.kept.2.2.1, hshown.kept.2.2.2, hr t hq⟩
  refine ⟨fun hl h4 => ⟨fun hst => ?_, fun hst => ?_, fun hst => ?_, fun hst => ?_, fun hst => ?_⟩, fun c hc h => feedEntry_idle feed dv hc h,
    fun h => feedRejectRelease_idle feed dv h, fun hl h4 hv' => hgive (feedRejectRelease_shows feed dv hl h4 hv') fun t h => h,
    fun hl h4 hst => ?_, ?_, ?_, fun at_ hc hdue hmay => ?_, fun h => ?_⟩
  · obtain ⟨hidle, hok, hcap⟩ := feedEntersWarn_shows feed dv hl h4 hst
    exact ⟨fun ha => hgive (hidle ha) fun t h => h, fun ha ho => hgive (hok ha ho) fun t h => h, fun ha ho => hgive (hcap ha ho) fun t h => h⟩
  · have hfalls := fun ha : s.feedActive = x => feedFalls_shows feed dv hl (by decide : 1 < 2)
      (feedEntersLow_active feed dv h4 hst rfl ((s.enterFeed_entered hx (by decide : 1 < 8) hv).2.2.1.trans ha))
    exact ⟨fun ha => hgive (feedEntersLow_shows feed dv hl h4 hst ha) fun t h => h, fun ha ho => hgive ((hfalls ha).1 ho) fun t h => h,
      fun ha ho => hgive ((hfalls ha).2.1 ho) fun t h => h, fun ha ho => hgive ((hfalls ha).2.2 ho) fun t h => h⟩
  · have hfalls := fun (ha : s.feedActive = x) (hg : s.feedGood x = true) => feedFalls_shows feed dv hl (by decide : 0 < 2)
      (feedEntersAbsent_active feed dv h4 hst rfl ⟨(s.enterFeed_entered hx (by decide : 0 < 8) hv).2.2.1.trans ha, hg⟩)
    exact ⟨fun ha => hgive (feedEntersAbsent_shows feed dv hl h4 hst fun h => ha h.1) fun t h => h,
      fun ha hg ho => hgive ((hfalls ha hg).1 ho) fun t h => h, fun ha hg ho => hgive ((hfalls ha hg).2.1 ho) fun t h => h,
      fun ha hg ho => hgive ((hfalls ha hg).2.2 ho) fun t h => h,
      fun ha hg => hgive (feedEntersAbsent_shows feed dv hl h4 hst fun h => absurd (hg.symm.trans h.2) (by decide)) fun t h => h⟩
  · obtain ⟨hidle, hswitch, hlast⟩ := feedEntersRejected_shows feed dv hl h4 hst
    exact ⟨fun ha => hgive (hidle ha) fun t h => h, fun ha ho => hgive (hswitch ha ho) fun t h => h, fun ha ho => hgive (hlast ha ho) fun t h => h⟩
  · obtain ⟨hshown, hquiet⟩ := s.feedOk_shown hx hv hl
    exact hgive ⟨_, feedEntersOk_eq feed dv h4 hst, hshown, hquiet⟩ fun t h => h
  · have hok := s.feedOk_recovers hx hv hl
    refine ⟨_, feedEntersOk_eq feed dv h4 hst, ?_⟩
    generalize s.feedOk x v = t at hok
    exact hok
  · refine ⟨fun h => ?_, fun h => (congrArg (keep s) (if_neg h)).trans (keep_self s)⟩
    exact ⟨_, congrArg (keep s) (if_pos h), rfl, (s.withPw_framed { s.pw with returnDue := true }).kept⟩
  · refine ⟨_, rfl, ?_, (s.setFld_framed Reg.PWR_FEED_CTRL 0 0 1).kept⟩
    rw [State.kept_fld, State.fld_setFld _ _ 0 0 _ (by decide) (by decide)]
    rfl
  · have hframe : framed [.pw, .regs, .bbx] eventRegs s
        ((s.withPw { s.pw with warnCap := none }).bbxPut 3 none 0 [wordOf s.tk.count.toNat]) :=
      ((State.withPw_framed ..).widen).seq (State.bbxPut_framed ..) (by simp +contextual) (fun _ h => h)
    refine ⟨_, congrArg (keep s) (State.capEnd_due hc hdue hmay), ?_, hframe.kept⟩
    rw [State.kept_pw, (State.bbxPut_framed ..).1 .pw (by decide), State.withPw_pw]
  · exact (congrArg (keep s) (State.capEnd_idle h)).trans (keep_self s)

end Sys2Proof.Machine
end

section
/-! SUPPORT. Firmware updates, and O59 (R472 to R474). -/

namespace Sys2Proof.Machine

set_option Elab.async false

variable {s t u : State} {ps : List Part} {ks : List Nat} {c st code : Nat} {bs : List Byte} {x : Service}

/-! ### A change of UPDATE -/

theorem State.raiseBoot_framed (s : State) (code : Nat) (payload : List Nat) : framed eventParts eventRegs s (s.raiseBoot code payload) := by
  unfold State.raiseBoot
  dsimp only
  exact .ite (fun _ => s.raisePf_framed ..) fun _ => (s.raisePf_framed ..).seq (State.bbxPut_framed ..) (by simp [eventParts]) (fun _ h => h)

theorem State.raiseBoot_events (s : State) (code : Nat) (payload : List Nat) :
    (s.raiseBoot code payload).events = s.events ++ [⟨code, none, payload.map wordOf, []⟩] := by
  unfold State.raiseBoot
  dsimp only
  split
  · rw [State.raisePf_events]
  · rw [State.bbxPut_events, State.raisePf_events]

/-- UPDATE set to a state. -/
def State.updateSet (s : State) (st : Nat) : State := s.setFld Reg.DEV_BOOT_STATUS 11 8 st

theorem State.updateSet_framed (s : State) (st : Nat) : framed [.regs] [Reg.DEV_BOOT_STATUS] s (s.updateSet st) := s.setFld_framed ..

theorem State.toUpdate_eq (s : State) (c st code : Nat) : s.toUpdate c st code = (s.updateSet st).raiseBoot 0x9004 [c, st, code] := rfl

theorem State.toUpdate_framed (s : State) (c st code : Nat) : framed eventParts (Reg.DEV_BOOT_STATUS :: eventRegs) s (s.toUpdate c st code) := by
  rw [State.toUpdate_eq]
  exact ((s.updateSet_framed st).widen (by simp [eventParts])).seq (State.raiseBoot_framed ..) (by simp +contextual) (by simp +contextual)

theorem State.toUpdate_state (s : State) (c : Nat) (hst : st < 16) (code : Nat) : (s.toUpdate c st code).updateState = st := by
  unfold State.updateState State.toUpdate
  rw [(State.raiseBoot_framed ..).fld (by decide), State.fld_setFld _ _ 11 8 _ (by decide) (by decide)]
  exact Nat.mod_eq_of_lt hst

theorem State.toUpdate_events (s : State) (c st code : Nat) :
    (s.toUpdate c st code).events = s.events ++ [⟨0x9004, none, [c, st, code].map wordOf, []⟩] := by
  rw [State.toUpdate_eq, State.raiseBoot_events, (s.updateSet_framed st).1 .events (by decide)]

/-! ### What a message of an update does -/

/-- The port's state, an update's new state with its event, and one message. -/
def State.updatePut (s : State) (x : Service) (c st code msg : Nat) (body : List Byte) : State :=
  ((s.svcSet x).toUpdate c st code).mctpPut msg body

/-- What such a step shows. -/
def updateShown (x : Service) (c st code msg : Nat) (body : List Byte) (s t : State) : Prop := t.svc = x
  ∧ (t.updateState = st ∧ t.events = s.events ++ [⟨0x9004, none, [c, st, code].map wordOf, []⟩]) ∧ t.out = s.out ++ [.mctp msg body]
  ∧ framed ([.svc, .out] ++ eventParts) (Reg.DEV_BOOT_STATUS :: eventRegs) s t

theorem updateShown.ranOn {msg : Nat} {body : List Byte} (h : updateShown x c st code msg body s t) :
    updateShown x c st code msg body s (s.ranOn t) := ⟨h.1, h.2.1, h.2.2.1, h.2.2.2.ranOn⟩

theorem State.updatePut_shown (s : State) (x : Service) (c : Nat) (hst : st < 16) (code msg : Nat) (body : List Byte) :
    updateShown x c st code msg body s (s.updatePut x c st code msg body) := by
  have hset := s.svcSet_framed x
  have hup := (s.svcSet x).toUpdate_framed c st code
  have hput := ((s.svcSet x).toUpdate c st code).mctpPut_framed msg body
  unfold State.updatePut
  refine ⟨?_, ⟨?_, ?_⟩, ?_, ?_⟩
  · rw [hput.1 .svc (by decide), hup.1 .svc (by decide)]
    rfl
  · unfold State.updateState
    rw [hput.fld List.not_mem_nil]
    exact State.toUpdate_state _ c hst code
  · rw [hput.1 .events (by decide), State.toUpdate_events, hset.1 .events (by decide)]
  · rw [State.mctpPut_out, hup.1 .out (by decide), hset.1 .out (by decide)]
  · exact ((hset.widen).seq hup (by simp +contextual) (fun _ h => h)).seq hput

/-- Bytes stored in the boot memory. -/
def State.bootPut (s : State) (a : Nat) (bs : List Byte) : State := { s with mem := { s.mem with boot := memWrite s.mem.boot a bs } }

theorem State.bootPut_framed (s : State) (a : Nat) (bs : List Byte) : framed [.bootMem] [] s (s.bootPut a bs) := framed_bootMem s _

/-! ### The messages -/

/-- The data of a component that the device asked for. -/
def State.dataTaken (s : State) (data : List Byte) : List Byte := data.take (s.svc.size - s.svc.received.length)

/-- The data stored in the slot and counted. -/
def State.dataStored (s : State) (bs : List Byte) : State :=
  (s.bootPut (s.svc.slot + s.svc.received.length) bs).svcSet { s.svc with received := s.svc.received ++ bs }

theorem requestFirmwareData_eq (h : s.svc.dynAddr.isSome = true) {off : Word} (data : List Byte) (hc : s.svc.component = some c)
    (hst : s.updateState = 1) (hoff : off.toNat = s.svc.received.length) : exec (.requestFirmwareData off data) s =
      .next (s.ranOn (if s.svc.received.length + (s.dataTaken data).length < s.svc.size then s.dataStored (s.dataTaken data)
        else ((s.dataStored (s.dataTaken data)).toUpdate c 2 0).mctpPut 0x10516 [0])) := by
  refine run_to h ?_
  split
  · next hnone => exact absurd (hnone.symm.trans hc) (by simp)
  · next d hd =>
    obtain rfl : d = c := Option.some.inj (hd.symm.trans hc)
    exact if_neg (not_or.2 ⟨not_not.2 hst, not_not.2 hoff⟩)

theorem State.dataStored_framed (s : State) (bs : List Byte) : framed [.svc, .bootMem] [] s (s.dataStored bs) :=
  ((s.bootPut_framed _ _).widen).seq (State.svcSet_framed ..)

theorem State.dataStored_svc (s : State) (bs : List Byte) : (s.dataStored bs).svc = { s.svc with received := s.svc.received ++ bs } := rfl

theorem State.dataStored_boot (s : State) (bs : List Byte) :
    (s.dataStored bs).mem.boot = memWrite s.mem.boot (s.svc.slot + s.svc.received.length) bs := rfl

theorem verifyComplete_ok (hc : s.svc.component = some c) (hst : s.updateState = 2) (hok : s.componentOk c s.svc.received = true) :
    exec .verifyComplete s = .next (s.ranOn (s.updatePut { s.svc with verified := true } c 3 0 0x10517 [0])) := by
  refine congrArg (keepRun s) ?_
  split
  · next hnone => exact absurd (hnone.symm.trans hc) (by simp)
  · next d hd =>
    obtain rfl : d = c := Option.some.inj (hd.symm.trans hc)
    exact (if_neg (not_not.2 hst)).trans (if_pos hok)

theorem verifyComplete_fails (hc : s.svc.component = some c) (hst : s.updateState = 2) (hok : s.componentOk c s.svc.received = false) :
    exec .verifyComplete s = .next (s.ranOn (s.updatePut { s.svc with component := none } c 5 1 0x10517 [1])) := by
  refine congrArg (keepRun s) ?_
  split
  · next hnone => exact absurd (hnone.symm.trans hc) (by simp)
  · next d hd =>
    obtain rfl : d = c := Option.some.inj (hd.symm.trans hc)
    exact (if_neg (not_not.2 hst)).trans (if_neg (by rw [hok]; decide))

theorem applyComplete_ok (hc : s.svc.component = some c) (hst : s.updateState = 3) (hr : s.pw.recovery = false) :
    exec .applyComplete s = .next (s.ranOn (s.updatePut { s.svc with component := none } c 4 0 0x10518 [0])) := by
  refine congrArg (keepRun s) ?_
  split
  · next hnone => exact absurd (hnone.symm.trans hc) (by simp)
  · next d hd =>
    obtain rfl : d = c := Option.some.inj (hd.symm.trans hc)
    exact (if_neg (not_not.2 hst)).trans (if_neg (by rw [hr]; decide))

theorem verify_idle (hc : s.svc.component = none) : exec .verifyComplete s = .next s ∧ exec .applyComplete s = .next s := by
  refine ⟨(congrArg (keepRun s) (?_ : _ = s)).trans rfl, (congrArg (keepRun s) (?_ : _ = s)).trans rfl⟩ <;> rw [hc]

section messages
variable (h : s.svc.dynAddr.isSome = true)
include h

theorem requestUpdate_opens (hup : s.svc.updating = false) : svcSent .requestUpdate
    { s.svc with updating := true, components := [], component := none, received := [], verified := false } 0x10510 [0, 0, 0, 0] s :=
  .of_exec (run_to h (if_neg (by rw [hup]; decide)))

theorem requestUpdate_refused (hup : s.svc.updating = true) : mctpSent .requestUpdate 0x10510 [0x81] s := .of_exec (run_to h (if_pos hup))

theorem passComponentTable_named (hup : s.svc.updating = true) (cs : List (BitVec 16)) : ∃ body,
    svcSent (.passComponentTable cs) { s.svc with components := cs.map (·.toNat) } 0x10513 body s :=
  ⟨_, .of_exec (run_to h (if_neg (by rw [hup]; decide)))⟩

theorem updateComponent_starts (hup : s.svc.updating = true) (hst : s.updateState = 0 ∨ 3 < s.updateState) {c : BitVec 16} {size : Word}
    (hknown : s.componentKnown c.toNat = true) (hin : c.toNat ∈ s.svc.components) (h1 : 1 ≤ size.toNat) (hsize : size.toNat ≤ (s.updateSlot c.toNat).2) :
    exec (.updateComponent c size) s = .next (s.ranOn (s.updatePut { s.svc with
      component := some c.toNat, size := size.toNat, received := [], verified := false, slot := (s.updateSlot c.toNat).1 } c.toNat 1 0 0x10514 [0, 0, 0])) := by
  have hidle : ¬(1 ≤ s.updateState ∧ s.updateState ≤ 3) := by omega
  have hgood : ¬((!s.componentKnown c.toNat) = true ∨ (!s.svc.components.contains c.toNat) = true ∨ size.toNat = 0
      ∨ (s.updateSlot c.toNat).2 < size.toNat) := by
    rw [hknown, List.contains_iff_mem.2 hin]
    rintro (h | h | h | h)
    · exact absurd h (by decide)
    · exact absurd h (by decide)
    · omega
    · omega
  exact run_to h ((if_neg (by rw [hup]; decide)).trans ((if_neg hidle).trans (if_neg hgood)))

theorem activateFirmware_closes (hup : s.svc.updating = true) (hc : s.svc.component = none) : svcSent .activateFirmware
    { s.svc with updating := false, components := [], received := [] } 0x1051A [0, 0, 0] s :=
  .of_exec (run_to h ((if_neg (by rw [hup]; decide)).trans (if_neg (by rw [hc]; decide))))

end messages

/-- Settles O59: each message by what the port, the register and the slot then hold. -/
theorem updatesProceed : Obligations.UpdatesProceed := by
  intro s h upd told parts
  have hshow : ∀ {c : Instr} {x : Service} {n st code msg : Nat} {body : List Byte}, st < 16 →
      exec c s = .next (s.ranOn (s.updatePut x n st code msg body)) → ∃ t, exec c s = .next t ∧ updateShown x n st code msg body s t :=
    fun hst hexec => ⟨_, hexec, (s.updatePut_shown _ _ hst _ _ _).ranOn⟩
  refine ⟨fun hup => ?_, fun hup => requestUpdate_refused h hup, fun hup cs => ?_, fun hup hst c size hknown hin h1 hsize => ?_,
    fun c data off hc hst hoff => ?_, fun c hc hst => ⟨fun hok => ?_, fun hok => ?_⟩, fun c hc hst hr => ?_, fun hc => verify_idle hc,
    fun hup hc => activateFirmware_closes h hup hc⟩
  · obtain ⟨t, hexec, hsvc, hout, hframe⟩ := requestUpdate_opens h hup
    exact ⟨t, hexec, by rw [hsvc], by rw [hsvc], by rw [hsvc], hout, hframe⟩
  · obtain ⟨body, t, hexec, hsvc, hout, hframe⟩ := passComponentTable_named h hup cs
    exact ⟨t, body, hexec, hsvc, hout, hframe⟩
  · obtain ⟨t, hexec, hsvc, htold, hout, hframe⟩ := hshow (by decide) (updateComponent_starts h hup hst hknown hin h1 hsize)
    exact ⟨t, hexec, hsvc, htold, hout, hframe⟩
  · intro at_ bs
    have hstored := s.dataStored_framed bs
    have hmem : ∀ {t : State}, t.mem.boot = memWrite s.mem.boot (s.svc.slot + at_) bs →
        memRead t.mem.boot (s.svc.slot + at_) bs.length = bs ∧ sameOutside (s.svc.slot + at_) [(0, bs.length)] s.mem.boot t.mem.boot := fun hboot => by
      rw [hboot]
      exact ⟨memRead_write _ _ _, sameOutside.write _ _ 0 _⟩
    have hexec : exec (.requestFirmwareData off data) s = .next (s.ranOn (if at_ + bs.length < s.svc.size then s.dataStored bs
        else ((s.dataStored bs).toUpdate c 2 0).mctpPut 0x10516 [0])) := requestFirmwareData_eq h data hc hst hoff
    by_cases hlast : at_ + bs.length < s.svc.size
    · rw [if_pos hlast] at hexec
      obtain ⟨hread, hsame⟩ := hmem (s.dataStored_boot bs)
      exact ⟨_, hexec, s.dataStored_svc bs, hread, hsame, fun _ => hstored.ranOn, fun hle => absurd hle (by omega)⟩
    · rw [if_neg hlast] at hexec
      have hup := (s.dataStored bs).toUpdate_framed c 2 0
      have hput := ((s.dataStored bs).toUpdate c 2 0).mctpPut_framed 0x10516 [0]
      have hall := ((hstored.widen (qs := .bootMem :: parts) (by simp [parts])).seq hup (by simp +contextual [parts]) (fun _ h => h)).seq hput
        (by simp [parts]) (by simp)
      obtain ⟨hread, hsame⟩ := hmem (((hput.1 .bootMem (by decide)).trans (hup.1 .bootMem (by decide))).trans (s.dataStored_boot bs))
      have hstate : (((s.dataStored bs).toUpdate c 2 0).mctpPut 0x10516 [0]).updateState = 2 := by
        unfold State.updateState
        rw [hput.fld List.not_mem_nil]
        exact State.toUpdate_state _ c (by decide) 0
      refine ⟨_, hexec, ?_, hread, hsame, fun hlt => absurd hlt hlast, fun _ => ⟨⟨hstate, ?_⟩, ?_, hall.ranOn⟩⟩
      · rw [State.ranOn_svc, hput.1 .svc (by decide), hup.1 .svc (by decide), State.dataStored_svc]
      · rw [State.ranOn_events, hput.1 .events (by decide), State.toUpdate_events, hstored.1 .events (by decide)]
      · rw [State.ranOn_out, State.mctpPut_out, hup.1 .out (by decide), hstored.1 .out (by decide)]
  · obtain ⟨t, hexec, hsvc, htold, hout, hframe⟩ := hshow (by decide) (verifyComplete_ok hc hst hok)
    exact ⟨t, hexec, htold, hsvc, hout, hframe⟩
  · obtain ⟨t, hexec, hsvc, htold, hout, hframe⟩ := hshow (by decide) (verifyComplete_fails hc hst hok)
    exact ⟨t, hexec, htold, hsvc, hout, hframe⟩
  · obtain ⟨t, hexec, hsvc, htold, hout, hframe⟩ := hshow (by decide) (applyComplete_ok hc hst hr)
    exact ⟨t, hexec, htold, hsvc, hout, hframe⟩

end Sys2Proof.Machine
end

section
/-! SUPPORT. Start-up: what its steps may change (R326, R456, R462, R474). -/

namespace Sys2Proof.Machine

set_option Elab.async false

variable {s t u : State} {ps : List Part} {ks : List Nat} {off hi lo : Nat} {α : Type}

/-! ### Units and their tests -/

theorem State.fenceUnit_changes (s : State) (off : Nat) : changesOnly [.regs] s (s.fenceUnit off) :=
  .ite (fun _ => .refl) fun _ => changesOnly.refl.setFld

theorem State.showCapacity_changes (s : State) : changesOnly [.regs] s s.showCapacity := by
  unfold State.showCapacity
  exact changesOnly.refl.setReg.trans (.foldl _ _ (fun _ _ => changesOnly.refl.setReg) _)

theorem State.fenceGal_changes (s : State) (g cause : Nat) : changesOnly eventParts s (s.fenceGal g cause) := by
  have hfenced : changesOnly [.regs] s (((galUnits g).foldl State.fenceUnit s).setFld Reg.ERR_GAL_FENCE (4 * g + 3) (4 * g) cause) :=
    (changesOnly.foldl State.fenceUnit _ State.fenceUnit_changes s).setFld
  exact .ite (fun _ => .refl) fun _ => ((hfenced.trans (State.showCapacity_changes _)).widen (by simp [eventParts])).seq
    (State.raiseAll_framed ..).1 (fun _ h => h)

/-- A block that failed shown in its own register. -/
def State.failShown (s : State) (off : Option Nat) : State := match off with
  | some o => s.setFld o 31 30 3
  | none => s

theorem State.failShown_changes (s : State) (off : Option Nat) : changesOnly [.regs] s (s.failShown off) := by
  cases off with
  | some o => exact changesOnly.refl.setFld
  | none => exact .refl

theorem State.selfTestFail_changes (s : State) (domain g unit : Nat) : changesOnly eventParts s (s.selfTestFail domain g unit) := by
  have htold : ∀ (off : Option Nat) (ws : List Word), changesOnly eventParts s ((s.failShown off).raiseAll 0x7002 ws) := fun off ws =>
    ((s.failShown_changes off).widen (by simp [eventParts])).seq (State.raiseAll_framed ..).1 (fun _ h => h)
  exact .ite (fun _ => .refl) fun _ => .ite (fun _ => (htold _ _).trans (State.fenceGal_changes _ _ _)) fun _ => htold _ _

theorem State.selfTest_changes (s : State) (fails : List (BitVec 4 × BitVec 3 × BitVec 5)) :
    changesOnly (.reqs :: .insts :: eventParts) s (s.selfTest fails) := by
  have hon : changesOnly [.regs] s ((List.range 8).foldl (fun u g => (galUnits g).foldl (fun v o => v.setFld o 31 30 1) u) s) :=
    .foldl _ _ (fun _ g => .foldl _ _ (fun _ _ => changesOnly.refl.setFld) _) _
  have hshown : changesOnly (.reqs :: .insts :: eventParts) s
      ((List.range 8).foldl (fun u g => (galUnits g).foldl (fun v o => v.setFld o 31 30 1) u) s).showCapacity :=
    (hon.trans (State.showCapacity_changes _)).widen (by simp [eventParts])
  have htested := hshown.trans (.foldl (fun (u : State) (f : BitVec 4 × BitVec 3 × BitVec 5) => u.selfTestFail f.1.toNat f.2.1.toNat f.2.2.toNat) fails
    (fun v f => (v.selfTestFail_changes _ _ _).widen (by simp +contextual)) _)
  exact (htested.seq (State.showCapacity_changes _) (by simp [eventParts])).trans (State.variantStep_silent_changes _)

/-! ### Drives -/

theorem State.setDrive_changes (s : State) (d st width cause cap : Nat) : changesOnly [.regs] s (s.setDrive d st width cause cap) :=
  (s.setDrive_framed d st width cause cap).1

/-- A drive's capacity counted. -/
def State.mibSet (s : State) (m : SMap Nat) : State := { s with ls := { s.ls with driveMib := m } }

theorem State.mibSet_changes (s : State) (m : SMap Nat) : changesOnly [.driveMib] s (s.mibSet m) := fun p hp => by
  cases p <;> first | (simp at hp; done) | rfl

theorem State.enumerate_changes (s : State) (d identify width cap : Nat) (inUse : Bool) :
    changesOnly (.driveMib :: .freeCtr :: eventParts) s (s.enumerate d identify width cap inUse) := by
  have hset : ∀ st cause, changesOnly (.driveMib :: .freeCtr :: eventParts) s (s.setDrive d st width cause cap) := fun st cause =>
    (s.setDrive_changes d st width cause cap).widen (by simp [eventParts])
  exact .ite (fun _ => .ite (fun _ => (hset 1 0).seq (State.mibSet_changes _ _) (by simp)) fun _ => .refl)
    fun _ => (hset 2 _).seq (State.driveFault_framed ..).1 (by simp +contextual)

theorem State.startDrives_changes (s : State) (drives : List (BitVec 3 × BitVec 2 × BitVec 3 × BitVec 34)) :
    changesOnly (.driveMib :: .freeCtr :: eventParts) s (s.startDrives drives) := by
  have hnone : changesOnly (.driveMib :: .freeCtr :: eventParts) s ((List.range 8).foldl (fun u d => u.setDrive d 0 0 0 0) (s.mibSet [])) :=
    ((s.mibSet_changes []).widen).trans (.foldl _ _ (fun v d => (v.setDrive_changes d 0 0 0 0).widen (by simp [eventParts])) _)
  exact hnone.trans (.foldl _ _ (fun v x => .ite (fun _ => v.enumerate_changes _ _ _ _ _) fun _ => .refl) _)

/-! ### The default flight -/

theorem State.setSlots_changes (s : State) (p : Nat) (x : FlightSlots) : changesOnly [.flights] s (s.setSlots p x) :=
  .ite (fun _ => (framed_flights s _).1) fun _ => (framed_flights s _).1

theorem State.slotsSwitched_changes (s : State) (p : Nat) (f : Flight) : changesOnly [.flights] s (s.slotsSwitched p f) := by
  have hset := s.setSlots_changes p { FlightSlots.empty with active := some f, staged := (s.slotsOf p).active }
  unfold State.slotsSwitched
  exact (changesOnly.ite (fun _ => hset) fun _ => .ite (fun _ => hset.trans (framed_flights _ _).1) fun _ => hset.trans (framed_flights _ _).1).trans
    (framed_flights _ _).1

/-- The parts that the default flight may change. -/
def flightParts : List Part := [.flights, .period, .trust, .freeCtr, .reqs, .insts] ++ eventParts

theorem State.switchShown_changes (s : State) (p : Nat) (f : Flight) (had : Bool) : changesOnly [.regs, .period, .trust, .freeCtr] s (s.switchShown p f had) := by
  have hshown : changesOnly [.regs, .period, .trust, .freeCtr] s (if s.flights.load.isSome then s
    else s.setReg Reg.FLT_ADMIT_STATUS ((s.reg Reg.FLT_ADMIT_STATUS).setField 31 2 (if had then 0xC000000 else 0))) :=
    .ite (fun _ => .refl) fun _ => changesOnly.refl.setReg
  unfold State.switchShown
  exact ((hshown.seq (framed_period _ _).1).seq (State.freshJobs_framed _ p).1).seq (State.showFlight_changes _)

theorem State.activateStaged_changes (s : State) (p : Nat) (f : Flight) : changesOnly flightParts s (s.activateStaged p f) := by
  obtain ⟨had, ws, heq⟩ := s.activateStaged_eq p f
  rw [heq]
  refine ((s.slotsSwitched_changes p f).widen (by simp [flightParts])).keepFlightsOf ?_
  exact ((State.switchShown_changes _ p f had).widen (by simp [flightParts, eventParts])).raisePf (by simp [flightParts, eventParts])

theorem State.applyPeriod_changes (s : State) : changesOnly [.period, .regs] s s.applyPeriod := by
  unfold State.applyPeriod
  split
  · exact ((framed_period s none).1.widen).setFld
  · exact .refl

theorem State.defaultFlight_changes (s : State) : changesOnly flightParts s s.defaultFlight := by
  unfold State.defaultFlight
  dsimp only
  refine .ite (fun _ => .refl) fun _ => ?_
  split
  · exact (s.reportRefusal_changes _).widen (by simp +contextual [flightParts])
  · next f _ =>
    have hstaged : changesOnly flightParts s (s.stage 0 (parseFlight (s.bootRead (0x1100000 + 0xA00000 * ((wordAt s.boot.cfg 44).field 1 0 - 1))
        (Nat.min (memNat s.mem.boot (0x1100000 + 0xA00000 * ((wordAt s.boot.cfg 44).field 1 0 - 1) + 8) 4) 0xA00000)))) :=
      (s.stage_changes 0 _).widen (by simp +contextual [flightParts])
    exact (((hstaged.trans (State.activateStaged_changes _ 0 _)).seq (State.applyPeriod_changes _) (by simp [flightParts, eventParts]))).keepFlightsOf
      ((State.variantStep_silent_changes _).widen (by simp +contextual [flightParts]))

end Sys2Proof.Machine
end

section
/-! SUPPORT. START_UP and HOST_LINK_TRAINS, and O60 (R326, R456, R462, R474). -/

namespace Sys2Proof.Machine

set_option Elab.async false

variable {s t u : State} {ps : List Part} {ks : List Nat} {off hi lo : Nat} {α : Type} {obs : StartObs}

/-! ### Up to the choice of the firmware -/

theorem foldl_reg_stays (f : State → α → State) (l : List α) (h : ∀ v, ∀ x ∈ l, (f v x).reg off = v.reg off) (s : State) :
    (l.foldl f s).reg off = s.reg off := by
  induction l generalizing s with
  | nil => rfl
  | cons x l ih => exact (ih (fun v y hy => h v y (List.mem_cons_of_mem _ hy)) _).trans (h s x List.mem_cons_self)

/-- Registers set one after another. -/
def State.setRegs (s : State) (at_ : Nat → Nat) (n : Nat) (w : Nat → Word) : State := (List.range n).foldl (fun u i => u.setReg (at_ i) (w i)) s

theorem State.setRegs_changes (s : State) (at_ : Nat → Nat) (n : Nat) (w : Nat → Word) : changesOnly [.regs] s (s.setRegs at_ n w) :=
  .foldl _ _ (fun _ _ => changesOnly.refl.setReg) _

theorem State.setRegs_reg (s : State) {at_ : Nat → Nat} {n : Nat} (h : ∀ i ∈ List.range n, off ≠ at_ i) (w : Nat → Word) :
    (s.setRegs at_ n w).reg off = s.reg off := foldl_reg_stays _ _ (fun v i hi => State.reg_setReg_ne v _ _ _ (h i hi)) s

theorem State.randomWords_eq (s : State) (at_ : Nat → Nat) (n : Nat) :
    s.randomWords at_ n = s.free.2.setRegs at_ n fun i => wordOf (s.free.1 / 2 ^ (32 * i)) := rfl

/-- The power side on and the wake taken. -/
def State.powerStarted (s : State) : State :=
  let pw := { s.pw with stopping := false, hallOn := true, v18 := true, lossTimer := false, alertLow := true }
  { s with pw := pw, svc := { s.svc with wakeReady := false } }

theorem State.powerStarted_framed (s : State) : framed [.pw, .svc] [] s s.powerStarted :=
  ⟨fun p hp => by cases p <;> first | (simp at hp; done) | rfl, .of_regs rfl⟩

/-- The supplies on from a feed, and the package that starts shown. -/
def State.suppliesOn (s : State) (feed : Nat) : State := (((s.closeFeed feed).setReg Reg.PWR_STATE 0).powerStarted).setFld Reg.RST_STATUS 31 28 1

theorem State.closeFeed_changes (s : State) (feed : Nat) : changesOnly [.regs, .pw] s (s.closeFeed feed) :=
  ((s.activeShown_framed feed).1.widen).seq (s.closeFeed_framed feed).1

theorem State.suppliesOn_changes (s : State) (feed : Nat) : changesOnly [.regs, .pw, .svc] s (s.suppliesOn feed) := by
  have hoff : changesOnly [.regs, .pw, .svc] s ((s.closeFeed feed).setReg Reg.PWR_STATE 0) := ((s.closeFeed_changes feed).widen).setReg
  exact (hoff.seq (State.powerStarted_framed _).1).setFld

theorem State.startSupplies_eq (s : State) : ∃ feed, s.startSupplies =
    (if s.packageOff ∧ !s.pw.stopping then (s.setFld Reg.RST_CAUSE 31 28 8).count Reg.RST_CAUSE 15 0 1 else s).suppliesOn feed := ⟨_, rfl⟩

theorem State.startSupplies_changes (s : State) : changesOnly [.regs, .pw, .svc] s s.startSupplies := by
  obtain ⟨feed, heq⟩ := s.startSupplies_eq
  rw [heq]
  exact (changesOnly.ite (fun _ => changesOnly.refl.setFld.setFld) fun _ => .refl).trans (State.suppliesOn_changes _ feed)

/-- The scan's result kept. -/
def State.scanned (s : State) (b : Bbx) : State := { s.setFld Reg.BBX_STATUS 31 30 1 with bbx := b }

theorem State.scanned_framed (s : State) (b : Bbx) : framed [.regs, .bbx] [Reg.BBX_STATUS] s (s.scanned b) :=
  ((s.setFld_framed Reg.BBX_STATUS 31 30 1).widen).seq (framed_bbx _ b)

theorem State.bbxScan_framed (s : State) (ok small : Bool) : framed eventParts eventRegs s (s.bbxScan ok small) :=
  .ite (fun _ => s.bbxFault_framed 0) fun _ => .ite (fun _ => s.bbxFault_framed 2) fun _ =>
    (s.scanned_framed _).widen (qs := eventParts) (js := eventRegs) (by simp [eventParts]) (by simp [eventRegs])

/-- The identity shown. -/
def State.identityShown (s : State) (digest : Nat → Word) : State :=
  let s2 := s.setRegs Reg.SEC_ID_DIGEST 8 digest
  { s2 with trust := { s2.trust with dik := dikKey } }

/-- No identity: the PUF's failure shown and told of. -/
def State.identityFailed (s : State) (cause : Nat) : State :=
  let s2 := { s with trust := { s.trust with pufCause := cause } }
  (s2.setFld Reg.SEC_STATUS 31 31 1).raisePf 0x6005 [wordOf cause]

theorem State.identity_eq (s : State) (obs : StartObs) : s.identity obs = if obs.pufOk then
    (s.randomWords Reg.SEC_DBG_NONCE 8).identityShown (wordAt (sha256Words dikKey)) else (s.randomWords Reg.SEC_DBG_NONCE 8).identityFailed obs.pufCause.toNat := rfl

theorem State.identityShown_changes (s : State) (digest : Nat → Word) : changesOnly [.regs, .trust] s (s.identityShown digest) :=
  ((s.setRegs_changes Reg.SEC_ID_DIGEST 8 digest).widen).seq (framed_trust _ _).1

theorem State.identityShown_reset (s : State) (digest : Nat → Word) : (s.identityShown digest).reg Reg.RST_STATUS = s.reg Reg.RST_STATUS := by
  have hset : (s.setRegs Reg.SEC_ID_DIGEST 8 digest).reg Reg.RST_STATUS = s.reg Reg.RST_STATUS := State.setRegs_reg s (by decide) digest
  unfold State.identityShown
  exact hset

theorem State.identityFailed_framed (s : State) (cause : Nat) : framed (.trust :: eventParts) (Reg.SEC_STATUS :: eventRegs) s (s.identityFailed cause) :=
  (((framed_trust s { s.trust with pufCause := cause }).widen (by simp) (by simp)).seq (State.setFld_framed _ Reg.SEC_STATUS 31 31 1) (by simp [eventParts])
    (by simp)).seq (State.raisePf_framed _ 0x6005 _) (by simp +contextual) (by simp +contextual)

theorem State.identity_changes (s : State) (obs : StartObs) : changesOnly (.trust :: .freeCtr :: eventParts) s (s.identity obs) := by
  have hnonce : changesOnly (.trust :: .freeCtr :: eventParts) s (s.randomWords Reg.SEC_DBG_NONCE 8) :=
    (s.randomWords_changes _ 8).widen (by simp [eventParts])
  rw [State.identity_eq]
  exact .ite (fun _ => hnonce.seq (State.identityShown_changes _ _) (by simp [eventParts]))
    fun _ => hnonce.seq (State.identityFailed_framed _ _).1 (by simp +contextual)

theorem State.identity_reset (s : State) (obs : StartObs) : (s.identity obs).reg Reg.RST_STATUS = s.reg Reg.RST_STATUS := by
  have hfree : s.free.2.reg Reg.RST_STATUS = s.reg Reg.RST_STATUS := s.free_framed.reg List.not_mem_nil
  have hnonce : (s.randomWords Reg.SEC_DBG_NONCE 8).reg Reg.RST_STATUS = s.reg Reg.RST_STATUS := by
    rw [State.randomWords_eq, State.setRegs_reg _ (by decide), hfree]
  rw [State.identity_eq]
  split
  · exact (State.identityShown_reset _ _).trans hnonce
  · exact ((State.identityFailed_framed _ _).reg (by decide)).trans hnonce

/-- START_UP up to the choice of the firmware. -/
def State.startIdentified (s : State) (obs : StartObs) : State :=
  ((s.startSupplies.setFld Reg.RST_STATUS 31 28 2).bbxScan obs.mramOk obs.mramSmall).identity obs

/-- The parts that START_UP may change before the firmware runs. -/
def startParts : List Part := [.pw, .svc, .trust, .freeCtr] ++ eventParts

theorem State.startIdentified_changes (s : State) (obs : StartObs) : changesOnly startParts s (s.startIdentified obs) := by
  have hshown : changesOnly startParts s (s.startSupplies.setFld Reg.RST_STATUS 31 28 2) :=
    (s.startSupplies_changes.widen (by simp [startParts, eventParts])).setFld (by simp [startParts, eventParts])
  exact (hshown.seq (State.bbxScan_framed _ _ _).1 (by simp +contextual [startParts])).seq (State.identity_changes _ obs) (by simp +contextual [startParts])

theorem State.startIdentified_reset (s : State) (obs : StartObs) : (s.startIdentified obs).fld Reg.RST_STATUS 31 28 = 2 := by
  have hreg : (s.startIdentified obs).reg Reg.RST_STATUS = (s.startSupplies.setFld Reg.RST_STATUS 31 28 2).reg Reg.RST_STATUS :=
    (State.identity_reset _ obs).trans ((State.bbxScan_framed _ _ _).reg (by decide))
  unfold State.fld
  rw [hreg]
  exact State.fld_setFld s.startSupplies _ 31 28 2 (by decide) (by decide)

/-- The state at the choice of the firmware. -/
def State.startChosen (s : State) (obs : StartObs) : State := s.keepFlights (s.startIdentified obs)

/-! ### No firmware -/

theorem startUp_idle (h : s.mayStart = false) : exec (.startUp obs) s = .next s :=
  (congrArg (keepQueue s) (if_pos (by rw [h]; rfl))).trans rfl

theorem startUp_recovers (h : s.mayStart = true)
    (hnone : obs.bootPresent = false ∨ ((s.startChosen obs).chooseFw (s.startChosen obs).romMinSvn).1 = none) :
    exec (.startUp obs) s = keepQueue s ((s.startChosen obs).keepFlights (s.startChosen obs).recoveryMode) := by
  refine congrArg (keepQueue s) ((if_neg (by rw [h]; decide)).trans ?_)
  show (match (if obs.bootPresent = true then (s.startChosen obs).chooseFw (if obs.bootPresent = true then (s.startChosen obs).romMinSvn else 0)
      else (none, none)) with
    | (none, _) => (s.startChosen obs).keepFlights (s.startChosen obs).recoveryMode
    | (some fw, fell) => (s.startChosen obs).startFirmware obs fw (if obs.bootPresent = true then (s.startChosen obs).romMinSvn else 0) fell) = _
  generalize s.startChosen obs = v at hnone
  cases hb : obs.bootPresent with
  | false => rfl
  | true =>
    have hfw := hnone.resolve_left (by rw [hb]; decide)
    show (match v.chooseFw v.romMinSvn with
      | (none, _) => v.keepFlights v.recoveryMode
      | (some fw, fell) => v.startFirmware obs fw v.romMinSvn fell) = _
    generalize v.chooseFw v.romMinSvn = p at hfw
    obtain ⟨fw, fell⟩ := p
    subst hfw
    rfl

theorem startUp_runs (h : s.mayStart = true) {fw : Nat} (hb : obs.bootPresent = true)
    (hfw : ((s.startChosen obs).chooseFw (s.startChosen obs).romMinSvn).1 = some fw) :
    ∃ minSvn fell, exec (.startUp obs) s = keepQueue s ((s.startChosen obs).startFirmware obs fw minSvn fell) := by
  refine ⟨(s.startChosen obs).romMinSvn, ((s.startChosen obs).chooseFw (s.startChosen obs).romMinSvn).2, ?_⟩
  refine congrArg (keepQueue s) ((if_neg (by rw [h]; decide)).trans ?_)
  show (match (if obs.bootPresent = true then (s.startChosen obs).chooseFw (if obs.bootPresent = true then (s.startChosen obs).romMinSvn else 0)
      else (none, none)) with
    | (none, _) => (s.startChosen obs).keepFlights (s.startChosen obs).recoveryMode
    | (some fw, fell) => (s.startChosen obs).startFirmware obs fw (if obs.bootPresent = true then (s.startChosen obs).romMinSvn else 0) fell) = _
  generalize s.startChosen obs = v at hfw
  rw [hb]
  show (match v.chooseFw v.romMinSvn with
    | (none, _) => v.keepFlights v.recoveryMode
    | (some fw, fell) => v.startFirmware obs fw v.romMinSvn fell) = _
  generalize v.chooseFw v.romMinSvn = p at hfw
  obtain ⟨fw', fell⟩ := p
  dsimp only at hfw
  subst hfw
  rfl

end Sys2Proof.Machine
end

section
/-! SUPPORT. What START_UP and HOST_LINK_TRAINS show, and O60 (R326, R456, R462, R474). -/

namespace Sys2Proof.Machine

set_option Elab.async false

variable {s t u v : State} {ps : List Part} {ks : List Nat} {off hi lo : Nat} {obs : StartObs}

/-! ### Recovery mode -/

theorem State.recoveryMode_eq (s : State) : s.recoveryMode = (s.zeroise 3).withPw { (s.zeroise 3).pw with recovery := true } := rfl

theorem State.recoveryMode_framed (s : State) :
    framed (.pw :: .trust :: .insts :: .reqs :: .lex :: .lexCopies :: eventParts) eventRegs s s.recoveryMode := by
  rw [State.recoveryMode_eq]
  exact ((s.zeroise_framed 3).widen (by simp +contextual) (by simp)).seq (State.withPw_framed _ _)

/-- Recovery mode: what runs, what is shown, and that no key is left. -/
def recoversAs (v t : State) : Prop := t.pw.recovery = true ∧ t.tk.running = v.tk.running ∧ t.fld Reg.RST_STATUS 31 28 = v.fld Reg.RST_STATUS 31 28
  ∧ (∀ n, t.keyAt n = KeySlot.empty) ∧ t.trust.copy0 = none ∧ t.trust.copy1 = none

theorem State.recoveryMode_recovers (s : State) : recoversAs s s.recoveryMode := by
  have htrust : s.recoveryMode.trust = s.keysCleared.trust := by
    rw [State.recoveryMode_eq, (State.withPw_framed _ _).1 .trust (by decide), State.zeroise_trust]
  refine ⟨?_, s.recoveryMode_framed.1 .running (by decide), s.recoveryMode_framed.fld (by decide), State.keyAt_none ?_, ?_, ?_⟩
  · rw [State.recoveryMode_eq, State.withPw_pw]
  · rw [htrust]
    rfl
  · rw [htrust]
    rfl
  · rw [htrust]
    rfl

theorem recoversAs.keepFlights (h : recoversAs v t) (w : State) : recoversAs v (w.keepFlights t) := h

theorem recoversAs.queueOf (h : recoversAs v t) (w : State) : recoversAs v (w.queueOf t) := h

/-! ### Firmware that runs -/

/-- The clock started with the self-test done. -/
def State.blocksTested (s : State) (obs : StartObs) : State := (s.startDrives obs.drives).stopExtest.selfTest obs.selfTestFails

/-- The clocks shown by a word, and the package whose blocks have been tested. -/
def State.clocksSet (s : State) (w : Word) : State := (s.setReg Reg.CLK_STATUS w).setFld Reg.RST_STATUS 31 28 5

theorem State.clocksSet_changes (s : State) (w : Word) : changesOnly [.regs] s (s.clocksSet w) := changesOnly.refl.setReg.setFld

/-- The clocks shown and the flights kept. -/
def State.clocksShown (s v : State) : State := s.keepFlights (v.clocksSet (wordOf (3 * 0x40000000 + 0xFF * 4096 + 2400)))

/-- Ticks run from 0. -/
def State.ticksStarted (s : State) : State := { s with tk := { s.tk with running := true, count := 0 } }

/-- The package that waits for its link. -/
def State.linkAwaited (s : State) : State := (s.ticksStarted.defaultFlight).setFld Reg.RST_STATUS 31 28 6

theorem State.startFirmware_eq (s : State) (obs : StartObs) (fw minSvn : Nat) (fell : Option (Nat × Nat)) :
    ∃ s7 : State, (obs.linkUp = true → s7.hs.linkUp = true) ∧ s.startFirmware obs fw minSvn fell =
      if obs.linkUp then (s.clocksShown (s7.blocksTested obs)).linkAwaited.ready else (s.clocksShown (s7.blocksTested obs)).linkAwaited := by
  unfold State.startFirmware
  dsimp only
  refine ⟨_, ?_, rfl⟩
  intro h
  rw [if_pos h]

theorem State.blocksTested_changes (s : State) (obs : StartObs) :
    changesOnly (.driveMib :: .freeCtr :: .jtag :: .reqs :: .insts :: eventParts) s (s.blocksTested obs) :=
  (((s.startDrives_changes obs.drives).widen (by simp +contextual)).seq (State.stopExtest_framed _).1).seq (State.selfTest_changes _ _)
    (by simp +contextual)

theorem State.keepFlights_changes (v w : State) : changesOnly [.flights, .tickCount] w (v.keepFlights w) := fun p hp => by
  cases p <;> first | (simp at hp; done) | rfl

theorem State.clocksShown_changes (v w : State) : changesOnly [.flights, .tickCount, .regs] w (v.clocksShown w) :=
  ((w.clocksSet_changes _).widen).seq (State.keepFlights_changes _ _)

/-- What a start-up that runs shows. -/
def runsFrom (n : Nat) (t : State) : Prop := t.tk.running = true ∧ t.tk.count = 0 ∧ t.fld Reg.RST_STATUS 31 28 = n

theorem State.linkAwaited_changes (s : State) : changesOnly flightParts s.ticksStarted s.linkAwaited :=
  (s.ticksStarted.defaultFlight_changes).setFld (by decide)

theorem State.linkAwaited_runs (s : State) : runsFrom 6 s.linkAwaited :=
  ⟨s.linkAwaited_changes .running (by decide), s.linkAwaited_changes .tickCount (by decide), State.fld_setFld _ _ 31 28 6 (by decide) (by decide)⟩

theorem State.linkAwaited_link (s : State) : s.linkAwaited.hs.linkUp = s.hs.linkUp := s.linkAwaited_changes .linkUp (by decide)

/-- READY recorded. -/
def State.readyShown (s : State) : State := (s.setFld Reg.RST_STATUS 31 28 7).bbxPut 4 none 0 [s.reg Reg.RST_CAUSE]

theorem State.ready_eq (s : State) : s.ready = s.readyShown.withPw { s.readyShown.pw with alertLow := false } := rfl

theorem State.readyShown_framed (s : State) : framed [.regs, .bbx] (Reg.RST_STATUS :: eventRegs) s s.readyShown :=
  ((s.setFld_framed Reg.RST_STATUS 31 28 7).widen).seq (State.bbxPut_framed _ _ _ _ _) (fun _ h => h) (by simp +contextual)

theorem State.ready_framed (s : State) : framed [.pw, .regs, .bbx] (Reg.RST_STATUS :: eventRegs) s s.ready := by
  rw [State.ready_eq]
  exact (s.readyShown_framed.widen (by simp) (by simp)).seq (State.withPw_framed _ _)

theorem State.ready_state (s : State) : s.ready.fld Reg.RST_STATUS 31 28 = 7 := by
  rw [State.ready_eq, (State.withPw_framed _ _).fld List.not_mem_nil]
  unfold State.readyShown
  rw [(State.bbxPut_framed _ _ _ _ _).fld (by decide), State.fld_setFld _ _ 31 28 _ (by decide) (by decide)]
  rfl

theorem State.ready_alert (s : State) : s.ready.pw.alertLow = false := by
  rw [State.ready_eq, State.withPw_pw]

theorem runsFrom.ready (h : runsFrom 6 t) : runsFrom 7 t.ready :=
  ⟨(t.ready_framed.1 .running (by decide)).trans h.1, (t.ready_framed.1 .tickCount (by decide)).trans h.2.1, t.ready_state⟩

/-- A start-up with firmware: ticks run from 0, and the package is READY or waits for its link. -/
theorem State.startFirmware_runs (s : State) (obs : StartObs) (fw minSvn : Nat) (fell : Option (Nat × Nat)) :
    runsFrom (if obs.linkUp then 7 else 6) (s.startFirmware obs fw minSvn fell)
    ∧ (obs.linkUp = true → (s.startFirmware obs fw minSvn fell).hs.linkUp = true ∧ (s.startFirmware obs fw minSvn fell).pw.alertLow = false) := by
  obtain ⟨s7, hlink, heq⟩ := s.startFirmware_eq obs fw minSvn fell
  rw [heq]
  have hup : (s.clocksShown (s7.blocksTested obs)).linkAwaited.hs.linkUp = s7.hs.linkUp := by
    rw [State.linkAwaited_link, State.clocksShown_changes s (s7.blocksTested obs) .linkUp (by decide),
      s7.blocksTested_changes obs .linkUp (by decide)]
  have hruns := (s.clocksShown (s7.blocksTested obs)).linkAwaited_runs
  generalize (s.clocksShown (s7.blocksTested obs)).linkAwaited = w at hup hruns
  cases hl : obs.linkUp with
  | true => exact ⟨hruns.ready, fun _ => ⟨(w.ready_framed.1 .linkUp (by decide)).trans (hup.trans (hlink hl)), w.ready_alert⟩⟩
  | false => exact ⟨hruns, fun h => absurd h (by decide)⟩

theorem runsFrom.queueOf {n : Nat} (h : runsFrom n t) (w : State) : runsFrom n (w.queueOf t) := h

/-! ### The link -/

/-- The link shown at a rate and a width. -/
def State.trainedShown (s : State) (rate width cxl : Nat) : State :=
  (((s.setFld Reg.WIN_LINK 31 28 rate).setFld Reg.WIN_LINK 27 23 width).setFld Reg.WIN_LINK 22 22 cxl).setFld Reg.CLK_STATUS 30 30 1

/-- The link up. -/
def State.linked (s : State) : State := { s with hs := { s.hs with linkUp := true } }

theorem State.linked_framed (s : State) : framed [.linkUp] [] s s.linked := framed_linkUp s true

theorem State.trainedShown_framed (s : State) (rate width cxl : Nat) : framed [.regs] [Reg.WIN_LINK, Reg.CLK_STATUS] s (s.trainedShown rate width cxl) :=
  ((((s.setFld_framed _ _ _ _).widen).seq (State.setFld_framed _ _ _ _ _)).seq (State.setFld_framed _ _ _ _ _)).seq (State.setFld_framed _ _ _ _ _)

theorem State.trainedShown_fields (s : State) {rate width cxl : Nat} (hr : rate < 16) (hw : width < 32) (hc : cxl < 2) :
    (s.trainedShown rate width cxl).fld Reg.WIN_LINK 31 28 = rate ∧ (s.trainedShown rate width cxl).fld Reg.WIN_LINK 27 23 = width
    ∧ (s.trainedShown rate width cxl).fld Reg.WIN_LINK 22 22 = cxl ∧ (s.trainedShown rate width cxl).fld Reg.CLK_STATUS 30 30 = 1 := by
  unfold State.trainedShown
  refine ⟨?_, ?_, ?_, State.fld_setFld _ _ 30 30 1 (by decide) (by decide)⟩
  · rw [(State.setFld_framed _ Reg.CLK_STATUS 30 30 1).fld (by decide), State.fld_setFld_ne _ _ 22 22 _ 31 28 (by decide) (by decide) (by decide),
      State.fld_setFld_ne _ _ 27 23 _ 31 28 (by decide) (by decide) (by decide), State.fld_setFld _ _ 31 28 _ (by decide) (by decide)]
    exact Nat.mod_eq_of_lt hr
  · rw [(State.setFld_framed _ Reg.CLK_STATUS 30 30 1).fld (by decide), State.fld_setFld_ne _ _ 22 22 _ 27 23 (by decide) (by decide) (by decide),
      State.fld_setFld _ _ 27 23 _ (by decide) (by decide)]
    exact Nat.mod_eq_of_lt hw
  · rw [(State.setFld_framed _ Reg.CLK_STATUS 30 30 1).fld (by decide), State.fld_setFld _ _ 22 22 _ (by decide) (by decide)]
    exact Nat.mod_eq_of_lt hc

theorem linkTrains_iff {rate width : Nat} : linkTrains rate width = true ↔ rate ∈ [1, 2, 3, 4, 5, 6] ∧ width ∈ [1, 2, 4, 8, 16] := by
  unfold linkTrains
  rw [Bool.and_eq_true, List.contains_iff_mem, List.contains_iff_mem]

theorem hostLinkTrains_idle {rate : BitVec 4} {width : BitVec 5} (cxl : Bool)
    (h : s.pw.hallOn = false ∨ s.pw.recovery = true ∨ ¬linkTrains rate.toNat width.toNat = true) : exec (.hostLinkTrains rate width cxl) s = .next s := by
  refine (congrArg (keep s) (if_pos ?_)).trans (keep_self s)
  rcases h with h | h | h
  · exact .inl (by rw [h]; rfl)
  · exact .inr (.inl h)
  · exact .inr (.inr (by rw [Bool.eq_false_iff.2 h]; rfl))

theorem hostLinkTrains_eq {rate : BitVec 4} {width : BitVec 5} (cxl : Bool) (hhall : s.pw.hallOn = true) (hr : s.pw.recovery = false)
    (h : linkTrains rate.toNat width.toNat = true) : exec (.hostLinkTrains rate width cxl) s =
      keep s (if s.fld Reg.RST_STATUS 31 28 = 6 then (s.trainedShown rate.toNat width.toNat (b2n cxl)).linked.ready
        else (s.trainedShown rate.toNat width.toNat (b2n cxl)).linked) := by
  refine congrArg (keep s) (if_neg ?_)
  rw [hhall, hr, h]
  decide

/-- A link that trains: its fields, its clock, and the package that is READY where it waited. -/
def linkTrained (rate width cxl : Nat) (s t : State) : Prop := t.hs.linkUp = true ∧ t.fld Reg.WIN_LINK 31 28 = rate ∧ t.fld Reg.WIN_LINK 27 23 = width
  ∧ t.fld Reg.WIN_LINK 22 22 = cxl ∧ t.fld Reg.RST_STATUS 31 28 = (if s.fld Reg.RST_STATUS 31 28 = 6 then 7 else s.fld Reg.RST_STATUS 31 28)
  ∧ t.fld Reg.CLK_STATUS 30 30 = 1 ∧ framed [.linkUp, .pw, .regs, .bbx] (Reg.WIN_LINK :: Reg.CLK_STATUS :: Reg.RST_STATUS :: eventRegs) s t

theorem linkTrained.kept {rate width cxl : Nat} (h : linkTrained rate width cxl s t) : linkTrained rate width cxl s (s.kept t) :=
  ⟨h.1, h.2.1, h.2.2.1, h.2.2.2.1, h.2.2.2.2.1, h.2.2.2.2.2.1, h.2.2.2.2.2.2.kept⟩

theorem State.linked_trained (s : State) {rate width cxl : Nat} (hr : rate < 16) (hw : width < 32) (hc : cxl < 2) :
    linkTrained rate width cxl s (if s.fld Reg.RST_STATUS 31 28 = 6 then (s.trainedShown rate width cxl).linked.ready else (s.trainedShown rate width cxl).linked) := by
  have hshown := s.trainedShown_framed rate width cxl
  obtain ⟨hrate, hwidth, hcxl, hclk⟩ := s.trainedShown_fields hr hw hc
  have hlinked : framed [.linkUp, .regs] [Reg.WIN_LINK, Reg.CLK_STATUS] s (s.trainedShown rate width cxl).linked :=
    (hshown.widen).seq (State.linked_framed _)
  have hfld : ∀ {off hi lo : Nat}, (s.trainedShown rate width cxl).linked.fld off hi lo = (s.trainedShown rate width cxl).fld off hi lo :=
    (State.linked_framed _).fld List.not_mem_nil
  have hup : (s.trainedShown rate width cxl).linked.hs.linkUp = true := rfl
  have hstatus : (s.trainedShown rate width cxl).linked.fld Reg.RST_STATUS 31 28 = s.fld Reg.RST_STATUS 31 28 := hlinked.fld (by decide)
  rw [← @hfld Reg.WIN_LINK] at hrate hwidth hcxl
  rw [← @hfld Reg.CLK_STATUS] at hclk
  generalize (s.trainedShown rate width cxl).linked = w at *
  have hready := w.ready_framed
  unfold linkTrained
  split
  · refine ⟨(hready.1 .linkUp (by decide)).trans hup, (hready.fld (by decide)).trans hrate, (hready.fld (by decide)).trans hwidth,
      (hready.fld (by decide)).trans hcxl, w.ready_state, (hready.fld (by decide)).trans hclk, ?_⟩
    exact (hlinked.widen (by simp) (by simp)).seq hready (by simp) (by simp +contextual)
  · exact ⟨hup, hrate, hwidth, hcxl, hstatus, hclk, hlinked.widen (by simp) (by simp)⟩

/-- Settles O60: start-up by what it comes to, and the link by what it shows. -/
theorem startUpRuns : Obligations.StartUpRuns := by
  intro s
  refine ⟨fun h obs => startUp_idle h, fun h obs => ?_, fun rate width cxl => ?_⟩
  · intro s1
    refine ⟨fun hnone => ?_, fun fw hb hfw => ?_⟩
    · have hchosen : changesOnly startParts s (s.startChosen obs) := (s.startIdentified_changes obs).keepFlights
      have hoff : s.tk.running = false := by
        unfold State.mayStart at h
        simp only [Bool.and_eq_true, Bool.not_eq_true'] at h
        exact h.1.1.2
      obtain ⟨hrec, hrun, hfld, hkeys, h0, h1⟩ := ((s.startChosen obs).recoveryMode_recovers.keepFlights (s.startChosen obs)).queueOf s
      exact ⟨_, startUp_recovers h hnone, hrec, hrun.trans ((hchosen .running (by decide)).trans hoff), hfld.trans (s.startIdentified_reset obs),
        hkeys, h0, h1, rfl⟩
    · obtain ⟨minSvn, fell, hexec⟩ := startUp_runs h hb hfw
      obtain ⟨hruns, hlink⟩ := (s.startChosen obs).startFirmware_runs obs fw minSvn fell
      generalize (s.startChosen obs).startFirmware obs fw minSvn fell = w at hexec hruns hlink
      obtain ⟨hrun, hcount, hfld⟩ := hruns.queueOf s
      exact ⟨_, hexec, hrun, hcount, hfld, hlink, rfl⟩
  · intro supported
    refine ⟨fun hidle => hostLinkTrains_idle cxl ?_, fun hhall hr hs => ?_⟩
    · exact hidle.imp_right fun h => h.imp_right fun h ht => h (linkTrains_iff.1 ht)
    · exact ⟨_, hostLinkTrains_eq cxl hhall hr (linkTrains_iff.2 hs),
        (s.linked_trained rate.isLt width.isLt (by cases cxl <;> decide : b2n cxl < 2)).kept⟩

end Sys2Proof.Machine
end

section
/-! SUPPORT. What resets keep, and O34 (R433, R443, R454, R455, R457, R501). -/

namespace Sys2Proof.Machine

set_option Elab.async false

variable {s t u : State} {ps : List Part} {ks : List Nat} {r : BbxRecord}

/-! ### A torn record -/

theorem natOfBytes_bytesOfNat (n v : Nat) : natOfBytes (bytesOfNat n v) = v % 256 ^ n := by
  induction n generalizing v with
  | zero => exact (Nat.mod_one v).symm
  | succ n ih =>
    have hbyte : (byteOf v).toNat = v % 256 := BitVec.toNat_ofNat v 8
    show (byteOf v).toNat + 256 * natOfBytes (bytesOfNat n (v / 256)) = v % 256 ^ (n + 1)
    rw [ih, hbyte, pow_succ', Nat.mod_mul]

/-- The bytes of a record whose CRC is off by a value. -/
def tornBytes (r : BbxRecord) (f : Nat) : List Byte :=
  (bbxBytes r).take 252 ++ bytesOfNat 4 (natOfBytes ((bbxBytes r).drop 252) + 1 + f % 0xFFFFFFFF)

theorem tornBytes_length (h : (bbxBytes r).length = 256) (f : Nat) : (tornBytes r f).length = 256 := by
  unfold tornBytes
  rw [List.length_append, List.length_take, bytesOfNat_length, h]
  rfl

/-- The last four bytes of a torn record are not those of the record. -/
theorem tornBytes_ne (h : (bbxBytes r).length = 256) (f : Nat) : tornBytes r f ≠ bbxBytes r := by
  intro heq
  have htail : (tornBytes r f).drop 252 = bytesOfNat 4 (natOfBytes ((bbxBytes r).drop 252) + 1 + f % 0xFFFFFFFF) :=
    List.drop_left' (by rw [List.length_take, h]; rfl)
  have hcrc := congrArg natOfBytes (htail.symm.trans (congrArg (List.drop 252) heq))
  rw [natOfBytes_bytesOfNat] at hcrc
  have hoff : f % 0xFFFFFFFF < 0xFFFFFFFF := Nat.mod_lt _ (by decide)
  generalize natOfBytes ((bbxBytes r).drop 252) = n at hcrc
  omega

/-! ### The black box as power is lost -/

theorem State.bbxDrain_idle (h : s.bbx.queue = [] ∨ s.fld Reg.BBX_STATUS 31 30 ≠ 1) (fuel : Nat) : s.bbxDrain (fuel + 1) = s := by
  unfold State.bbxDrain
  split
  · rfl
  · next hq => exact if_pos (h.resolve_left (by rw [hq]; simp))

/-- A queue of records that wait. -/
def State.bbxQueued (s : State) (q : List BbxRecord) : State := { s with bbx := { s.bbx with queue := q } }

theorem State.bbxQueued_framed (s : State) (q : List BbxRecord) : framed [.bbx] [] s (s.bbxQueued q) := framed_bbx s _

theorem State.bbxQueued_queue (s : State) (q : List BbxRecord) : (s.bbxQueued q).bbx.queue = q := rfl

theorem State.bbxQueued_fld (s : State) (q : List BbxRecord) (off hi lo : Nat) : (s.bbxQueued q).fld off hi lo = s.fld off hi lo := rfl

theorem State.bbxLose_eq (s : State) : s.bbxLose =
    (((s.bbxQueued s.bbx.queue.dropLast).bbxDrain 66).bbxQueued (s.bbx.queue.drop (s.bbx.queue.length - 1))).bbxTear := rfl

theorem State.bbxTear_idle (h : s.bbx.queue = [] ∨ s.fld Reg.BBX_STATUS 31 30 ≠ 1) : s.bbxTear = s := by
  unfold State.bbxTear
  split
  · rfl
  · next hq => exact if_pos (h.resolve_left fun hnil => by rw [hnil] at hq; simp at hq)

theorem State.bbxTear_torn (hq : s.bbx.queue.head? = some r) (h : s.fld Reg.BBX_STATUS 31 30 = 1) :
    s.bbxTear = s.free.2.bbxStore (bbxOffset r.seq) (tornBytes r s.free.1) := by
  unfold State.bbxTear
  rw [hq]
  exact if_neg (not_not.2 h)

theorem State.bbxTear_framed (s : State) : framed [.mram, .freeCtr] [] s s.bbxTear := by
  unfold State.bbxTear
  split
  · exact .refl
  · exact .ite (fun _ => .refl) fun _ => (s.free_framed.widen).seq (State.bbxStore_framed _ _ _)

theorem State.bbxLose_framed (s : State) : framed [.mram, .freeCtr, .bbx, .regs] eventRegs s s.bbxLose := by
  rw [State.bbxLose_eq]
  exact ((((s.bbxQueued_framed _).widen).seq (State.bbxDrain_framed 66 _) (by simp) (fun _ h => h)).seq (State.bbxQueued_framed _ _)).seq
    (State.bbxTear_framed _)

theorem State.bbxLose_idle (h : s.bbx.queue = [] ∨ s.fld Reg.BBX_STATUS 31 30 ≠ 1) : s.bbxLose.mem.mram = s.mem.mram := by
  have hidle : (s.bbxQueued s.bbx.queue.dropLast).bbx.queue = [] ∨ (s.bbxQueued s.bbx.queue.dropLast).fld Reg.BBX_STATUS 31 30 ≠ 1 :=
    h.imp_left fun hq => by rw [State.bbxQueued_queue, hq]; rfl
  have hdrain : (s.bbxQueued s.bbx.queue.dropLast).bbxDrain 66 = s.bbxQueued s.bbx.queue.dropLast := State.bbxDrain_idle hidle 65
  rw [State.bbxLose_eq, hdrain, State.bbxTear_idle]
  · rw [(State.bbxQueued_framed _ _).1 .mram (by decide), (State.bbxQueued_framed _ _).1 .mram (by decide)]
  · exact h.imp_left fun hq => by rw [State.bbxQueued_queue, hq]; rfl

theorem State.bbxLose_torn (hq : s.bbx.queue = [r]) (h : s.fld Reg.BBX_STATUS 31 30 = 1) :
    ∃ f, s.bbxLose.mem.mram = memWrite s.mem.mram (bbxOffset r.seq) (tornBytes r f) := by
  have hdrain : (s.bbxQueued s.bbx.queue.dropLast).bbxDrain 66 = s.bbxQueued s.bbx.queue.dropLast :=
    State.bbxDrain_idle (.inl (by rw [State.bbxQueued_queue, hq]; rfl)) 65
  have hmram : ((s.bbxQueued s.bbx.queue.dropLast).bbxQueued (s.bbx.queue.drop (s.bbx.queue.length - 1))).mem.mram = s.mem.mram := by
    rw [(State.bbxQueued_framed _ _).1 .mram (by decide), (State.bbxQueued_framed _ _).1 .mram (by decide)]
  have hfld : ((s.bbxQueued s.bbx.queue.dropLast).bbxQueued (s.bbx.queue.drop (s.bbx.queue.length - 1))).fld Reg.BBX_STATUS 31 30 = 1 := by
    rw [State.bbxQueued_fld, State.bbxQueued_fld, h]
  have hhead : ((s.bbxQueued s.bbx.queue.dropLast).bbxQueued (s.bbx.queue.drop (s.bbx.queue.length - 1))).bbx.queue.head? = some r := by
    rw [State.bbxQueued_queue, hq]
    rfl
  rw [State.bbxLose_eq, hdrain]
  generalize (s.bbxQueued s.bbx.queue.dropLast).bbxQueued (s.bbx.queue.drop (s.bbx.queue.length - 1)) = v at hmram hfld hhead ⊢
  have hfree : v.free.2.mem.mram = v.mem.mram := v.free_framed.1 .mram (by decide)
  refine ⟨v.free.1, ?_⟩
  rw [State.bbxTear_torn hhead hfld]
  show memWrite v.free.2.mem.mram _ _ = _
  rw [hfree, hmram]

/-! ### Power lost -/

/-- What is left without the standby supply. -/
def State.powerLost (s : State) : State :=
  let z := State.reset
  let mem := { Mems.empty with host := s.mem.host, flash := s.mem.flash, boot := s.mem.boot, mram := s.mem.mram }
  let trust := { z.trust with copy0 := s.trust.copy0, copy1 := s.trust.copy1 }
  { z with pending := s.pending, mem := mem, out := s.out, images := s.images, trust := trust, freeCtr := s.freeCtr }

theorem State.losePower_eq (s : State) : s.losePower = s.bbxLose.powerLost := rfl

/-- A state at reset but for what the loss of power leaves. -/
def keptAtLoss (s t : State) : Prop := (∀ copy off, t.regC copy off = regDefault (regKey copy off)) ∧ t.tk = State.reset.tk ∧ t.hs = State.reset.hs
  ∧ t.ls = State.reset.ls ∧ t.flights = State.reset.flights ∧ t.mem.hbm = [] ∧ t.mem.sp = [] ∧ t.mem.mram = s.mem.mram ∧ t.mem.boot = s.mem.boot
  ∧ t.mem.flash = s.mem.flash ∧ t.mem.host = s.mem.host ∧ t.images = s.images

theorem State.powerLost_kept (s : State) : keptAtLoss s s.powerLost := by
  unfold keptAtLoss State.powerLost
  exact ⟨fun _ _ => rfl, rfl, rfl, rfl, rfl, rfl, rfl, rfl, rfl, rfl, rfl, rfl⟩

theorem keptAtLoss.queueOf (h : keptAtLoss s t) (w : State) : keptAtLoss s (w.queueOf t) := h

theorem exec_losePower {c : Instr} (hc : c = .powerOnReset ∨ c = .standbySupplyLost) (s : State) : exec c s = keepQueue s s.losePower := by
  rcases hc with rfl | rfl <;> rfl

/-! ### RST_PACKAGE in P3 -/

theorem State.writeRstPackage_p3 (h : s.fld Reg.PWR_STATE 31 29 = 3) : s.writeRstPackage 0x52535450 = (s.packageReset 8).heldOff :=
  (if_neg (not_not.2 rfl)).trans (if_pos h)

/-- A package held after a reset from P3. -/
def heldAs (cause : Nat) (s t : State) : Prop := t.fld Reg.RST_CAUSE 31 28 = cause ∧ t.tk.running = false ∧ t.pw.stopping = true ∧ t.events = []
  ∧ t.mem.hbm = [] ∧ t.mem.host = s.mem.host ∧ t.mem.flash = s.mem.flash

theorem heldAs.stopped {cause : Nat} (h : heldAs cause s t) : heldAs cause s (s.stopped t) := h

theorem State.packageKept_bare (s : State) : s.packageKept.events = [] ∧ s.packageKept.mem.hbm = [] := by
  unfold State.packageKept
  exact ⟨rfl, rfl⟩

theorem heldAs.of_reset {cause : Nat} (h : framed ps ks s.packageKept t) (hp : ∀ p ∈ [Part.running, .events, .hbm, .host, .flash], p ∉ ps)
    (hcause : t.fld Reg.RST_CAUSE 31 28 = cause) : heldAs cause s t.heldOff := by
  obtain ⟨hrun, -, hhost, hflash, -, -⟩ := s.packageKept_keeps
  obtain ⟨hevents, hhbm⟩ := s.packageKept_bare
  have hr : t.tk.running = s.packageKept.tk.running := h.1 .running (hp _ (by simp))
  have he : t.events = s.packageKept.events := h.1 .events (hp _ (by simp))
  have hm : t.mem.hbm = s.packageKept.mem.hbm := h.1 .hbm (hp _ (by simp))
  have hh : t.mem.host = s.packageKept.mem.host := h.1 .host (hp _ (by simp))
  have hf : t.mem.flash = s.packageKept.mem.flash := h.1 .flash (hp _ (by simp))
  exact ⟨hcause, hr.trans hrun, rfl, he.trans hevents, hm.trans hhbm, hh.trans hhost, hf.trans hflash⟩

theorem State.packageReset_held (s : State) {cause : Nat} (hc : cause < 16) : heldAs cause s (s.packageReset cause).heldOff :=
  heldAs.of_reset (s.packageReset_framed cause) (by decide) (s.packageReset_cause hc)

/-- Settles O34: a reset from P3 by what it holds, the loss of power by what it leaves of memory, registers and the black box. -/
theorem resetsKeep : Obligations.ResetsKeep := by
  refine ⟨fun s h => ?_, fun c s hc => ?_⟩
  · exact ⟨_, (congrArg (stopOutcome s) (State.writeRstPackage_p3 h)).trans (stopOutcome_eq _ _), (s.packageReset_held (by decide)).stopped⟩
  · have hlost := s.bbxLose_framed
    obtain ⟨hregs, htk, hhs, hls, hflights, hhbm, hsp, hmram, hboot, hflash, hhost, himages⟩ := s.bbxLose.powerLost_kept.queueOf s
    refine ⟨_, (exec_losePower hc s).trans (keepQueue_eq _ _), ?_⟩
    rw [State.losePower_eq]
    generalize hw : s.queueOf s.bbxLose.powerLost = w at *
    have hpending : w.pending = s.pending := by
      rw [← hw]
      rfl
    refine ⟨hregs, htk, hhs, hls, hflights, hhbm, hsp, hmram, hboot.trans (hlost.1 .bootMem (by decide)), hflash.trans (hlost.1 .flash (by decide)),
      hhost.trans (hlost.1 .host (by decide)), himages.trans (hlost.1 .images (by decide)), hpending,
      fun hidle => hmram.trans (State.bbxLose_idle hidle), fun r hq hrec hlen => ?_⟩
    obtain ⟨f, htorn⟩ := State.bbxLose_torn hq hrec
    have hlen' := tornBytes_length hlen f
    have hread := memRead_write s.mem.mram (bbxOffset r.seq) (tornBytes r f)
    have hsame := sameOutside.write s.mem.mram (bbxOffset r.seq) 0 (tornBytes r f)
    rw [hlen'] at hread hsame
    rw [hmram, htorn]
    exact ⟨hsame, by rw [hread]; exact tornBytes_ne hlen f⟩

end Sys2Proof.Machine
end

section
/-! SUPPORT. The parts of a landing: switches, phase E, the next tick's start (R27, R34, R48, R102, R144, R294, R347, R414). -/

namespace Sys2Proof.Machine

set_option Elab.async false

variable {s t u v : State} {ps : List Part} {ks : List Nat} {p : Nat}

/-! ### TCK_COUNT until the landing advances it -/

theorem State.applySwitch_count (s : State) (p : Nat) : (s.applySwitch p).tk.count = s.tk.count := by
  cases hf : (s.slotsOf p).staged with
  | none =>
    have hdrop : s.applySwitch p = s.dropSwitch p := by
      unfold State.applySwitch
      rw [hf]
    rw [hdrop]
    exact s.dropSwitch_changes p .tickCount (by decide)
  | some f =>
    cases hfit : s.switchFits (s.flightsAfter p f) with
    | false =>
      rw [State.applySwitch_unfit hf hfit]
      exact s.dropSwitch_changes p .tickCount (by decide)
    | true =>
      have hactive : ((s.seatsEnded p).activateStaged p f).tk.count = (s.seatsEnded p).tk.count :=
        State.activateStaged_changes _ p f .tickCount (by decide)
      rw [State.applySwitch_fit hf hfit]
      exact hactive

theorem State.switchOne_count (s : State) (commits : Bool) (w : Switch) : (s.switchOne commits w).tk.count = s.tk.count := by
  unfold State.switchOne
  split
  · exact s.applySwitch_count _
  · rfl

theorem State.switchLanding_count (s : State) (commits : Bool) : (s.switchLanding commits).tk.count = s.tk.count := by
  unfold State.switchLanding
  generalize s.flights.switches = l
  induction l generalizing s with
  | nil => rfl
  | cons w l ih => exact (ih _).trans (s.switchOne_count commits w)

/-! ### Phase E -/

theorem State.setSlots_v3 (s : State) (p : Nat) (x : FlightSlots) : (s.setSlots p x).flights.v3 = if p = 0 then x else s.flights.v3 := by
  unfold State.setSlots
  dsimp only
  split <;> rfl

theorem State.stage_v3 (s : State) (p : Nat) (f : Flight) : (s.stage p f).flights.v3.active = s.flights.v3.active := by
  have hpass : (s.passShown f).flights = s.flights := s.passShown_changes f .flights (by decide)
  rw [State.stage_eq, (State.raisePf_framed ..).1 .flights (by decide)]
  unfold State.slotStaged
  rw [State.setSlots_v3, hpass]
  split
  · next hp =>
    unfold State.slotsOf
    rw [if_pos hp, hpass]
  · rfl

/-- A load that no landing has to look at leaves the flights. -/
theorem State.loadStep_none (h : s.flights.load = none) : s.loadStep = s := by
  unfold State.loadStep
  rw [h]

theorem State.loadStep_v3 (s : State) : s.loadStep.flights.v3.active = s.flights.v3.active := by
  have hload : (s.setLoad none).flights.v3 = s.flights.v3 := rfl
  unfold State.loadStep
  split
  · rfl
  · split
    · exact congrArg (·.v3.active) ((State.setFld_framed _ _ _ _ _).1 .flights (by decide))
    · split
      · split
        · rfl
        · rw [State.stage_v3, hload]
      · rfl

/-- The window's snapshot is what the window holds. -/
theorem State.phaseE_seen (s : State) (replayed : Bool) :
    (s.phaseE replayed).mem.seen = (s.phaseE replayed).mem.win ∧ (s.phaseE replayed).mem.seenM = (s.phaseE replayed).mem.winM := ⟨rfl, rfl⟩

/-! ### The fetch budgets of the next tick -/

theorem State.progress_changes (s : State) (x : Work × Nat) : changesOnly [.insts, .fills, .train, .lex, .lexCopies] s (s.progress x) := by
  unfold State.progress
  split
  · exact (s.updInst_framed _ _).1.widen
  · exact (framed_fills s _).1.widen
  · exact (s.setTrain_framed _ _).1.widen
  · exact (s.setLex_framed _ _).1.widen

/-- What was left of the budgets has gone into the work in hand. -/
def State.workServed (s : State) : State :=
  ((List.range 64).filter (· != 0)).foldl (fun (u : State) n => ((u.shares n).filter fun x => x.2 != 0).foldl State.progress u) s

theorem State.workServed_changes (s : State) : changesOnly [.insts, .fills, .train, .lex, .lexCopies] s s.workServed :=
  .foldl _ _ (fun _ _ => .foldl _ _ (fun w x => w.progress_changes x) _) _

/-- The bytes that went past the budgets of the last tick. -/
def State.pastBudget (s : State) : SMap Nat := (s.ls.fetched.map fun p => (p.1, p.2 - s.fetchBudget p.1)).filter fun p => p.2 != 0

/-- The bytes charged. -/
def State.fetchedSet (s : State) (m : SMap Nat) : State := { s with ls := { s.ls with fetched := m } }

theorem State.engineTick_eq (s : State) : s.engineTick = s.workServed.fetchedSet s.pastBudget := by
  unfold State.engineTick State.workServed State.pastBudget State.fetchedSet
  with_reducible rfl

theorem State.fetchedSet_fetched (s : State) (m : SMap Nat) : (s.fetchedSet m).ls.fetched = m := rfl

theorem State.engineTick_fetched (s : State) : s.engineTick.ls.fetched = s.pastBudget := by
  rw [State.engineTick_eq, State.fetchedSet_fetched]

theorem State.engineTick_changes (s : State) : changesOnly [.insts, .fills, .train, .lex, .lexCopies, .fetched] s s.engineTick := by
  rw [State.engineTick_eq]
  exact (s.workServed_changes.widen).seq (framed_fetched _ _).1

theorem State.pastBudget_pos (s : State) : ∀ p ∈ s.pastBudget, p.2 ≠ 0 := fun p hp => by
  simpa using (List.mem_filter.1 hp).2

/-- Values changed by their keys, those that are 0 left out: a key reads what its value became. -/
theorem smGet_map_ne_zero (g : Nat → Nat → Nat) (h0 : ∀ k, g k 0 = 0) (m : SMap Nat) (hm : (m.map (·.1)).Nodup) (n : Nat) :
    smGet (fun _ => 0) ((m.map fun p => (p.1, g p.1 p.2)).filter fun p => p.2 != 0) n = g n (smGet (fun _ => 0) m n) := by
  induction m with
  | nil => exact (h0 n).symm
  | cons p m ih =>
    obtain ⟨k, x⟩ := p
    obtain ⟨hk, hrest⟩ := List.nodup_cons.1 hm
    have hread : smGet (fun _ => 0) ((k, x) :: m) n = if n = k then x else smGet (fun _ => 0) m n := rfl
    rw [hread, List.map_cons]
    by_cases hn : n = k
    · subst hn
      rw [if_pos rfl]
      by_cases hz : g n x = 0
      · have hgone : smGet (fun _ => 0) m n = 0 := smGet_unlisted _ _ _ (Bool.eq_false_iff.2 fun hany => by
          obtain ⟨q, hq, hqn⟩ := List.any_eq_true.1 hany
          exact hk (List.mem_map.2 ⟨q, hq, beq_iff_eq.1 hqn⟩))
        rw [List.filter_cons_of_neg (by simp [hz]), ih hrest, hgone, h0, hz]
      · rw [List.filter_cons_of_pos (by simpa using hz)]
        exact if_pos rfl
    · rw [if_neg hn, ← ih hrest]
      by_cases hz : g k x = 0
      · rw [List.filter_cons_of_neg (by simp [hz])]
      · rw [List.filter_cons_of_pos (by simpa using hz)]
        exact if_neg hn

theorem State.engineTick_budget (h : (s.ls.fetched.map (·.1)).Nodup) (n : Nat) :
    smGet (fun _ => 0) s.engineTick.ls.fetched n = smGet (fun _ => 0) s.ls.fetched n - s.fetchBudget n := by
  rw [State.engineTick_fetched]
  exact smGet_map_ne_zero (fun k x => x - s.fetchBudget k) (fun _ => Nat.zero_sub _) _ h n

/-! ### The start of the next tick -/

theorem State.partitionMode_of (h : t.flights = s.flights) : t.partitionMode = s.partitionMode := by
  unfold State.partitionMode State.pairSlots
  rw [h]

/-- The marks of the next tick. -/
def State.marksSet (s : State) : State :=
  { s with tk := { s.tk with replay := s.tk.replayNext, lateMark := s.tk.replayNext, replayNext := false }, hs := { s.hs with readCount := [] } }

theorem State.marksSet_changes (s : State) : changesOnly [.replay, .lateMark, .replayNext, .readCount] s s.marksSet := fun p hp => by
  cases p <;> first | (simp at hp; done) | rfl

theorem State.marksSet_marks (s : State) : s.marksSet.tk.replayNext = false ∧ s.marksSet.tk.lateMark = s.marksSet.tk.replay := ⟨rfl, rfl⟩

/-- Accumulators and scale registers afresh. -/
def State.accCleared (s : State) : State := { s with mem := { s.mem with acc := [], scale := [] } }

theorem State.accCleared_changes (s : State) : changesOnly [.acc, .scale] s s.accCleared := fun p hp => by
  cases p <;> first | (simp at hp; done) | rfl

theorem State.restoreWindow_plain (h : s.partitionMode = false) : s.restoreWindow = s.accCleared := if_pos (by
  have hmode : s.accCleared.partitionMode = s.partitionMode := State.partitionMode_of rfl
  show (!s.accCleared.partitionMode) = true
  rw [hmode, h]
  rfl)

theorem State.restoreWindow_changes (s : State) : changesOnly [.acc, .scale] s s.restoreWindow := by
  refine .ite (fun _ => s.accCleared_changes) fun _ => s.accCleared_changes.trans (.foldl _ _ (fun w g => ?_) _)
  split
  · exact (framed_acc w _).1.widen
  · exact .refl

/-- Every instance's rings read. -/
def State.ringsReadAll (s : State) : State := s.eachInst fun u n => u.readRings n

theorem State.ringsReadAll_changes (s : State) : changesOnly readParts s s.ringsReadAll := .foldl _ _ (fun w n => (w.readRings_framed n).1) _

theorem State.tickStart_eq (s : State) : s.tickStart = s.applyPeriod.engineTick.marksSet.restoreWindow.ringsReadAll := rfl

/-- The parts that change before the next tick's marks are set. -/
def budgetParts : List Part := [.period, .regs, .insts, .fills, .train, .lex, .lexCopies, .fetched]

theorem State.budgetsSet_changes (s : State) : changesOnly budgetParts s s.applyPeriod.engineTick :=
  (s.applyPeriod_changes.widen (by simp [budgetParts])).seq (State.engineTick_changes _) (by simp [budgetParts])

/-- What the start of a tick leaves for all of it. -/
def tickStarted (s t : State) : Prop := t.tk.replayNext = false ∧ t.tk.lateMark = t.tk.replay ∧ t.mem.seen = s.mem.seen ∧ t.mem.seenM = s.mem.seenM
  ∧ t.mem.win = s.mem.win ∧ t.mem.winM = s.mem.winM ∧ (∀ p ∈ t.ls.fetched, p.2 ≠ 0) ∧ (s.partitionMode = false → t.mem.acc = [] ∧ t.mem.scale = [])

theorem State.tickStart_started (s : State) : tickStarted s s.tickStart := by
  have hbudget := s.budgetsSet_changes
  have hfetched := s.applyPeriod.engineTick_fetched
  have hpos := s.applyPeriod.pastBudget_pos
  rw [← hfetched] at hpos
  rw [State.tickStart_eq]
  generalize s.applyPeriod.engineTick = w at hbudget hpos ⊢
  have hmarks := w.marksSet_changes
  obtain ⟨hnext, hlate⟩ := w.marksSet_marks
  have hfetched : w.marksSet.ls.fetched = w.ls.fetched := hmarks .fetched (by decide)
  have hmode : w.marksSet.partitionMode = s.partitionMode := State.partitionMode_of ((hmarks .flights (by decide)).trans (hbudget .flights (by decide)))
  have hall : changesOnly (budgetParts ++ [.replay, .lateMark, .replayNext, .readCount]) s w.marksSet :=
    (hbudget.widen (by simp +contextual)).seq hmarks (by simp +contextual)
  generalize w.marksSet = x at hnext hlate hmode hall hfetched ⊢
  have hwindow := x.restoreWindow_changes
  have hplain : s.partitionMode = false → x.restoreWindow.mem.acc = [] ∧ x.restoreWindow.mem.scale = [] := fun h => by
    rw [State.restoreWindow_plain (hmode.trans h)]
    exact ⟨rfl, rfl⟩
  generalize x.restoreWindow = y at hwindow hplain ⊢
  have hread := y.ringsReadAll_changes
  generalize y.ringsReadAll = z at hread ⊢
  have hrest : changesOnly (.acc :: .scale :: readParts) x z := (hwindow.widen).seq hread (by simp +contextual)
  have hz : changesOnly (.acc :: .scale :: readParts ++ (budgetParts ++ [.replay, .lateMark, .replayNext, .readCount])) s z :=
    (hall.widen (by simp +contextual)).seq hrest (by simp +contextual)
  refine ⟨(hrest .replayNext (by decide)).trans hnext, ?_, hz .seen (by decide), hz .seenM (by decide), hz .win (by decide), hz .winM (by decide), ?_, ?_⟩
  · exact (hrest .lateMark (by decide)).trans (hlate.trans (hrest .replay (by decide)).symm)
  · rw [show z.ls.fetched = w.ls.fetched from (hrest .fetched (by decide)).trans hfetched]
    exact hpos
  · intro h
    obtain ⟨hacc, hscale⟩ := hplain h
    exact ⟨(hread .acc (by decide)).trans hacc, (hread .scale (by decide)).trans hscale⟩

end Sys2Proof.Machine
end

section
/-! SUPPORT. The landing as a whole, and O32 (R34, R102, R144, R294, R330, R414, R442, R450, R451). -/

namespace Sys2Proof.Machine

set_option Elab.async false

variable {s t u v : State} {ps : List Part} {ks : List Nat} {c : Nat}

/-! ### What a landing comes to -/

/-- Phases A and B done. -/
def State.landBegun (s : State) : State := s.keepFlights (s.ckptAdvance.saveWindow.endDeleted.phaseAB)

/-- Phase C up to the switches. -/
def State.landSwitched (s : State) (replayed : Bool) : State := (s.keepFlights s.actionsFirst.placeFrames).switchLanding (!replayed)

/-- Phase C done. -/
def State.landActed (s : State) (replayed : Bool) : State := (s.landSwitched replayed).keepFlights (s.landSwitched replayed).actionsRest

/-- Phases D and E done, no stop due. -/
def State.phasesDone (s : State) (replayed : Bool) : State := (s.keepFlights (s.phaseD replayed)).phaseE replayed

/-- TCK_COUNT set. -/
def State.countSet (s : State) (n : BitVec 64) : State := { s with tk := { s.tk with count := n } }

/-- The next tick started. -/
def State.nextTick (s : State) (n : BitVec 64) : State := (s.countSet n).keepFlights (s.countSet n).tickStart

theorem landing_off (h : s.tk.running = false) : exec .landing s = .next s :=
  (congrArg (keepQueue s) (if_pos (by rw [h]; rfl))).trans (keepQueue_eq s s)

theorem State.landing_eq (h : s.tk.running = true) : s.landing = match s.landBegun.pw.stopCause with
    | some c => s.landBegun.orReset (s.landBegun.endStop c)
    | none => State.landRest (if s.tk.replay then s.landBegun else s.landBegun.advance) s.tk.replay := if_neg (by rw [h]; decide)

theorem State.landing_stop (h : s.tk.running = true) (hc : s.landBegun.pw.stopCause = some c) :
    s.landing = s.landBegun.orReset (s.landBegun.endStop c) := by
  rw [State.landing_eq h]
  generalize s.landBegun.pw.stopCause = o at hc ⊢
  subst hc
  rfl

theorem State.landing_runs (h : s.tk.running = true) (hn : s.landBegun.pw.stopCause = none) :
    s.landing = State.landRest (if s.tk.replay then s.landBegun else s.landBegun.advance) s.tk.replay := by
  rw [State.landing_eq h]
  generalize s.landBegun.pw.stopCause = o at hn ⊢
  subst hn
  rfl

/-- Phases D and E and what follows them. -/
def State.landEnds (s2 : State) (replayed limit : Bool) : State :=
  let s3 := s2.phaseD replayed
  let s4 := (s2.keepFlights (if limit then s3.replayLimit else s3)).phaseE replayed
  let s5 := { s4 with tk := { s4.tk with count := s2.tk.count + 1 } }
  if limit then s5.orReset (s5.endStop 4) else s5.keepFlights s5.tickStart

theorem State.landRest_eq (s : State) (replayed : Bool) : s.landRest replayed =
    if (s.landActed replayed).pw.p4Due = true then (s.landActed replayed).orReset (s.landActed replayed).enterP4
    else if (s.landActed replayed).pw.p3Due = true then (s.landActed replayed).keepFlights (s.landActed replayed).enterP3
    else (s.landActed replayed).landEnds replayed (decide (8 ≤ (s.landActed replayed).fld Reg.ERR_REPLAY 31 24)) := by
  unfold State.landRest State.landActed State.landSwitched State.landEnds
  with_reducible rfl

theorem State.landEnds_tick (s : State) (replayed : Bool) : s.landEnds replayed false = (s.phasesDone replayed).nextTick (s.tk.count + 1) := by
  unfold State.landEnds State.phasesDone State.nextTick State.countSet
  simp only [Bool.false_eq_true, if_false]

theorem State.landRest_p4 {replayed : Bool} (h : (s.landActed replayed).pw.p4Due = true) :
    s.landRest replayed = (s.landActed replayed).orReset (s.landActed replayed).enterP4 := by
  rw [State.landRest_eq, if_pos h]

theorem State.landRest_p3 {replayed : Bool} (h4 : (s.landActed replayed).pw.p4Due = false) (h3 : (s.landActed replayed).pw.p3Due = true) :
    s.landRest replayed = (s.landActed replayed).keepFlights (s.landActed replayed).enterP3 := by
  rw [State.landRest_eq, if_neg (by rw [h4]; decide), if_pos h3]

theorem State.landRest_tick {replayed : Bool} (h4 : (s.landActed replayed).pw.p4Due = false) (h3 : (s.landActed replayed).pw.p3Due = false)
    (hlimit : (s.landActed replayed).fld Reg.ERR_REPLAY 31 24 < 8) :
    s.landRest replayed = ((s.landActed replayed).phasesDone replayed).nextTick ((s.landActed replayed).tk.count + 1) := by
  have hno : decide (8 ≤ (s.landActed replayed).fld Reg.ERR_REPLAY 31 24) = false := decide_eq_false (by omega)
  rw [State.landRest_eq, if_neg (by rw [h4]; decide), if_neg (by rw [h3]; decide), hno, State.landEnds_tick]

/-! ### TCK_COUNT through the landing -/

theorem State.landSwitched_count (s : State) (replayed : Bool) : (s.landSwitched replayed).tk.count = s.tk.count := State.switchLanding_count _ _

theorem State.landActed_count (s : State) (replayed : Bool) : (s.landActed replayed).tk.count = s.tk.count := s.landSwitched_count replayed

theorem State.keepFlights_count (s t : State) : (s.keepFlights t).tk.count = s.tk.count := rfl

theorem State.advance_count (s : State) : s.advance.tk.count = s.tk.count := by
  unfold State.advance
  dsimp only
  rw [State.keepFlights_count]

theorem State.landBegun_count (s : State) : s.landBegun.tk.count = s.tk.count := by
  unfold State.landBegun
  rw [State.keepFlights_count]

theorem State.begun_count (s : State) (replayed : Bool) :
    (if replayed then s.landBegun else s.landBegun.advance).tk.count = s.tk.count := by
  split
  · exact s.landBegun_count
  · exact s.landBegun.advance_count.trans s.landBegun_count

/-! ### P3 and P4 -/

theorem State.syncStretch_framed (s : State) (factor : Nat) :
    framed (.sync :: eventParts) (Reg.TCK_SYNC_STATUS :: eventRegs) s (s.syncStretch factor) := by
  have hset : ∀ st, framed (.sync :: eventParts) (Reg.TCK_SYNC_STATUS :: eventRegs) s
      (({ s with sync := { s.sync with accepted := 0, measured := false } } : State).setFld Reg.TCK_SYNC_STATUS 31 29 st) := fun st =>
    ((framed_sync s _).widen (by simp) (by simp)).seq (State.setFld_framed _ _ _ _ _) (by simp [eventParts]) (by simp)
  exact .ite (fun _ => (hset 5).seq (State.raisePf_framed _ _ _) (by simp +contextual) (by simp +contextual)) fun _ => .ite (fun _ => hset 1) fun _ => .refl

/-- P3 shown with the clocks of 256. -/
def State.p3Shown (s : State) : State :=
  (((s.setFld Reg.PWR_STATE 31 29 3).setFld Reg.TCK_STRETCH 8 0 256).setFld Reg.CLK_STATUS 11 0 2400).syncStretch 256

theorem State.p3Shown_state (s : State) : s.p3Shown.fld Reg.PWR_STATE 31 29 = 3 := by
  unfold State.p3Shown
  rw [(State.syncStretch_framed _ _).fld (by decide), (State.setFld_framed _ _ _ _ _).fld (by decide), (State.setFld_framed _ _ _ _ _).fld (by decide),
    State.fld_setFld _ _ 31 29 _ (by decide) (by decide)]
  rfl

/-- Ticks and sessions ended. -/
def State.ticksHeld (s : State) : State :=
  let s2 := { s with tk := { s.tk with running := false, seats := [], pend := [], lastStretch := none } }
  let pw := { s2.pw with p3Due := false, hallOn := false, hbmRefresh := true, alertLow := false, warnReq := false, warnCap := none, thermal := none }
  { s2 with pw := pw, trust := { s2.trust with sessions := [], nonces := [] } }

theorem State.ticksHeld_off (s : State) : s.ticksHeld.tk.running = false := rfl

theorem State.ticksHeld_fld (s : State) (off hi lo : Nat) : s.ticksHeld.fld off hi lo = s.fld off hi lo := rfl

theorem State.enterP3_eq (s : State) : ∃ ws, s.enterP3 = s.linkReset.applyPeriod.p3Shown.ticksHeld.raisePf 0x8008 ws := ⟨_, rfl⟩

/-- P3 entered: no tick runs and the state is shown. -/
theorem State.enterP3_entered (s : State) : s.enterP3.tk.running = false ∧ s.enterP3.fld Reg.PWR_STATE 31 29 = 3 := by
  obtain ⟨ws, heq⟩ := s.enterP3_eq
  rw [heq]
  generalize hv : s.linkReset.applyPeriod = v
  have hraise := v.p3Shown.ticksHeld.raisePf_framed 0x8008 ws
  refine ⟨(hraise.1 .running (by decide)).trans (State.ticksHeld_off _), ?_⟩
  rw [hraise.fld (by decide), State.ticksHeld_fld, State.p3Shown_state]

/-- P4 entered: no tick runs and the state is shown. -/
theorem State.enterP4_off (s : State) : s.enterP4.tk.running = false ∧ s.enterP4.fld Reg.PWR_STATE 31 29 = 4 := by
  obtain ⟨hstate, -⟩ := s.enterP4_entered
  have hkept := s.offTold.packageKept_keeps.1
  have hoff : s.offTold.clearedOff.tk.running = s.offTold.packageKept.tk.running := s.offTold.clearedOff_framed.1 .running (by decide)
  have hfreed : s.offTold.clearedOff.alertFreed.tk.running = s.offTold.clearedOff.tk.running := (State.withPw_framed _ _).1 .running (by decide)
  refine ⟨?_, hstate⟩
  rw [State.enterP4_eq, hfreed, hoff, hkept]

/-! ### The next tick -/

/-- A landing that ends in a tick: what it leaves, given what stood after phase C. -/
def tickFollows (w t : State) (n : BitVec 64) : Prop := t.tk.count = n ∧ t.tk.replayNext = false ∧ t.tk.lateMark = t.tk.replay
  ∧ t.mem.seen = t.mem.win ∧ t.mem.seenM = t.mem.winM ∧ (∀ p ∈ t.ls.fetched, p.2 ≠ 0) ∧ t.flights.v3.active = w.flights.v3.active
  ∧ (w.flights.load = none → t.flights = w.flights) ∧ (t.partitionMode = false → t.mem.acc = [] ∧ t.mem.scale = [])

theorem tickFollows.queueOf {w : State} {n : BitVec 64} (h : tickFollows w t n) (s : State) : tickFollows w (s.queueOf t) n := h

/-- The flights of a state kept over a tick's start, by what that start leaves. -/
theorem tickStarted.follows {w e z : State} {n : BitVec 64} (h : tickStarted e z) (hn : e.tk.count = n) (hseen : e.mem.seen = e.mem.win ∧ e.mem.seenM = e.mem.winM)
    (hactive : e.flights.v3.active = w.flights.v3.active) (hload : w.flights.load = none → e.flights = w.flights) : tickFollows w (e.keepFlights z) n := by
  obtain ⟨hnext, hlate, hs, hsM, hw, hwM, hpos, hplain⟩ := h
  have hmode : (e.keepFlights z).partitionMode = e.partitionMode := State.partitionMode_of rfl
  refine ⟨hn, hnext, hlate, ?_, ?_, hpos, hactive, hload, fun hp => hplain (hmode.symm.trans hp)⟩
  · exact hs.trans (hseen.1.trans hw.symm)
  · exact hsM.trans (hseen.2.trans hwM.symm)

theorem State.phasesDone_flights (s : State) (replayed : Bool) : (s.phasesDone replayed).flights.v3.active = s.flights.v3.active
    ∧ (s.flights.load = none → (s.phasesDone replayed).flights = s.flights) := by
  have hkeep : (s.keepFlights (s.phaseD replayed)).flights = s.flights := s.keepFlights_flights _
  have hphase : (s.phasesDone replayed).flights = (s.keepFlights (s.phaseD replayed)).loadStep.flights := State.phaseE_flights _ _
  generalize s.keepFlights (s.phaseD replayed) = v at hkeep hphase
  refine ⟨?_, fun h => ?_⟩
  · rw [hphase, State.loadStep_v3, hkeep]
  · rw [hphase, State.loadStep_none (by rw [hkeep]; exact h), hkeep]

theorem State.nextTick_follows (s : State) (replayed : Bool) (n : BitVec 64) : tickFollows s ((s.phasesDone replayed).nextTick n) n := by
  obtain ⟨hactive, hload⟩ := s.phasesDone_flights replayed
  have hseen := State.phaseE_seen (s.keepFlights (s.phaseD replayed)) replayed
  change (s.phasesDone replayed).mem.seen = (s.phasesDone replayed).mem.win ∧ (s.phasesDone replayed).mem.seenM = (s.phasesDone replayed).mem.winM at hseen
  generalize s.phasesDone replayed = v at hactive hload hseen
  exact (v.countSet n).tickStart_started.follows rfl hseen hactive hload

/-! ### The obligation -/

theorem landed_eq (h : s.landing = t) : exec .landing s = .next (s.queueOf t) := (congrArg (keepQueue s) h).trans (keepQueue_eq s t)

theorem State.queueOf_count (s t : State) : (s.queueOf t).tk.count = t.tk.count := rfl

theorem State.queueOf_pending (s t : State) : (s.queueOf t).pending = s.pending := rfl

/-- No tick runs, and a power state is shown. -/
def haltedAs (n : Nat) (t : State) : Prop := t.tk.running = false ∧ t.fld Reg.PWR_STATE 31 29 = n

theorem haltedAs.orReset {n : Nat} (h : haltedAs n t) (w : State) : haltedAs n (w.orReset t) := h

theorem haltedAs.keepFlights {n : Nat} (h : haltedAs n t) (w : State) : haltedAs n (w.keepFlights t) := h

theorem haltedAs.queueOf {n : Nat} (h : haltedAs n t) (w : State) : haltedAs n (w.queueOf t) := h

/-- A stop that has ended, with its cause. -/
def stoppedAs (c : Nat) (t : State) : Prop := haltedAs 4 t ∧ t.pw.stopping = true ∧ t.fld Reg.RST_CAUSE 31 28 = c

theorem stopEnded.stoppedAs (h : stopEnded c s t) : stoppedAs c t := by
  obtain ⟨hrun, hstopping, hstate, hcause, -⟩ := h
  exact ⟨⟨hrun, hstate⟩, hstopping, hcause⟩

theorem stoppedAs.orReset (h : stoppedAs c t) (w : State) : stoppedAs c (w.orReset t) := h

theorem stoppedAs.queueOf (h : stoppedAs c t) (w : State) : stoppedAs c (w.queueOf t) := h

/-- A landing at which a stop waits. -/
theorem landing_stops (h : s.tk.running = true) (hc : c < 16) (hstop : s.landBegun.pw.stopCause = some c) : ∃ t, exec .landing s = .next t
    ∧ t.tk.running = false ∧ t.pw.stopping = true ∧ t.fld Reg.PWR_STATE 31 29 = 4 ∧ t.fld Reg.RST_CAUSE 31 28 = c ∧ t.pending = s.pending := by
  have hended : stopEnded c s.landBegun (s.landBegun.endStop c) := State.endStop_ended .refl hc
  obtain ⟨⟨hrun, hstate⟩, hstopping, hcause⟩ := (hended.stoppedAs.orReset s.landBegun).queueOf s
  exact ⟨_, landed_eq (State.landing_stop h hstop), hrun, hstopping, hstate, hcause, State.queueOf_pending _ _⟩

/-- A landing that runs through, by the state after phase C. -/
theorem landing_through (h : s.tk.running = true) (hn : s.landBegun.pw.stopCause = none) {s0 : State}
    (hs0 : s0 = if s.tk.replay then s.landBegun else s.landBegun.advance) {w : State} (hw : w = s0.landActed s.tk.replay) :
    w.tk.count = s.tk.count
    ∧ (w.pw.p4Due = true → exec .landing s = .next (s.queueOf (w.orReset w.enterP4)))
    ∧ (w.pw.p4Due = false → w.pw.p3Due = true → exec .landing s = .next (s.queueOf (w.keepFlights w.enterP3)))
    ∧ (w.pw.p4Due = false → w.pw.p3Due = false → w.fld Reg.ERR_REPLAY 31 24 < 8 →
      exec .landing s = .next (s.queueOf ((w.phasesDone s.tk.replay).nextTick (w.tk.count + 1)))) := by
  have hexec : ∀ {t : State}, s0.landRest s.tk.replay = t → exec .landing s = .next (s.queueOf t) := fun ht => by
    rw [hs0] at ht
    exact landed_eq ((State.landing_runs h hn).trans ht)
  subst hw
  refine ⟨?_, fun h4 => hexec (State.landRest_p4 h4), fun h4 h3 => hexec (State.landRest_p3 h4 h3),
    fun h4 h3 hlimit => hexec (State.landRest_tick h4 h3 hlimit)⟩
  rw [State.landActed_count, hs0, State.begun_count]

/-- Settles O32: a landing by the branch it takes, each from what its phases leave. -/
theorem landingsRun : Obligations.LandingsRun := by
  intro s s1 s0 sw s2
  have hs1 : s1 = s.landBegun := by
    unfold State.landBegun
    with_reducible rfl
  have hs0 : s0 = if s.tk.replay then s1 else s1.advance := by with_reducible rfl
  have hs2 : s2 = s0.landActed s.tk.replay := by
    unfold State.landActed State.landSwitched
    with_reducible rfl
  clear_value s2 sw s0 s1
  subst hs1
  refine ⟨fun h => landing_off h, fun h c hc hstop => landing_stops h hc hstop, fun h hn => ?_, fun hnodup n => State.engineTick_budget hnodup n⟩
  obtain ⟨hcount, hp4, hp3, htick⟩ := landing_through h hn hs0 hs2
  refine ⟨fun h4 => ?_, fun h4 h3 => ?_, fun h4 h3 hlimit => ?_⟩
  · obtain ⟨hrun, hstate⟩ := (haltedAs.orReset s2.enterP4_off s2).queueOf s
    exact ⟨_, hp4 h4, hrun, hstate, State.queueOf_pending _ _⟩
  · obtain ⟨hrun, hstate⟩ := (haltedAs.keepFlights s2.enterP3_entered s2).queueOf s
    exact ⟨_, hp3 h4 h3, hrun, hstate, (State.queueOf_count _ _).trans ((State.keepFlights_count _ _).trans hcount), State.queueOf_pending _ _⟩
  · obtain ⟨hn', hnext, hlate, hseen, hseenM, hpos, hactive, hload, hplain⟩ := (s2.nextTick_follows s.tk.replay (s2.tk.count + 1)).queueOf s
    exact ⟨_, htick h4 h3 hlimit, hn'.trans (congrArg (· + 1) hcount), hnext, hlate, hseen, hseenM, hpos, hactive, hload, State.queueOf_pending _ _, hplain⟩

end Sys2Proof.Machine
end
